-- ==== Sys2Proof/Word.lean ====
section
/-! DEFINITION. The word types and the plainest arithmetic on the bits of a number. -/

namespace Sys2Proof

/-- A byte of a memory. -/
abbrev Byte := BitVec 8
/-- A 32-bit register or memory word. -/
abbrev Word := BitVec 32

/-- The field of `x` at bits [hi:lo], as a number (00, "Bit ranges are written [msb:lsb]"). -/
def bits (x hi lo : Nat) : Nat := (x / 2 ^ lo) % 2 ^ (hi + 1 - lo)

/-- Bit `i` of `x`. -/
def bit (x i : Nat) : Bool := (x / 2 ^ i) % 2 == 1

/-- A flag as the number a one-bit field holds. -/
def b2n (b : Bool) : Nat := if b then 1 else 0

/-- The two's complement value of the low `w` bits of `x`. -/
def signed (w x : Nat) : Int :=
  if (x % 2 ^ w) < 2 ^ (w - 1) then (x % 2 ^ w : Nat) else (x % 2 ^ w : Nat) - (2 ^ w : Nat)

/-- The low `w` bits of an integer, as a number (two's complement). -/
def unsigned (w : Nat) (x : Int) : Nat := (x % (2 ^ w : Nat)).toNat

/-- `x` held within [lo, hi]. -/
def clampInt (lo hi x : Int) : Int := if x < lo then lo else if hi < x then hi else x

/-- A count that stops at `top` (the manual's "stops at 0xFFFF" and the like). -/
def satInc (top x : Nat) : Nat := if x < top then x + 1 else top

/-- `x` with bit `i` set, or cleared. -/
def putBit (x i : Nat) (b : Bool) : Nat :=
  if bit x i then (if b then x else x - 2 ^ i) else (if b then x + 2 ^ i else x)

/-- Entry `i` of a list, or the default. -/
def nth {α : Type} (l : List α) (i : Nat) (d : α) : α := l.getD i d

/-- The list with entry `i` replaced; a list too short is left as it is. -/
def putAt {α : Type} (l : List α) (i : Nat) (v : α) : List α := l.set i v

end Sys2Proof
end

