-- ==== Sys2Proof/Syntax.lean ====
section
/-! DEFINITION. The commands of the OE-7140: one constructor for each row of the table of operations and events. -/

namespace Sys2Proof

/-- A pulse input and the level it is at (R533). -/
structure PulseLevel where
  input : Fin 16
  level : Bool
  deriving DecidableEq, Repr

/-- What the ECC finds at a counted read (R438). -/
inductive EccKind where
  | good | corrected | uncorrectable
  deriving DecidableEq, Repr

/-- A conversion of a synchronous channel (R122): an analogue input, its level in nV, or in nA where the channel is in current
mode,
or a phase-current input of a drive, its level in nV. A level is the one the converter resolves, its errors included (R531).
(DESIGN CHOICE, log entry 26) -/
inductive Conversion where
  | ai (chan : Fin 16) (level : Int)
  | phase (drive : Fin 4) (q : Fin 3) (level : Int)
  deriving DecidableEq, Repr

/-- A CAN frame: identifier, format bits, data length code and data. -/
structure CanFrame where
  id : BitVec 29
  xtd : Bool
  rtr : Bool
  fdf : Bool
  brs : Bool
  esi : Bool
  dlc : BitVec 4
  data : List Byte
  deriving DecidableEq, Repr

/-- How a frame that a channel transmits ends (R348): well, with arbitration lost at a bit position, or with an error of a type
(1 bit, 2 stuff, 3 form, 4 acknowledgement) at a bit position. -/
inductive CanOutcome where
  | sent
  | arbLost (pos : BitVec 8)
  | error (type : Fin 5) (pos : BitVec 8)
  deriving DecidableEq, Repr

/-- How far what was in progress had come when a cut fell: words of a PM page commit, steps of a totals save, steps of a sealed
commit, words of a vault update, fuse steps of an LCS operation, increments of a spread counter roll, words of the condition
report. -/
structure CutPoint where
  pm : Nat
  save : Nat
  sealing : Nat
  vault : Nat
  fuse : Nat
  roll : Nat
  report : Nat
  deriving DecidableEq, Repr

/-- What the supervisor reads at a check (R41, R42): the feeds and VHOLD in mV, the controllers' fault flags, the largest phase
current of the holding feed's controller in mA, the three rails in mV, and whether the path of the feed that holds the token
conducts. -/
structure SupervisorSample where
  vfa : Nat
  vfb : Nat
  vhold : Nat
  faultA : Bool
  faultB : Bool
  phase : Nat
  vdd33 : Nat
  vdd08 : Nat
  vdda18 : Nat
  closed : Bool
  deriving DecidableEq, Repr

/-- What a wake for a sample finds (R77): LE_TICK of the instant, the conversions of its inputs, those of the RTD channels, and
the length of its SE cycle and of an exchange at that cycle's end, in PCLK cycles, and whether the HFXO is lost in it (R67). -/
structure WakeInput where
  tick : Nat
  convs : List Conversion
  rtds : List (Fin 16 × BitVec 64)
  cycles : Nat
  exchange : Nat
  lost : Bool
  deriving DecidableEq, Repr

/-- An uncorrectable error in a word read for problem `prob`, found when `iters` of its QP_ADMM iterations were complete, none
before
iterate 0; `inCheck` says that the residual check after the last of them was not (R212, R239).
(DESIGN CHOICE, log entry 29) -/
structure EccFind where
  prob : Nat
  iters : Option Nat := none
  inCheck : Bool := false
  deriving DecidableEq, Repr

/-- Where a running job stands: the cycles since its start, its resumption or its last boundary, the problem of each uncorrectable
error its wave met, and the number of its corrected errors (R212, R232). (DESIGN CHOICE, log entry 29) -/
structure WaveCut where
  cycles : Nat
  bad : List EccFind := []
  corrected : Nat := 0
  deriving DecidableEq, Repr

/-- Who makes an access (R110): the CP in machine mode or in user mode, the debugger's system bus. -/
inductive Initiator where
  | machine | user | debug
  deriving DecidableEq, Repr

/-- What an access does; SC and AMO are atomics, and LR is one of its own. -/
inductive AccessKind where
  | fetch | read | write | atomic | loadReserved
  deriving DecidableEq, Repr

/-- An access of 8, 16 or 32 bits (R108); a hart's shows the PMP entries, configuration and address, that its firmware has written
by then (R104). -/
structure CpAccess where
  addr : Word
  kind : AccessKind
  size : Fin 3
  who : Initiator
  pmp : List (BitVec 8 × Word) := []
  deriving DecidableEq, Repr

/-- The commands. -/
inductive Instr where
  -- parameter memory (21)
  /-- PM_LOAD -/
  | pmLoad (v : Word)
  /-- PM_COMMIT -/
  | pmCommit (v : Word)
  /-- PM_DISCARD -/
  | pmDiscard (v : Word)
  /-- PM_COMMIT_END -/
  | pmCommitEnd
  /-- PM_UNLOCK -/
  | pmUnlock (v : Word)
  /-- PM_LOCK -/
  | pmLock (v : Word)
  /-- UNLOCK_WAIT_END -/
  | unlockWaitEnd (part : Fin 16)
  /-- PM_SC_CMD -/
  | pmScCmd (v : Word)
  /-- CE_HOUR -/
  | ceHour
  /-- ECC_COUNTED_READ -/
  | eccCountedRead (addr : Nat) (ecc : EccKind) (progress : Nat)
  -- heat metering (14)
  /-- INTEGRATION_INSTANT -/
  | integrationInstant (hm : Fin 8)
  /-- CALCULATOR_STEP -/
  | calculatorStep (hm : Fin 8)
  /-- RTD_CONVERSION -/
  | rtdConversion (chan : Fin 16) (ohms : BitVec 64) (overlap : Bool)
  /-- RTD_PERIOD -/
  | rtdPeriod (chan : Fin 16)
  /-- AI_FLOW_CONVERSION -/
  | aiFlowConversion (hm : Fin 8) (level : Int) (overlap : Bool)
  /-- MH_SEAL_CMD -/
  | mhSealCmd (v : Word)
  /-- SEALED_COMMIT_END -/
  | sealedCommitEnd
  /-- MH_LEDGER_ACK -/
  | mhLedgerAck (v : Word)
  /-- ME_COMMIT_WAIT_TIMEOUT -/
  | meCommitWaitTimeout
  -- electrical metering (15)
  /-- METERING_SAMPLE -/
  | meteringSample (codes : List (List Int)) (overlap : Bool)
  /-- METERING_BLOCK -/
  | meteringBlock (port : Fin 2)
  -- totals (16)
  /-- PERIODIC_SAVE -/
  | periodicSave
  /-- TOTALS_SAVE_END -/
  | totalsSaveEnd
  /-- RUN_MARK -/
  | runMark
  -- the other chapters
  /-- VAULT_UP -/
  | vaultUp
  /-- POR -/
  | por (feed : Fin 2) (cut : CutPoint)
  /-- SYSRST -/
  | sysrst (cut : CutPoint)
  /-- CPRST -/
  | cprst
  /-- RST_N -/
  | rstN
  /-- CPRST_REQUEST -/
  | cprstRequest (v : Word)
  /-- SYSRST_REQUEST -/
  | sysrstRequest (v : Word)
  /-- REGISTER_WRITE -/
  | registerWrite (addr v : Word)
  /-- SUPERVISOR_CHECK -/
  | supervisorCheck (m : SupervisorSample)
  /-- LEASE_EXPIRY -/
  | leaseExpiry (feed : Fin 2)
  /-- CONTROLLER_FAULT_FLAG -/
  | controllerFaultFlag (feed : Fin 2)
  /-- HANDOVER_GRANT -/
  | handoverGrant
  /-- HOLD_WINDOW_CLOSE -/
  | holdWindowClose
  /-- CLOCK_RESTART -/
  | clockRestart
  /-- LE_RESUME -/
  | leResume
  /-- RAIL_SHUTDOWN -/
  | railShutdown (cut : CutPoint)
  /-- SUPERVISED_HANDOVER_REQUEST -/
  | supervisedHandoverRequest (v : Word)
  /-- FEED_1H -/
  | feed1h (feed : Fin 2)
  /-- PF_WARN_DEASSERT -/
  | pfWarnDeassert
  /-- HOLDUP_EFFECT -/
  | holdupEffect
  /-- HOLDUP_RETURN -/
  | holdupReturn
  /-- HFXO_STABLE -/
  | hfxoStable
  /-- CORE_READY -/
  | coreReady
  /-- HFXO_LOSS -/
  | hfxoLoss
  /-- SYS_PROF_REQ -/
  | sysProfReq (v : Word)
  /-- PROFILE_CHANGE -/
  | profileChange
  /-- WAKE_PER_SAMPLE -/
  | wakePerSample (w : WakeInput)
  /-- WAKE_SOURCE -/
  | wakeSource (src : Fin 5) (dio : Fin 32)
  /-- SLEEP_EXIT -/
  | sleepExit
  /-- BOOT_TEST_END -/
  | bootTestEnd (pass : Bool)
  /-- PM_READY -/
  | pmReady
  /-- QSPI_IDENT_TIMEOUT -/
  | qspiIdentTimeout
  /-- PALETTE_READ_END -/
  | paletteReadEnd
  /-- SIGNATURE_VERIFIED -/
  | signatureVerified
  /-- START_TICK -/
  | startTick (us : Nat)
  /-- FIRMWARE_VERIFIED -/
  | firmwareVerified (us : Nat)
  /-- SYS_PAL_ROLL -/
  | sysPalRoll (v : Word)
  /-- SYS_BOOT_SEL -/
  | sysBootSel (v : Word)
  /-- LOCKSTEP_MISMATCH -/
  | lockstepMismatch
  /-- MACHINE_TIMER -/
  | machineTimer
  /-- ACCESS_FAULT -/
  | accessFault (x : CpAccess) (ue : Bool)
  /-- SRAM_ECC_CORRECTION -/
  | sramEccCorrection
  /-- INTC_CLAIM -/
  | intcClaim
  /-- INTC_COMPLETION -/
  | intcCompletion (v : Word)
  /-- SYS_FW_STAT_CLEAR -/
  | sysFwStatClear (v : Word)
  /-- SYS_WDT_KICK -/
  | sysWdtKick (v : Word)
  /-- WDT_PREWARNING -/
  | wdtPrewarning
  /-- WDT_FIRST_EXPIRY -/
  | wdtFirstExpiry
  /-- WDT_SECOND_EXPIRY -/
  | wdtSecondExpiry
  /-- ENGINE_TICK -/
  | engineTick
  /-- CONVERSION_END -/
  | conversionEnd (c : Conversion) (overlap : Bool)
  /-- LOOP_WINDOW -/
  | loopWindow (slot : Fin 64)
  /-- OVERRUN -/
  | overrun (slot : Fin 64)
  /-- TRIP -/
  | trip (input : Fin 8)
  /-- TRIP_LATCH_CLEAR -/
  | tripLatchClear (v : Word)
  /-- SWAP_REQUEST -/
  | swapRequest (slot : Fin 64) (v : Word)
  /-- LE_STATE_WRITE -/
  | leStateWrite (slot : Fin 64) (k : Fin 17) (v : Word)
  /-- LE_PARAM_WRITE -/
  | leParamWrite (slot : Fin 64) (k : Fin 128) (v : Word)
  /-- FAULT_CLEAR -/
  | faultClear (slot : Fin 64) (v : Word)
  /-- CELL_RESCHEDULE -/
  | cellReschedule (cell : Fin 4)
  /-- PLAN_STEP_BOUNDARY -/
  | planStepBoundary
  /-- PG_UPDATE -/
  | pgUpdate (chan : Fin 16)
  /-- PG_TARGET -/
  | pgTarget (chan : Fin 16) (v : Word)
  /-- PG_PLAN_COMPLETE -/
  | pgPlanComplete (chan : Fin 16)
  /-- PG_STOP -/
  | pgStop (chan : Fin 16) (v : Word)
  /-- PG_PRESET -/
  | pgPreset (chan : Fin 16) (v : Word)
  /-- PG_ENABLE -/
  | pgEnable (chan : Fin 16) (v : Word)
  /-- COMPARE_POINT -/
  | comparePoint (drive : Fin 4)
  /-- PD_CLR_OC -/
  | pdClrOc (drive : Fin 4) (v : Word)
  /-- PD_CLR_HU -/
  | pdClrHu (drive : Fin 4) (v : Word)
  /-- INJECTION_GO -/
  | injectionGo (v : Word)
  /-- INJECTION_STOP -/
  | injectionStop (v : Word)
  /-- TRACE_ARM -/
  | traceArm (v : Word)
  /-- TRACE_STOP -/
  | traceStop (v : Word)
  /-- CANVAS_READY_REQUEST -/
  | canvasReadyRequest (entry : Fin 16) (v : Word)
  /-- CANVAS_LOAD_CANCEL -/
  | canvasLoadCancel (entry : Fin 16) (v : Word)
  /-- CANVAS_STORE_WRITE -/
  | canvasStoreWrite (off : BitVec 21) (size : Fin 3) (v : Word)
  /-- JOB_SUBMIT -/
  | jobSubmit (prio : Fin 4) (v : Word) (busy : Bool) (cycles : Nat)
  /-- JOB_START -/
  | jobStart
  /-- WAVE_END -/
  | waveEnd (bad : List EccFind) (corrected : Nat)
  /-- JOB_DEADLINE -/
  | jobDeadline (cut : WaveCut)
  /-- SA_SWAP -/
  | saSwap (v : Word)
  /-- CANVAS_SWAP -/
  | canvasSwap (slot : Fin 8)
  /-- SA_CLOCK_RESTART -/
  | saClockRestart (cut : WaveCut)
  /-- PT_UPDATE -/
  | ptUpdate
  /-- PT_COMMIT -/
  | ptCommit (v : Word)
  /-- ROUND_BOUNDARY -/
  | roundBoundary
  /-- SOLVE_END -/
  | solveEnd
  /-- REPLY_END -/
  | replyEnd
  /-- COLLECT -/
  | collect
  /-- COORD_LEASE_LAPSE -/
  | coordLeaseLapse
  /-- CAND_SEND -/
  | candSend
  /-- CAN_FRAME_RECEIVED -/
  | canFrameReceived (chan : Fin 8) (f : CanFrame) (sof : Int)
  /-- CARAVAN_TIMEOUT -/
  | caravanTimeout (chan : Fin 10) (ctx : Fin 16)
  /-- CAN_RX_ACK -/
  | canRxAck (chan : Fin 10) (v : Word)
  /-- CAN_CQ_ACK -/
  | canCqAck (chan : Fin 10) (v : Word)
  /-- CAN_TX_REQ -/
  | canTxReq (chan : Fin 10) (v : Word)
  /-- CAN_FRAME_START -/
  | canFrameStart (chan : Fin 8) (cycles : Int)
  /-- CAN_FRAME_END -/
  | canFrameEnd (chan : Fin 8) (outcome : CanOutcome)
  /-- CAN_TX_ABORT -/
  | canTxAbort (chan : Fin 10) (v : Word)
  /-- RECOVER -/
  | recover (chan : Fin 8) (v : Word)
  /-- BUS_OFF_RECOVERY -/
  | busOffRecovery (chan : Fin 8)
  /-- CAN_MODE -/
  | canMode (chan : Fin 8) (v : Word)
  /-- RESTRICTED_OPERATION -/
  | restrictedOperation (chan : Fin 8)
  /-- WUP -/
  | wup (chan : Fin 8) (v : Word)
  /-- WAKE_UP_PATTERN -/
  | wakeUpPattern (chan : Fin 8)
  /-- HEARTBEAT -/
  | heartbeat (chan : Fin 8)
  /-- ETH_DATAGRAM -/
  | ethDatagram (port : Fin 2) (frame : List Byte) (sof : Int)
  /-- STATUS -/
  | reqStatus (chan : Fin 10) (entry : Fin 512)
  /-- READ -/
  | reqRead (chan : Fin 10) (entry : Fin 512)
  /-- WRITE -/
  | reqWrite (chan : Fin 10) (entry : Fin 512)
  /-- UPLOAD -/
  | reqUpload (chan : Fin 10) (entry : Fin 512)
  /-- FETCH_REPORT -/
  | reqFetchReport (chan : Fin 10) (entry : Fin 512)
  /-- FETCH_LEDGER -/
  | reqFetchLedger (chan : Fin 10) (entry : Fin 512)
  /-- FETCH_ATTEST -/
  | reqFetchAttest (chan : Fin 10) (entry : Fin 512)
  /-- PROFILE -/
  | reqProfile (chan : Fin 10) (entry : Fin 512)
  /-- COMMIT -/
  | reqCommit (chan : Fin 10) (entry : Fin 512)
  /-- OPEN -/
  | reqOpen (chan : Fin 10) (entry : Fin 512)
  /-- FINISH -/
  | reqFinish (chan : Fin 10) (entry : Fin 512)
  /-- CLOSE -/
  | reqClose (chan : Fin 10) (entry : Fin 512)
  /-- LEDGER_ACK -/
  | reqLedgerAck (chan : Fin 10) (entry : Fin 512)
  /-- BOOT_SEL -/
  | reqBootSel (chan : Fin 10) (entry : Fin 512)
  /-- RESTART -/
  | reqRestart (chan : Fin 10) (entry : Fin 512)
  /-- SESSION_TIMEOUT -/
  | sessionTimeout
  /-- REF_SEND -/
  | refSend
  /-- REF_WITHDRAWN -/
  | refWithdrawn (chan : Fin 8)
  /-- REF_RECEIVE -/
  | refReceive (chan : Fin 10) (node : BitVec 13) (data : List Byte) (sof : Int)
  /-- HOLDOVER_EXPIRY -/
  | holdoverExpiry
  /-- SYS_NT_STEP -/
  | sysNtStep (v : Word)
  /-- SYS_NT_RATE -/
  | sysNtRate (v : Word)
  /-- FW_VALID -/
  | fwValid (v : Word)
  /-- INVAL -/
  | inval (v : Word)
  /-- PTP_SEND -/
  | ptpSend (port : Fin 2) (v : Word)
  /-- PTP_TIMESTAMP -/
  | ptpTimestamp (port : Fin 2) (cycles : Nat)
  /-- LOAD -/
  | load (v : Word)
  /-- LOAD_EFFECT -/
  | loadEffect
  /-- AON_SHIFT -/
  | aonShift (v : Word)
  /-- SECOND_BOUNDARY -/
  | secondBoundary
  /-- ALARM -/
  | alarm (n : Fin 2)
  /-- CLRHI -/
  | clrhi (v : Word)
  /-- LOCKOUT -/
  | lockout
  /-- VBAT_SWITCH -/
  | vbatSwitch
  /-- LOCKOUT_LIFT -/
  | lockoutLift
  /-- PULSE_COUNT -/
  | pulseCount (p : PulseLevel)
  /-- WFL_CYCLE_INSTANT -/
  | wflCycleInstant (link : Fin 24)
  /-- WFL_RESPONSE -/
  | wflResponse (link : Fin 24) (frame : List Byte) (parity : Bool) (cycles : Nat)
  /-- RESPONSE_TIMEOUT -/
  | responseTimeout (link : Fin 24) (cycles : Nat)
  /-- WFL_COMMIT -/
  | wflCommit (v : Word)
  /-- WFL_OUT_WRITE -/
  | wflOutWrite (entry : BitVec 12) (v : Word)
  /-- SE_CYCLE -/
  | seCycle (cycles exchange : Nat)
  /-- SE_SKIP -/
  | seSkip
  /-- SE_XCHG -/
  | seXchg (v : Word)
  /-- SE_FORCE_SET -/
  | seForceSet (v : Word)
  /-- SE_FORCE_CLR -/
  | seForceClr (v : Word)
  /-- HASH -/
  | vltHash (a : Word)
  /-- HMAC -/
  | vltHmac (a : Word)
  /-- CMAC -/
  | vltCmac (a : Word)
  /-- GCM_SEAL -/
  | vltGcmSeal (a : Word)
  /-- GCM_OPEN -/
  | vltGcmOpen (a : Word)
  /-- SIGN -/
  | vltSign (a : Word)
  /-- VERIFY -/
  | vltVerify (a : Word)
  /-- ECDH -/
  | vltEcdh (a : Word)
  /-- GENERATE -/
  | vltGenerate (a : Word)
  /-- LOAD_PUB -/
  | vltLoadPub (a : Word)
  /-- IMPORT -/
  | vltImport (a : Word)
  /-- EXPORT -/
  | vltExport (a : Word)
  /-- ERASE -/
  | vltErase (a : Word)
  /-- POLICY -/
  | vltPolicy (a : Word)
  /-- RANDOM -/
  | vltRandom (a : Word)
  /-- PUBKEY -/
  | vltPubkey (a : Word)
  /-- ATTEST -/
  | vltAttest (a : Word)
  /-- PROVISION -/
  | vltProvision (a : Word)
  /-- CERT -/
  | vltCert (a : Word)
  /-- VLT_COMMAND_END -/
  | vltCommandEnd
  /-- VLT_FW_ROLL -/
  | vltFwRoll (v : Word)
  /-- TAMPER -/
  | tamper (src : Fin 7)
  /-- DBGSEEN -/
  | dbgseen
  /-- VLT_SELFTEST_DONE -/
  | vltSelftestDone (pass : Bool)
  /-- TRNG_HEALTH_FAIL -/
  | trngHealthFail
  /-- TRNG_RETEST -/
  | trngRetest (pass : Bool)
  /-- PROVISIONED -/
  | lcsProvisioned (v : Word)
  /-- DEPLOY -/
  | lcsDeploy (v : Word)
  /-- ENTER_SERVICE -/
  | lcsEnterService (v : Word)
  /-- LEAVE_SERVICE -/
  | lcsLeaveService (v : Word)
  /-- DECOMMISSION -/
  | lcsDecommission (v : Word)
  /-- DEBUG_OPEN -/
  | lcsDebugOpen (v : Word)
  /-- LCS_COMMAND_END -/
  | lcsCommandEnd
  /-- BIST_REQUEST -/
  | bistRequest (v : Word)
  /-- BIST_ABORT -/
  | bistAbort (v : Word)
  /-- BIST_RUN_START -/
  | bistRunStart
  /-- BIST_RUN_END -/
  | bistRunEnd (patterns : Nat) (sig : BitVec 64)
  /-- BIST_ENTRY_TIMEOUT -/
  | bistEntryTimeout
  /-- VBAT_MEASUREMENT -/
  | vbatMeasurement (mv : Nat)
  /-- LIVE_HOLD -/
  | liveHold (v : Word)
  /-- LIVE_GO -/
  | liveGo (v : Word)
  /-- LIVE_DROP -/
  | liveDrop (v : Word)
  /-- HOLD_TIMEOUT -/
  | holdTimeout
  /-- AON_STATE_LOST -/
  | aonStateLost
  /-- CAN_ERROR_DETECTED -/
  | canErrorDetected (chan : Fin 8) (type : Fin 6) (pos : BitVec 8) (large : Bool)
  /-- ETH_LINK_CHANGE -/
  | ethLinkChange (port : Fin 2) (up beacon : Bool)
  /-- ETH_SEGMENT_SEND -/
  | ethSegmentSend (port : Fin 2)
  /-- ROLL_END -/
  | rollEnd (fw : Bool)
  /-- TICK_COUNTER_WRAP -/
  | tickCounterWrap
  /-- DEBUG_HALT -/
  | debugHalt (halt : Bool)
  /-- DIO_EDGE -/
  | dioEdge (dio : Fin 32) (level : Bool)
  /-- CAPTURING_READ -/
  | capturingRead (addr : Word)
  /-- PLUG_STORE_WRITE -/
  | plugStoreWrite (off : BitVec 19) (size : Fin 3) (v : Word)
  /-- SE_AREA_WRITE -/
  | seAreaWrite (off : BitVec 19) (size : Fin 3) (v : Word)
  deriving DecidableEq, Repr

end Sys2Proof
end

