-- ==== Sys2Proof/Machine/Code.lean ====
section
/-! DEFINITION. The status codes of R117. -/

namespace Sys2Proof.Machine

abbrev Code.ok : Nat := 0x00
abbrev Code.okClamped : Nat := 0x01
abbrev Code.doneRegularised : Nat := 0x02
abbrev Code.sketch : Nat := 0x03
abbrev Code.stale : Nat := 0x04
abbrev Code.delayed : Nat := 0x05
abbrev Code.refusedCapacity : Nat := 0x10
abbrev Code.refusedSelftest : Nat := 0x11
abbrev Code.refusedState : Nat := 0x12
abbrev Code.refusedAuth : Nat := 0x13
abbrev Code.refusedLocked : Nat := 0x14
abbrev Code.length : Nat := 0x20
abbrev Code.range : Nat := 0x21
abbrev Code.format : Nat := 0x22
abbrev Code.unknownRecord : Nat := 0x23
abbrev Code.overflow : Nat := 0x30
abbrev Code.pivotTiny : Nat := 0x31
abbrev Code.pivotZero : Nat := 0x32
abbrev Code.invalid : Nat := 0x33
abbrev Code.arbLost : Nat := 0x40
abbrev Code.busError : Nat := 0x41
abbrev Code.busOff : Nat := 0x42
abbrev Code.rxLost : Nat := 0x43
abbrev Code.overrun : Nat := 0x50
abbrev Code.skipped : Nat := 0x51
abbrev Code.signatureMismatch : Nat := 0x60
abbrev Code.incomplete : Nat := 0x61
abbrev Code.tamper : Nat := 0x70

end Sys2Proof.Machine
end

