-- ==== Sys2Proof/Config.lean ====
section
/-! DEFINITION. What an implementation fixes and what the manual leaves open: constants without a body, so that no proof
can see a value of them. -/

namespace Sys2Proof.Config

/-- The `n`-th value the manual leaves open where a number must still result (log entry 3). (DESIGN CHOICE, log entry 3) -/
opaque freeNat : Nat → Nat

/-- The words of the boot ROM by their byte address. (DESIGN CHOICE, log entry 3) -/
opaque bootRom : Nat → Word

/-- SHA-256 over a string of bytes: 32 bytes (named by its standard, R475). -/
opaque sha256 : List Byte → List Byte

/-- SHA-384 over a string of bytes: 48 bytes (R475). -/
opaque sha384 : List Byte → List Byte

/-- HMAC-SHA-256 under a key: 32 bytes (R462). -/
opaque hmac : List Byte → List Byte → List Byte

/-- AES-256 CMAC under a key: 16 bytes (R476). -/
opaque cmac : List Byte → List Byte → List Byte

/-- AES-256-GCM under a key with an IV and additional data: ciphertext and tag of a plaintext. (PRESUMED, log entry 12) -/
opaque gcmSeal : List Byte → List Byte → List Byte → List Byte → List Byte

/-- AES-256-GCM under a key with an IV and additional data: the plaintext of ciphertext and tag, none on a tag mismatch. -/
opaque gcmOpen : List Byte → List Byte → List Byte → List Byte → Option (List Byte)

/-- AES key wrap of SP 800-38F under a key: 8 bytes longer than the material. -/
opaque kwWrap : List Byte → List Byte → List Byte

/-- AES key unwrap, none where the integrity check fails. -/
opaque kwUnwrap : List Byte → List Byte → Option (List Byte)

/-- The ECDSA signature r ‖ s of a digest on P-256 under a private key and a per-message secret. -/
opaque ecdsaSign : Nat → Nat → List Byte → List Byte

/-- Whether a signature r ‖ s of a digest is valid under a public key x ‖ y, on P-256 (false) or P-384 (true). -/
opaque ecdsaVerify : Bool → List Byte → List Byte → List Byte → Bool

/-- The public key x ‖ y of a private key, on P-256 or P-384. -/
opaque ecPub : Bool → Nat → List Byte

/-- The x coordinate of the ECDH shared point, on P-256 or P-384. -/
opaque ecdhX : Bool → Nat → List Byte → List Byte

/-- Whether x ‖ y is a point of the curve, on P-256 or P-384. -/
opaque onCurve : Bool → List Byte → Bool

/-- The y coordinate, odd or even, of the P-256 point with an x coordinate, none where no point has it. -/
opaque pointY : List Byte → Bool → Option (List Byte)

/-- The boot ROM's expected signature of a self-test of a target kind at a count (R498). -/
opaque bistSignature : Nat → Nat → BitVec 64

/-- The deviation of the water-property engine's enthalpy from IF97 at a temperature and pressure (binary64), in units of
10⁻⁹ kJ/kg; what lies outside the error bound of R300 is cut to it. (PRESUMED, log entry 8) -/
opaque enthalpyError : Nat → Nat → Int

/-- The deviation of the engine's density from IF97, in units of 10⁻¹² of the density; cut to the bound of R300.
(PRESUMED, log entry 8) -/
opaque densityError : Nat → Nat → Int

/-- What the coefficient of the metering high-pass filter has over 1/(1 + 2π·0.5/8000), in units of 2⁻⁴⁰: a first-order filter
with its corner at 0.5 Hz, whose discrete form the manual does not give (R315); cut to 2⁻²³. (DESIGN CHOICE, log entry 9) -/
opaque highPassError : Int

/-- The CARAVAN_ID of the hardware's `n`-th message (R357: the sender chooses it). (DESIGN CHOICE, log entry 38) -/
opaque caravanId : Nat → BitVec 8

/-- The MAC address that port `k` finds for an IPv6 address, by its six bytes (R364 gives no resolution).
(DESIGN CHOICE, log entry 44) -/
opaque neighbourMac : Nat → List (BitVec 8) → BitVec 48

/-- The hop limit of the datagrams a port sends (R364 gives none). (DESIGN CHOICE, log entry 44) -/
opaque hopLimit : BitVec 8

/-- The mantissa a number that is not finite gives where a loop must read one (log entry 21).
(DESIGN CHOICE, log entry 21) -/
opaque nonFinite : Nat → Int

/-- The deviation of the table sine of R152 at an angle in 2⁻⁶² turns, in units of 2⁻⁶²; cut to the bound of R152.
(DESIGN CHOICE, log entry 22) -/
opaque sinError : Int → Int

/-- The mantissa of the reciprocal (0) and of the reciprocal square root (1) of 0 (R152 gives none).
(DESIGN CHOICE, log entry 22) -/
opaque recipZero : Nat → Int

/-- The deviation of the reciprocal of R152, relative, in units of 2⁻⁶²; cut to the bound of R152.
(DESIGN CHOICE, log entry 22) -/
opaque recipError : Int → Int

/-- The deviation of the reciprocal square root of R152, relative, in units of 2⁻⁶²; cut to the bound of R152.
(DESIGN CHOICE, log entry 22) -/
opaque rsqrtError : Nat → Int

/-- The deviation of entry `i` of the loss table from exp(−i/32), in units of 2⁻⁴⁰; cut so that the table keeps the error
bound of R255. (DESIGN CHOICE, log entry 36) -/
opaque lossError : Nat → Int

/-- The value, binary64, that a segment reads from a source kind the manual does not define (R252): the segment, the
quantity, the kind. (DESIGN CHOICE, log entry 36) -/
opaque ptSource : Nat → Nat → Nat → Nat

/-- FIX0[h] of a round (binary32): the trunk heat loss the holder's plug tracker gives, which no rule computes (R282). -/
opaque trunkLoss : Nat → Nat → Nat

/-- TS[h] of a round (binary32): the supply-temperature forecast, which no rule computes (R272). -/
opaque supplyForecast : Nat → Nat → Nat

/-- Where the value of a field of the palette image goes: bits of a register, memory at an address, a word of a loop slot's active
bank, the gain or offset of one of its inputs, a planning value, the session timeout, whether an AI channel is in current mode,
whether a DIO is an output, the start offset of an AI channel or of a drive's phase currents (R123), a drive's dead time in ns,
the watchdog's timeout (R115), a word of its partition's entry, the size of the CP area, a canvas, nothing. -/
inductive PalTarget where
  | reg (addr hi lo : Nat)
  | mem (addr : Nat)
  | bank (slot k : Nat)
  | gain (slot input : Nat)
  | offset (slot input : Nat)
  | round (k : Nat)
  | timeout
  | current (chan : Nat)
  | output (dio : Nat)
  | aiStart (chan : Nat)
  | pdStart (drive : Nat)
  | deadTime (drive : Nat)
  | watchdog
  | part (k : Nat)
  | cpArea
  | canvas
  | nowhere
  deriving DecidableEq, Repr

/-- The kinds of a field's value (R89, R90). -/
inductive FieldKind where
  | unsigned | signed | float | enumerated
  deriving DecidableEq, Repr

/-- A field of the dictionary (R90): its kind, its limits (of a binary32 field, as bit patterns), its codes where it is
enumerated, its default, whether it is structural, and where its value goes for an instance. -/
structure DictField where
  kind : FieldKind
  lo : Int
  hi : Int
  codes : List Nat
  dflt : Nat
  structural : Bool
  target : Nat → PalTarget

/-- A record type of the dictionary (R89, R91): whether it is bulk, the block's instances, and of a bulk record the bytes of an
element, the elements its buffer or table has room for, and where they go. -/
structure DictType where
  bulk : Bool
  instances : Nat
  elem : Nat
  room : Nat
  target : Nat → PalTarget

/-- A field of a record type in the unpublished field dictionary, none where it has no such field (R90).
(DESIGN CHOICE, log entry 56) -/
opaque dictField : Nat → Nat → Option DictField

/-- A record type in the unpublished field dictionary, none where it has no such type (R91).
(DESIGN CHOICE, log entry 56) -/
opaque dictType : Nat → Option DictType

/-- Whether the field dictionary marks a field of a record type public (R369). (DESIGN CHOICE, log entry 56) -/
opaque dictPublic : Nat → Nat → Bool

/-- Whether the field dictionary marks a field of a record type live (R515). (DESIGN CHOICE, log entry 56) -/
opaque dictLive : Nat → Nat → Bool

/-- The value in use, as READ returns it, of a field whose place the manual does not give: record type, instance, field.
(DESIGN CHOICE, log entry 56) -/
opaque fieldValue : Nat → Nat → Nat → Nat

/-- The CAN bit timing words of the ground configuration, nominal (0) and data (1): 500 kbit/s and 2 Mbit/s (R98).
(DESIGN CHOICE, log entry 58) -/
opaque canTiming : Nat → Nat

/-- The field identifier that the unpublished field dictionary gives item `k` of a record type (R90).
(DESIGN CHOICE, log entry 56) -/
opaque fieldId : Nat → Nat → Nat

end Sys2Proof.Config
end

