-- ==== Sys2Proof/Machine/Reg.lean ====
section
/-! DEFINITION. What the register tables of the manual say of a register: its address, its fields, their access codes
(R4) and their reset values (R2). -/

namespace Sys2Proof.Machine

/-- The access codes of R4. A count whose table says that writing 1 to any bit clears the whole count is `w1cAll`. -/
inductive Access where
  | ro | rw | wo | w1c | w1cAll | w1s | rws | lk
  deriving DecidableEq, Repr

/-- A field of a register: the register's address and the field's bits [hi:lo]. -/
structure Field where
  addr : Nat
  hi : Nat
  lo : Nat
  deriving DecidableEq, Repr

/-- One row of a register table: bits, access code, reset value. -/
structure FieldDesc where
  hi : Nat
  lo : Nat
  acc : Access
  reset : Nat
  deriving DecidableEq, Repr

/-- One register table: the base address, its repetitions (stride and count, outermost first), and its rows. -/
structure RegDesc where
  base : Nat
  dims : List (Nat × Nat)
  fields : List FieldDesc
  deriving DecidableEq, Repr

/-- Whether offset `d` falls on one of the repetitions. -/
def dimsHit : List (Nat × Nat) → Nat → Bool
  | [], d => d == 0
  | (stride, count) :: t, d => decide (d / stride < count) && dimsHit t (d % stride)

/-- Whether the table describes the register at address `a`. -/
def RegDesc.covers (r : RegDesc) (a : Nat) : Bool := decide (r.base ≤ a) && dimsHit r.dims (a - r.base)

/-- The value of a register whose every field has its reset value. -/
def resetOf : List FieldDesc → Nat
  | [] => 0
  | f :: t => f.reset * 2 ^ f.lo + resetOf t

/-- The first table of the list that describes the register at `a`. -/
def findDesc : List RegDesc → Nat → Option RegDesc
  | [], _ => none
  | r :: t, a => if r.covers a then some r else findDesc t a

end Sys2Proof.Machine
end

