-- ==== Sys2Proof/Machine/RegMap.lean ====
section
/-! DEFINITION. The addresses of the registers and the places of their fields, from the register tables of the manual's
chapters (block bases of R107). Names are the manual's. -/

namespace Sys2Proof.Machine

/-- The register SYS_ROLE of `01_node_architecture.md`. -/
abbrev SYS_ROLE : Nat := 0x40000004
abbrev SYS_ROLE.GROUND : Field := ⟨SYS_ROLE, 2, 2⟩
abbrev SYS_ROLE.ROLE : Field := ⟨SYS_ROLE, 1, 0⟩
/-- The register SYS_RST_CAUSE of `01_node_architecture.md`. -/
abbrev SYS_RST_CAUSE : Nat := 0x40000008
abbrev SYS_RST_CAUSE.WDTCP : Field := ⟨SYS_RST_CAUSE, 10, 10⟩
abbrev SYS_RST_CAUSE.LOCKSTEP : Field := ⟨SYS_RST_CAUSE, 9, 9⟩
abbrev SYS_RST_CAUSE.WAY : Field := ⟨SYS_RST_CAUSE, 8, 8⟩
abbrev SYS_RST_CAUSE.LCS : Field := ⟨SYS_RST_CAUSE, 7, 7⟩
abbrev SYS_RST_CAUSE.HFXO : Field := ⟨SYS_RST_CAUSE, 6, 6⟩
abbrev SYS_RST_CAUSE.CPSW : Field := ⟨SYS_RST_CAUSE, 5, 5⟩
abbrev SYS_RST_CAUSE.SYSSW : Field := ⟨SYS_RST_CAUSE, 4, 4⟩
abbrev SYS_RST_CAUSE.WDT : Field := ⟨SYS_RST_CAUSE, 3, 3⟩
abbrev SYS_RST_CAUSE.PIN : Field := ⟨SYS_RST_CAUSE, 2, 2⟩
abbrev SYS_RST_CAUSE.VAULTUP : Field := ⟨SYS_RST_CAUSE, 1, 1⟩
abbrev SYS_RST_CAUSE.POR : Field := ⟨SYS_RST_CAUSE, 0, 0⟩
/-- The register SYS_RST_REQ of `01_node_architecture.md`. -/
abbrev SYS_RST_REQ : Nat := 0x4000000C
abbrev SYS_RST_REQ.KEY : Field := ⟨SYS_RST_REQ, 31, 16⟩
abbrev SYS_RST_REQ.KIND : Field := ⟨SYS_RST_REQ, 1, 0⟩
/-- The register PWR_STAT of `03_feeds_and_handover.md`. -/
abbrev PWR_STAT : Nat := 0x40010000
abbrev PWR_STAT.SUPV : Field := ⟨PWR_STAT, 10, 10⟩
abbrev PWR_STAT.VHOLD_LOW : Field := ⟨PWR_STAT, 9, 9⟩
abbrev PWR_STAT.PFW : Field := ⟨PWR_STAT, 8, 8⟩
abbrev PWR_STAT.HANDOVER : Field := ⟨PWR_STAT, 7, 7⟩
abbrev PWR_STAT.HOLD : Field := ⟨PWR_STAT, 6, 6⟩
abbrev PWR_STAT.B_FLT : Field := ⟨PWR_STAT, 5, 5⟩
abbrev PWR_STAT.A_FLT : Field := ⟨PWR_STAT, 4, 4⟩
abbrev PWR_STAT.B_ELIG : Field := ⟨PWR_STAT, 3, 3⟩
abbrev PWR_STAT.A_ELIG : Field := ⟨PWR_STAT, 2, 2⟩
abbrev PWR_STAT.TOKEN : Field := ⟨PWR_STAT, 1, 1⟩
abbrev PWR_STAT.HOLDER : Field := ⟨PWR_STAT, 0, 0⟩
/-- The register PWR_EVT of `03_feeds_and_handover.md`. -/
abbrev PWR_EVT : Nat := 0x40010004
abbrev PWR_EVT.RECOVER : Field := ⟨PWR_EVT, 7, 7⟩
abbrev PWR_EVT.FEED_1H : Field := ⟨PWR_EVT, 6, 6⟩
abbrev PWR_EVT.PFW_CLR : Field := ⟨PWR_EVT, 5, 5⟩
abbrev PWR_EVT.PFW_SET : Field := ⟨PWR_EVT, 4, 4⟩
abbrev PWR_EVT.BROWN : Field := ⟨PWR_EVT, 3, 3⟩
abbrev PWR_EVT.SHO : Field := ⟨PWR_EVT, 2, 2⟩
abbrev PWR_EVT.HO_FAIL : Field := ⟨PWR_EVT, 1, 1⟩
abbrev PWR_EVT.HO : Field := ⟨PWR_EVT, 0, 0⟩
/-- The register PWR_IEN of `03_feeds_and_handover.md`. -/
abbrev PWR_IEN : Nat := 0x40010008
abbrev PWR_IEN.RECOVER : Field := ⟨PWR_IEN, 7, 7⟩
abbrev PWR_IEN.FEED_1H : Field := ⟨PWR_IEN, 6, 6⟩
abbrev PWR_IEN.PFW_CLR : Field := ⟨PWR_IEN, 5, 5⟩
abbrev PWR_IEN.PFW_SET : Field := ⟨PWR_IEN, 4, 4⟩
abbrev PWR_IEN.BROWN : Field := ⟨PWR_IEN, 3, 3⟩
abbrev PWR_IEN.SHO : Field := ⟨PWR_IEN, 2, 2⟩
abbrev PWR_IEN.HO_FAIL : Field := ⟨PWR_IEN, 1, 1⟩
abbrev PWR_IEN.HO : Field := ⟨PWR_IEN, 0, 0⟩
/-- The register PWR_CFG of `03_feeds_and_handover.md`. -/
abbrev PWR_CFG : Nat := 0x4001000C
abbrev PWR_CFG.VHOLD_WARN : Field := ⟨PWR_CFG, 23, 20⟩
abbrev PWR_CFG.UV : Field := ⟨PWR_CFG, 19, 16⟩
abbrev PWR_CFG.OC : Field := ⟨PWR_CFG, 15, 8⟩
/-- The register PWR_HO_CMD of `03_feeds_and_handover.md`. -/
abbrev PWR_HO_CMD : Nat := 0x40010010
abbrev PWR_HO_CMD.KEY : Field := ⟨PWR_HO_CMD, 31, 16⟩
abbrev PWR_HO_CMD.GO : Field := ⟨PWR_HO_CMD, 0, 0⟩
/-- The register PWR_HO_STAT of `03_feeds_and_handover.md`. -/
abbrev PWR_HO_STAT : Nat := 0x40010014
abbrev PWR_HO_STAT.WINDOW : Field := ⟨PWR_HO_STAT, 23, 16⟩
abbrev PWR_HO_STAT.TIME : Field := ⟨PWR_HO_STAT, 15, 8⟩
abbrev PWR_HO_STAT.FROM : Field := ⟨PWR_HO_STAT, 6, 6⟩
abbrev PWR_HO_STAT.OUTCOME : Field := ⟨PWR_HO_STAT, 5, 3⟩
abbrev PWR_HO_STAT.CAUSE : Field := ⟨PWR_HO_STAT, 2, 0⟩
/-- The register PWR_STBY_AGE of `03_feeds_and_handover.md`. -/
abbrev PWR_STBY_AGE : Nat := 0x40010018
abbrev PWR_STBY_AGE.NEVER : Field := ⟨PWR_STBY_AGE, 31, 31⟩
abbrev PWR_STBY_AGE.SEC : Field := ⟨PWR_STBY_AGE, 30, 0⟩
/-- The register PWR_BROWN of `03_feeds_and_handover.md`. -/
abbrev PWR_BROWN : Nat := 0x4001001C
abbrev PWR_BROWN.MISSED : Field := ⟨PWR_BROWN, 31, 16⟩
abbrev PWR_BROWN.COUNT : Field := ⟨PWR_BROWN, 15, 0⟩
/-- The register PWR_VMON of `03_feeds_and_handover.md`. -/
abbrev PWR_VMON : Nat := 0x40010020
abbrev PWR_VMON.VHOLD : Field := ⟨PWR_VMON, 29, 20⟩
abbrev PWR_VMON.VFB : Field := ⟨PWR_VMON, 19, 10⟩
abbrev PWR_VMON.VFA : Field := ⟨PWR_VMON, 9, 0⟩
/-- The register PWR_HO_CNT of `03_feeds_and_handover.md`. -/
abbrev PWR_HO_CNT : Nat := 0x40010024
abbrev PWR_HO_CNT.SUPERVISED : Field := ⟨PWR_HO_CNT, 31, 16⟩
abbrev PWR_HO_CNT.UNSUPERVISED : Field := ⟨PWR_HO_CNT, 15, 0⟩
/-- The register SYS_PROF_REQ of `04_clocks_and_cadence.md`. -/
abbrev SYS_PROF_REQ : Nat := 0x40000020
abbrev SYS_PROF_REQ.PROF : Field := ⟨SYS_PROF_REQ, 2, 0⟩
/-- The register SYS_PROF_STAT of `04_clocks_and_cadence.md`. -/
abbrev SYS_PROF_STAT : Nat := 0x40000024
abbrev SYS_PROF_STAT.CODE : Field := ⟨SYS_PROF_STAT, 15, 8⟩
abbrev SYS_PROF_STAT.PEND : Field := ⟨SYS_PROF_STAT, 7, 7⟩
abbrev SYS_PROF_STAT.FORCED : Field := ⟨SYS_PROF_STAT, 6, 6⟩
abbrev SYS_PROF_STAT.REQ : Field := ⟨SYS_PROF_STAT, 5, 3⟩
abbrev SYS_PROF_STAT.CUR : Field := ⟨SYS_PROF_STAT, 2, 0⟩
/-- The register SYS_PROF_EVT of `04_clocks_and_cadence.md`. -/
abbrev SYS_PROF_EVT : Nat := 0x40000028
abbrev SYS_PROF_EVT.WAKE : Field := ⟨SYS_PROF_EVT, 2, 2⟩
abbrev SYS_PROF_EVT.REFUSED : Field := ⟨SYS_PROF_EVT, 1, 1⟩
abbrev SYS_PROF_EVT.CHANGED : Field := ⟨SYS_PROF_EVT, 0, 0⟩
/-- The register SYS_PROF_IEN of `04_clocks_and_cadence.md`. -/
abbrev SYS_PROF_IEN : Nat := 0x4000002C
abbrev SYS_PROF_IEN.WAKE : Field := ⟨SYS_PROF_IEN, 2, 2⟩
abbrev SYS_PROF_IEN.REFUSED : Field := ⟨SYS_PROF_IEN, 1, 1⟩
abbrev SYS_PROF_IEN.CHANGED : Field := ⟨SYS_PROF_IEN, 0, 0⟩
/-- The register SYS_CLK_STAT of `04_clocks_and_cadence.md`. -/
abbrev SYS_CLK_STAT : Nat := 0x40000030
abbrev SYS_CLK_STAT.HFXO_LOST : Field := ⟨SYS_CLK_STAT, 2, 2⟩
abbrev SYS_CLK_STAT.PLL_LOCK : Field := ⟨SYS_CLK_STAT, 1, 1⟩
abbrev SYS_CLK_STAT.HFXO_ON : Field := ⟨SYS_CLK_STAT, 0, 0⟩
/-- The register SYS_SLEEP_CFG of `04_clocks_and_cadence.md`. -/
abbrev SYS_SLEEP_CFG : Nat := 0x40000034
abbrev SYS_SLEEP_CFG.HFXO_KEEP : Field := ⟨SYS_SLEEP_CFG, 5, 5⟩
abbrev SYS_SLEEP_CFG.FEED : Field := ⟨SYS_SLEEP_CFG, 4, 4⟩
abbrev SYS_SLEEP_CFG.DIO : Field := ⟨SYS_SLEEP_CFG, 3, 3⟩
abbrev SYS_SLEEP_CFG.CAN0 : Field := ⟨SYS_SLEEP_CFG, 2, 2⟩
abbrev SYS_SLEEP_CFG.PLS : Field := ⟨SYS_SLEEP_CFG, 1, 1⟩
abbrev SYS_SLEEP_CFG.ALM : Field := ⟨SYS_SLEEP_CFG, 0, 0⟩
/-- The register SYS_WAKE_CAUSE of `04_clocks_and_cadence.md`. -/
abbrev SYS_WAKE_CAUSE : Nat := 0x40000038
abbrev SYS_WAKE_CAUSE.CAUSE : Field := ⟨SYS_WAKE_CAUSE, 4, 0⟩
/-- The register SYS_WAKE_DIO of `04_clocks_and_cadence.md`. -/
abbrev SYS_WAKE_DIO : Nat := 0x4000003C
abbrev SYS_WAKE_DIO.SEL : Field := ⟨SYS_WAKE_DIO, 31, 0⟩
/-- The register SYS_PAL_STAT of `05_start_from_the_palette.md`. -/
abbrev SYS_PAL_STAT : Nat := 0x40000040
abbrev SYS_PAL_STAT.B_CODE : Field := ⟨SYS_PAL_STAT, 31, 24⟩
abbrev SYS_PAL_STAT.A_CODE : Field := ⟨SYS_PAL_STAT, 23, 16⟩
abbrev SYS_PAL_STAT.UNOWNED : Field := ⟨SYS_PAL_STAT, 7, 7⟩
abbrev SYS_PAL_STAT.ROLL_BUSY : Field := ⟨SYS_PAL_STAT, 6, 6⟩
abbrev SYS_PAL_STAT.SLOT : Field := ⟨SYS_PAL_STAT, 5, 4⟩
abbrev SYS_PAL_STAT.STATE : Field := ⟨SYS_PAL_STAT, 1, 0⟩
/-- The register SYS_PAL_VER of `05_start_from_the_palette.md`. -/
abbrev SYS_PAL_VER : Nat := 0x40000044
abbrev SYS_PAL_VER.SEC_VERSION : Field := ⟨SYS_PAL_VER, 31, 0⟩
/-- The register SYS_PAL_BUILD of `05_start_from_the_palette.md`. -/
abbrev SYS_PAL_BUILD : Nat := 0x40000048
abbrev SYS_PAL_BUILD.BUILD_ID : Field := ⟨SYS_PAL_BUILD, 31, 0⟩
/-- The register SYS_NODE_ID of `05_start_from_the_palette.md`. -/
abbrev SYS_NODE_ID : Nat := 0x4000004C
abbrev SYS_NODE_ID.DEFAULT : Field := ⟨SYS_NODE_ID, 13, 13⟩
abbrev SYS_NODE_ID.ID : Field := ⟨SYS_NODE_ID, 12, 0⟩
/-- The register SYS_PAL_ROLL of `05_start_from_the_palette.md`. -/
abbrev SYS_PAL_ROLL : Nat := 0x40000050
abbrev SYS_PAL_ROLL.KEY : Field := ⟨SYS_PAL_ROLL, 31, 16⟩
abbrev SYS_PAL_ROLL.GO : Field := ⟨SYS_PAL_ROLL, 0, 0⟩
/-- The register SYS_BOOT_SEL of `05_start_from_the_palette.md`. -/
abbrev SYS_BOOT_SEL : Nat := 0x40000054
abbrev SYS_BOOT_SEL.FW : Field := ⟨SYS_BOOT_SEL, 1, 1⟩
abbrev SYS_BOOT_SEL.PAL : Field := ⟨SYS_BOOT_SEL, 0, 0⟩
/-- The register SYS_START_TIME of `05_start_from_the_palette.md`. -/
abbrev SYS_START_TIME : Nat := 0x40000058
abbrev SYS_START_TIME.HAND : Field := ⟨SYS_START_TIME, 31, 16⟩
abbrev SYS_START_TIME.RUN : Field := ⟨SYS_START_TIME, 15, 0⟩
/-- The register INTC_PRIO of `06_control_processor_and_map.md`. -/
abbrev INTC_PRIO (n : Nat) : Nat := 0x40130000 + 0x4 * n
abbrev INTC_PRIO.PRIO (n : Nat) : Field := ⟨INTC_PRIO n, 2, 0⟩
/-- The register INTC_PEND of `06_control_processor_and_map.md`. -/
abbrev INTC_PEND (n : Nat) : Nat := 0x40131000 + 0x4 * n
abbrev INTC_PEND.BITS (n : Nat) : Field := ⟨INTC_PEND n, 31, 0⟩
/-- The register INTC_EN of `06_control_processor_and_map.md`. -/
abbrev INTC_EN (n : Nat) : Nat := 0x40132000 + 0x4 * n
abbrev INTC_EN.BITS (n : Nat) : Field := ⟨INTC_EN n, 31, 0⟩
/-- The register INTC_THRESH of `06_control_processor_and_map.md`. -/
abbrev INTC_THRESH : Nat := 0x40138000
abbrev INTC_THRESH.THRESH : Field := ⟨INTC_THRESH, 2, 0⟩
/-- The register INTC_CLAIM of `06_control_processor_and_map.md`. -/
abbrev INTC_CLAIM : Nat := 0x40138004
abbrev INTC_CLAIM.ID : Field := ⟨INTC_CLAIM, 6, 0⟩
/-- The register SYS_WDT_CFG of `06_control_processor_and_map.md`. -/
abbrev SYS_WDT_CFG : Nat := 0x40000080
abbrev SYS_WDT_CFG.DBG_PAUSE : Field := ⟨SYS_WDT_CFG, 18, 18⟩
abbrev SYS_WDT_CFG.ESCALATE : Field := ⟨SYS_WDT_CFG, 17, 17⟩
abbrev SYS_WDT_CFG.EN : Field := ⟨SYS_WDT_CFG, 16, 16⟩
abbrev SYS_WDT_CFG.TIMEOUT : Field := ⟨SYS_WDT_CFG, 15, 0⟩
/-- The register SYS_WDT_KICK of `06_control_processor_and_map.md`. -/
abbrev SYS_WDT_KICK : Nat := 0x40000084
abbrev SYS_WDT_KICK.KEY : Field := ⟨SYS_WDT_KICK, 31, 16⟩
/-- The register SYS_WDT_STAT of `06_control_processor_and_map.md`. -/
abbrev SYS_WDT_STAT : Nat := 0x40000088
abbrev SYS_WDT_STAT.REMAIN : Field := ⟨SYS_WDT_STAT, 31, 16⟩
abbrev SYS_WDT_STAT.STAGE : Field := ⟨SYS_WDT_STAT, 2, 2⟩
abbrev SYS_WDT_STAT.CPRST_FIRED : Field := ⟨SYS_WDT_STAT, 1, 1⟩
abbrev SYS_WDT_STAT.PREWARN : Field := ⟨SYS_WDT_STAT, 0, 0⟩
/-- The register SYS_CP_STAT of `06_control_processor_and_map.md`. -/
abbrev SYS_CP_STAT : Nat := 0x40000090
abbrev SYS_CP_STAT.LOCKSTEP : Field := ⟨SYS_CP_STAT, 31, 24⟩
abbrev SYS_CP_STAT.LS_SEEN : Field := ⟨SYS_CP_STAT, 23, 23⟩
abbrev SYS_CP_STAT.CE_COUNT : Field := ⟨SYS_CP_STAT, 15, 0⟩
/-- The register SYS_FW_STAT of `06_control_processor_and_map.md`. -/
abbrev SYS_FW_STAT : Nat := 0x40000094
abbrev SYS_FW_STAT.OFFSET : Field := ⟨SYS_FW_STAT, 31, 16⟩
abbrev SYS_FW_STAT.INIT : Field := ⟨SYS_FW_STAT, 15, 14⟩
abbrev SYS_FW_STAT.WRITE : Field := ⟨SYS_FW_STAT, 13, 13⟩
abbrev SYS_FW_STAT.CLEAR : Field := ⟨SYS_FW_STAT, 12, 12⟩
abbrev SYS_FW_STAT.COUNT : Field := ⟨SYS_FW_STAT, 11, 0⟩
/-- The register SYS_MTIME_LO of `06_control_processor_and_map.md`. -/
abbrev SYS_MTIME_LO : Nat := 0x400000A0
abbrev SYS_MTIME_LO.VALUE : Field := ⟨SYS_MTIME_LO, 31, 0⟩
/-- The register SYS_MTIME_HI of `06_control_processor_and_map.md`. -/
abbrev SYS_MTIME_HI : Nat := 0x400000A4
abbrev SYS_MTIME_HI.VALUE : Field := ⟨SYS_MTIME_HI, 31, 0⟩
/-- The register SYS_MTIMECMP_LO of `06_control_processor_and_map.md`. -/
abbrev SYS_MTIMECMP_LO : Nat := 0x400000A8
abbrev SYS_MTIMECMP_LO.VALUE : Field := ⟨SYS_MTIMECMP_LO, 31, 0⟩
/-- The register SYS_MTIMECMP_HI of `06_control_processor_and_map.md`. -/
abbrev SYS_MTIMECMP_HI : Nat := 0x400000AC
abbrev SYS_MTIMECMP_HI.VALUE : Field := ⟨SYS_MTIMECMP_HI, 31, 0⟩
/-- The register LE_CTL of `07_loop_engine_core.md`. -/
abbrev LE_CTL : Nat := 0x40030000
abbrev LE_CTL.SEALED : Field := ⟨LE_CTL, 1, 1⟩
abbrev LE_CTL.EN : Field := ⟨LE_CTL, 0, 0⟩
/-- The register LE_STAT of `07_loop_engine_core.md`. -/
abbrev LE_STAT : Nat := 0x40030004
abbrev LE_STAT.TRIP_ANY : Field := ⟨LE_STAT, 6, 6⟩
abbrev LE_STAT.FALLBACK : Field := ⟨LE_STAT, 5, 5⟩
abbrev LE_STAT.THRIFT_OK : Field := ⟨LE_STAT, 4, 4⟩
abbrev LE_STAT.CELL_EN : Field := ⟨LE_STAT, 3, 0⟩
/-- The register LE_EVT of `07_loop_engine_core.md`. -/
abbrev LE_EVT : Nat := 0x40030008
abbrev LE_EVT.TRIP : Field := ⟨LE_EVT, 16, 16⟩
abbrev LE_EVT.PB_NONFIN : Field := ⟨LE_EVT, 10, 10⟩
abbrev LE_EVT.PB_FB_OUT : Field := ⟨LE_EVT, 9, 9⟩
abbrev LE_EVT.PB_FB_IN : Field := ⟨LE_EVT, 8, 8⟩
abbrev LE_EVT.SAT : Field := ⟨LE_EVT, 4, 4⟩
abbrev LE_EVT.SKIP : Field := ⟨LE_EVT, 3, 3⟩
abbrev LE_EVT.SWAP_REF : Field := ⟨LE_EVT, 2, 2⟩
abbrev LE_EVT.FAULT : Field := ⟨LE_EVT, 1, 1⟩
abbrev LE_EVT.OVR : Field := ⟨LE_EVT, 0, 0⟩
/-- The register LE_IEN of `07_loop_engine_core.md`. -/
abbrev LE_IEN : Nat := 0x4003000C
abbrev LE_IEN.TRIP : Field := ⟨LE_IEN, 16, 16⟩
abbrev LE_IEN.PB_NONFIN : Field := ⟨LE_IEN, 10, 10⟩
abbrev LE_IEN.PB_FB_OUT : Field := ⟨LE_IEN, 9, 9⟩
abbrev LE_IEN.PB_FB_IN : Field := ⟨LE_IEN, 8, 8⟩
abbrev LE_IEN.SAT : Field := ⟨LE_IEN, 4, 4⟩
abbrev LE_IEN.SKIP : Field := ⟨LE_IEN, 3, 3⟩
abbrev LE_IEN.SWAP_REF : Field := ⟨LE_IEN, 2, 2⟩
abbrev LE_IEN.FAULT : Field := ⟨LE_IEN, 1, 1⟩
abbrev LE_IEN.OVR : Field := ⟨LE_IEN, 0, 0⟩
/-- The register LE_TICK_LO of `07_loop_engine_core.md`. -/
abbrev LE_TICK_LO : Nat := 0x40030010
abbrev LE_TICK_LO.VALUE : Field := ⟨LE_TICK_LO, 31, 0⟩
/-- The register LE_TICK_HI of `07_loop_engine_core.md`. -/
abbrev LE_TICK_HI : Nat := 0x40030014
abbrev LE_TICK_HI.VALUE : Field := ⟨LE_TICK_HI, 31, 0⟩
/-- The register LE_CELL_STAT of `07_loop_engine_core.md`. -/
abbrev LE_CELL_STAT (n : Nat) : Nat := 0x40030020 + 0x4 * n
abbrev LE_CELL_STAT.DIS (n : Nat) : Field := ⟨LE_CELL_STAT n, 31, 31⟩
abbrev LE_CELL_STAT.BIST (n : Nat) : Field := ⟨LE_CELL_STAT n, 30, 30⟩
abbrev LE_CELL_STAT.SLOTS (n : Nat) : Field := ⟨LE_CELL_STAT n, 26, 20⟩
abbrev LE_CELL_STAT.LOAD_T (n : Nat) : Field := ⟨LE_CELL_STAT n, 19, 10⟩
abbrev LE_CELL_STAT.LOAD (n : Nat) : Field := ⟨LE_CELL_STAT n, 9, 0⟩
/-- The register LE_TRIP_CFG of `07_loop_engine_core.md`. -/
abbrev LE_TRIP_CFG (n : Nat) : Nat := 0x40030040 + 0x4 * n
abbrev LE_TRIP_CFG.FILT (n : Nat) : Field := ⟨LE_TRIP_CFG n, 5, 2⟩
abbrev LE_TRIP_CFG.POL (n : Nat) : Field := ⟨LE_TRIP_CFG n, 1, 1⟩
abbrev LE_TRIP_CFG.EN (n : Nat) : Field := ⟨LE_TRIP_CFG n, 0, 0⟩
/-- The register LE_TRIP_MASK_LO of `07_loop_engine_core.md`. -/
abbrev LE_TRIP_MASK_LO (n : Nat) : Nat := 0x40030060 + 0x8 * n
abbrev LE_TRIP_MASK_LO.SLOTS (n : Nat) : Field := ⟨LE_TRIP_MASK_LO n, 31, 0⟩
/-- The register LE_TRIP_MASK_HI of `07_loop_engine_core.md`. -/
abbrev LE_TRIP_MASK_HI (n : Nat) : Nat := 0x40030064 + 0x8 * n
abbrev LE_TRIP_MASK_HI.SLOTS (n : Nat) : Field := ⟨LE_TRIP_MASK_HI n, 31, 0⟩
/-- The register LE_TRIP_STAT of `07_loop_engine_core.md`. -/
abbrev LE_TRIP_STAT : Nat := 0x400300A0
abbrev LE_TRIP_STAT.LEVEL : Field := ⟨LE_TRIP_STAT, 15, 8⟩
abbrev LE_TRIP_STAT.LATCH : Field := ⟨LE_TRIP_STAT, 7, 0⟩
/-- The register LE_PB_CFG of `07_loop_engine_core.md`. -/
abbrev LE_PB_CFG : Nat := 0x400300C0
abbrev LE_PB_CFG.STEP : Field := ⟨LE_PB_CFG, 31, 20⟩
abbrev LE_PB_CFG.BLK : Field := ⟨LE_PB_CFG, 15, 14⟩
abbrev LE_PB_CFG.STALE_LIM : Field := ⟨LE_PB_CFG, 13, 8⟩
abbrev LE_PB_CFG.EN : Field := ⟨LE_PB_CFG, 0, 0⟩
/-- The register LE_PB_STAT of `07_loop_engine_core.md`. -/
abbrev LE_PB_STAT : Nat := 0x400300C4
abbrev LE_PB_STAT.NT_SYNC : Field := ⟨LE_PB_STAT, 16, 16⟩
abbrev LE_PB_STAT.CODE : Field := ⟨LE_PB_STAT, 15, 8⟩
abbrev LE_PB_STAT.NONFINITE : Field := ⟨LE_PB_STAT, 7, 7⟩
abbrev LE_PB_STAT.FALLBACK : Field := ⟨LE_PB_STAT, 6, 6⟩
abbrev LE_PB_STAT.STALE : Field := ⟨LE_PB_STAT, 5, 0⟩
/-- The register LE_PB_MAP of `07_loop_engine_core.md`. -/
abbrev LE_PB_MAP (n : Nat) : Nat := 0x40031100 + 0x10 * n
abbrev LE_PB_MAP.STRIDE (n : Nat) : Field := ⟨LE_PB_MAP n, 13, 8⟩
abbrev LE_PB_MAP.OFF (n : Nat) : Field := ⟨LE_PB_MAP n, 7, 2⟩
abbrev LE_PB_MAP.EN (n : Nat) : Field := ⟨LE_PB_MAP n, 0, 0⟩
/-- The register LE_PB_SCALE of `07_loop_engine_core.md`. -/
abbrev LE_PB_SCALE (n : Nat) : Nat := 0x40031104 + 0x10 * n
abbrev LE_PB_SCALE.VALUE (n : Nat) : Field := ⟨LE_PB_SCALE n, 31, 0⟩
/-- The register LE_PB_BIAS of `07_loop_engine_core.md`. -/
abbrev LE_PB_BIAS (n : Nat) : Nat := 0x40031108 + 0x10 * n
abbrev LE_PB_BIAS.VALUE (n : Nat) : Field := ⟨LE_PB_BIAS n, 31, 0⟩
/-- The register LE_SLOT_CFG of `07_loop_engine_core.md`. -/
abbrev LE_SLOT_CFG (n : Nat) : Nat := 0x40030100 + 0x40 * n
abbrev LE_SLOT_CFG.DST (n : Nat) : Field := ⟨LE_SLOT_CFG n, 31, 21⟩
abbrev LE_SLOT_CFG.STAGES_RES (n : Nat) : Field := ⟨LE_SLOT_CFG n, 20, 18⟩
abbrev LE_SLOT_CFG.MACS_RES (n : Nat) : Field := ⟨LE_SLOT_CFG n, 17, 8⟩
abbrev LE_SLOT_CFG.TEMPLATE (n : Nat) : Field := ⟨LE_SLOT_CFG n, 7, 4⟩
abbrev LE_SLOT_CFG.SE_OWN (n : Nat) : Field := ⟨LE_SLOT_CFG n, 3, 3⟩
abbrev LE_SLOT_CFG.ADM (n : Nat) : Field := ⟨LE_SLOT_CFG n, 2, 2⟩
abbrev LE_SLOT_CFG.CELL (n : Nat) : Field := ⟨LE_SLOT_CFG n, 1, 0⟩
/-- The register LE_SLOT_TIME of `07_loop_engine_core.md`. -/
abbrev LE_SLOT_TIME (n : Nat) : Nat := 0x40030104 + 0x40 * n
abbrev LE_SLOT_TIME.PERIOD (n : Nat) : Field := ⟨LE_SLOT_TIME n, 16, 0⟩
/-- The register LE_SLOT_SCHED of `07_loop_engine_core.md`. -/
abbrev LE_SLOT_SCHED (n : Nat) : Nat := 0x40030108 + 0x40 * n
abbrev LE_SLOT_SCHED.OFS (n : Nat) : Field := ⟨LE_SLOT_SCHED n, 28, 17⟩
abbrev LE_SLOT_SCHED.PHASE (n : Nat) : Field := ⟨LE_SLOT_SCHED n, 16, 0⟩
/-- The register LE_SLOT_CTL of `07_loop_engine_core.md`. -/
abbrev LE_SLOT_CTL (n : Nat) : Nat := 0x4003010C + 0x40 * n
abbrev LE_SLOT_CTL.BANK (n : Nat) : Field := ⟨LE_SLOT_CTL n, 5, 5⟩
abbrev LE_SLOT_CTL.SWAP (n : Nat) : Field := ⟨LE_SLOT_CTL n, 4, 4⟩
abbrev LE_SLOT_CTL.MODE (n : Nat) : Field := ⟨LE_SLOT_CTL n, 2, 1⟩
abbrev LE_SLOT_CTL.EN (n : Nat) : Field := ⟨LE_SLOT_CTL n, 0, 0⟩
/-- The register LE_SLOT_STAT of `07_loop_engine_core.md`. -/
abbrev LE_SLOT_STAT (n : Nat) : Nat := 0x40030110 + 0x40 * n
abbrev LE_SLOT_STAT.CLAMPED (n : Nat) : Field := ⟨LE_SLOT_STAT n, 25, 25⟩
abbrev LE_SLOT_STAT.FAULT (n : Nat) : Field := ⟨LE_SLOT_STAT n, 24, 24⟩
abbrev LE_SLOT_STAT.SWAP_CODE (n : Nat) : Field := ⟨LE_SLOT_STAT n, 23, 16⟩
abbrev LE_SLOT_STAT.CONSEC (n : Nat) : Field := ⟨LE_SLOT_STAT n, 15, 12⟩
abbrev LE_SLOT_STAT.SAT (n : Nat) : Field := ⟨LE_SLOT_STAT n, 9, 9⟩
abbrev LE_SLOT_STAT.TRIPPED (n : Nat) : Field := ⟨LE_SLOT_STAT n, 8, 8⟩
abbrev LE_SLOT_STAT.CODE (n : Nat) : Field := ⟨LE_SLOT_STAT n, 7, 0⟩
/-- The register LE_OVR of `07_loop_engine_core.md`. -/
abbrev LE_OVR (n : Nat) : Nat := 0x40030114 + 0x40 * n
abbrev LE_OVR.COUNT (n : Nat) : Field := ⟨LE_OVR n, 31, 0⟩
/-- The register LE_SKIP of `07_loop_engine_core.md`. -/
abbrev LE_SKIP (n : Nat) : Nat := 0x40030118 + 0x40 * n
abbrev LE_SKIP.COUNT (n : Nat) : Field := ⟨LE_SKIP n, 31, 0⟩
/-- The register LE_SLOT_OUT of `07_loop_engine_core.md`. -/
abbrev LE_SLOT_OUT (n : Nat) : Nat := 0x4003011C + 0x40 * n
abbrev LE_SLOT_OUT.VALUE (n : Nat) : Field := ⟨LE_SLOT_OUT n, 31, 0⟩
/-- The register LE_SLOT_IN of `07_loop_engine_core.md`. -/
abbrev LE_SLOT_IN (n : Nat) (m : Nat) : Nat := 0x40030120 + 0x40 * n + 0x4 * m
abbrev LE_SLOT_IN.SRC_HI (n : Nat) (m : Nat) : Field := ⟨LE_SLOT_IN n m, 31, 16⟩
abbrev LE_SLOT_IN.SRC_LO (n : Nat) (m : Nat) : Field := ⟨LE_SLOT_IN n m, 15, 0⟩
/-- The register LE_STATE of `07_loop_engine_core.md`. -/
abbrev LE_STATE (n : Nat) (m : Nat) : Nat := 0x40032000 + 0x80 * n + 0x4 * m
abbrev LE_STATE.COUNT (n : Nat) : Field := ⟨LE_STATE n 0, 12, 8⟩
abbrev LE_STATE.EXP (n : Nat) : Field := ⟨LE_STATE n 0, 7, 0⟩
/-- The register LE_PARAM of `07_loop_engine_core.md`. -/
abbrev LE_PARAM (n : Nat) (m : Nat) : Nat := 0x40034000 + 0x200 * n + 0x4 * m
abbrev LE_PARAM.S (n : Nat) : Field := ⟨LE_PARAM n 0, 12, 10⟩
abbrev LE_PARAM.M (n : Nat) : Field := ⟨LE_PARAM n 0, 9, 0⟩
/-- The register LE_PB_FB of `08_loop_laws_and_motion.md`. -/
abbrev LE_PB_FB (n : Nat) : Nat := 0x4003110C + 0x10 * n
abbrev LE_PB_FB.KIND (n : Nat) : Field := ⟨LE_PB_FB n, 31, 31⟩
abbrev LE_PB_FB.SLOT (n : Nat) : Field := ⟨LE_PB_FB n, 5, 0⟩
/-- The register LE_PB_FBV of `08_loop_laws_and_motion.md`. -/
abbrev LE_PB_FBV (n : Nat) : Nat := 0x40031200 + 0x4 * n
abbrev LE_PB_FBV.VALUE (n : Nat) : Field := ⟨LE_PB_FBV n, 31, 0⟩
/-- The register PG_CFG of `08_loop_laws_and_motion.md`. -/
abbrev PG_CFG (n : Nat) : Nat := 0x4003C000 + 0x40 * n
abbrev PG_CFG.PERIOD (n : Nat) : Field := ⟨PG_CFG n, 16, 0⟩
/-- The register PG_VMAX of `08_loop_laws_and_motion.md`. -/
abbrev PG_VMAX (n : Nat) : Nat := 0x4003C004 + 0x40 * n
abbrev PG_VMAX.VALUE (n : Nat) : Field := ⟨PG_VMAX n, 31, 0⟩
/-- The register PG_AMAX of `08_loop_laws_and_motion.md`. -/
abbrev PG_AMAX (n : Nat) : Nat := 0x4003C008 + 0x40 * n
abbrev PG_AMAX.VALUE (n : Nat) : Field := ⟨PG_AMAX n, 31, 0⟩
/-- The register PG_JMAX of `08_loop_laws_and_motion.md`. -/
abbrev PG_JMAX (n : Nat) : Nat := 0x4003C00C + 0x40 * n
abbrev PG_JMAX.VALUE (n : Nat) : Field := ⟨PG_JMAX n, 31, 0⟩
/-- The register PG_TARGET of `08_loop_laws_and_motion.md`. -/
abbrev PG_TARGET (n : Nat) : Nat := 0x4003C010 + 0x40 * n
abbrev PG_TARGET.VALUE (n : Nat) : Field := ⟨PG_TARGET n, 31, 0⟩
/-- The register PG_PRESET of `08_loop_laws_and_motion.md`. -/
abbrev PG_PRESET (n : Nat) : Nat := 0x4003C014 + 0x40 * n
abbrev PG_PRESET.VALUE (n : Nat) : Field := ⟨PG_PRESET n, 31, 0⟩
/-- The register PG_POS of `08_loop_laws_and_motion.md`. -/
abbrev PG_POS (n : Nat) : Nat := 0x4003C018 + 0x40 * n
abbrev PG_POS.VALUE (n : Nat) : Field := ⟨PG_POS n, 31, 0⟩
/-- The register PG_VEL of `08_loop_laws_and_motion.md`. -/
abbrev PG_VEL (n : Nat) : Nat := 0x4003C01C + 0x40 * n
abbrev PG_VEL.VALUE (n : Nat) : Field := ⟨PG_VEL n, 31, 0⟩
/-- The register PG_ACC of `08_loop_laws_and_motion.md`. -/
abbrev PG_ACC (n : Nat) : Nat := 0x4003C020 + 0x40 * n
abbrev PG_ACC.VALUE (n : Nat) : Field := ⟨PG_ACC n, 31, 0⟩
/-- The register PG_REMAIN of `08_loop_laws_and_motion.md`. -/
abbrev PG_REMAIN (n : Nat) : Nat := 0x4003C024 + 0x40 * n
abbrev PG_REMAIN.TICKS (n : Nat) : Field := ⟨PG_REMAIN n, 31, 0⟩
/-- The register PG_CTL of `08_loop_laws_and_motion.md`. -/
abbrev PG_CTL (n : Nat) : Nat := 0x4003C028 + 0x40 * n
abbrev PG_CTL.STOP (n : Nat) : Field := ⟨PG_CTL n, 2, 2⟩
abbrev PG_CTL.EN (n : Nat) : Field := ⟨PG_CTL n, 0, 0⟩
/-- The register PG_STAT of `08_loop_laws_and_motion.md`. -/
abbrev PG_STAT (n : Nat) : Nat := 0x4003C02C + 0x40 * n
abbrev PG_STAT.CODE (n : Nat) : Field := ⟨PG_STAT n, 15, 8⟩
abbrev PG_STAT.FROZEN (n : Nat) : Field := ⟨PG_STAT n, 3, 3⟩
abbrev PG_STAT.PEND (n : Nat) : Field := ⟨PG_STAT n, 2, 2⟩
abbrev PG_STAT.MOVING (n : Nat) : Field := ⟨PG_STAT n, 1, 1⟩
abbrev PG_STAT.BRIDGE (n : Nat) : Field := ⟨PG_STAT n, 0, 0⟩
/-- The register PG_EVT of `08_loop_laws_and_motion.md`. -/
abbrev PG_EVT : Nat := 0x4003C400
abbrev PG_EVT.REFUSED : Field := ⟨PG_EVT, 31, 16⟩
abbrev PG_EVT.DONE : Field := ⟨PG_EVT, 15, 0⟩
/-- The register PG_IEN of `08_loop_laws_and_motion.md`. -/
abbrev PG_IEN : Nat := 0x4003C404
abbrev PG_IEN.REFUSED : Field := ⟨PG_IEN, 31, 16⟩
abbrev PG_IEN.DONE : Field := ⟨PG_IEN, 15, 0⟩
/-- The register PD_CFG of `08_loop_laws_and_motion.md`. -/
abbrev PD_CFG (n : Nat) : Nat := 0x40040000 + 0x100 * n
abbrev PD_CFG.MINP (n : Nat) : Field := ⟨PD_CFG n, 31, 20⟩
abbrev PD_CFG.EN (n : Nat) : Field := ⟨PD_CFG n, 19, 19⟩
abbrev PD_CFG.HU (n : Nat) : Field := ⟨PD_CFG n, 18, 18⟩
abbrev PD_CFG.OFF (n : Nat) : Field := ⟨PD_CFG n, 17, 16⟩
abbrev PD_CFG.HALF (n : Nat) : Field := ⟨PD_CFG n, 15, 9⟩
abbrev PD_CFG.DT (n : Nat) : Field := ⟨PD_CFG n, 8, 0⟩
/-- The register PD_OCL of `08_loop_laws_and_motion.md`. -/
abbrev PD_OCL (n : Nat) : Nat := 0x40040004 + 0x100 * n
abbrev PD_OCL.LIMIT (n : Nat) : Field := ⟨PD_OCL n, 15, 0⟩
/-- The register PD_HU_RAMP of `08_loop_laws_and_motion.md`. -/
abbrev PD_HU_RAMP (n : Nat) : Nat := 0x40040008 + 0x100 * n
abbrev PD_HU_RAMP.VALUE (n : Nat) : Field := ⟨PD_HU_RAMP n, 31, 0⟩
/-- The register PD_STAT of `08_loop_laws_and_motion.md`. -/
abbrev PD_STAT (n : Nat) : Nat := 0x4004000C + 0x100 * n
abbrev PD_STAT.FIRST (n : Nat) : Field := ⟨PD_STAT n, 5, 5⟩
abbrev PD_STAT.HU (n : Nat) : Field := ⟨PD_STAT n, 4, 4⟩
abbrev PD_STAT.OC (n : Nat) : Field := ⟨PD_STAT n, 3, 3⟩
abbrev PD_STAT.TRIP (n : Nat) : Field := ⟨PD_STAT n, 2, 2⟩
abbrev PD_STAT.OFF (n : Nat) : Field := ⟨PD_STAT n, 1, 1⟩
abbrev PD_STAT.RUN (n : Nat) : Field := ⟨PD_STAT n, 0, 0⟩
/-- The register PD_DUTY of `08_loop_laws_and_motion.md`. -/
abbrev PD_DUTY (n : Nat) (m : Nat) : Nat := 0x40040010 + 0x100 * n + 0x4 * m
abbrev PD_DUTY.CMP (n : Nat) (m : Nat) : Field := ⟨PD_DUTY n m, 16, 0⟩
/-- The register PD_EVT of `08_loop_laws_and_motion.md`. -/
abbrev PD_EVT (n : Nat) : Nat := 0x4004001C + 0x100 * n
abbrev PD_EVT.MINP (n : Nat) : Field := ⟨PD_EVT n, 3, 3⟩
abbrev PD_EVT.HU_DONE (n : Nat) : Field := ⟨PD_EVT n, 2, 2⟩
abbrev PD_EVT.TRIP (n : Nat) : Field := ⟨PD_EVT n, 1, 1⟩
abbrev PD_EVT.OC (n : Nat) : Field := ⟨PD_EVT n, 0, 0⟩
/-- The register PD_IEN of `08_loop_laws_and_motion.md`. -/
abbrev PD_IEN (n : Nat) : Nat := 0x40040020 + 0x100 * n
abbrev PD_IEN.MINP (n : Nat) : Field := ⟨PD_IEN n, 3, 3⟩
abbrev PD_IEN.HU_DONE (n : Nat) : Field := ⟨PD_IEN n, 2, 2⟩
abbrev PD_IEN.TRIP (n : Nat) : Field := ⟨PD_IEN n, 1, 1⟩
abbrev PD_IEN.OC (n : Nat) : Field := ⟨PD_IEN n, 0, 0⟩
/-- The register PD_CLR of `08_loop_laws_and_motion.md`. -/
abbrev PD_CLR (n : Nat) : Nat := 0x40040024 + 0x100 * n
abbrev PD_CLR.HU (n : Nat) : Field := ⟨PD_CLR n, 1, 1⟩
abbrev PD_CLR.OC (n : Nat) : Field := ⟨PD_CLR n, 0, 0⟩
/-- The register TUNE_STAT of `09_tuning_and_trace.md`. -/
abbrev TUNE_STAT : Nat := 0x40050000
abbrev TUNE_STAT.TRC_ARMED : Field := ⟨TUNE_STAT, 4, 4⟩
abbrev TUNE_STAT.CAP_RUN : Field := ⟨TUNE_STAT, 3, 3⟩
abbrev TUNE_STAT.INJ_RUN : Field := ⟨TUNE_STAT, 2, 2⟩
abbrev TUNE_STAT.AUTH : Field := ⟨TUNE_STAT, 0, 0⟩
/-- The register TUNE_EVT of `09_tuning_and_trace.md`. -/
abbrev TUNE_EVT : Nat := 0x40050004
abbrev TUNE_EVT.AUTH_LOST : Field := ⟨TUNE_EVT, 4, 4⟩
abbrev TUNE_EVT.TRC_DONE : Field := ⟨TUNE_EVT, 3, 3⟩
abbrev TUNE_EVT.TRC_TRIG : Field := ⟨TUNE_EVT, 2, 2⟩
abbrev TUNE_EVT.CAP_DONE : Field := ⟨TUNE_EVT, 1, 1⟩
abbrev TUNE_EVT.INJ_END : Field := ⟨TUNE_EVT, 0, 0⟩
/-- The register TUNE_IEN of `09_tuning_and_trace.md`. -/
abbrev TUNE_IEN : Nat := 0x40050008
abbrev TUNE_IEN.AUTH_LOST : Field := ⟨TUNE_IEN, 4, 4⟩
abbrev TUNE_IEN.TRC_DONE : Field := ⟨TUNE_IEN, 3, 3⟩
abbrev TUNE_IEN.TRC_TRIG : Field := ⟨TUNE_IEN, 2, 2⟩
abbrev TUNE_IEN.CAP_DONE : Field := ⟨TUNE_IEN, 1, 1⟩
abbrev TUNE_IEN.INJ_END : Field := ⟨TUNE_IEN, 0, 0⟩
/-- The register TUNE_INJ_CFG of `09_tuning_and_trace.md`. -/
abbrev TUNE_INJ_CFG : Nat := 0x40050010
abbrev TUNE_INJ_CFG.HOLD : Field := ⟨TUNE_INJ_CFG, 31, 24⟩
abbrev TUNE_INJ_CFG.ORDER : Field := ⟨TUNE_INJ_CFG, 23, 20⟩
abbrev TUNE_INJ_CFG.SIG : Field := ⟨TUNE_INJ_CFG, 19, 18⟩
abbrev TUNE_INJ_CFG.POINT : Field := ⟨TUNE_INJ_CFG, 17, 16⟩
abbrev TUNE_INJ_CFG.SLOT : Field := ⟨TUNE_INJ_CFG, 5, 0⟩
/-- The register TUNE_INJ_AMP of `09_tuning_and_trace.md`. -/
abbrev TUNE_INJ_AMP : Nat := 0x40050014
abbrev TUNE_INJ_AMP.VALUE : Field := ⟨TUNE_INJ_AMP, 31, 0⟩
/-- The register TUNE_INJ_F0 of `09_tuning_and_trace.md`. -/
abbrev TUNE_INJ_F0 : Nat := 0x40050018
abbrev TUNE_INJ_F0.VALUE : Field := ⟨TUNE_INJ_F0, 31, 0⟩
/-- The register TUNE_INJ_F1 of `09_tuning_and_trace.md`. -/
abbrev TUNE_INJ_F1 : Nat := 0x4005001C
abbrev TUNE_INJ_F1.VALUE : Field := ⟨TUNE_INJ_F1, 31, 0⟩
/-- The register TUNE_INJ_LEN of `09_tuning_and_trace.md`. -/
abbrev TUNE_INJ_LEN : Nat := 0x40050020
abbrev TUNE_INJ_LEN.VALUE : Field := ⟨TUNE_INJ_LEN, 31, 0⟩
/-- The register TUNE_INJ_DELAY of `09_tuning_and_trace.md`. -/
abbrev TUNE_INJ_DELAY : Nat := 0x40050024
abbrev TUNE_INJ_DELAY.VALUE : Field := ⟨TUNE_INJ_DELAY, 31, 0⟩
/-- The register TUNE_INJ_CTL of `09_tuning_and_trace.md`. -/
abbrev TUNE_INJ_CTL : Nat := 0x40050028
abbrev TUNE_INJ_CTL.STOP : Field := ⟨TUNE_INJ_CTL, 1, 1⟩
abbrev TUNE_INJ_CTL.GO : Field := ⟨TUNE_INJ_CTL, 0, 0⟩
/-- The register TUNE_INJ_STAT of `09_tuning_and_trace.md`. -/
abbrev TUNE_INJ_STAT : Nat := 0x4005002C
abbrev TUNE_INJ_STAT.CODE : Field := ⟨TUNE_INJ_STAT, 15, 8⟩
abbrev TUNE_INJ_STAT.ABORT : Field := ⟨TUNE_INJ_STAT, 2, 0⟩
/-- The register TUNE_CAP_CFG of `09_tuning_and_trace.md`. -/
abbrev TUNE_CAP_CFG : Nat := 0x40050040
abbrev TUNE_CAP_CFG.DEC : Field := ⟨TUNE_CAP_CFG, 31, 16⟩
abbrev TUNE_CAP_CFG.NCH : Field := ⟨TUNE_CAP_CFG, 3, 1⟩
abbrev TUNE_CAP_CFG.EN : Field := ⟨TUNE_CAP_CFG, 0, 0⟩
/-- The register TUNE_CAP_FRAMES of `09_tuning_and_trace.md`. -/
abbrev TUNE_CAP_FRAMES : Nat := 0x40050044
abbrev TUNE_CAP_FRAMES.VALUE : Field := ⟨TUNE_CAP_FRAMES, 31, 0⟩
/-- The register TUNE_CAP_COUNT of `09_tuning_and_trace.md`. -/
abbrev TUNE_CAP_COUNT : Nat := 0x40050048
abbrev TUNE_CAP_COUNT.VALUE : Field := ⟨TUNE_CAP_COUNT, 31, 0⟩
/-- The register TUNE_CAP_SRC of `09_tuning_and_trace.md`. -/
abbrev TUNE_CAP_SRC (n : Nat) : Nat := 0x40050050 + 0x4 * n
abbrev TUNE_CAP_SRC.SRC_HI (n : Nat) : Field := ⟨TUNE_CAP_SRC n, 31, 16⟩
abbrev TUNE_CAP_SRC.SRC_LO (n : Nat) : Field := ⟨TUNE_CAP_SRC n, 15, 0⟩
/-- The register TUNE_TRC_SRC of `09_tuning_and_trace.md`. -/
abbrev TUNE_TRC_SRC (n : Nat) : Nat := 0x40050090 + 0x4 * n
abbrev TUNE_TRC_SRC.SRC_HI (n : Nat) : Field := ⟨TUNE_TRC_SRC n, 31, 16⟩
abbrev TUNE_TRC_SRC.SRC_LO (n : Nat) : Field := ⟨TUNE_TRC_SRC n, 15, 0⟩
/-- The register TUNE_TRC_CFG of `09_tuning_and_trace.md`. -/
abbrev TUNE_TRC_CFG : Nat := 0x40050080
abbrev TUNE_TRC_CFG.DEC : Field := ⟨TUNE_TRC_CFG, 31, 16⟩
abbrev TUNE_TRC_CFG.TSLOT : Field := ⟨TUNE_TRC_CFG, 15, 10⟩
abbrev TUNE_TRC_CFG.TCH : Field := ⟨TUNE_TRC_CFG, 9, 7⟩
abbrev TUNE_TRC_CFG.EDGE : Field := ⟨TUNE_TRC_CFG, 6, 5⟩
abbrev TUNE_TRC_CFG.ABOVE : Field := ⟨TUNE_TRC_CFG, 4, 4⟩
abbrev TUNE_TRC_CFG.TRIG : Field := ⟨TUNE_TRC_CFG, 3, 2⟩
/-- The register TUNE_TRC_NCH of `09_tuning_and_trace.md`. -/
abbrev TUNE_TRC_NCH : Nat := 0x40050084
abbrev TUNE_TRC_NCH.NCH : Field := ⟨TUNE_TRC_NCH, 2, 0⟩
/-- The register TUNE_TRC_THR of `09_tuning_and_trace.md`. -/
abbrev TUNE_TRC_THR : Nat := 0x400500A0
abbrev TUNE_TRC_THR.VALUE : Field := ⟨TUNE_TRC_THR, 31, 0⟩
/-- The register TUNE_TRC_PRE of `09_tuning_and_trace.md`. -/
abbrev TUNE_TRC_PRE : Nat := 0x400500A4
abbrev TUNE_TRC_PRE.VALUE : Field := ⟨TUNE_TRC_PRE, 31, 0⟩
/-- The register TUNE_TRC_POST of `09_tuning_and_trace.md`. -/
abbrev TUNE_TRC_POST : Nat := 0x400500A8
abbrev TUNE_TRC_POST.VALUE : Field := ⟨TUNE_TRC_POST, 31, 0⟩
/-- The register TUNE_TRC_FMASK of `09_tuning_and_trace.md`. -/
abbrev TUNE_TRC_FMASK : Nat := 0x400500AC
abbrev TUNE_TRC_FMASK.EVENTS : Field := ⟨TUNE_TRC_FMASK, 6, 0⟩
/-- The register TUNE_TRC_CTL of `09_tuning_and_trace.md`. -/
abbrev TUNE_TRC_CTL : Nat := 0x400500B0
abbrev TUNE_TRC_CTL.STOP : Field := ⟨TUNE_TRC_CTL, 1, 1⟩
abbrev TUNE_TRC_CTL.ARMED : Field := ⟨TUNE_TRC_CTL, 0, 0⟩
/-- The register TUNE_TRC_STAT of `09_tuning_and_trace.md`. -/
abbrev TUNE_TRC_STAT : Nat := 0x400500B4
abbrev TUNE_TRC_STAT.FROZEN : Field := ⟨TUNE_TRC_STAT, 25, 25⟩
abbrev TUNE_TRC_STAT.DONE : Field := ⟨TUNE_TRC_STAT, 24, 24⟩
abbrev TUNE_TRC_STAT.TPOS : Field := ⟨TUNE_TRC_STAT, 23, 0⟩
/-- The register SA_CTL of `11_solver_jobs.md`. -/
abbrev SA_CTL : Nat := 0x40060000
abbrev SA_CTL.SEALED : Field := ⟨SA_CTL, 1, 1⟩
abbrev SA_CTL.EN : Field := ⟨SA_CTL, 0, 0⟩
/-- The register SA_STAT of `11_solver_jobs.md`. -/
abbrev SA_STAT : Nat := 0x40060004
abbrev SA_STAT.QUEUED : Field := ⟨SA_STAT, 21, 16⟩
abbrev SA_STAT.GROUPS : Field := ⟨SA_STAT, 15, 8⟩
abbrev SA_STAT.FROZEN : Field := ⟨SA_STAT, 5, 5⟩
abbrev SA_STAT.PRE : Field := ⟨SA_STAT, 4, 4⟩
abbrev SA_STAT.RUN : Field := ⟨SA_STAT, 3, 3⟩
abbrev SA_STAT.RPRIO : Field := ⟨SA_STAT, 1, 0⟩
/-- The register SA_EVT of `11_solver_jobs.md`. -/
abbrev SA_EVT : Nat := 0x40060008
abbrev SA_EVT.DONE : Field := ⟨SA_EVT, 3, 0⟩
/-- The register SA_IEN of `11_solver_jobs.md`. -/
abbrev SA_IEN : Nat := 0x4006000C
abbrev SA_IEN.DONE : Field := ⟨SA_IEN, 3, 0⟩
/-- The register SA_SUBMIT of `11_solver_jobs.md`. -/
abbrev SA_SUBMIT (n : Nat) : Nat := 0x40060010 + 0x4 * n
abbrev SA_SUBMIT.ADDR (n : Nat) : Field := ⟨SA_SUBMIT n, 31, 0⟩
/-- The register SA_SUB_STAT of `11_solver_jobs.md`. -/
abbrev SA_SUB_STAT : Nat := 0x40060020
abbrev SA_SUB_STAT.TAG : Field := ⟨SA_SUB_STAT, 31, 16⟩
abbrev SA_SUB_STAT.CODE : Field := ⟨SA_SUB_STAT, 15, 8⟩
abbrev SA_SUB_STAT.IGNORED : Field := ⟨SA_SUB_STAT, 1, 1⟩
abbrev SA_SUB_STAT.BUSY : Field := ⟨SA_SUB_STAT, 0, 0⟩
/-- The register SA_EST of `11_solver_jobs.md`. -/
abbrev SA_EST : Nat := 0x40060024
abbrev SA_EST.TICKS : Field := ⟨SA_EST, 31, 0⟩
/-- The register SA_DONE_CNT of `11_solver_jobs.md`. -/
abbrev SA_DONE_CNT (n : Nat) : Nat := 0x40060030 + 0x4 * n
abbrev SA_DONE_CNT.COUNT (n : Nat) : Field := ⟨SA_DONE_CNT n, 31, 0⟩
/-- The register SA_LAST of `11_solver_jobs.md`. -/
abbrev SA_LAST (n : Nat) : Nat := 0x40060040 + 0x4 * n
abbrev SA_LAST.WORD (n : Nat) : Field := ⟨SA_LAST n, 31, 0⟩
/-- The register SA_SWAP of `11_solver_jobs.md`. -/
abbrev SA_SWAP : Nat := 0x40060060
abbrev SA_SWAP.GO : Field := ⟨SA_SWAP, 3, 3⟩
abbrev SA_SWAP.SLOT : Field := ⟨SA_SWAP, 2, 0⟩
/-- The register SA_SWAP_STAT of `11_solver_jobs.md`. -/
abbrev SA_SWAP_STAT : Nat := 0x40060064
abbrev SA_SWAP_STAT.CODE : Field := ⟨SA_SWAP_STAT, 23, 16⟩
abbrev SA_SWAP_STAT.DONE : Field := ⟨SA_SWAP_STAT, 15, 8⟩
abbrev SA_SWAP_STAT.PEND : Field := ⟨SA_SWAP_STAT, 7, 0⟩
/-- The register SA_GROUP of `11_solver_jobs.md`. -/
abbrev SA_GROUP : Nat := 0x40060068
abbrev SA_GROUP.FAILED : Field := ⟨SA_GROUP, 23, 16⟩
abbrev SA_GROUP.BIST : Field := ⟨SA_GROUP, 15, 8⟩
abbrev SA_GROUP.INSERV : Field := ⟨SA_GROUP, 7, 0⟩
/-- The register PT_CTL of `12_plug_tracker.md`. -/
abbrev PT_CTL : Nat := 0x40070000
abbrev PT_CTL.SEALED : Field := ⟨PT_CTL, 1, 1⟩
abbrev PT_CTL.EN : Field := ⟨PT_CTL, 0, 0⟩
/-- The register PT_STAT of `12_plug_tracker.md`. -/
abbrev PT_STAT : Nat := 0x40070004
abbrev PT_STAT.UPD_SEQ : Field := ⟨PT_STAT, 31, 16⟩
abbrev PT_STAT.CODE : Field := ⟨PT_STAT, 15, 8⟩
abbrev PT_STAT.IGN_WR : Field := ⟨PT_STAT, 7, 0⟩
/-- The register PT_EVT of `12_plug_tracker.md`. -/
abbrev PT_EVT : Nat := 0x40070008
abbrev PT_EVT.FMERGE : Field := ⟨PT_EVT, 2, 2⟩
abbrev PT_EVT.COMMIT : Field := ⟨PT_EVT, 1, 1⟩
abbrev PT_EVT.UPD : Field := ⟨PT_EVT, 0, 0⟩
/-- The register PT_IEN of `12_plug_tracker.md`. -/
abbrev PT_IEN : Nat := 0x4007000C
abbrev PT_IEN.FMERGE : Field := ⟨PT_IEN, 2, 2⟩
abbrev PT_IEN.COMMIT : Field := ⟨PT_IEN, 1, 1⟩
abbrev PT_IEN.UPD : Field := ⟨PT_IEN, 0, 0⟩
/-- The register PT_CFG of `12_plug_tracker.md`. -/
abbrev PT_CFG : Nat := 0x40070010
abbrev PT_CFG.PERIOD : Field := ⟨PT_CFG, 31, 12⟩
abbrev PT_CFG.MAGE : Field := ⟨PT_CFG, 7, 4⟩
abbrev PT_CFG.MTOL : Field := ⟨PT_CFG, 3, 0⟩
/-- The register PT_POOL of `12_plug_tracker.md`. -/
abbrev PT_POOL : Nat := 0x40070014
abbrev PT_POOL.SIZE : Field := ⟨PT_POOL, 16, 0⟩
/-- The register PT_COMMIT of `12_plug_tracker.md`. -/
abbrev PT_COMMIT : Nat := 0x40070018
abbrev PT_COMMIT.GO : Field := ⟨PT_COMMIT, 9, 9⟩
abbrev PT_COMMIT.OUT : Field := ⟨PT_COMMIT, 8, 8⟩
abbrev PT_COMMIT.INDEX : Field := ⟨PT_COMMIT, 7, 0⟩
/-- The register PT_SEG_RING of `12_plug_tracker.md`. -/
abbrev PT_SEG_RING (n : Nat) : Nat := 0x40071000 + 0x40 * n
abbrev PT_SEG_RING.CAP (n : Nat) : Field := ⟨PT_SEG_RING n, 31, 16⟩
abbrev PT_SEG_RING.BASE (n : Nat) : Field := ⟨PT_SEG_RING n, 15, 0⟩
/-- The register PT_SEG_SRC of `12_plug_tracker.md`. -/
abbrev PT_SEG_SRC (n : Nat) : Nat := 0x40071004 + 0x40 * n
abbrev PT_SEG_SRC.AKIND (n : Nat) : Field := ⟨PT_SEG_SRC n, 31, 30⟩
abbrev PT_SEG_SRC.AIDX (n : Nat) : Field := ⟨PT_SEG_SRC n, 29, 26⟩
abbrev PT_SEG_SRC.FKIND (n : Nat) : Field := ⟨PT_SEG_SRC n, 25, 24⟩
abbrev PT_SEG_SRC.FIDX (n : Nat) : Field := ⟨PT_SEG_SRC n, 23, 21⟩
abbrev PT_SEG_SRC.IKIND (n : Nat) : Field := ⟨PT_SEG_SRC n, 20, 18⟩
abbrev PT_SEG_SRC.IIDX (n : Nat) : Field := ⟨PT_SEG_SRC n, 7, 0⟩
/-- The register PT_SEG_VOL of `12_plug_tracker.md`. -/
abbrev PT_SEG_VOL (n : Nat) : Nat := 0x40071008 + 0x40 * n
abbrev PT_SEG_VOL.VALUE (n : Nat) : Field := ⟨PT_SEG_VOL n, 31, 0⟩
/-- The register PT_SEG_AMB of `12_plug_tracker.md`. -/
abbrev PT_SEG_AMB (n : Nat) : Nat := 0x4007100C + 0x40 * n
abbrev PT_SEG_AMB.VALUE (n : Nat) : Field := ⟨PT_SEG_AMB n, 31, 0⟩
/-- The register PT_SEG_GAIN of `12_plug_tracker.md`. -/
abbrev PT_SEG_GAIN (n : Nat) : Nat := 0x40071010 + 0x40 * n
abbrev PT_SEG_GAIN.VALUE (n : Nat) : Field := ⟨PT_SEG_GAIN n, 31, 0⟩
/-- The register PT_SEG_SHARE of `12_plug_tracker.md`. -/
abbrev PT_SEG_SHARE (n : Nat) : Nat := 0x40071014 + 0x40 * n
abbrev PT_SEG_SHARE.VALUE (n : Nat) : Field := ⟨PT_SEG_SHARE n, 31, 0⟩
/-- The register PT_SEG_QW of `12_plug_tracker.md`. -/
abbrev PT_SEG_QW (n : Nat) : Nat := 0x40071018 + 0x40 * n
abbrev PT_SEG_QW.VALUE (n : Nat) : Field := ⟨PT_SEG_QW n, 31, 0⟩
/-- The register PT_SEG_TW of `12_plug_tracker.md`. -/
abbrev PT_SEG_TW (n : Nat) : Nat := 0x4007101C + 0x40 * n
abbrev PT_SEG_TW.VALUE (n : Nat) : Field := ⟨PT_SEG_TW n, 31, 0⟩
/-- The register PT_SEG_INIT of `12_plug_tracker.md`. -/
abbrev PT_SEG_INIT (n : Nat) : Nat := 0x40071020 + 0x40 * n
abbrev PT_SEG_INIT.VALUE (n : Nat) : Field := ⟨PT_SEG_INIT n, 31, 0⟩
/-- The register PT_SEG_TAU of `12_plug_tracker.md`. -/
abbrev PT_SEG_TAU (n : Nat) : Nat := 0x40071024 + 0x40 * n
abbrev PT_SEG_TAU.SEC (n : Nat) : Field := ⟨PT_SEG_TAU n, 31, 0⟩
/-- The register PT_SEG_STAT of `12_plug_tracker.md`. -/
abbrev PT_SEG_STAT (n : Nat) : Nat := 0x40071028 + 0x40 * n
abbrev PT_SEG_STAT.COUNT (n : Nat) : Field := ⟨PT_SEG_STAT n, 31, 16⟩
abbrev PT_SEG_STAT.FMERGE (n : Nat) : Field := ⟨PT_SEG_STAT n, 15, 4⟩
abbrev PT_SEG_STAT.REV (n : Nat) : Field := ⟨PT_SEG_STAT n, 3, 3⟩
abbrev PT_SEG_STAT.PEND (n : Nat) : Field := ⟨PT_SEG_STAT n, 2, 2⟩
abbrev PT_SEG_STAT.WARMUP (n : Nat) : Field := ⟨PT_SEG_STAT n, 1, 1⟩
abbrev PT_SEG_STAT.ACT (n : Nat) : Field := ⟨PT_SEG_STAT n, 0, 0⟩
/-- The register PT_SEG_TOUT of `12_plug_tracker.md`. -/
abbrev PT_SEG_TOUT (n : Nat) : Nat := 0x4007102C + 0x40 * n
abbrev PT_SEG_TOUT.VALUE (n : Nat) : Field := ⟨PT_SEG_TOUT n, 31, 0⟩
/-- The register PT_OUT_CFG of `12_plug_tracker.md`. -/
abbrev PT_OUT_CFG (n : Nat) : Nat := 0x40070100 + 0x20 * n
abbrev PT_OUT_CFG.EN (n : Nat) : Field := ⟨PT_OUT_CFG n, 31, 31⟩
abbrev PT_OUT_CFG.H (n : Nat) : Field := ⟨PT_OUT_CFG n, 30, 29⟩
abbrev PT_OUT_CFG.ALL (n : Nat) : Field := ⟨PT_OUT_CFG n, 28, 28⟩
abbrev PT_OUT_CFG.ARRAY (n : Nat) : Field := ⟨PT_OUT_CFG n, 27, 24⟩
abbrev PT_OUT_CFG.SEG (n : Nat) : Field := ⟨PT_OUT_CFG n, 23, 16⟩
abbrev PT_OUT_CFG.SLOT (n : Nat) : Field := ⟨PT_OUT_CFG n, 15, 13⟩
abbrev PT_OUT_CFG.BLK (n : Nat) : Field := ⟨PT_OUT_CFG n, 1, 0⟩
/-- The register PT_OUT_DST of `12_plug_tracker.md`. -/
abbrev PT_OUT_DST (n : Nat) : Nat := 0x40070104 + 0x20 * n
abbrev PT_OUT_DST.START (n : Nat) : Field := ⟨PT_OUT_DST n, 31, 16⟩
abbrev PT_OUT_DST.PROBLEM (n : Nat) : Field := ⟨PT_OUT_DST n, 15, 0⟩
/-- The register PT_OUT_GAIN of `12_plug_tracker.md`. -/
abbrev PT_OUT_GAIN (n : Nat) : Nat := 0x40070108 + 0x20 * n
abbrev PT_OUT_GAIN.VALUE (n : Nat) : Field := ⟨PT_OUT_GAIN n, 31, 0⟩
/-- The register PT_OUT_OFS of `12_plug_tracker.md`. -/
abbrev PT_OUT_OFS (n : Nat) : Nat := 0x4007010C + 0x20 * n
abbrev PT_OUT_OFS.VALUE (n : Nat) : Field := ⟨PT_OUT_OFS n, 31, 0⟩
/-- The register PT_OUT_STAT of `12_plug_tracker.md`. -/
abbrev PT_OUT_STAT (n : Nat) : Nat := 0x40070110 + 0x20 * n
abbrev PT_OUT_STAT.SEQ (n : Nat) : Field := ⟨PT_OUT_STAT n, 31, 3⟩
abbrev PT_OUT_STAT.FCBAD (n : Nat) : Field := ⟨PT_OUT_STAT n, 2, 2⟩
abbrev PT_OUT_STAT.WARM (n : Nat) : Field := ⟨PT_OUT_STAT n, 1, 1⟩
/-- The register PT_FCQ of `12_plug_tracker.md`. -/
abbrev PT_FCQ (n : Nat) (m : Nat) : Nat := 0x40078000 + 0x400 * n + 0x4 * m
abbrev PT_FCQ.VALUE (n : Nat) (m : Nat) : Field := ⟨PT_FCQ n m, 31, 0⟩
/-- The register PT_FCT of `12_plug_tracker.md`. -/
abbrev PT_FCT (n : Nat) (m : Nat) : Nat := 0x40078200 + 0x400 * n + 0x4 * m
abbrev PT_FCT.VALUE (n : Nat) (m : Nat) : Field := ⟨PT_FCT n m, 31, 0⟩
/-- The register SYS_RND_CFG of `13_planning_rounds.md`. -/
abbrev SYS_RND_CFG : Nat := 0x400000C0
abbrev SYS_RND_CFG.COLLECT : Field := ⟨SYS_RND_CFG, 31, 26⟩
abbrev SYS_RND_CFG.REPLY_END : Field := ⟨SYS_RND_CFG, 25, 20⟩
abbrev SYS_RND_CFG.SOLVE_END : Field := ⟨SYS_RND_CFG, 19, 14⟩
abbrev SYS_RND_CFG.PERIOD : Field := ⟨SYS_RND_CFG, 13, 0⟩
/-- The register SYS_RND_CFG2 of `13_planning_rounds.md`. -/
abbrev SYS_RND_CFG2 : Nat := 0x400000C4
abbrev SYS_RND_CFG2.CAND : Field := ⟨SYS_RND_CFG2, 24, 24⟩
abbrev SYS_RND_CFG2.RANK : Field := ⟨SYS_RND_CFG2, 23, 21⟩
abbrev SYS_RND_CFG2.MISS_DROP : Field := ⟨SYS_RND_CFG2, 20, 13⟩
abbrev SYS_RND_CFG2.RND_MAX : Field := ⟨SYS_RND_CFG2, 12, 8⟩
abbrev SYS_RND_CFG2.PUBLISH : Field := ⟨SYS_RND_CFG2, 5, 0⟩
/-- The register SYS_RND_NUM of `13_planning_rounds.md`. -/
abbrev SYS_RND_NUM : Nat := 0x400000C8
abbrev SYS_RND_NUM.ROUND : Field := ⟨SYS_RND_NUM, 31, 0⟩
/-- The register SYS_RND_NEXT_LO of `13_planning_rounds.md`. -/
abbrev SYS_RND_NEXT_LO : Nat := 0x400000CC
abbrev SYS_RND_NEXT_LO.VALUE : Field := ⟨SYS_RND_NEXT_LO, 31, 0⟩
/-- The register SYS_RND_NEXT_HI of `13_planning_rounds.md`. -/
abbrev SYS_RND_NEXT_HI : Nat := 0x400000D0
abbrev SYS_RND_NEXT_HI.VALUE : Field := ⟨SYS_RND_NEXT_HI, 31, 0⟩
/-- The register SYS_COORD of `13_planning_rounds.md`. -/
abbrev SYS_COORD : Nat := 0x400000D4
abbrev SYS_COORD.GRANT : Field := ⟨SYS_COORD, 31, 0⟩
/-- The register SYS_COORD_STAT of `13_planning_rounds.md`. -/
abbrev SYS_COORD_STAT : Nat := 0x400000D8
abbrev SYS_COORD_STAT.HOLD : Field := ⟨SYS_COORD_STAT, 31, 31⟩
abbrev SYS_COORD_STAT.NT_VALID : Field := ⟨SYS_COORD_STAT, 30, 30⟩
abbrev SYS_COORD_STAT.PRICE_REF : Field := ⟨SYS_COORD_STAT, 29, 29⟩
abbrev SYS_COORD_STAT.LEASE : Field := ⟨SYS_COORD_STAT, 18, 0⟩
/-- The register MH_CTL of `14_heat_metering.md`. -/
abbrev MH_CTL : Nat := 0x40080000
abbrev MH_CTL.SEALED : Field := ⟨MH_CTL, 1, 1⟩
abbrev MH_CTL.EN : Field := ⟨MH_CTL, 0, 0⟩
/-- The register MH_STAT of `14_heat_metering.md`. -/
abbrev MH_STAT : Nat := 0x40080004
abbrev MH_STAT.FULL : Field := ⟨MH_STAT, 2, 2⟩
abbrev MH_STAT.SEALV : Field := ⟨MH_STAT, 1, 1⟩
abbrev MH_STAT.MAUTH : Field := ⟨MH_STAT, 0, 0⟩
/-- The register MH_EVT of `14_heat_metering.md`. -/
abbrev MH_EVT : Nat := 0x40080008
abbrev MH_EVT.MAUTH_LOST : Field := ⟨MH_EVT, 18, 18⟩
abbrev MH_EVT.FULL : Field := ⟨MH_EVT, 17, 17⟩
abbrev MH_EVT.COMMIT : Field := ⟨MH_EVT, 16, 16⟩
abbrev MH_EVT.FAULT : Field := ⟨MH_EVT, 15, 8⟩
abbrev MH_EVT.STEP : Field := ⟨MH_EVT, 7, 0⟩
/-- The register MH_IEN of `14_heat_metering.md`. -/
abbrev MH_IEN : Nat := 0x4008000C
abbrev MH_IEN.MAUTH_LOST : Field := ⟨MH_IEN, 18, 18⟩
abbrev MH_IEN.FULL : Field := ⟨MH_IEN, 17, 17⟩
abbrev MH_IEN.COMMIT : Field := ⟨MH_IEN, 16, 16⟩
abbrev MH_IEN.FAULT : Field := ⟨MH_IEN, 15, 8⟩
abbrev MH_IEN.STEP : Field := ⟨MH_IEN, 7, 0⟩
/-- The register MH_LEDGER_NEXT of `14_heat_metering.md`. -/
abbrev MH_LEDGER_NEXT : Nat := 0x40080010
abbrev MH_LEDGER_NEXT.ENTRY_NO : Field := ⟨MH_LEDGER_NEXT, 31, 0⟩
/-- The register MH_LEDGER_HELD of `14_heat_metering.md`. -/
abbrev MH_LEDGER_HELD : Nat := 0x40080014
abbrev MH_LEDGER_HELD.LOST : Field := ⟨MH_LEDGER_HELD, 31, 16⟩
abbrev MH_LEDGER_HELD.COUNT : Field := ⟨MH_LEDGER_HELD, 12, 0⟩
/-- The register MH_LEDGER_ACK of `14_heat_metering.md`. -/
abbrev MH_LEDGER_ACK : Nat := 0x40080018
abbrev MH_LEDGER_ACK.ENTRY_NO : Field := ⟨MH_LEDGER_ACK, 31, 0⟩
/-- The register MH_SEAL_CMD of `14_heat_metering.md`. -/
abbrev MH_SEAL_CMD : Nat := 0x40080020
abbrev MH_SEAL_CMD.KEY : Field := ⟨MH_SEAL_CMD, 31, 16⟩
abbrev MH_SEAL_CMD.NUM : Field := ⟨MH_SEAL_CMD, 8, 4⟩
abbrev MH_SEAL_CMD.GO : Field := ⟨MH_SEAL_CMD, 0, 0⟩
/-- The register MH_SEAL_STAT of `14_heat_metering.md`. -/
abbrev MH_SEAL_STAT : Nat := 0x40080024
abbrev MH_SEAL_STAT.ENTRY : Field := ⟨MH_SEAL_STAT, 23, 16⟩
abbrev MH_SEAL_STAT.CODE : Field := ⟨MH_SEAL_STAT, 15, 8⟩
abbrev MH_SEAL_STAT.BUSY : Field := ⟨MH_SEAL_STAT, 0, 0⟩
/-- The register MH_SEAL_ENT_ID of `14_heat_metering.md`. -/
abbrev MH_SEAL_ENT_ID (n : Nat) : Nat := 0x40080100 + 0x8 * n
abbrev MH_SEAL_ENT_ID.BLOCK (n : Nat) : Field := ⟨MH_SEAL_ENT_ID n, 31, 24⟩
abbrev MH_SEAL_ENT_ID.INSTANCE (n : Nat) : Field := ⟨MH_SEAL_ENT_ID n, 23, 16⟩
abbrev MH_SEAL_ENT_ID.FIELD_ID (n : Nat) : Field := ⟨MH_SEAL_ENT_ID n, 15, 0⟩
/-- The register MH_SEAL_ENT_VAL of `14_heat_metering.md`. -/
abbrev MH_SEAL_ENT_VAL (n : Nat) : Nat := 0x40080104 + 0x8 * n
abbrev MH_SEAL_ENT_VAL.VALUE (n : Nat) : Field := ⟨MH_SEAL_ENT_VAL n, 31, 0⟩
/-- The register MH_C_CFG of `14_heat_metering.md`. -/
abbrev MH_C_CFG (n : Nat) : Nat := 0x40081000 + 0x200 * n
abbrev MH_C_CFG.E_UNIT (n : Nat) : Field := ⟨MH_C_CFG n, 31, 28⟩
abbrev MH_C_CFG.V_UNIT (n : Nat) : Field := ⟨MH_C_CFG n, 27, 26⟩
abbrev MH_C_CFG.FLOW_POS (n : Nat) : Field := ⟨MH_C_CFG n, 25, 25⟩
abbrev MH_C_CFG.FLOW_KIND (n : Nat) : Field := ⟨MH_C_CFG n, 24, 24⟩
abbrev MH_C_CFG.FLOW_IDX (n : Nat) : Field := ⟨MH_C_CFG n, 23, 20⟩
abbrev MH_C_CFG.RTD_R (n : Nat) : Field := ⟨MH_C_CFG n, 19, 16⟩
abbrev MH_C_CFG.RTD_S (n : Nat) : Field := ⟨MH_C_CFG n, 15, 12⟩
abbrev MH_C_CFG.MODE (n : Nat) : Field := ⟨MH_C_CFG n, 1, 0⟩
/-- The register MH_C_STAT of `14_heat_metering.md`. -/
abbrev MH_C_STAT (n : Nat) : Nat := 0x40081004 + 0x200 * n
abbrev MH_C_STAT.SEEN (n : Nat) : Field := ⟨MH_C_STAT n, 15, 10⟩
abbrev MH_C_STAT.REV (n : Nat) : Field := ⟨MH_C_STAT n, 7, 7⟩
abbrev MH_C_STAT.FAULT (n : Nat) : Field := ⟨MH_C_STAT n, 6, 6⟩
abbrev MH_C_STAT.CAUSE (n : Nat) : Field := ⟨MH_C_STAT n, 5, 0⟩
/-- The register MH_C_TS of `14_heat_metering.md`. -/
abbrev MH_C_TS (n : Nat) : Nat := 0x40081008 + 0x200 * n
abbrev MH_C_TS.VALUE (n : Nat) : Field := ⟨MH_C_TS n, 31, 0⟩
/-- The register MH_C_TR of `14_heat_metering.md`. -/
abbrev MH_C_TR (n : Nat) : Nat := 0x4008100C + 0x200 * n
abbrev MH_C_TR.VALUE (n : Nat) : Field := ⟨MH_C_TR n, 31, 0⟩
/-- The register MH_C_FLOW of `14_heat_metering.md`. -/
abbrev MH_C_FLOW (n : Nat) : Nat := 0x40081010 + 0x200 * n
abbrev MH_C_FLOW.VALUE (n : Nat) : Field := ⟨MH_C_FLOW n, 31, 0⟩
/-- The register MH_C_POWER of `14_heat_metering.md`. -/
abbrev MH_C_POWER (n : Nat) : Nat := 0x40081014 + 0x200 * n
abbrev MH_C_POWER.VALUE (n : Nat) : Field := ⟨MH_C_POWER n, 31, 0⟩
/-- The register MH_C_FTIME of `14_heat_metering.md`. -/
abbrev MH_C_FTIME (n : Nat) : Nat := 0x40081018 + 0x200 * n
abbrev MH_C_FTIME.VALUE (n : Nat) : Field := ⟨MH_C_FTIME n, 31, 0⟩
/-- The register MH_C_SEQ of `14_heat_metering.md`. -/
abbrev MH_C_SEQ (n : Nat) : Nat := 0x4008101C + 0x200 * n
abbrev MH_C_SEQ.VALUE (n : Nat) : Field := ⟨MH_C_SEQ n, 31, 0⟩
/-- The register MH_C_FIELD of `14_heat_metering.md`. -/
abbrev MH_C_FIELD (n : Nat) (m : Nat) : Nat := 0x40081080 + 0x200 * n + 0x4 * m
abbrev MH_C_FIELD.VALUE (n : Nat) (m : Nat) : Field := ⟨MH_C_FIELD n m, 31, 0⟩
/-- The register MH_C_ACC_LO of `14_heat_metering.md`. -/
abbrev MH_C_ACC_LO (n : Nat) (m : Nat) : Nat := 0x40081100 + 0x200 * n + 0x10 * m
abbrev MH_C_ACC_LO.VALUE (n : Nat) (m : Nat) : Field := ⟨MH_C_ACC_LO n m, 31, 0⟩
/-- The register MH_C_ACC_HI of `14_heat_metering.md`. -/
abbrev MH_C_ACC_HI (n : Nat) (m : Nat) : Nat := 0x40081104 + 0x200 * n + 0x10 * m
abbrev MH_C_ACC_HI.VALUE (n : Nat) (m : Nat) : Field := ⟨MH_C_ACC_HI n m, 31, 0⟩
/-- The register MH_C_BILL of `14_heat_metering.md`. -/
abbrev MH_C_BILL (n : Nat) (m : Nat) : Nat := 0x40081108 + 0x200 * n + 0x10 * m
abbrev MH_C_BILL.BILL (n : Nat) (m : Nat) : Field := ⟨MH_C_BILL n m, 29, 0⟩
/-- The register MH_C_WRAP of `14_heat_metering.md`. -/
abbrev MH_C_WRAP (n : Nat) (m : Nat) : Nat := 0x4008110C + 0x200 * n + 0x10 * m
abbrev MH_C_WRAP.WRAP (n : Nat) (m : Nat) : Field := ⟨MH_C_WRAP n m, 15, 0⟩
/-- The register ANA_RTD_CFG of `14_heat_metering.md`. -/
abbrev ANA_RTD_CFG (n : Nat) : Nat := 0x40110100 + 0x10 * n
abbrev ANA_RTD_CFG.PERIOD (n : Nat) : Field := ⟨ANA_RTD_CFG n, 31, 12⟩
abbrev ANA_RTD_CFG.WIRE4 (n : Nat) : Field := ⟨ANA_RTD_CFG n, 3, 3⟩
abbrev ANA_RTD_CFG.TYPE (n : Nat) : Field := ⟨ANA_RTD_CFG n, 2, 1⟩
abbrev ANA_RTD_CFG.EN (n : Nat) : Field := ⟨ANA_RTD_CFG n, 0, 0⟩
/-- The register ANA_RTD_VAL of `14_heat_metering.md`. -/
abbrev ANA_RTD_VAL (n : Nat) : Nat := 0x40110104 + 0x10 * n
abbrev ANA_RTD_VAL.VALUE (n : Nat) : Field := ⟨ANA_RTD_VAL n, 31, 0⟩
/-- The register ANA_RTD_STAT of `14_heat_metering.md`. -/
abbrev ANA_RTD_STAT (n : Nat) : Nat := 0x40110108 + 0x10 * n
abbrev ANA_RTD_STAT.PAIRED (n : Nat) : Field := ⟨ANA_RTD_STAT n, 3, 3⟩
abbrev ANA_RTD_STAT.INVALID (n : Nat) : Field := ⟨ANA_RTD_STAT n, 2, 2⟩
abbrev ANA_RTD_STAT.SHORT (n : Nat) : Field := ⟨ANA_RTD_STAT n, 1, 1⟩
abbrev ANA_RTD_STAT.OPEN (n : Nat) : Field := ⟨ANA_RTD_STAT n, 0, 0⟩
/-- The register ME_CTL of `15_electrical_metering.md`. -/
abbrev ME_CTL : Nat := 0x40090000
abbrev ME_CTL.SEALED : Field := ⟨ME_CTL, 1, 1⟩
abbrev ME_CTL.EN : Field := ⟨ME_CTL, 0, 0⟩
/-- The register ME_STAT of `15_electrical_metering.md`. -/
abbrev ME_STAT : Nat := 0x40090004
abbrev ME_STAT.BIST : Field := ⟨ME_STAT, 2, 2⟩
abbrev ME_STAT.COPY : Field := ⟨ME_STAT, 1, 1⟩
abbrev ME_STAT.SHADOW : Field := ⟨ME_STAT, 0, 0⟩
/-- The register ME_P_CFG of `15_electrical_metering.md`. -/
abbrev ME_P_CFG (n : Nat) : Nat := 0x40091000 + 0x400 * n
abbrev ME_P_CFG.E_UNIT (n : Nat) : Field := ⟨ME_P_CFG n, 7, 4⟩
abbrev ME_P_CFG.F_NOM (n : Nat) : Field := ⟨ME_P_CFG n, 3, 3⟩
abbrev ME_P_CFG.MODE (n : Nat) : Field := ⟨ME_P_CFG n, 1, 0⟩
/-- The register ME_P_STAT of `15_electrical_metering.md`. -/
abbrev ME_P_STAT (n : Nat) : Nat := 0x40091004 + 0x400 * n
abbrev ME_P_STAT.CLIP (n : Nat) : Field := ⟨ME_P_STAT n, 14, 11⟩
abbrev ME_P_STAT.NEUTRAL (n : Nat) : Field := ⟨ME_P_STAT n, 10, 10⟩
abbrev ME_P_STAT.SEQ (n : Nat) : Field := ⟨ME_P_STAT n, 9, 9⟩
abbrev ME_P_STAT.PLOSS (n : Nat) : Field := ⟨ME_P_STAT n, 8, 6⟩
abbrev ME_P_STAT.SWELL (n : Nat) : Field := ⟨ME_P_STAT n, 5, 3⟩
abbrev ME_P_STAT.SAG (n : Nat) : Field := ⟨ME_P_STAT n, 2, 0⟩
/-- The register ME_P_GAIN of `15_electrical_metering.md`. -/
abbrev ME_P_GAIN (n : Nat) : Nat := 0x40091008 + 0x400 * n
abbrev ME_P_GAIN.SWITCHES (n : Nat) : Field := ⟨ME_P_GAIN n, 31, 16⟩
abbrev ME_P_GAIN.GAIN (n : Nat) : Field := ⟨ME_P_GAIN n, 7, 0⟩
/-- The register ME_P_SEQ of `15_electrical_metering.md`. -/
abbrev ME_P_SEQ (n : Nat) : Nat := 0x4009100C + 0x400 * n
abbrev ME_P_SEQ.VALUE (n : Nat) : Field := ⟨ME_P_SEQ n, 31, 0⟩
/-- The register ME_P_EVT of `15_electrical_metering.md`. -/
abbrev ME_P_EVT (n : Nat) : Nat := 0x40091010 + 0x400 * n
abbrev ME_P_EVT.GAIN (n : Nat) : Field := ⟨ME_P_EVT n, 7, 7⟩
abbrev ME_P_EVT.CLIP (n : Nat) : Field := ⟨ME_P_EVT n, 6, 6⟩
abbrev ME_P_EVT.NEUTRAL (n : Nat) : Field := ⟨ME_P_EVT n, 5, 5⟩
abbrev ME_P_EVT.SEQ (n : Nat) : Field := ⟨ME_P_EVT n, 4, 4⟩
abbrev ME_P_EVT.PLOSS (n : Nat) : Field := ⟨ME_P_EVT n, 3, 3⟩
abbrev ME_P_EVT.SWELL (n : Nat) : Field := ⟨ME_P_EVT n, 2, 2⟩
abbrev ME_P_EVT.SAG (n : Nat) : Field := ⟨ME_P_EVT n, 1, 1⟩
abbrev ME_P_EVT.BLOCK (n : Nat) : Field := ⟨ME_P_EVT n, 0, 0⟩
/-- The register ME_P_IEN of `15_electrical_metering.md`. -/
abbrev ME_P_IEN (n : Nat) : Nat := 0x40091014 + 0x400 * n
abbrev ME_P_IEN.GAIN (n : Nat) : Field := ⟨ME_P_IEN n, 7, 7⟩
abbrev ME_P_IEN.CLIP (n : Nat) : Field := ⟨ME_P_IEN n, 6, 6⟩
abbrev ME_P_IEN.NEUTRAL (n : Nat) : Field := ⟨ME_P_IEN n, 5, 5⟩
abbrev ME_P_IEN.SEQ (n : Nat) : Field := ⟨ME_P_IEN n, 4, 4⟩
abbrev ME_P_IEN.PLOSS (n : Nat) : Field := ⟨ME_P_IEN n, 3, 3⟩
abbrev ME_P_IEN.SWELL (n : Nat) : Field := ⟨ME_P_IEN n, 2, 2⟩
abbrev ME_P_IEN.SAG (n : Nat) : Field := ⟨ME_P_IEN n, 1, 1⟩
abbrev ME_P_IEN.BLOCK (n : Nat) : Field := ⟨ME_P_IEN n, 0, 0⟩
/-- The register ME_P_VAL of `15_electrical_metering.md`. -/
abbrev ME_P_VAL (n : Nat) (m : Nat) : Nat := 0x40091040 + 0x400 * n + 0x4 * m
abbrev ME_P_VAL.VALUE (n : Nat) (m : Nat) : Field := ⟨ME_P_VAL n m, 31, 0⟩
/-- The register ME_P_FIELD of `15_electrical_metering.md`. -/
abbrev ME_P_FIELD (n : Nat) (m : Nat) : Nat := 0x40091200 + 0x400 * n + 0x4 * m
abbrev ME_P_FIELD.VALUE (n : Nat) (m : Nat) : Field := ⟨ME_P_FIELD n m, 31, 0⟩
/-- The register ME_P_ACC_LO of `15_electrical_metering.md`. -/
abbrev ME_P_ACC_LO (n : Nat) (m : Nat) : Nat := 0x40091100 + 0x400 * n + 0x10 * m
abbrev ME_P_ACC_LO.VALUE (n : Nat) (m : Nat) : Field := ⟨ME_P_ACC_LO n m, 31, 0⟩
/-- The register ME_P_ACC_HI of `15_electrical_metering.md`. -/
abbrev ME_P_ACC_HI (n : Nat) (m : Nat) : Nat := 0x40091104 + 0x400 * n + 0x10 * m
abbrev ME_P_ACC_HI.VALUE (n : Nat) (m : Nat) : Field := ⟨ME_P_ACC_HI n m, 31, 0⟩
/-- The register ME_P_BILL of `15_electrical_metering.md`. -/
abbrev ME_P_BILL (n : Nat) (m : Nat) : Nat := 0x40091108 + 0x400 * n + 0x10 * m
abbrev ME_P_BILL.BILL (n : Nat) (m : Nat) : Field := ⟨ME_P_BILL n m, 29, 0⟩
/-- The register ME_P_WRAP of `15_electrical_metering.md`. -/
abbrev ME_P_WRAP (n : Nat) (m : Nat) : Nat := 0x4009110C + 0x400 * n + 0x10 * m
abbrev ME_P_WRAP.WRAP (n : Nat) (m : Nat) : Field := ⟨ME_P_WRAP n m, 15, 0⟩
/-- The register SYS_TOT_CFG of `16_totals_across_outages.md`. -/
abbrev SYS_TOT_CFG : Nat := 0x40000100
abbrev SYS_TOT_CFG.PERIOD : Field := ⟨SYS_TOT_CFG, 11, 0⟩
/-- The register SYS_TOT_STAT of `16_totals_across_outages.md`. -/
abbrev SYS_TOT_STAT : Nat := 0x40000104
abbrev SYS_TOT_STAT.CODE : Field := ⟨SYS_TOT_STAT, 23, 16⟩
abbrev SYS_TOT_STAT.UNSAVED : Field := ⟨SYS_TOT_STAT, 6, 6⟩
abbrev SYS_TOT_STAT.MERGED : Field := ⟨SYS_TOT_STAT, 5, 5⟩
abbrev SYS_TOT_STAT.AREA : Field := ⟨SYS_TOT_STAT, 4, 4⟩
abbrev SYS_TOT_STAT.KIND : Field := ⟨SYS_TOT_STAT, 3, 1⟩
abbrev SYS_TOT_STAT.BUSY : Field := ⟨SYS_TOT_STAT, 0, 0⟩
/-- The register SYS_TOT_SEQ of `16_totals_across_outages.md`. -/
abbrev SYS_TOT_SEQ : Nat := 0x40000108
abbrev SYS_TOT_SEQ.SEQ : Field := ⟨SYS_TOT_SEQ, 31, 0⟩
/-- The register SYS_TOT_OUT of `16_totals_across_outages.md`. -/
abbrev SYS_TOT_OUT : Nat := 0x4000010C
abbrev SYS_TOT_OUT.SEC : Field := ⟨SYS_TOT_OUT, 31, 0⟩
/-- The register CAN_CTL of `17_message_bus.md`. -/
abbrev CAN_CTL (n : Nat) : Nat := 0x400A0000 + 0x2000 * n
abbrev CAN_CTL.WUP (n : Nat) : Field := ⟨CAN_CTL n, 6, 6⟩
abbrev CAN_CTL.RECOVER (n : Nat) : Field := ⟨CAN_CTL n, 5, 5⟩
abbrev CAN_CTL.ABOR (n : Nat) : Field := ⟨CAN_CTL n, 4, 4⟩
abbrev CAN_CTL.RASM (n : Nat) : Field := ⟨CAN_CTL n, 3, 3⟩
abbrev CAN_CTL.MODE (n : Nat) : Field := ⟨CAN_CTL n, 2, 1⟩
abbrev CAN_CTL.EN (n : Nat) : Field := ⟨CAN_CTL n, 0, 0⟩
/-- The register CAN_STAT of `17_message_bus.md`. -/
abbrev CAN_STAT (n : Nat) : Nat := 0x400A0004 + 0x2000 * n
abbrev CAN_STAT.STATE (n : Nat) : Field := ⟨CAN_STAT n, 25, 24⟩
abbrev CAN_STAT.REC (n : Nat) : Field := ⟨CAN_STAT n, 23, 16⟩
abbrev CAN_STAT.TEC (n : Nat) : Field := ⟨CAN_STAT n, 15, 8⟩
abbrev CAN_STAT.RESTR (n : Nat) : Field := ⟨CAN_STAT n, 0, 0⟩
/-- The register CAN_NBT of `17_message_bus.md`. -/
abbrev CAN_NBT (n : Nat) : Nat := 0x400A0008 + 0x2000 * n
abbrev CAN_NBT.SJW (n : Nat) : Field := ⟨CAN_NBT n, 31, 25⟩
abbrev CAN_NBT.TSEG1 (n : Nat) : Field := ⟨CAN_NBT n, 24, 17⟩
abbrev CAN_NBT.TSEG2 (n : Nat) : Field := ⟨CAN_NBT n, 16, 10⟩
abbrev CAN_NBT.TDCO (n : Nat) : Field := ⟨CAN_NBT n, 9, 5⟩
abbrev CAN_NBT.BRP (n : Nat) : Field := ⟨CAN_NBT n, 4, 0⟩
/-- The register CAN_DBT of `17_message_bus.md`. -/
abbrev CAN_DBT (n : Nat) : Nat := 0x400A000C + 0x2000 * n
abbrev CAN_DBT.SJW (n : Nat) : Field := ⟨CAN_DBT n, 31, 25⟩
abbrev CAN_DBT.TSEG1 (n : Nat) : Field := ⟨CAN_DBT n, 24, 17⟩
abbrev CAN_DBT.TSEG2 (n : Nat) : Field := ⟨CAN_DBT n, 16, 10⟩
abbrev CAN_DBT.TDCO (n : Nat) : Field := ⟨CAN_DBT n, 9, 5⟩
abbrev CAN_DBT.BRP (n : Nat) : Field := ⟨CAN_DBT n, 4, 0⟩
/-- The register CAN_EVT of `17_message_bus.md`. -/
abbrev CAN_EVT (n : Nat) : Nat := 0x400A0010 + 0x2000 * n
abbrev CAN_EVT.ERR (n : Nat) : Field := ⟨CAN_EVT n, 7, 7⟩
abbrev CAN_EVT.PASSIVE (n : Nat) : Field := ⟨CAN_EVT n, 6, 6⟩
abbrev CAN_EVT.BUSOFF (n : Nat) : Field := ⟨CAN_EVT n, 5, 5⟩
abbrev CAN_EVT.TXDONE (n : Nat) : Field := ⟨CAN_EVT n, 4, 4⟩
abbrev CAN_EVT.CAR_LOST (n : Nat) : Field := ⟨CAN_EVT n, 3, 3⟩
abbrev CAN_EVT.RX_LOST (n : Nat) : Field := ⟨CAN_EVT n, 2, 2⟩
abbrev CAN_EVT.CAR (n : Nat) : Field := ⟨CAN_EVT n, 1, 1⟩
abbrev CAN_EVT.RX (n : Nat) : Field := ⟨CAN_EVT n, 0, 0⟩
/-- The register CAN_IEN of `17_message_bus.md`. -/
abbrev CAN_IEN (n : Nat) : Nat := 0x400A0014 + 0x2000 * n
abbrev CAN_IEN.ERR (n : Nat) : Field := ⟨CAN_IEN n, 7, 7⟩
abbrev CAN_IEN.PASSIVE (n : Nat) : Field := ⟨CAN_IEN n, 6, 6⟩
abbrev CAN_IEN.BUSOFF (n : Nat) : Field := ⟨CAN_IEN n, 5, 5⟩
abbrev CAN_IEN.TXDONE (n : Nat) : Field := ⟨CAN_IEN n, 4, 4⟩
abbrev CAN_IEN.CAR_LOST (n : Nat) : Field := ⟨CAN_IEN n, 3, 3⟩
abbrev CAN_IEN.RX_LOST (n : Nat) : Field := ⟨CAN_IEN n, 2, 2⟩
abbrev CAN_IEN.CAR (n : Nat) : Field := ⟨CAN_IEN n, 1, 1⟩
abbrev CAN_IEN.RX (n : Nat) : Field := ⟨CAN_IEN n, 0, 0⟩
/-- The register CAN_ERR of `17_message_bus.md`. -/
abbrev CAN_ERR (n : Nat) : Nat := 0x400A0018 + 0x2000 * n
abbrev CAN_ERR.COUNT (n : Nat) : Field := ⟨CAN_ERR n, 31, 16⟩
abbrev CAN_ERR.POS (n : Nat) : Field := ⟨CAN_ERR n, 15, 8⟩
abbrev CAN_ERR.TYPE (n : Nat) : Field := ⟨CAN_ERR n, 2, 0⟩
/-- The register CAN_SIZE of `17_message_bus.md`. -/
abbrev CAN_SIZE (n : Nat) : Nat := 0x400A001C + 0x2000 * n
abbrev CAN_SIZE.CQ (n : Nat) : Field := ⟨CAN_SIZE n, 31, 23⟩
abbrev CAN_SIZE.CTX (n : Nat) : Field := ⟨CAN_SIZE n, 22, 18⟩
abbrev CAN_SIZE.RXQ (n : Nat) : Field := ⟨CAN_SIZE n, 12, 0⟩
/-- The register CAN_RXQ_BASE of `17_message_bus.md`. -/
abbrev CAN_RXQ_BASE (n : Nat) : Nat := 0x400A0020 + 0x2000 * n
abbrev CAN_RXQ_BASE.ADDR (n : Nat) : Field := ⟨CAN_RXQ_BASE n, 31, 0⟩
/-- The register CAN_CAR_BASE of `17_message_bus.md`. -/
abbrev CAN_CAR_BASE (n : Nat) : Nat := 0x400A0024 + 0x2000 * n
abbrev CAN_CAR_BASE.ADDR (n : Nat) : Field := ⟨CAN_CAR_BASE n, 31, 0⟩
/-- The register CAN_CQ_BASE of `17_message_bus.md`. -/
abbrev CAN_CQ_BASE (n : Nat) : Nat := 0x400A0028 + 0x2000 * n
abbrev CAN_CQ_BASE.ADDR (n : Nat) : Field := ⟨CAN_CQ_BASE n, 31, 0⟩
/-- The register CAN_TX_BASE of `17_message_bus.md`. -/
abbrev CAN_TX_BASE (n : Nat) : Nat := 0x400A002C + 0x2000 * n
abbrev CAN_TX_BASE.ADDR (n : Nat) : Field := ⟨CAN_TX_BASE n, 31, 0⟩
/-- The register CAN_RX_WIDX of `17_message_bus.md`. -/
abbrev CAN_RX_WIDX (n : Nat) : Nat := 0x400A0030 + 0x2000 * n
abbrev CAN_RX_WIDX.OWNED (n : Nat) : Field := ⟨CAN_RX_WIDX n, 28, 16⟩
abbrev CAN_RX_WIDX.NEXT (n : Nat) : Field := ⟨CAN_RX_WIDX n, 12, 0⟩
/-- The register CAN_CQ_WIDX of `17_message_bus.md`. -/
abbrev CAN_CQ_WIDX (n : Nat) : Nat := 0x400A0038 + 0x2000 * n
abbrev CAN_CQ_WIDX.OWNED (n : Nat) : Field := ⟨CAN_CQ_WIDX n, 28, 16⟩
abbrev CAN_CQ_WIDX.NEXT (n : Nat) : Field := ⟨CAN_CQ_WIDX n, 12, 0⟩
/-- The register CAN_RX_ACK of `17_message_bus.md`. -/
abbrev CAN_RX_ACK (n : Nat) : Nat := 0x400A0034 + 0x2000 * n
abbrev CAN_RX_ACK.INDEX (n : Nat) : Field := ⟨CAN_RX_ACK n, 12, 0⟩
/-- The register CAN_CQ_ACK of `17_message_bus.md`. -/
abbrev CAN_CQ_ACK (n : Nat) : Nat := 0x400A003C + 0x2000 * n
abbrev CAN_CQ_ACK.INDEX (n : Nat) : Field := ⟨CAN_CQ_ACK n, 12, 0⟩
/-- The register CAN_LOST of `17_message_bus.md`. -/
abbrev CAN_LOST (n : Nat) : Nat := 0x400A0040 + 0x2000 * n
abbrev CAN_LOST.BADACK (n : Nat) : Field := ⟨CAN_LOST n, 31, 31⟩
abbrev CAN_LOST.DUP (n : Nat) : Field := ⟨CAN_LOST n, 30, 24⟩
abbrev CAN_LOST.CAR_LOST (n : Nat) : Field := ⟨CAN_LOST n, 23, 12⟩
abbrev CAN_LOST.RX_LOST (n : Nat) : Field := ⟨CAN_LOST n, 11, 0⟩
/-- The register CAN_CAR_CFG of `17_message_bus.md`. -/
abbrev CAN_CAR_CFG (n : Nat) : Nat := 0x400A0044 + 0x2000 * n
abbrev CAN_CAR_CFG.TO (n : Nat) : Field := ⟨CAN_CAR_CFG n, 9, 0⟩
/-- The register CAN_TX_REQ of `17_message_bus.md`. -/
abbrev CAN_TX_REQ (n : Nat) : Nat := 0x400A0048 + 0x2000 * n
abbrev CAN_TX_REQ.ENTRY (n : Nat) : Field := ⟨CAN_TX_REQ n, 31, 0⟩
/-- The register CAN_TX_PEND of `17_message_bus.md`. -/
abbrev CAN_TX_PEND (n : Nat) : Nat := 0x400A004C + 0x2000 * n
abbrev CAN_TX_PEND.ENTRY (n : Nat) : Field := ⟨CAN_TX_PEND n, 31, 0⟩
/-- The register CAN_TX_ABORT of `17_message_bus.md`. -/
abbrev CAN_TX_ABORT (n : Nat) : Nat := 0x400A0050 + 0x2000 * n
abbrev CAN_TX_ABORT.ENTRY (n : Nat) : Field := ⟨CAN_TX_ABORT n, 31, 0⟩
/-- The register CAN_TX_DONE of `17_message_bus.md`. -/
abbrev CAN_TX_DONE (n : Nat) : Nat := 0x400A0054 + 0x2000 * n
abbrev CAN_TX_DONE.ENTRY (n : Nat) : Field := ⟨CAN_TX_DONE n, 31, 0⟩
/-- The register CAN_HB_CFG of `17_message_bus.md`. -/
abbrev CAN_HB_CFG (n : Nat) : Nat := 0x400A0058 + 0x2000 * n
abbrev CAN_HB_CFG.PERIOD (n : Nat) : Field := ⟨CAN_HB_CFG n, 10, 1⟩
abbrev CAN_HB_CFG.EN (n : Nat) : Field := ⟨CAN_HB_CFG n, 0, 0⟩
/-- The register CAN_TX_STAT of `17_message_bus.md`. -/
abbrev CAN_TX_STAT (n : Nat) (m : Nat) : Nat := 0x400A0100 + 0x2000 * n + 0x4 * m
abbrev CAN_TX_STAT.FRAMES (n : Nat) (m : Nat) : Field := ⟨CAN_TX_STAT n m, 21, 16⟩
abbrev CAN_TX_STAT.DETAIL (n : Nat) (m : Nat) : Field := ⟨CAN_TX_STAT n m, 15, 8⟩
abbrev CAN_TX_STAT.STATUS (n : Nat) (m : Nat) : Field := ⟨CAN_TX_STAT n m, 7, 0⟩
/-- The register ETH_CTL of `17_message_bus.md`. -/
abbrev ETH_CTL (n : Nat) : Nat := 0x400B0000 + 0x1000 * n
abbrev ETH_CTL.DUP (n : Nat) : Field := ⟨ETH_CTL n, 3, 3⟩
abbrev ETH_CTL.RASM (n : Nat) : Field := ⟨ETH_CTL n, 2, 2⟩
abbrev ETH_CTL.SILENT (n : Nat) : Field := ⟨ETH_CTL n, 1, 1⟩
abbrev ETH_CTL.EN (n : Nat) : Field := ⟨ETH_CTL n, 0, 0⟩
/-- The register ETH_STAT of `17_message_bus.md`. -/
abbrev ETH_STAT (n : Nat) : Nat := 0x400B0004 + 0x1000 * n
abbrev ETH_STAT.CSUM (n : Nat) : Field := ⟨ETH_STAT n, 31, 16⟩
abbrev ETH_STAT.BEACON (n : Nat) : Field := ⟨ETH_STAT n, 2, 2⟩
abbrev ETH_STAT.PLCA (n : Nat) : Field := ⟨ETH_STAT n, 1, 1⟩
abbrev ETH_STAT.UP (n : Nat) : Field := ⟨ETH_STAT n, 0, 0⟩
/-- The register ETH_PLCA of `17_message_bus.md`. -/
abbrev ETH_PLCA (n : Nat) : Nat := 0x400B0008 + 0x1000 * n
abbrev ETH_PLCA.EN (n : Nat) : Field := ⟨ETH_PLCA n, 16, 16⟩
abbrev ETH_PLCA.COUNT (n : Nat) : Field := ⟨ETH_PLCA n, 11, 8⟩
abbrev ETH_PLCA.ID (n : Nat) : Field := ⟨ETH_PLCA n, 2, 0⟩
/-- The register ETH_UDP of `17_message_bus.md`. -/
abbrev ETH_UDP (n : Nat) : Nat := 0x400B000C + 0x1000 * n
abbrev ETH_UDP.PORT (n : Nat) : Field := ⟨ETH_UDP n, 15, 0⟩
/-- The register ETH_GADDR of `17_message_bus.md`. -/
abbrev ETH_GADDR (n : Nat) (m : Nat) : Nat := 0x400B0800 + 0x1000 * n + 0x4 * m
abbrev ETH_GADDR.WORD (n : Nat) (m : Nat) : Field := ⟨ETH_GADDR n m, 31, 0⟩
/-- The register SYS_NT_CFG of `18_network_time_and_rtc.md`. -/
abbrev SYS_NT_CFG : Nat := 0x40000140
abbrev SYS_NT_CFG.HOLD : Field := ⟨SYS_NT_CFG, 31, 20⟩
abbrev SYS_NT_CFG.SRC : Field := ⟨SYS_NT_CFG, 19, 16⟩
abbrev SYS_NT_CFG.DLY : Field := ⟨SYS_NT_CFG, 15, 4⟩
abbrev SYS_NT_CFG.TM_CAND : Field := ⟨SYS_NT_CFG, 3, 3⟩
abbrev SYS_NT_CFG.HEADS : Field := ⟨SYS_NT_CFG, 2, 0⟩
/-- The register SYS_NT_REF of `18_network_time_and_rtc.md`. -/
abbrev SYS_NT_REF : Nat := 0x40000144
abbrev SYS_NT_REF.STEP_LIM : Field := ⟨SYS_NT_REF, 31, 24⟩
abbrev SYS_NT_REF.CHAN : Field := ⟨SYS_NT_REF, 23, 16⟩
abbrev SYS_NT_REF.PERIOD : Field := ⟨SYS_NT_REF, 9, 0⟩
/-- The register SYS_NT_LO of `18_network_time_and_rtc.md`. -/
abbrev SYS_NT_LO : Nat := 0x40000148
abbrev SYS_NT_LO.VALUE : Field := ⟨SYS_NT_LO, 31, 0⟩
/-- The register SYS_NT_HI of `18_network_time_and_rtc.md`. -/
abbrev SYS_NT_HI : Nat := 0x4000014C
abbrev SYS_NT_HI.VALUE : Field := ⟨SYS_NT_HI, 31, 0⟩
/-- The register SYS_NT_STEP_LO of `18_network_time_and_rtc.md`. -/
abbrev SYS_NT_STEP_LO : Nat := 0x40000150
abbrev SYS_NT_STEP_LO.VALUE : Field := ⟨SYS_NT_STEP_LO, 31, 0⟩
/-- The register SYS_NT_STEP_HI of `18_network_time_and_rtc.md`. -/
abbrev SYS_NT_STEP_HI : Nat := 0x40000154
abbrev SYS_NT_STEP_HI.VALUE : Field := ⟨SYS_NT_STEP_HI, 31, 0⟩
/-- The register SYS_NT_RATE of `18_network_time_and_rtc.md`. -/
abbrev SYS_NT_RATE : Nat := 0x40000158
abbrev SYS_NT_RATE.RATE : Field := ⟨SYS_NT_RATE, 31, 0⟩
/-- The register SYS_NT_CTL of `18_network_time_and_rtc.md`. -/
abbrev SYS_NT_CTL : Nat := 0x4000015C
abbrev SYS_NT_CTL.INVAL : Field := ⟨SYS_NT_CTL, 1, 1⟩
abbrev SYS_NT_CTL.FW_VALID : Field := ⟨SYS_NT_CTL, 0, 0⟩
/-- The register SYS_NT_STAT of `18_network_time_and_rtc.md`. -/
abbrev SYS_NT_STAT : Nat := 0x40000160
abbrev SYS_NT_STAT.VALID : Field := ⟨SYS_NT_STAT, 31, 31⟩
abbrev SYS_NT_STAT.TM : Field := ⟨SYS_NT_STAT, 30, 30⟩
abbrev SYS_NT_STAT.COARSE : Field := ⟨SYS_NT_STAT, 29, 29⟩
abbrev SYS_NT_STAT.SOURCE : Field := ⟨SYS_NT_STAT, 28, 16⟩
abbrev SYS_NT_STAT.STEPS : Field := ⟨SYS_NT_STAT, 15, 0⟩
/-- The register SYS_NT_OFS of `18_network_time_and_rtc.md`. -/
abbrev SYS_NT_OFS : Nat := 0x40000164
abbrev SYS_NT_OFS.NS : Field := ⟨SYS_NT_OFS, 31, 0⟩
/-- The register ETH_PTP_TX of `18_network_time_and_rtc.md`. -/
abbrev ETH_PTP_TX (n : Nat) : Nat := 0x400B0840 + 0x1000 * n
abbrev ETH_PTP_TX.ADDR (n : Nat) : Field := ⟨ETH_PTP_TX n, 31, 0⟩
/-- The register ETH_PTP_TXLEN of `18_network_time_and_rtc.md`. -/
abbrev ETH_PTP_TXLEN (n : Nat) : Nat := 0x400B0844 + 0x1000 * n
abbrev ETH_PTP_TXLEN.GO (n : Nat) : Field := ⟨ETH_PTP_TXLEN n, 31, 31⟩
abbrev ETH_PTP_TXLEN.LEN (n : Nat) : Field := ⟨ETH_PTP_TXLEN n, 10, 0⟩
/-- The register ETH_PTP_TXTS_LO of `18_network_time_and_rtc.md`. -/
abbrev ETH_PTP_TXTS_LO (n : Nat) : Nat := 0x400B0848 + 0x1000 * n
abbrev ETH_PTP_TXTS_LO.VALUE (n : Nat) : Field := ⟨ETH_PTP_TXTS_LO n, 31, 0⟩
/-- The register ETH_PTP_TXTS_HI of `18_network_time_and_rtc.md`. -/
abbrev ETH_PTP_TXTS_HI (n : Nat) : Nat := 0x400B084C + 0x1000 * n
abbrev ETH_PTP_TXTS_HI.VALUE (n : Nat) : Field := ⟨ETH_PTP_TXTS_HI n, 31, 0⟩
/-- The register ETH_PTP_STAT of `18_network_time_and_rtc.md`. -/
abbrev ETH_PTP_STAT (n : Nat) : Nat := 0x400B0850 + 0x1000 * n
abbrev ETH_PTP_STAT.CODE (n : Nat) : Field := ⟨ETH_PTP_STAT n, 15, 8⟩
abbrev ETH_PTP_STAT.TSV (n : Nat) : Field := ⟨ETH_PTP_STAT n, 1, 1⟩
abbrev ETH_PTP_STAT.BUSY (n : Nat) : Field := ⟨ETH_PTP_STAT n, 0, 0⟩
/-- The register ETH_PTP_LAT of `18_network_time_and_rtc.md`. -/
abbrev ETH_PTP_LAT (n : Nat) : Nat := 0x400B0854 + 0x1000 * n
abbrev ETH_PTP_LAT.RX (n : Nat) : Field := ⟨ETH_PTP_LAT n, 31, 16⟩
abbrev ETH_PTP_LAT.TX (n : Nat) : Field := ⟨ETH_PTP_LAT n, 15, 0⟩
/-- The register AON_TICK0 of `18_network_time_and_rtc.md`. -/
abbrev AON_TICK0 : Nat := 0x40020000
abbrev AON_TICK0.COUNT : Field := ⟨AON_TICK0, 31, 0⟩
/-- The register AON_TICK1 of `18_network_time_and_rtc.md`. -/
abbrev AON_TICK1 : Nat := 0x40020004
abbrev AON_TICK1.COUNT : Field := ⟨AON_TICK1, 31, 0⟩
/-- The register AON_SET0 of `18_network_time_and_rtc.md`. -/
abbrev AON_SET0 : Nat := 0x40020008
abbrev AON_SET0.VALUE : Field := ⟨AON_SET0, 15, 0⟩
/-- The register AON_SET1 of `18_network_time_and_rtc.md`. -/
abbrev AON_SET1 : Nat := 0x4002000C
abbrev AON_SET1.VALUE : Field := ⟨AON_SET1, 15, 0⟩
/-- The register AON_SET2 of `18_network_time_and_rtc.md`. -/
abbrev AON_SET2 : Nat := 0x40020010
abbrev AON_SET2.VALUE : Field := ⟨AON_SET2, 15, 0⟩
/-- The register AON_CTL of `18_network_time_and_rtc.md`. -/
abbrev AON_CTL : Nat := 0x40020014
abbrev AON_CTL.CLRHI : Field := ⟨AON_CTL, 1, 1⟩
abbrev AON_CTL.LOAD : Field := ⟨AON_CTL, 0, 0⟩
/-- The register AON_SHIFT of `18_network_time_and_rtc.md`. -/
abbrev AON_SHIFT : Nat := 0x40020018
abbrev AON_SHIFT.K : Field := ⟨AON_SHIFT, 15, 0⟩
/-- The register AON_STAT of `18_network_time_and_rtc.md`. -/
abbrev AON_STAT : Nat := 0x4002001C
abbrev AON_STAT.SHIFT_LOST : Field := ⟨AON_STAT, 2, 2⟩
abbrev AON_STAT.SHIFT_PEND : Field := ⟨AON_STAT, 1, 1⟩
abbrev AON_STAT.LOAD_PEND : Field := ⟨AON_STAT, 0, 0⟩
/-- The register AON_HIGH0 of `18_network_time_and_rtc.md`. -/
abbrev AON_HIGH0 : Nat := 0x40020020
abbrev AON_HIGH0.VALUE : Field := ⟨AON_HIGH0, 31, 0⟩
/-- The register AON_HIGH1 of `18_network_time_and_rtc.md`. -/
abbrev AON_HIGH1 : Nat := 0x40020024
abbrev AON_HIGH1.VALUE : Field := ⟨AON_HIGH1, 31, 0⟩
/-- The register AON_ALM_VAL0 of `18_network_time_and_rtc.md`. -/
abbrev AON_ALM_VAL0 (n : Nat) : Nat := 0x40020040 + 0x10 * n
abbrev AON_ALM_VAL0.VALUE (n : Nat) : Field := ⟨AON_ALM_VAL0 n, 31, 0⟩
/-- The register AON_ALM_VAL1 of `18_network_time_and_rtc.md`. -/
abbrev AON_ALM_VAL1 (n : Nat) : Nat := 0x40020044 + 0x10 * n
abbrev AON_ALM_VAL1.VALUE (n : Nat) : Field := ⟨AON_ALM_VAL1 n, 31, 0⟩
/-- The register AON_ALM_CFG of `18_network_time_and_rtc.md`. -/
abbrev AON_ALM_CFG (n : Nat) : Nat := 0x40020048 + 0x10 * n
abbrev AON_ALM_CFG.CODE (n : Nat) : Field := ⟨AON_ALM_CFG n, 15, 8⟩
abbrev AON_ALM_CFG.FIRED (n : Nat) : Field := ⟨AON_ALM_CFG n, 7, 7⟩
abbrev AON_ALM_CFG.EN (n : Nat) : Field := ⟨AON_ALM_CFG n, 6, 6⟩
abbrev AON_ALM_CFG.MASK (n : Nat) : Field := ⟨AON_ALM_CFG n, 5, 0⟩
/-- The register AON_EVT of `18_network_time_and_rtc.md`. -/
abbrev AON_EVT : Nat := 0x40020060
abbrev AON_EVT.SHIFT_LOST : Field := ⟨AON_EVT, 2, 2⟩
abbrev AON_EVT.ALM1 : Field := ⟨AON_EVT, 1, 1⟩
abbrev AON_EVT.ALM0 : Field := ⟨AON_EVT, 0, 0⟩
/-- The register AON_IEN of `18_network_time_and_rtc.md`. -/
abbrev AON_IEN : Nat := 0x40020064
abbrev AON_IEN.SHIFT_LOST : Field := ⟨AON_IEN, 2, 2⟩
abbrev AON_IEN.ALM1 : Field := ⟨AON_IEN, 1, 1⟩
abbrev AON_IEN.ALM0 : Field := ⟨AON_IEN, 0, 0⟩
/-- The register AON_SCRATCH of `18_network_time_and_rtc.md`. -/
abbrev AON_SCRATCH (n : Nat) : Nat := 0x40020080 + 0x4 * n
abbrev AON_SCRATCH.VALUE (n : Nat) : Field := ⟨AON_SCRATCH n, 31, 0⟩
/-- The register AON_PLS_CNT of `18_network_time_and_rtc.md`. -/
abbrev AON_PLS_CNT (n : Nat) : Nat := 0x40020100 + 0x4 * n
abbrev AON_PLS_CNT.COUNT (n : Nat) : Field := ⟨AON_PLS_CNT n, 31, 0⟩
/-- The register AON_PLS_CFG of `18_network_time_and_rtc.md`. -/
abbrev AON_PLS_CFG (n : Nat) : Nat := 0x40020140 + 0x4 * n
abbrev AON_PLS_CFG.FILT (n : Nat) : Field := ⟨AON_PLS_CFG n, 5, 2⟩
abbrev AON_PLS_CFG.EDGE (n : Nat) : Field := ⟨AON_PLS_CFG n, 1, 1⟩
abbrev AON_PLS_CFG.EN (n : Nat) : Field := ⟨AON_PLS_CFG n, 0, 0⟩
/-- The register WFL_CTL of `19_field_links.md`. -/
abbrev WFL_CTL : Nat := 0x400C0800
abbrev WFL_CTL.SEALED : Field := ⟨WFL_CTL, 1, 1⟩
abbrev WFL_CTL.EN : Field := ⟨WFL_CTL, 0, 0⟩
/-- The register WFL_COMMIT of `19_field_links.md`. -/
abbrev WFL_COMMIT : Nat := 0x400C0804
abbrev WFL_COMMIT.GO : Field := ⟨WFL_COMMIT, 9, 9⟩
abbrev WFL_COMMIT.LINK : Field := ⟨WFL_COMMIT, 8, 4⟩
abbrev WFL_COMMIT.MOD : Field := ⟨WFL_COMMIT, 3, 0⟩
/-- The register WFL_CMT_STAT of `19_field_links.md`. -/
abbrev WFL_CMT_STAT : Nat := 0x400C0808
abbrev WFL_CMT_STAT.CODE : Field := ⟨WFL_CMT_STAT, 7, 0⟩
/-- The register WFL_L_CFG of `19_field_links.md`. -/
abbrev WFL_L_CFG (n : Nat) : Nat := 0x400C0000 + 0x40 * n
abbrev WFL_L_CFG.RESP_TO (n : Nat) : Field := ⟨WFL_L_CFG n, 31, 24⟩
abbrev WFL_L_CFG.RATE (n : Nat) : Field := ⟨WFL_L_CFG n, 23, 21⟩
abbrev WFL_L_CFG.CYCLE (n : Nat) : Field := ⟨WFL_L_CFG n, 20, 4⟩
abbrev WFL_L_CFG.EN (n : Nat) : Field := ⟨WFL_L_CFG n, 0, 0⟩
/-- The register WFL_L_STAT of `19_field_links.md`. -/
abbrev WFL_L_STAT (n : Nat) : Nat := 0x400C0004 + 0x40 * n
abbrev WFL_L_STAT.CYCLES (n : Nat) : Field := ⟨WFL_L_STAT n, 31, 16⟩
abbrev WFL_L_STAT.ONLINE (n : Nat) : Field := ⟨WFL_L_STAT n, 15, 0⟩
/-- The register WFL_L_STRETCH of `19_field_links.md`. -/
abbrev WFL_L_STRETCH (n : Nat) : Nat := 0x400C0008 + 0x40 * n
abbrev WFL_L_STRETCH.COUNT (n : Nat) : Field := ⟨WFL_L_STRETCH n, 31, 16⟩
abbrev WFL_L_STRETCH.MAX (n : Nat) : Field := ⟨WFL_L_STRETCH n, 15, 0⟩
/-- The register WFL_L_MISS of `19_field_links.md`. -/
abbrev WFL_L_MISS (n : Nat) : Nat := 0x400C000C + 0x40 * n
abbrev WFL_L_MISS.CRC (n : Nat) : Field := ⟨WFL_L_MISS n, 31, 16⟩
abbrev WFL_L_MISS.TIMEOUT (n : Nat) : Field := ⟨WFL_L_MISS n, 15, 0⟩
/-- The register WFL_L_EVT of `19_field_links.md`. -/
abbrev WFL_L_EVT (n : Nat) : Nat := 0x400C0010 + 0x40 * n
abbrev WFL_L_EVT.STRETCH (n : Nat) : Field := ⟨WFL_L_EVT n, 3, 3⟩
abbrev WFL_L_EVT.FOUND (n : Nat) : Field := ⟨WFL_L_EVT n, 2, 2⟩
abbrev WFL_L_EVT.LOST (n : Nat) : Field := ⟨WFL_L_EVT n, 1, 1⟩
abbrev WFL_L_EVT.ONLINE (n : Nat) : Field := ⟨WFL_L_EVT n, 0, 0⟩
/-- The register WFL_L_IEN of `19_field_links.md`. -/
abbrev WFL_L_IEN (n : Nat) : Nat := 0x400C0014 + 0x40 * n
abbrev WFL_L_IEN.STRETCH (n : Nat) : Field := ⟨WFL_L_IEN n, 3, 3⟩
abbrev WFL_L_IEN.FOUND (n : Nat) : Field := ⟨WFL_L_IEN n, 2, 2⟩
abbrev WFL_L_IEN.LOST (n : Nat) : Field := ⟨WFL_L_IEN n, 1, 1⟩
abbrev WFL_L_IEN.ONLINE (n : Nat) : Field := ⟨WFL_L_IEN n, 0, 0⟩
/-- The register WFL_M_CFG of `19_field_links.md`. -/
abbrev WFL_M_CFG (n : Nat) (m : Nat) : Nat := 0x400C1000 + 0x400 * n + 0x40 * m
abbrev WFL_M_CFG.EN (n : Nat) (m : Nat) : Field := ⟨WFL_M_CFG n m, 31, 31⟩
abbrev WFL_M_CFG.ANY_SN (n : Nat) (m : Nat) : Field := ⟨WFL_M_CFG n m, 30, 30⟩
abbrev WFL_M_CFG.OWN (n : Nat) (m : Nat) : Field := ⟨WFL_M_CFG n m, 29, 29⟩
abbrev WFL_M_CFG.OUT_WORDS (n : Nat) (m : Nat) : Field := ⟨WFL_M_CFG n m, 13, 7⟩
abbrev WFL_M_CFG.IN_WORDS (n : Nat) (m : Nat) : Field := ⟨WFL_M_CFG n m, 6, 0⟩
/-- The register WFL_M_BASE of `19_field_links.md`. -/
abbrev WFL_M_BASE (n : Nat) (m : Nat) : Nat := 0x400C1004 + 0x400 * n + 0x40 * m
abbrev WFL_M_BASE.OBASE (n : Nat) (m : Nat) : Field := ⟨WFL_M_BASE n m, 27, 16⟩
abbrev WFL_M_BASE.IBASE (n : Nat) (m : Nat) : Field := ⟨WFL_M_BASE n m, 11, 0⟩
/-- The register WFL_M_EXP of `19_field_links.md`. -/
abbrev WFL_M_EXP (n : Nat) (m : Nat) : Nat := 0x400C1008 + 0x400 * n + 0x40 * m
abbrev WFL_M_EXP.PRODUCT (n : Nat) (m : Nat) : Field := ⟨WFL_M_EXP n m, 31, 16⟩
abbrev WFL_M_EXP.VENDOR (n : Nat) (m : Nat) : Field := ⟨WFL_M_EXP n m, 15, 0⟩
/-- The register WFL_M_SEEN of `19_field_links.md`. -/
abbrev WFL_M_SEEN (n : Nat) (m : Nat) : Nat := 0x400C1018 + 0x400 * n + 0x40 * m
abbrev WFL_M_SEEN.PRODUCT (n : Nat) (m : Nat) : Field := ⟨WFL_M_SEEN n m, 31, 16⟩
abbrev WFL_M_SEEN.VENDOR (n : Nat) (m : Nat) : Field := ⟨WFL_M_SEEN n m, 15, 0⟩
/-- The register WFL_M_EXP_SN_LO of `19_field_links.md`. -/
abbrev WFL_M_EXP_SN_LO (n : Nat) (m : Nat) : Nat := 0x400C100C + 0x400 * n + 0x40 * m
abbrev WFL_M_EXP_SN_LO.VALUE (n : Nat) (m : Nat) : Field := ⟨WFL_M_EXP_SN_LO n m, 31, 0⟩
/-- The register WFL_M_EXP_SN_HI of `19_field_links.md`. -/
abbrev WFL_M_EXP_SN_HI (n : Nat) (m : Nat) : Nat := 0x400C1010 + 0x400 * n + 0x40 * m
abbrev WFL_M_EXP_SN_HI.VALUE (n : Nat) (m : Nat) : Field := ⟨WFL_M_EXP_SN_HI n m, 31, 0⟩
/-- The register WFL_M_SEEN_SN_LO of `19_field_links.md`. -/
abbrev WFL_M_SEEN_SN_LO (n : Nat) (m : Nat) : Nat := 0x400C101C + 0x400 * n + 0x40 * m
abbrev WFL_M_SEEN_SN_LO.VALUE (n : Nat) (m : Nat) : Field := ⟨WFL_M_SEEN_SN_LO n m, 31, 0⟩
/-- The register WFL_M_SEEN_SN_HI of `19_field_links.md`. -/
abbrev WFL_M_SEEN_SN_HI (n : Nat) (m : Nat) : Nat := 0x400C1020 + 0x400 * n + 0x40 * m
abbrev WFL_M_SEEN_SN_HI.VALUE (n : Nat) (m : Nat) : Field := ⟨WFL_M_SEEN_SN_HI n m, 31, 0⟩
/-- The register WFL_M_STAT of `19_field_links.md`. -/
abbrev WFL_M_STAT (n : Nat) (m : Nat) : Nat := 0x400C1014 + 0x400 * n + 0x40 * m
abbrev WFL_M_STAT.SEQ (n : Nat) (m : Nat) : Field := ⟨WFL_M_STAT n m, 31, 16⟩
abbrev WFL_M_STAT.PEND (n : Nat) (m : Nat) : Field := ⟨WFL_M_STAT n m, 7, 7⟩
abbrev WFL_M_STAT.STATE (n : Nat) (m : Nat) : Field := ⟨WFL_M_STAT n m, 6, 4⟩
abbrev WFL_M_STAT.MISS (n : Nat) (m : Nat) : Field := ⟨WFL_M_STAT n m, 1, 0⟩
/-- The register WFL_M_SEEN_SZ of `19_field_links.md`. -/
abbrev WFL_M_SEEN_SZ (n : Nat) (m : Nat) : Nat := 0x400C1024 + 0x400 * n + 0x40 * m
abbrev WFL_M_SEEN_SZ.OUT_MAX (n : Nat) (m : Nat) : Field := ⟨WFL_M_SEEN_SZ n m, 14, 8⟩
abbrev WFL_M_SEEN_SZ.IN_MAX (n : Nat) (m : Nat) : Field := ⟨WFL_M_SEEN_SZ n m, 6, 0⟩
/-- The register WFL_IN of `19_field_links.md`. -/
abbrev WFL_IN (n : Nat) : Nat := 0x400C8000 + 0x4 * n
abbrev WFL_IN.WORD (n : Nat) : Field := ⟨WFL_IN n, 31, 0⟩
/-- The register WFL_OUT of `19_field_links.md`. -/
abbrev WFL_OUT (n : Nat) : Nat := 0x400CC000 + 0x4 * n
abbrev WFL_OUT.WORD (n : Nat) : Field := ⟨WFL_OUT n, 31, 0⟩
/-- The register SE_CTL of `20_scan_engine.md`. -/
abbrev SE_CTL : Nat := 0x400D0000
abbrev SE_CTL.SEALED : Field := ⟨SE_CTL, 1, 1⟩
abbrev SE_CTL.EN : Field := ⟨SE_CTL, 0, 0⟩
/-- The register SE_CFG of `20_scan_engine.md`. -/
abbrev SE_CFG : Nat := 0x400D0004
abbrev SE_CFG.CYCLE : Field := ⟨SE_CFG, 16, 0⟩
/-- The register SE_STAT of `20_scan_engine.md`. -/
abbrev SE_STAT : Nat := 0x400D0008
abbrev SE_STAT.CODE : Field := ⟨SE_STAT, 15, 8⟩
abbrev SE_STAT.XPEND : Field := ⟨SE_STAT, 2, 2⟩
abbrev SE_STAT.BUSY : Field := ⟨SE_STAT, 1, 1⟩
abbrev SE_STAT.RUN : Field := ⟨SE_STAT, 0, 0⟩
/-- The register SE_EVT of `20_scan_engine.md`. -/
abbrev SE_EVT : Nat := 0x400D000C
abbrev SE_EVT.STACK : Field := ⟨SE_EVT, 5, 5⟩
abbrev SE_EVT.MATH : Field := ⟨SE_EVT, 4, 4⟩
abbrev SE_EVT.FDROP : Field := ⟨SE_EVT, 3, 3⟩
abbrev SE_EVT.XCHG : Field := ⟨SE_EVT, 2, 2⟩
abbrev SE_EVT.SKIP : Field := ⟨SE_EVT, 1, 1⟩
abbrev SE_EVT.CYCLE : Field := ⟨SE_EVT, 0, 0⟩
/-- The register SE_IEN of `20_scan_engine.md`. -/
abbrev SE_IEN : Nat := 0x400D0010
abbrev SE_IEN.STACK : Field := ⟨SE_IEN, 5, 5⟩
abbrev SE_IEN.MATH : Field := ⟨SE_IEN, 4, 4⟩
abbrev SE_IEN.FDROP : Field := ⟨SE_IEN, 3, 3⟩
abbrev SE_IEN.XCHG : Field := ⟨SE_IEN, 2, 2⟩
abbrev SE_IEN.SKIP : Field := ⟨SE_IEN, 1, 1⟩
abbrev SE_IEN.CYCLE : Field := ⟨SE_IEN, 0, 0⟩
/-- The register SE_PROG of `20_scan_engine.md`. -/
abbrev SE_PROG : Nat := 0x400D0014
abbrev SE_PROG.LEN : Field := ⟨SE_PROG, 31, 16⟩
abbrev SE_PROG.BASE : Field := ⟨SE_PROG, 15, 0⟩
/-- The register SE_MS of `20_scan_engine.md`. -/
abbrev SE_MS : Nat := 0x400D0018
abbrev SE_MS.VALUE : Field := ⟨SE_MS, 31, 0⟩
/-- The register SE_SKIP of `20_scan_engine.md`. -/
abbrev SE_SKIP : Nat := 0x400D001C
abbrev SE_SKIP.VALUE : Field := ⟨SE_SKIP, 31, 0⟩
/-- The register SE_TIME of `20_scan_engine.md`. -/
abbrev SE_TIME : Nat := 0x400D0020
abbrev SE_TIME.MAX : Field := ⟨SE_TIME, 31, 16⟩
abbrev SE_TIME.LAST : Field := ⟨SE_TIME, 15, 0⟩
/-- The register SE_XCHG of `20_scan_engine.md`. -/
abbrev SE_XCHG : Nat := 0x400D0030
abbrev SE_XCHG.GO : Field := ⟨SE_XCHG, 31, 31⟩
abbrev SE_XCHG.BASE : Field := ⟨SE_XCHG, 15, 0⟩
/-- The register SE_XCHG_STAT of `20_scan_engine.md`. -/
abbrev SE_XCHG_STAT : Nat := 0x400D0034
abbrev SE_XCHG_STAT.BUSY : Field := ⟨SE_XCHG_STAT, 31, 31⟩
abbrev SE_XCHG_STAT.CODE : Field := ⟨SE_XCHG_STAT, 23, 16⟩
abbrev SE_XCHG_STAT.BAD : Field := ⟨SE_XCHG_STAT, 15, 0⟩
/-- The register SE_FORCE_TAG of `20_scan_engine.md`. -/
abbrev SE_FORCE_TAG : Nat := 0x400D0040
abbrev SE_FORCE_TAG.VALUE : Field := ⟨SE_FORCE_TAG, 31, 0⟩
/-- The register SE_FORCE_MASK of `20_scan_engine.md`. -/
abbrev SE_FORCE_MASK : Nat := 0x400D0044
abbrev SE_FORCE_MASK.VALUE : Field := ⟨SE_FORCE_MASK, 31, 0⟩
/-- The register SE_FORCE_VAL of `20_scan_engine.md`. -/
abbrev SE_FORCE_VAL : Nat := 0x400D0048
abbrev SE_FORCE_VAL.VALUE : Field := ⟨SE_FORCE_VAL, 31, 0⟩
/-- The register SE_FORCE_CMD of `20_scan_engine.md`. -/
abbrev SE_FORCE_CMD : Nat := 0x400D004C
abbrev SE_FORCE_CMD.CLR : Field := ⟨SE_FORCE_CMD, 1, 1⟩
abbrev SE_FORCE_CMD.SET : Field := ⟨SE_FORCE_CMD, 0, 0⟩
/-- The register SE_FORCE_STAT of `20_scan_engine.md`. -/
abbrev SE_FORCE_STAT : Nat := 0x400D0050
abbrev SE_FORCE_STAT.CODE : Field := ⟨SE_FORCE_STAT, 15, 8⟩
abbrev SE_FORCE_STAT.COUNT : Field := ⟨SE_FORCE_STAT, 6, 0⟩
/-- The register SE_FORCE_ENT of `20_scan_engine.md`. -/
abbrev SE_FORCE_ENT (n : Nat) (m : Nat) : Nat := 0x400D0100 + 0x10 * n + 0x4 * m
abbrev SE_FORCE_ENT.WORD (n : Nat) : Field := ⟨SE_FORCE_ENT n 0, 31, 16⟩
abbrev SE_FORCE_ENT.TAG (n : Nat) : Field := ⟨SE_FORCE_ENT n 0, 15, 0⟩
abbrev SE_FORCE_ENT.MASK (n : Nat) : Field := ⟨SE_FORCE_ENT n 1, 31, 0⟩
abbrev SE_FORCE_ENT.VALUE (n : Nat) : Field := ⟨SE_FORCE_ENT n 2, 31, 0⟩
/-- The register SE_FLOG of `20_scan_engine.md`. -/
abbrev SE_FLOG (n : Nat) : Nat := 0x400D0500 + 0x4 * n
abbrev SE_FLOG.CAUSE (n : Nat) : Field := ⟨SE_FLOG n, 17, 16⟩
abbrev SE_FLOG.TAG (n : Nat) : Field := ⟨SE_FLOG n, 15, 0⟩
/-- The register SE_FLOG_IDX of `20_scan_engine.md`. -/
abbrev SE_FLOG_IDX : Nat := 0x400D0540
abbrev SE_FLOG_IDX.TOTAL : Field := ⟨SE_FLOG_IDX, 31, 16⟩
abbrev SE_FLOG_IDX.NEXT : Field := ⟨SE_FLOG_IDX, 3, 0⟩
/-- The register PM_STAT of `21_parameter_memory.md`. -/
abbrev PM_STAT : Nat := 0x400E0004
abbrev PM_STAT.DENIED : Field := ⟨PM_STAT, 31, 16⟩
abbrev PM_STAT.CODE : Field := ⟨PM_STAT, 15, 8⟩
abbrev PM_STAT.READY : Field := ⟨PM_STAT, 3, 3⟩
abbrev PM_STAT.BUF : Field := ⟨PM_STAT, 2, 2⟩
abbrev PM_STAT.HELD : Field := ⟨PM_STAT, 1, 1⟩
abbrev PM_STAT.BUSY : Field := ⟨PM_STAT, 0, 0⟩
/-- The register PM_EVT of `21_parameter_memory.md`. -/
abbrev PM_EVT : Nat := 0x400E0008
abbrev PM_EVT.CE_LIM : Field := ⟨PM_EVT, 3, 3⟩
abbrev PM_EVT.UE : Field := ⟨PM_EVT, 2, 2⟩
abbrev PM_EVT.LOCKOUT : Field := ⟨PM_EVT, 1, 1⟩
abbrev PM_EVT.DONE : Field := ⟨PM_EVT, 0, 0⟩
/-- The register PM_IEN of `21_parameter_memory.md`. -/
abbrev PM_IEN : Nat := 0x400E000C
abbrev PM_IEN.CE_LIM : Field := ⟨PM_IEN, 3, 3⟩
abbrev PM_IEN.UE : Field := ⟨PM_IEN, 2, 2⟩
abbrev PM_IEN.LOCKOUT : Field := ⟨PM_IEN, 1, 1⟩
abbrev PM_IEN.DONE : Field := ⟨PM_IEN, 0, 0⟩
/-- The register PM_CMD of `21_parameter_memory.md`. -/
abbrev PM_CMD : Nat := 0x400E0010
abbrev PM_CMD.KEY : Field := ⟨PM_CMD, 31, 16⟩
abbrev PM_CMD.OP : Field := ⟨PM_CMD, 15, 12⟩
abbrev PM_CMD.PAGE : Field := ⟨PM_CMD, 10, 0⟩
/-- The register PM_CFG of `21_parameter_memory.md`. -/
abbrev PM_CFG : Nat := 0x400E0014
abbrev PM_CFG.CE_LIM : Field := ⟨PM_CFG, 15, 0⟩
/-- The register PM_UNLOCK of `21_parameter_memory.md`. -/
abbrev PM_UNLOCK : Nat := 0x400E0020
abbrev PM_UNLOCK.GO : Field := ⟨PM_UNLOCK, 6, 6⟩
abbrev PM_UNLOCK.LOCK : Field := ⟨PM_UNLOCK, 5, 5⟩
abbrev PM_UNLOCK.KIND : Field := ⟨PM_UNLOCK, 4, 4⟩
abbrev PM_UNLOCK.PART : Field := ⟨PM_UNLOCK, 3, 0⟩
/-- The register PM_PW0 of `21_parameter_memory.md`. -/
abbrev PM_PW0 : Nat := 0x400E0024
abbrev PM_PW0.BYTES : Field := ⟨PM_PW0, 31, 0⟩
/-- The register PM_PW1 of `21_parameter_memory.md`. -/
abbrev PM_PW1 : Nat := 0x400E0028
abbrev PM_PW1.BYTES : Field := ⟨PM_PW1, 31, 0⟩
/-- The register PM_ECC of `21_parameter_memory.md`. -/
abbrev PM_ECC : Nat := 0x400E0030
abbrev PM_ECC.UE : Field := ⟨PM_ECC, 31, 16⟩
abbrev PM_ECC.CE : Field := ⟨PM_ECC, 15, 0⟩
/-- The register PM_ECC_ADDR of `21_parameter_memory.md`. -/
abbrev PM_ECC_ADDR : Nat := 0x400E0034
abbrev PM_ECC_ADDR.ADDR : Field := ⟨PM_ECC_ADDR, 31, 0⟩
/-- The register PM_CE_DAY of `21_parameter_memory.md`. -/
abbrev PM_CE_DAY : Nat := 0x400E0038
abbrev PM_CE_DAY.SUM : Field := ⟨PM_CE_DAY, 31, 0⟩
/-- The register PM_JRNL of `21_parameter_memory.md`. -/
abbrev PM_JRNL : Nat := 0x400E003C
abbrev PM_JRNL.DONE : Field := ⟨PM_JRNL, 31, 16⟩
abbrev PM_JRNL.ROLLED : Field := ⟨PM_JRNL, 15, 0⟩
/-- The register PM_PART_STAT of `21_parameter_memory.md`. -/
abbrev PM_PART_STAT (n : Nat) : Nat := 0x400E0040 + 0x4 * n
abbrev PM_PART_STAT.DEF (n : Nat) : Field := ⟨PM_PART_STAT n, 31, 31⟩
abbrev PM_PART_STAT.JRNL (n : Nat) : Field := ⟨PM_PART_STAT n, 30, 30⟩
abbrev PM_PART_STAT.RPW (n : Nat) : Field := ⟨PM_PART_STAT n, 29, 29⟩
abbrev PM_PART_STAT.WPW (n : Nat) : Field := ⟨PM_PART_STAT n, 28, 28⟩
abbrev PM_PART_STAT.RUNL (n : Nat) : Field := ⟨PM_PART_STAT n, 27, 27⟩
abbrev PM_PART_STAT.WUNL (n : Nat) : Field := ⟨PM_PART_STAT n, 26, 26⟩
abbrev PM_PART_STAT.LOCKED (n : Nat) : Field := ⟨PM_PART_STAT n, 25, 25⟩
abbrev PM_PART_STAT.FAILS (n : Nat) : Field := ⟨PM_PART_STAT n, 24, 21⟩
abbrev PM_PART_STAT.WAIT (n : Nat) : Field := ⟨PM_PART_STAT n, 7, 0⟩
/-- The register PM_PART_MAP of `21_parameter_memory.md`. -/
abbrev PM_PART_MAP (n : Nat) : Nat := 0x400E0080 + 0x4 * n
abbrev PM_PART_MAP.SIZE (n : Nat) : Field := ⟨PM_PART_MAP n, 26, 16⟩
abbrev PM_PART_MAP.BASE (n : Nat) : Field := ⟨PM_PART_MAP n, 10, 0⟩
/-- The register PM_BUF of `21_parameter_memory.md`. -/
abbrev PM_BUF (n : Nat) : Nat := 0x400E0100 + 0x4 * n
abbrev PM_BUF.VALUE (n : Nat) : Field := ⟨PM_BUF n, 31, 0⟩
/-- The register PM_SC_VAL of `21_parameter_memory.md`. -/
abbrev PM_SC_VAL (n : Nat) : Nat := 0x400E0200 + 0x4 * n
abbrev PM_SC_VAL.VALUE (n : Nat) : Field := ⟨PM_SC_VAL n, 31, 0⟩
/-- The register PM_SC_CMD of `21_parameter_memory.md`. -/
abbrev PM_SC_CMD : Nat := 0x400E0280
abbrev PM_SC_CMD.KEY : Field := ⟨PM_SC_CMD, 31, 16⟩
abbrev PM_SC_CMD.GO : Field := ⟨PM_SC_CMD, 5, 5⟩
abbrev PM_SC_CMD.INDEX : Field := ⟨PM_SC_CMD, 4, 0⟩
/-- The register PM_SC_STAT of `21_parameter_memory.md`. -/
abbrev PM_SC_STAT : Nat := 0x400E0284
abbrev PM_SC_STAT.CODE : Field := ⟨PM_SC_STAT, 15, 8⟩
abbrev PM_SC_STAT.IGNORED : Field := ⟨PM_SC_STAT, 1, 1⟩
abbrev PM_SC_STAT.BUSY : Field := ⟨PM_SC_STAT, 0, 0⟩
/-- The register PM_SC_BAD of `21_parameter_memory.md`. -/
abbrev PM_SC_BAD : Nat := 0x400E0288
abbrev PM_SC_BAD.BAD : Field := ⟨PM_SC_BAD, 31, 0⟩
/-- The register VLT_STAT of `22_vault_and_attestation.md`. -/
abbrev VLT_STAT : Nat := 0x400F0000
abbrev VLT_STAT.LCCLASS : Field := ⟨VLT_STAT, 11, 10⟩
abbrev VLT_STAT.FW_ROLL_BUSY : Field := ⟨VLT_STAT, 9, 9⟩
abbrev VLT_STAT.CERT : Field := ⟨VLT_STAT, 8, 8⟩
abbrev VLT_STAT.TRNG_FAIL : Field := ⟨VLT_STAT, 7, 7⟩
abbrev VLT_STAT.ST_FAIL : Field := ⟨VLT_STAT, 6, 6⟩
abbrev VLT_STAT.ST_DONE : Field := ⟨VLT_STAT, 5, 5⟩
abbrev VLT_STAT.APPROVED : Field := ⟨VLT_STAT, 4, 4⟩
abbrev VLT_STAT.DBGSEEN : Field := ⟨VLT_STAT, 3, 3⟩
abbrev VLT_STAT.DEBUG : Field := ⟨VLT_STAT, 2, 2⟩
abbrev VLT_STAT.ZEROED : Field := ⟨VLT_STAT, 1, 1⟩
abbrev VLT_STAT.ROOT : Field := ⟨VLT_STAT, 0, 0⟩
/-- The register VLT_TAMP of `22_vault_and_attestation.md`. -/
abbrev VLT_TAMP : Nat := 0x400F0004
abbrev VLT_TAMP.COUNT : Field := ⟨VLT_TAMP, 31, 16⟩
abbrev VLT_TAMP.SRC : Field := ⟨VLT_TAMP, 6, 0⟩
/-- The register VLT_TAMP_TICK0 of `22_vault_and_attestation.md`. -/
abbrev VLT_TAMP_TICK0 : Nat := 0x400F0008
abbrev VLT_TAMP_TICK0.VALUE : Field := ⟨VLT_TAMP_TICK0, 31, 0⟩
/-- The register VLT_TAMP_TICK1 of `22_vault_and_attestation.md`. -/
abbrev VLT_TAMP_TICK1 : Nat := 0x400F000C
abbrev VLT_TAMP_TICK1.VALUE : Field := ⟨VLT_TAMP_TICK1, 31, 0⟩
/-- The register VLT_DEVID_LO of `22_vault_and_attestation.md`. -/
abbrev VLT_DEVID_LO : Nat := 0x400F0010
abbrev VLT_DEVID_LO.VALUE : Field := ⟨VLT_DEVID_LO, 31, 0⟩
/-- The register VLT_DEVID_HI of `22_vault_and_attestation.md`. -/
abbrev VLT_DEVID_HI : Nat := 0x400F0014
abbrev VLT_DEVID_HI.VALUE : Field := ⟨VLT_DEVID_HI, 31, 0⟩
/-- The register VLT_BOOT of `22_vault_and_attestation.md`. -/
abbrev VLT_BOOT : Nat := 0x400F0018
abbrev VLT_BOOT.B_CODE : Field := ⟨VLT_BOOT, 31, 24⟩
abbrev VLT_BOOT.A_CODE : Field := ⟨VLT_BOOT, 23, 16⟩
abbrev VLT_BOOT.UNOWNED : Field := ⟨VLT_BOOT, 7, 7⟩
abbrev VLT_BOOT.SLOT : Field := ⟨VLT_BOOT, 5, 4⟩
/-- The register VLT_FW_VER of `22_vault_and_attestation.md`. -/
abbrev VLT_FW_VER : Nat := 0x400F001C
abbrev VLT_FW_VER.VALUE : Field := ⟨VLT_FW_VER, 31, 0⟩
/-- The register VLT_ROM_VER of `22_vault_and_attestation.md`. -/
abbrev VLT_ROM_VER : Nat := 0x400F0020
abbrev VLT_ROM_VER.VALUE : Field := ⟨VLT_ROM_VER, 31, 0⟩
/-- The register VLT_SLOT_POL of `22_vault_and_attestation.md`. -/
abbrev VLT_SLOT_POL (n : Nat) : Nat := 0x400F0100 + 0x8 * n
abbrev VLT_SLOT_POL.POLICY (n : Nat) : Field := ⟨VLT_SLOT_POL n, 31, 0⟩
/-- The register VLT_SLOT_LIM of `22_vault_and_attestation.md`. -/
abbrev VLT_SLOT_LIM (n : Nat) : Nat := 0x400F0104 + 0x8 * n
abbrev VLT_SLOT_LIM.GEN (n : Nat) : Field := ⟨VLT_SLOT_LIM n, 31, 16⟩
abbrev VLT_SLOT_LIM.USE_LIMIT (n : Nat) : Field := ⟨VLT_SLOT_LIM n, 15, 0⟩
/-- The register VLT_CMD of `22_vault_and_attestation.md`. -/
abbrev VLT_CMD : Nat := 0x400F1000
abbrev VLT_CMD.ADDR : Field := ⟨VLT_CMD, 31, 0⟩
/-- The register VLT_CMD_STAT of `22_vault_and_attestation.md`. -/
abbrev VLT_CMD_STAT : Nat := 0x400F1004
abbrev VLT_CMD_STAT.OUT : Field := ⟨VLT_CMD_STAT, 31, 16⟩
abbrev VLT_CMD_STAT.CODE : Field := ⟨VLT_CMD_STAT, 15, 8⟩
abbrev VLT_CMD_STAT.APPR : Field := ⟨VLT_CMD_STAT, 2, 2⟩
abbrev VLT_CMD_STAT.IGNORED : Field := ⟨VLT_CMD_STAT, 1, 1⟩
abbrev VLT_CMD_STAT.BUSY : Field := ⟨VLT_CMD_STAT, 0, 0⟩
/-- The register VLT_EVT of `22_vault_and_attestation.md`. -/
abbrev VLT_EVT : Nat := 0x400F1008
abbrev VLT_EVT.TRNG : Field := ⟨VLT_EVT, 2, 2⟩
abbrev VLT_EVT.TAMPER : Field := ⟨VLT_EVT, 1, 1⟩
abbrev VLT_EVT.DONE : Field := ⟨VLT_EVT, 0, 0⟩
/-- The register VLT_IEN of `22_vault_and_attestation.md`. -/
abbrev VLT_IEN : Nat := 0x400F100C
abbrev VLT_IEN.TRNG : Field := ⟨VLT_IEN, 2, 2⟩
abbrev VLT_IEN.TAMPER : Field := ⟨VLT_IEN, 1, 1⟩
abbrev VLT_IEN.DONE : Field := ⟨VLT_IEN, 0, 0⟩
/-- The register VLT_FW_ROLL of `22_vault_and_attestation.md`. -/
abbrev VLT_FW_ROLL : Nat := 0x400F1010
abbrev VLT_FW_ROLL.KEY : Field := ⟨VLT_FW_ROLL, 31, 16⟩
abbrev VLT_FW_ROLL.GO : Field := ⟨VLT_FW_ROLL, 0, 0⟩
/-- The register LCS_STAT of `23_life_cycle_selftest_wear.md`. -/
abbrev LCS_STAT : Nat := 0x40100000
abbrev LCS_STAT.LCR : Field := ⟨LCS_STAT, 11, 11⟩
abbrev LCS_STAT.SRV : Field := ⟨LCS_STAT, 10, 10⟩
abbrev LCS_STAT.BIST : Field := ⟨LCS_STAT, 9, 9⟩
abbrev LCS_STAT.OWNER : Field := ⟨LCS_STAT, 8, 8⟩
abbrev LCS_STAT.DEBUG : Field := ⟨LCS_STAT, 7, 7⟩
abbrev LCS_STAT.FUSE : Field := ⟨LCS_STAT, 6, 3⟩
abbrev LCS_STAT.STATE : Field := ⟨LCS_STAT, 2, 0⟩
/-- The register LCS_CMD of `23_life_cycle_selftest_wear.md`. -/
abbrev LCS_CMD : Nat := 0x40100004
abbrev LCS_CMD.KEY : Field := ⟨LCS_CMD, 31, 16⟩
abbrev LCS_CMD.OP : Field := ⟨LCS_CMD, 3, 0⟩
/-- The register LCS_CMD_STAT of `23_life_cycle_selftest_wear.md`. -/
abbrev LCS_CMD_STAT : Nat := 0x40100008
abbrev LCS_CMD_STAT.CODE : Field := ⟨LCS_CMD_STAT, 15, 8⟩
abbrev LCS_CMD_STAT.BUSY : Field := ⟨LCS_CMD_STAT, 0, 0⟩
/-- The register LCS_EVT of `23_life_cycle_selftest_wear.md`. -/
abbrev LCS_EVT : Nat := 0x4010000C
abbrev LCS_EVT.STATE : Field := ⟨LCS_EVT, 3, 3⟩
abbrev LCS_EVT.CAUSE : Field := ⟨LCS_EVT, 2, 2⟩
abbrev LCS_EVT.BIST : Field := ⟨LCS_EVT, 1, 1⟩
abbrev LCS_EVT.CMD : Field := ⟨LCS_EVT, 0, 0⟩
/-- The register LCS_IEN of `23_life_cycle_selftest_wear.md`. -/
abbrev LCS_IEN : Nat := 0x40100010
abbrev LCS_IEN.STATE : Field := ⟨LCS_IEN, 3, 3⟩
abbrev LCS_IEN.CAUSE : Field := ⟨LCS_IEN, 2, 2⟩
abbrev LCS_IEN.BIST : Field := ⟨LCS_IEN, 1, 1⟩
abbrev LCS_IEN.CMD : Field := ⟨LCS_IEN, 0, 0⟩
/-- The register LCS_OWNER of `23_life_cycle_selftest_wear.md`. -/
abbrev LCS_OWNER (n : Nat) : Nat := 0x40100020 + 0x4 * n
abbrev LCS_OWNER.HASH (n : Nat) : Field := ⟨LCS_OWNER n, 31, 0⟩
/-- The register LCS_BIST_CMD of `23_life_cycle_selftest_wear.md`. -/
abbrev LCS_BIST_CMD : Nat := 0x40100040
abbrev LCS_BIST_CMD.GO : Field := ⟨LCS_BIST_CMD, 31, 31⟩
abbrev LCS_BIST_CMD.ABORT : Field := ⟨LCS_BIST_CMD, 30, 30⟩
abbrev LCS_BIST_CMD.COUNT : Field := ⟨LCS_BIST_CMD, 20, 16⟩
abbrev LCS_BIST_CMD.KIND : Field := ⟨LCS_BIST_CMD, 11, 8⟩
abbrev LCS_BIST_CMD.INDEX : Field := ⟨LCS_BIST_CMD, 2, 0⟩
/-- The register LCS_BIST_STAT of `23_life_cycle_selftest_wear.md`. -/
abbrev LCS_BIST_STAT : Nat := 0x40100044
abbrev LCS_BIST_STAT.CODE : Field := ⟨LCS_BIST_STAT, 23, 16⟩
abbrev LCS_BIST_STAT.KIND : Field := ⟨LCS_BIST_STAT, 15, 12⟩
abbrev LCS_BIST_STAT.INDEX : Field := ⟨LCS_BIST_STAT, 10, 8⟩
abbrev LCS_BIST_STAT.CUT : Field := ⟨LCS_BIST_STAT, 1, 1⟩
abbrev LCS_BIST_STAT.BUSY : Field := ⟨LCS_BIST_STAT, 0, 0⟩
/-- The register LCS_BIST_PAT of `23_life_cycle_selftest_wear.md`. -/
abbrev LCS_BIST_PAT : Nat := 0x40100048
abbrev LCS_BIST_PAT.VALUE : Field := ⟨LCS_BIST_PAT, 31, 0⟩
/-- The register LCS_BIST_SIG_LO of `23_life_cycle_selftest_wear.md`. -/
abbrev LCS_BIST_SIG_LO : Nat := 0x4010004C
abbrev LCS_BIST_SIG_LO.VALUE : Field := ⟨LCS_BIST_SIG_LO, 31, 0⟩
/-- The register LCS_BIST_SIG_HI of `23_life_cycle_selftest_wear.md`. -/
abbrev LCS_BIST_SIG_HI : Nat := 0x40100050
abbrev LCS_BIST_SIG_HI.VALUE : Field := ⟨LCS_BIST_SIG_HI, 31, 0⟩
/-- The register LCS_HEALTH of `23_life_cycle_selftest_wear.md`. -/
abbrev LCS_HEALTH : Nat := 0x40100060
abbrev LCS_HEALTH.CPBOOT : Field := ⟨LCS_HEALTH, 21, 21⟩
abbrev LCS_HEALTH.MESPARE : Field := ⟨LCS_HEALTH, 20, 20⟩
abbrev LCS_HEALTH.CAN : Field := ⟨LCS_HEALTH, 19, 12⟩
abbrev LCS_HEALTH.SA : Field := ⟨LCS_HEALTH, 11, 4⟩
abbrev LCS_HEALTH.LE : Field := ⟨LCS_HEALTH, 3, 0⟩
/-- The register LCS_CAUSE of `23_life_cycle_selftest_wear.md`. -/
abbrev LCS_CAUSE : Nat := 0x40100070
abbrev LCS_CAUSE.WORD : Field := ⟨LCS_CAUSE, 31, 0⟩
/-- The register LCS_CAUSE_SEEN of `23_life_cycle_selftest_wear.md`. -/
abbrev LCS_CAUSE_SEEN : Nat := 0x40100074
abbrev LCS_CAUSE_SEEN.WORD : Field := ⟨LCS_CAUSE_SEEN, 31, 0⟩
/-- The register LCS_VBAT of `23_life_cycle_selftest_wear.md`. -/
abbrev LCS_VBAT : Nat := 0x40100078
abbrev LCS_VBAT.MV : Field := ⟨LCS_VBAT, 15, 0⟩
/-- The register LCS_CAUSE_TICK_LO of `23_life_cycle_selftest_wear.md`. -/
abbrev LCS_CAUSE_TICK_LO (n : Nat) : Nat := 0x40100080 + 0x8 * n
abbrev LCS_CAUSE_TICK_LO.VALUE (n : Nat) : Field := ⟨LCS_CAUSE_TICK_LO n, 31, 0⟩
/-- The register LCS_CAUSE_TICK_HI of `23_life_cycle_selftest_wear.md`. -/
abbrev LCS_CAUSE_TICK_HI (n : Nat) : Nat := 0x40100084 + 0x8 * n
abbrev LCS_CAUSE_TICK_HI.VALUE (n : Nat) : Field := ⟨LCS_CAUSE_TICK_HI n, 31, 0⟩
/-- The register SYS_LIVE_CTL of `24_live_change.md`. -/
abbrev SYS_LIVE_CTL : Nat := 0x40000180
abbrev SYS_LIVE_CTL.KEY : Field := ⟨SYS_LIVE_CTL, 31, 16⟩
abbrev SYS_LIVE_CTL.DROP : Field := ⟨SYS_LIVE_CTL, 2, 2⟩
abbrev SYS_LIVE_CTL.GO : Field := ⟨SYS_LIVE_CTL, 1, 1⟩
abbrev SYS_LIVE_CTL.HOLD : Field := ⟨SYS_LIVE_CTL, 0, 0⟩
/-- The register SYS_LIVE_STAT of `24_live_change.md`. -/
abbrev SYS_LIVE_STAT : Nat := 0x40000184
abbrev SYS_LIVE_STAT.HOLD : Field := ⟨SYS_LIVE_STAT, 16, 16⟩
abbrev SYS_LIVE_STAT.CODE : Field := ⟨SYS_LIVE_STAT, 15, 8⟩
abbrev SYS_LIVE_STAT.HELD : Field := ⟨SYS_LIVE_STAT, 7, 0⟩
/-- The register ETH_EVT of `17 R374`. -/
abbrev ETH_EVT (n : Nat) : Nat := 0x400B0010 + 0x1000 * n
abbrev ETH_EVT.TXDONE (n : Nat) : Field := ⟨ETH_EVT n, 4, 4⟩
abbrev ETH_EVT.CAR_LOST (n : Nat) : Field := ⟨ETH_EVT n, 3, 3⟩
abbrev ETH_EVT.RX_LOST (n : Nat) : Field := ⟨ETH_EVT n, 2, 2⟩
abbrev ETH_EVT.CAR (n : Nat) : Field := ⟨ETH_EVT n, 1, 1⟩
abbrev ETH_EVT.RX (n : Nat) : Field := ⟨ETH_EVT n, 0, 0⟩
/-- The register ETH_IEN of `17 R374`. -/
abbrev ETH_IEN (n : Nat) : Nat := 0x400B0014 + 0x1000 * n
abbrev ETH_IEN.TXDONE (n : Nat) : Field := ⟨ETH_IEN n, 4, 4⟩
abbrev ETH_IEN.CAR_LOST (n : Nat) : Field := ⟨ETH_IEN n, 3, 3⟩
abbrev ETH_IEN.RX_LOST (n : Nat) : Field := ⟨ETH_IEN n, 2, 2⟩
abbrev ETH_IEN.CAR (n : Nat) : Field := ⟨ETH_IEN n, 1, 1⟩
abbrev ETH_IEN.RX (n : Nat) : Field := ⟨ETH_IEN n, 0, 0⟩
/-- The register ETH_ERR of `17 R374`. -/
abbrev ETH_ERR (n : Nat) : Nat := 0x400B0018 + 0x1000 * n
/-- The register ETH_SIZE of `17 R374`. -/
abbrev ETH_SIZE (n : Nat) : Nat := 0x400B001C + 0x1000 * n
abbrev ETH_SIZE.CQ (n : Nat) : Field := ⟨ETH_SIZE n, 31, 23⟩
abbrev ETH_SIZE.CTX (n : Nat) : Field := ⟨ETH_SIZE n, 22, 18⟩
abbrev ETH_SIZE.RXQ (n : Nat) : Field := ⟨ETH_SIZE n, 12, 0⟩
/-- The register ETH_RXQ_BASE of `17 R374`. -/
abbrev ETH_RXQ_BASE (n : Nat) : Nat := 0x400B0020 + 0x1000 * n
abbrev ETH_RXQ_BASE.ADDR (n : Nat) : Field := ⟨ETH_RXQ_BASE n, 31, 0⟩
/-- The register ETH_CAR_BASE of `17 R374`. -/
abbrev ETH_CAR_BASE (n : Nat) : Nat := 0x400B0024 + 0x1000 * n
abbrev ETH_CAR_BASE.ADDR (n : Nat) : Field := ⟨ETH_CAR_BASE n, 31, 0⟩
/-- The register ETH_CQ_BASE of `17 R374`. -/
abbrev ETH_CQ_BASE (n : Nat) : Nat := 0x400B0028 + 0x1000 * n
abbrev ETH_CQ_BASE.ADDR (n : Nat) : Field := ⟨ETH_CQ_BASE n, 31, 0⟩
/-- The register ETH_TX_BASE of `17 R374`. -/
abbrev ETH_TX_BASE (n : Nat) : Nat := 0x400B002C + 0x1000 * n
abbrev ETH_TX_BASE.ADDR (n : Nat) : Field := ⟨ETH_TX_BASE n, 31, 0⟩
/-- The register ETH_RX_WIDX of `17 R374`. -/
abbrev ETH_RX_WIDX (n : Nat) : Nat := 0x400B0030 + 0x1000 * n
abbrev ETH_RX_WIDX.OWNED (n : Nat) : Field := ⟨ETH_RX_WIDX n, 28, 16⟩
abbrev ETH_RX_WIDX.NEXT (n : Nat) : Field := ⟨ETH_RX_WIDX n, 12, 0⟩
/-- The register ETH_CQ_WIDX of `17 R374`. -/
abbrev ETH_CQ_WIDX (n : Nat) : Nat := 0x400B0038 + 0x1000 * n
abbrev ETH_CQ_WIDX.OWNED (n : Nat) : Field := ⟨ETH_CQ_WIDX n, 28, 16⟩
abbrev ETH_CQ_WIDX.NEXT (n : Nat) : Field := ⟨ETH_CQ_WIDX n, 12, 0⟩
/-- The register ETH_RX_ACK of `17 R374`. -/
abbrev ETH_RX_ACK (n : Nat) : Nat := 0x400B0034 + 0x1000 * n
abbrev ETH_RX_ACK.INDEX (n : Nat) : Field := ⟨ETH_RX_ACK n, 12, 0⟩
/-- The register ETH_CQ_ACK of `17 R374`. -/
abbrev ETH_CQ_ACK (n : Nat) : Nat := 0x400B003C + 0x1000 * n
abbrev ETH_CQ_ACK.INDEX (n : Nat) : Field := ⟨ETH_CQ_ACK n, 12, 0⟩
/-- The register ETH_LOST of `17 R374`. -/
abbrev ETH_LOST (n : Nat) : Nat := 0x400B0040 + 0x1000 * n
abbrev ETH_LOST.BADACK (n : Nat) : Field := ⟨ETH_LOST n, 31, 31⟩
abbrev ETH_LOST.DUP (n : Nat) : Field := ⟨ETH_LOST n, 30, 24⟩
abbrev ETH_LOST.CAR_LOST (n : Nat) : Field := ⟨ETH_LOST n, 23, 12⟩
abbrev ETH_LOST.RX_LOST (n : Nat) : Field := ⟨ETH_LOST n, 11, 0⟩
/-- The register ETH_CAR_CFG of `17 R374`. -/
abbrev ETH_CAR_CFG (n : Nat) : Nat := 0x400B0044 + 0x1000 * n
abbrev ETH_CAR_CFG.TO (n : Nat) : Field := ⟨ETH_CAR_CFG n, 9, 0⟩
/-- The register ETH_TX_REQ of `17 R374`. -/
abbrev ETH_TX_REQ (n : Nat) : Nat := 0x400B0048 + 0x1000 * n
abbrev ETH_TX_REQ.ENTRY (n : Nat) : Field := ⟨ETH_TX_REQ n, 31, 0⟩
/-- The register ETH_TX_PEND of `17 R374`. -/
abbrev ETH_TX_PEND (n : Nat) : Nat := 0x400B004C + 0x1000 * n
abbrev ETH_TX_PEND.ENTRY (n : Nat) : Field := ⟨ETH_TX_PEND n, 31, 0⟩
/-- The register ETH_TX_ABORT of `17 R374`. -/
abbrev ETH_TX_ABORT (n : Nat) : Nat := 0x400B0050 + 0x1000 * n
abbrev ETH_TX_ABORT.ENTRY (n : Nat) : Field := ⟨ETH_TX_ABORT n, 31, 0⟩
/-- The register ETH_TX_DONE of `17 R374`. -/
abbrev ETH_TX_DONE (n : Nat) : Nat := 0x400B0054 + 0x1000 * n
abbrev ETH_TX_DONE.ENTRY (n : Nat) : Field := ⟨ETH_TX_DONE n, 31, 0⟩
/-- The register ETH_TX_STAT of `17 R374`. -/
abbrev ETH_TX_STAT (n : Nat) (m : Nat) : Nat := 0x400B0100 + 0x1000 * n + 0x4 * m
abbrev ETH_TX_STAT.FRAMES (n : Nat) (m : Nat) : Field := ⟨ETH_TX_STAT n m, 21, 16⟩
abbrev ETH_TX_STAT.DETAIL (n : Nat) (m : Nat) : Field := ⟨ETH_TX_STAT n m, 15, 8⟩
abbrev ETH_TX_STAT.STATUS (n : Nat) (m : Nat) : Field := ⟨ETH_TX_STAT n m, 7, 0⟩

end Sys2Proof.Machine
end

