-- ==== Sys2Proof/Machine/Float.lean ====
section
/-! DEFINITION. Binary floating-point arithmetic of IEEE 754: every operation computes its exact result from the exact
values of its operands and rounds it once, to nearest with ties to even. A format may read subnormals as zero and flush
results below its smallest normal number (the solver array, R189). -/

namespace Sys2Proof.Machine

/-- A binary format: exponent bits, mantissa bits, and whether subnormals are read and written as zero (R189). -/
structure FFmt where
  ebits : Nat
  mbits : Nat
  ftz : Bool
  deriving DecidableEq, Repr

/-- binary32. -/
def b32 : FFmt := ⟨8, 23, false⟩
/-- binary32 as the solver array computes it (R189). (DEDUCED, log entry 13) -/
def sa32 : FFmt := ⟨8, 23, true⟩
/-- binary64. -/
def b64 : FFmt := ⟨11, 52, false⟩

/-- The value of a floating-point number: not a number, an infinity, or (-1)^neg · m · 2^e. -/
inductive FVal where
  | nan
  | inf (neg : Bool)
  | fin (neg : Bool) (m : Nat) (e : Int)
  deriving DecidableEq, Repr

/-- The place of the sign bit. -/
def FFmt.signBit (f : FFmt) : Nat := 2 ^ (f.ebits + f.mbits)
/-- The bits of positive infinity. -/
def FFmt.infBits (f : FFmt) : Nat := (2 ^ f.ebits - 1) * 2 ^ f.mbits
/-- The quiet NaN an operation gives. -/
def FFmt.nanBits (f : FFmt) : Nat := f.infBits + 2 ^ (f.mbits - 1)
/-- The exponent of one unit in the last place of a subnormal. -/
def FFmt.minExp (f : FFmt) : Int := 2 - (2 : Int) ^ (f.ebits - 1) - f.mbits

/-- The value the bits `x` stand for. -/
def fdec (f : FFmt) (x : Nat) : FVal :=
  let neg := (x / f.signBit) % 2 == 1
  let ex := (x / 2 ^ f.mbits) % 2 ^ f.ebits
  let mant := x % 2 ^ f.mbits
  if ex = 2 ^ f.ebits - 1 then (if mant = 0 then .inf neg else .nan)
  else if ex = 0 then .fin neg (if f.ftz then 0 else mant) f.minExp
  else .fin neg (mant + 2 ^ f.mbits) (f.minExp + ex - 1)

/-- m · 2^e, with a remainder below it when `sticky`, rounded to nearest even: the bits without the sign. -/
def froundPos (f : FFmt) (m : Nat) (e : Int) (sticky : Bool) : Nat :=
  if m = 0 then 0 else
  let len : Int := (Nat.log2 m : Int) + 1
  let q : Int := if f.ftz then e + len - (f.mbits + 1) else max (e + len - (f.mbits + 1)) f.minExp
  let mant :=
    if q ≤ e then m * 2 ^ (e - q).toNat
    else
      let sh := (q - e).toNat
      let hi := m / 2 ^ sh
      let lo := m % 2 ^ sh
      let half := 2 ^ (sh - 1)
      if half < lo || (lo == half && (sticky || hi % 2 == 1)) then hi + 1 else hi
  if q < f.minExp then (if q + 1 = f.minExp ∧ mant = 2 ^ (f.mbits + 1) then 2 ^ f.mbits else 0)
  else
    let r := (q - f.minExp).toNat * 2 ^ f.mbits + mant
    if f.infBits ≤ r then f.infBits else r

/-- The bits of (-1)^neg · m · 2^e rounded. (DEDUCED, log entry 13) -/
def fpack (f : FFmt) (neg : Bool) (m : Nat) (e : Int) (sticky : Bool) : Nat :=
  froundPos f m e sticky + (if neg then f.signBit else 0)

/-- The bits of a value. -/
def fenc (f : FFmt) : FVal → Nat
  | .nan => f.nanBits
  | .inf neg => f.infBits + (if neg then f.signBit else 0)
  | .fin neg m e => fpack f neg m e false

/-- The integer m·2^(e-base), for base at most e. -/
def alignTo (base : Int) (neg : Bool) (m : Nat) (e : Int) : Int :=
  let v : Int := ((m * 2 ^ (e - base).toNat : Nat) : Int)
  if neg then -v else v

/-- The exact sum of two values; an exact zero sum is +0 unless both are −0. -/
def vadd : FVal → FVal → FVal
  | .nan, _ => .nan
  | _, .nan => .nan
  | .inf a, .inf b => if a = b then .inf a else .nan
  | .inf a, _ => .inf a
  | _, .inf b => .inf b
  | .fin n1 m1 e1, .fin n2 m2 e2 =>
    let base := min e1 e2
    let s := alignTo base n1 m1 e1 + alignTo base n2 m2 e2
    if s = 0 then .fin (n1 && n2 && decide (m1 = 0)) 0 base
    else .fin (decide (s < 0)) s.natAbs base

/-- The value with its sign changed. -/
def vneg : FVal → FVal
  | .nan => .nan
  | .inf a => .inf (!a)
  | .fin n m e => .fin (!n) m e

/-- The value without its sign. -/
def vabs : FVal → FVal
  | .nan => .nan
  | .inf _ => .inf false
  | .fin _ m e => .fin false m e

/-- The exact product of two values. -/
def vmul : FVal → FVal → FVal
  | .nan, _ => .nan
  | _, .nan => .nan
  | .inf a, .inf b => .inf (a != b)
  | .inf a, .fin b m _ => if m = 0 then .nan else .inf (a != b)
  | .fin b m _, .inf a => if m = 0 then .nan else .inf (a != b)
  | .fin n1 m1 e1, .fin n2 m2 e2 => .fin (n1 != n2) (m1 * m2) (e1 + e2)

/-- x + y. (DEDUCED, log entry 13) -/
def fadd (f : FFmt) (x y : Nat) : Nat := fenc f (vadd (fdec f x) (fdec f y))
/-- x − y. -/
def fsub (f : FFmt) (x y : Nat) : Nat := fenc f (vadd (fdec f x) (vneg (fdec f y)))
/-- x · y. -/
def fmul (f : FFmt) (x y : Nat) : Nat := fenc f (vmul (fdec f x) (fdec f y))
/-- x · y + z with one rounding. (DEDUCED, log entry 13) -/
def ffma (f : FFmt) (x y z : Nat) : Nat := fenc f (vadd (vmul (fdec f x) (fdec f y)) (fdec f z))
/-- −x. -/
def fneg (f : FFmt) (x : Nat) : Nat := if (x / f.signBit) % 2 = 1 then x - f.signBit else x + f.signBit
/-- |x|. -/
def fabs (f : FFmt) (x : Nat) : Nat := x % f.signBit

/-- The bits of (-1)^neg · n / d · 2^e, rounded once; d is not 0. -/
def fratio (f : FFmt) (neg : Bool) (n d : Nat) (e : Int) : Nat :=
  if n = 0 then (if neg then f.signBit else 0) else
  let k := f.mbits + 4 + (Nat.log2 d - Nat.log2 n) + f.ebits
  let q := n * 2 ^ k / d
  fpack f neg (q * 2 + (if n * 2 ^ k % d = 0 then 0 else 1)) (e - k - 1) (decide (n * 2 ^ k % d ≠ 0))

/-- x / y. -/
def fdiv (f : FFmt) (x y : Nat) : Nat :=
  match fdec f x, fdec f y with
  | .nan, _ => f.nanBits
  | _, .nan => f.nanBits
  | .inf _, .inf _ => f.nanBits
  | .inf a, .fin b _ _ => fenc f (.inf (a != b))
  | .fin a _ e, .inf b => fenc f (.fin (a != b) 0 e)
  | .fin n1 m1 e1, .fin n2 m2 e2 =>
    if m2 = 0 then (if m1 = 0 then f.nanBits else fenc f (.inf (n1 != n2)))
    else fratio f (n1 != n2) m1 m2 (e1 - e2)

/-- The square root of x. -/
def fsqrt (f : FFmt) (x : Nat) : Nat :=
  match fdec f x with
  | .nan => f.nanBits
  | .inf neg => if neg then f.nanBits else f.infBits
  | .fin neg m e =>
    if m = 0 then (if neg then f.signBit else 0)
    else if neg then f.nanBits
    else
      let k := 2 * (f.mbits + 4)
      let k' : Nat := if (e - k) % 2 = 0 then k else k + 1
      let w := m * 2 ^ k'
      let r := Nat.sqrt w
      fpack f false (r * 2 + (if r * r = w then 0 else 1)) ((e - k') / 2 - 1) (decide (r * r ≠ w))

/-- x is not a number. -/
def fisNan (f : FFmt) (x : Nat) : Bool := decide (fdec f x = .nan)
/-- x is finite. -/
def fisFin (f : FFmt) (x : Nat) : Bool :=
  match fdec f x with
  | .fin _ _ _ => true
  | _ => false
/-- x is an infinity. -/
def fisInf (f : FFmt) (x : Nat) : Bool :=
  match fdec f x with
  | .inf _ => true
  | _ => false

/-- The order of two values that are numbers: the sign of v − w. -/
def vcmp : FVal → FVal → Option Int
  | .nan, _ => none
  | _, .nan => none
  | .inf a, .inf b => some (if a = b then 0 else if a then -1 else 1)
  | .inf a, .fin _ _ _ => some (if a then -1 else 1)
  | .fin _ _ _, .inf b => some (if b then 1 else -1)
  | .fin n1 m1 e1, .fin n2 m2 e2 =>
    let base := min e1 e2
    let d := alignTo base n1 m1 e1 - alignTo base n2 m2 e2
    some (if d < 0 then -1 else if d = 0 then 0 else 1)

/-- x < y; false when either is not a number. -/
def flt (f : FFmt) (x y : Nat) : Bool := vcmp (fdec f x) (fdec f y) == some (-1)
/-- x ≤ y; false when either is not a number. -/
def fle (f : FFmt) (x y : Nat) : Bool := vcmp (fdec f x) (fdec f y) == some (-1) || vcmp (fdec f x) (fdec f y) == some 0
/-- x = y as numbers. -/
def feq (f : FFmt) (x y : Nat) : Bool := vcmp (fdec f x) (fdec f y) == some 0

/-- The same value in another format, rounded. -/
def fconv (src dst : FFmt) (x : Nat) : Nat :=
  match fdec src x with
  | .nan => dst.nanBits
  | v => fenc dst v

/-- An integer as a floating-point number, rounded. -/
def fofInt (f : FFmt) (i : Int) : Nat := fpack f (decide (i < 0)) i.natAbs 0 false
/-- The number n / d rounded, n an integer and d not 0. -/
def fofRat (f : FFmt) (n : Int) (d : Nat) : Nat := fratio f (decide (n < 0)) n.natAbs d 0
/-- i · 2^e, rounded. -/
def fofScaled (f : FFmt) (i : Int) (e : Int) : Nat := fpack f (decide (i < 0)) i.natAbs e false

/-- m · 2^e rounded to the nearest integer, ties to even. (DEDUCED, log entry 16) -/
def roundEven (m : Nat) (e : Int) : Nat :=
  if 0 ≤ e then m * 2 ^ e.toNat
  else
    let sh := (-e).toNat
    let hi := m / 2 ^ sh
    let lo := m % 2 ^ sh
    if 2 ^ (sh - 1) < lo || (lo == 2 ^ (sh - 1) && hi % 2 == 1) then hi + 1 else hi

/-- m · 2^e rounded to the nearest integer, ties away from zero. -/
def roundAway (m : Nat) (e : Int) : Nat :=
  if 0 ≤ e then m * 2 ^ e.toNat
  else
    let sh := (-e).toNat
    (m + 2 ^ (sh - 1)) / 2 ^ sh

/-- x rounded to the nearest integer, ties to even; none when x is not finite. -/
def ftoInt (f : FFmt) (x : Nat) : Option Int :=
  match fdec f x with
  | .fin neg m e => some (if neg then -(roundEven m e : Int) else (roundEven m e : Int))
  | _ => none

/-- The largest integer not above x; none when x is not finite. -/
def ffloor (f : FFmt) (x : Nat) : Option Int :=
  match fdec f x with
  | .fin neg m e =>
    some (if 0 ≤ e then (if neg then -((m * 2 ^ e.toNat : Nat) : Int) else ((m * 2 ^ e.toNat : Nat) : Int))
      else (if neg then -(((m + 2 ^ (-e).toNat - 1) / 2 ^ (-e).toNat : Nat) : Int) else ((m / 2 ^ (-e).toNat : Nat) : Int)))
  | _ => none

/-- The sum of a list, from the left, each step rounded. -/
def fsum (f : FFmt) (start : Nat) : List Nat → Nat
  | [] => start
  | x :: t => fsum f (fadd f start x) t

/-- The smaller of two finite numbers; the first when they are equal. (DEDUCED, log entry 13) -/
def fmin (f : FFmt) (x y : Nat) : Nat := if flt f y x then y else x
/-- The larger of two finite numbers; the first when they are equal. (DEDUCED, log entry 13) -/
def fmax (f : FFmt) (x y : Nat) : Nat := if flt f x y then y else x

end Sys2Proof.Machine
end

