-- ==== Sys2Proof/Machine/Block.lean ====
section
/-! DEFINITION. The arithmetic of the loop engine: block floating stages (R130 to R134), scalar words (R150), the tables of
R152 and the rules of R535 for sums, products and roundings. -/

namespace Sys2Proof.Machine

/-- An exact dyadic number m · 2^e. -/
structure Dy where
  m : Int := 0
  e : Int := 0
  deriving DecidableEq, Repr

/-- A block floating element with its stage's exponent: the value m · 2^(e − 23) (R130); `sat` records a saturation in its
making (R131, R133). -/
structure Bf where
  m : Int := 0
  e : Int := -128
  sat : Bool := false
  deriving DecidableEq, Repr

/-- x · 2^k rounded to the nearest integer, ties to even. -/
def rneShift (x k : Int) : Int :=
  if 0 ≤ k then x * 2 ^ k.toNat
  else
    let d : Int := 2 ^ (-k).toNat
    let q := x / d
    let r := 2 * (x % d)
    if d < r ∨ (r = d ∧ q % 2 = 1) then q + 1 else q

/-- n / d rounded to the nearest integer, ties to even; d is positive. -/
def rneDiv (n d : Int) : Int :=
  let q := n / d
  let r := 2 * (n % d)
  if d < r ∨ (r = d ∧ q % 2 = 1) then q + 1 else q

/-- The exact value of an element. -/
def Bf.dy (b : Bf) : Dy := ⟨b.m, b.e - 23⟩

/-- The integer value of x · 2^(−e), for e at most the exponent of x. -/
def Dy.atExp (x : Dy) (e : Int) : Int := x.m * 2 ^ (x.e - e).toNat

/-- Exact sum. -/
def Dy.add (x y : Dy) : Dy := let e := min x.e y.e; ⟨x.atExp e + y.atExp e, e⟩
/-- Exact difference. -/
def Dy.sub (x y : Dy) : Dy := let e := min x.e y.e; ⟨x.atExp e - y.atExp e, e⟩
/-- Exact product. -/
def Dy.mul (x y : Dy) : Dy := ⟨x.m * y.m, x.e + y.e⟩
/-- Exact magnitude. -/
def Dy.abs (x : Dy) : Dy := ⟨x.m.natAbs, x.e⟩
/-- Exact comparison: x ≤ y. -/
def Dy.le (x y : Dy) : Bool := let e := min x.e y.e; decide (x.atExp e ≤ y.atExp e)
/-- Exact comparison: x < y. -/
def Dy.lt (x y : Dy) : Bool := !y.le x
/-- An integer. -/
def Dy.ofInt (n : Int) : Dy := ⟨n, 0⟩

/-- The dyadic value of a floating-point number; what is not finite gives the open value of log entry 21.
(DESIGN CHOICE, log entry 21) -/
def Dy.ofFloat (f : FFmt) (x : Nat) : Dy :=
  match fdec f x with
  | .fin neg m e => ⟨if neg then -(m : Int) else m, e⟩
  | _ => ⟨clampInt (-(2 ^ 23)) (2 ^ 23 - 1) (Config.nonFinite x), -23⟩

/-- The floating-point number nearest a dyadic value. -/
def Dy.toFloat (f : FFmt) (x : Dy) : Nat := fpack f (decide (x.m < 0)) x.m.natAbs x.e false

/-- The mantissa range of R130. -/
def mantFits (m : Int) : Bool := decide (-(2 ^ 23) ≤ m) && decide (m < 2 ^ 23)

/-- The mantissa of `x` at exponent `e` (R133). -/
def mantAt (e : Int) (x : Dy) : Int := rneShift x.m (x.e - e + 23)

/-- The lowest exponent that could hold `x`. -/
def Dy.expLow (x : Dy) : Int := if x.m = 0 then -128 else max (-128) (x.e + (Nat.log2 x.m.natAbs : Int))

/-- The largest of the lowest exponents. -/
def expLowAll : List Dy → Int
  | [] => -128
  | x :: t => max x.expLow (expLowAll t)

/-- The exponent R133 chooses. -/
def stageExp (l : List Dy) : Int :=
  let e0 := min 127 (expLowAll l)
  let ok (e : Int) : Bool := l.all fun x => mantFits (mantAt e x)
  if ok e0 then e0 else if ok (min 127 (e0 + 1)) then min 127 (e0 + 1) else min 127 (e0 + 2)

/-- Renormalisation of a stage of exact values (R133). (DEDUCED, log entry 23) -/
def renorm (l : List Dy) : List Bf :=
  let e := stageExp l
  let sat := l.any fun x => !mantFits (mantAt e x)
  l.map fun x => ⟨clampInt (-(2 ^ 23)) (2 ^ 23 - 1) (mantAt e x), e, sat⟩

/-- One value rounded as a stage of one element. -/
def Dy.bf (x : Dy) : Bf := (renorm [x]).headD {}

/-- A BF scalar word (R150). -/
def Bf.ofWord (w : Nat) : Bf := ⟨signed 24 (w / 256), signed 8 w, false⟩

/-- The BF scalar word of an element. -/
def Bf.toWord (b : Bf) : Nat := unsigned 24 b.m * 256 + unsigned 8 b.e

/-- A value under accumulation: its products, each with the weight of its least significant bit (R131, R535 item 6). -/
abbrev Acc := List (Int × Int)

/-- Two's complement limits of a 56-bit accumulator (R131). -/
def sat56 (x : Int) : Int := clampInt (-(2 ^ 55)) (2 ^ 55 - 1) x

/-- A product of a coefficient and an operand (R131). -/
def mac (c x : Bf) : Acc := [(c.e + x.e - 46, c.m * x.m)]

/-- The coefficient 1. (DEDUCED, log entry 23) -/
def Bf.one : Bf := ⟨2 ^ 22, 1, false⟩
/-- The coefficient −1. (DEDUCED, log entry 23) -/
def Bf.negOne : Bf := ⟨-(2 ^ 23), 0, false⟩

/-- A term without a coefficient (R535 item 2). -/
def term (x : Bf) : Acc := mac Bf.one x
/-- A term subtracted (R535 item 2). -/
def termNeg (x : Bf) : Acc := mac Bf.negOne x

/-- Products of equal weight added into one partial (R535 item 6). (DEDUCED, log entry 23) -/
def addPartial (w v : Int) : Acc → Acc
  | [] => [(w, v)]
  | (w', v') :: t => if w' = w then (w', v' + v) :: t else (w', v') :: addPartial w v t

/-- The partials of a value. -/
def partials : Acc → Acc
  | [] => []
  | (w, v) :: t => addPartial w v (partials t)

/-- The largest weight among partials. -/
def topWeight : Acc → Int → Int
  | [], d => d
  | (w, _) :: t, d => topWeight t (max w d)

/-- The partials of a value aligned to weight `top` and added: the exact value held, and whether a limit was met (R131,
R132). -/
def alignAcc (top : Int) (a : Acc) : Dy × Bool :=
  let ps := partials a
  let clip := ps.any fun p => sat56 p.2 != p.2
  let sum := ps.foldl (fun n p => n + rneShift (sat56 p.2) (p.1 - top)) 0
  (⟨sat56 sum, top⟩, clip || sat56 sum != sum)

/-- A value reduced modulo one turn, exactly (R535 item 7). (DEDUCED, log entry 23) -/
def Dy.modTurn (x : Dy) : Dy := if 0 ≤ x.e then ⟨0, x.e⟩ else ⟨x.m % 2 ^ (-x.e).toNat, x.e⟩

/-- A stage of values (R132, R133); the one at place `turn` is an angle, reduced modulo one turn after its sum (R535 item 7).
(DEDUCED, log entry 23) -/
def stage (l : List Acc) (turn : Option Nat := none) : List Bf :=
  let top := topWeight l.flatten (-302)
  let vals := l.map (alignAcc top)
  let vals := match turn with
    | some k => let v := nth vals k ({}, false); putAt vals k (v.1.modTurn, v.2)
    | none => vals
  let sat := vals.any fun v => v.2
  (renorm (vals.map fun v => v.1)).map fun b => { b with sat := b.sat || sat }

/-- A value rounded as a one-element stage, before it enters as a factor (R535 item 3). -/
def acc1 (a : Acc) : Bf := (stage [a]).headD {}

/-- The exact value a comparison acts on: the sum of the partials as they are held, not aligned (R535 item 7). -/
def accDy (a : Acc) : Dy := (partials a).foldl (fun d p => d.add ⟨sat56 p.2, p.1⟩) {}

/-- The argument of fe: a sum whose partials are aligned to the largest weight among them and added (R132, R535 items 6 and 7). -/
def feArg (a : Acc) : Dy := (alignAcc (topWeight a (-302)) a).1

/-- A product of two factors rounded before the next factor multiplies it (R535 item 5). -/
def mul1 (x y : Bf) : Bf := let b := (x.dy.mul y.dy).bf; { b with sat := b.sat || x.sat || y.sat }

/-- An operand with the coefficient −1 before a further factor (R535 items 2 and 5). -/
def negOp (x : Bf) : Bf := mul1 Bf.negOne x

/-- A coefficient that is an expression of bank words, evaluated in binary64 and rounded (R535 item 4). -/
def coef (x : Nat) : Bf := { (Dy.ofFloat b64 x).bf with sat := false }

/-- A BF scalar in binary64, exactly. -/
def Bf.f64 (b : Bf) : Nat := b.dy.toFloat b64

/-- Fixed-point 2^-62 value of Taylor's series of the sine: Σ (−1)^k x^(2k+1)/(2k+1)!, from term `t` at index `i`. -/
def sinSeries (x2 : Int) : Nat → Nat → Int → Int
  | 0, _, _ => 0
  | n + 1, i, t => t + sinSeries x2 n (i + 2) (-(t * x2 / 2 ^ 62) / ((i + 1) * (i + 2) : Nat))

/-- The sine of an angle of `x` · 2^-62 turns, as a multiple of 2^-62, to better than 2^-50. -/
def sinFix (x : Int) : Int :=
  let r := x % 2 ^ 62
  -- fold into the quarter turn [−1/4, 1/4]
  let q := if r ≤ 2 ^ 60 then r else if r ≤ 3 * 2 ^ 60 then 2 ^ 61 - r else r - 2 ^ 62
  let rad := q * 28976077832308491370 / 2 ^ 62
  sinSeries (rad * rad / 2 ^ 62) 14 1 rad

/-- sin from the table of R152: within 2^-21 of the sine, where in that band is open (log entry 22).
(DESIGN CHOICE, log entry 22) -/
def sinBf (turns : Dy) : Bf :=
  let x := rneShift turns.m (turns.e + 62)
  let err := clampInt (-(2 ^ 41 - 2 ^ 20)) (2 ^ 41 - 2 ^ 20) (Config.sinError (x % 2 ^ 62))
  (⟨sinFix x + err, -62⟩ : Dy).bf

/-- cos from the table of R152. (DESIGN CHOICE, log entry 22) -/
def cosBf (turns : Dy) : Bf := sinBf (turns.add ⟨1, -2⟩)

/-- The reciprocal of R152: within 2^-22 of 1/x, relative; of 0 it is open (log entry 22). (DESIGN CHOICE, log entry 22) -/
def recipBf (x : Bf) : Bf :=
  if x.m = 0 then ⟨clampInt (-(2 ^ 23)) (2 ^ 23 - 1) (Config.recipZero 0), 127, false⟩
  else
    let q : Int := rneDiv (2 ^ 86) x.m.natAbs
    let err := clampInt (-(2 ^ 40 - 2 ^ 20)) (2 ^ 40 - 2 ^ 20) (Config.recipError x.m)
    let v := q + q * err / 2 ^ 62
    (⟨if x.m < 0 then -v else v, 23 - x.e - 86⟩ : Dy).bf

/-- The reciprocal square root of R152: within 2^-21 of 1/√x, relative; of 0 it is open (log entry 22).
(DESIGN CHOICE, log entry 22) -/
def rsqrtBf (x : Dy) : Bf :=
  if x.m ≤ 0 then ⟨clampInt (-(2 ^ 23)) (2 ^ 23 - 1) (Config.recipZero 1), 127, false⟩
  else
    -- x = n · 2^(2k): 1/√x = 2^-k / √n
    let n : Nat := if x.e % 2 = 0 then x.m.natAbs else 2 * x.m.natAbs
    let k : Int := (x.e - x.e % 2) / 2
    let big := 2 * (62 + Nat.log2 n)
    let q : Int := (Nat.sqrt (2 ^ (2 * big) / n) : Nat)
    let err := clampInt (-(2 ^ 41 - 2 ^ 20)) (2 ^ 41 - 2 ^ 20) (Config.rsqrtError n)
    (⟨q + q * err / 2 ^ 62, -k - big⟩ : Dy).bf

end Sys2Proof.Machine
end

