-- ==== Sys2Proof/Machine/RegTable.lean ====
section
/-! DEFINITION. The register tables of the manual as data: for every register its base address, repetitions, and the bits,
access code (R4) and reset value (R2) of each field that is not reserved. A reset value the manual gives as "From PM",
"From fuses", "From vault" or "From boot record" stands here as 0, and the steward or the block loads it. -/

namespace Sys2Proof.Machine

/-- Registers of SYS, part 0. -/
def tableSYS0 : List RegDesc := [
  ⟨0x40000004, [], [⟨2, 2, .ro, 1⟩, ⟨1, 0, .ro, 0⟩]⟩,
  ⟨0x40000008, [], [⟨10, 10, .w1c, 0⟩, ⟨9, 9, .w1c, 0⟩, ⟨8, 8, .w1c, 0⟩, ⟨7, 7, .w1c, 0⟩, ⟨6, 6, .w1c, 0⟩, ⟨5, 5, .w1c, 0⟩, ⟨4, 4, .w1c, 0⟩, ⟨3, 3, .w1c, 0⟩, ⟨2, 2, .w1c, 0⟩, ⟨1, 1, .w1c, 0⟩, ⟨0, 0, .w1c, 1⟩]⟩,
  ⟨0x4000000C, [], [⟨31, 16, .wo, 0⟩, ⟨1, 0, .wo, 0⟩]⟩,
  ⟨0x40000020, [], [⟨2, 0, .wo, 0⟩]⟩,
  ⟨0x40000024, [], [⟨15, 8, .ro, 0⟩, ⟨7, 7, .ro, 0⟩, ⟨6, 6, .ro, 0⟩, ⟨5, 3, .ro, 0⟩, ⟨2, 0, .ro, 5⟩]⟩,
  ⟨0x40000028, [], [⟨2, 2, .w1c, 0⟩, ⟨1, 1, .w1c, 0⟩, ⟨0, 0, .w1c, 0⟩]⟩,
  ⟨0x4000002C, [], [⟨2, 2, .rw, 0⟩, ⟨1, 1, .rw, 0⟩, ⟨0, 0, .rw, 0⟩]⟩,
  ⟨0x40000030, [], [⟨2, 2, .rws, 0⟩, ⟨1, 1, .ro, 0⟩, ⟨0, 0, .ro, 0⟩]⟩,
  ⟨0x40000034, [], [⟨5, 5, .rw, 0⟩, ⟨4, 4, .rw, 1⟩, ⟨3, 3, .rw, 0⟩, ⟨2, 2, .rw, 0⟩, ⟨1, 1, .rw, 0⟩, ⟨0, 0, .rw, 1⟩]⟩,
  ⟨0x40000038, [], [⟨4, 0, .w1c, 0⟩]⟩,
  ⟨0x4000003C, [], [⟨31, 0, .rw, 0⟩]⟩,
  ⟨0x40000040, [], [⟨31, 24, .ro, 255⟩, ⟨23, 16, .ro, 255⟩, ⟨7, 7, .ro, 0⟩, ⟨6, 6, .ro, 0⟩, ⟨5, 4, .ro, 2⟩, ⟨1, 0, .ro, 2⟩]⟩,
  ⟨0x40000044, [], [⟨31, 0, .ro, 0⟩]⟩,
  ⟨0x40000048, [], [⟨31, 0, .ro, 0⟩]⟩,
  ⟨0x4000004C, [], [⟨13, 13, .ro, 1⟩, ⟨12, 0, .ro, 8191⟩]⟩,
  ⟨0x40000050, [], [⟨31, 16, .wo, 0⟩, ⟨0, 0, .wo, 0⟩]⟩,
  ⟨0x40000054, [], [⟨1, 1, .rw, 0⟩, ⟨0, 0, .rw, 0⟩]⟩,
  ⟨0x40000058, [], [⟨31, 16, .ro, 0⟩, ⟨15, 0, .ro, 0⟩]⟩,
  ⟨0x40000080, [], [⟨18, 18, .rw, 1⟩, ⟨17, 17, .rw, 1⟩, ⟨16, 16, .rw, 0⟩, ⟨15, 0, .rw, 2048⟩]⟩,
  ⟨0x40000084, [], [⟨31, 16, .wo, 0⟩]⟩]

/-- Registers of SYS, part 1. -/
def tableSYS1 : List RegDesc := [
  ⟨0x40000088, [], [⟨31, 16, .ro, 0⟩, ⟨2, 2, .ro, 0⟩, ⟨1, 1, .w1c, 0⟩, ⟨0, 0, .w1c, 0⟩]⟩,
  ⟨0x40000090, [], [⟨31, 24, .ro, 0⟩, ⟨23, 23, .rws, 0⟩, ⟨15, 0, .w1cAll, 0⟩]⟩,
  ⟨0x40000094, [], [⟨31, 16, .ro, 0⟩, ⟨15, 14, .ro, 0⟩, ⟨13, 13, .ro, 0⟩, ⟨12, 12, .wo, 0⟩, ⟨11, 0, .ro, 0⟩]⟩,
  ⟨0x400000A0, [], [⟨31, 0, .ro, 0⟩]⟩,
  ⟨0x400000A4, [], [⟨31, 0, .ro, 0⟩]⟩,
  ⟨0x400000A8, [], [⟨31, 0, .rw, 4294967295⟩]⟩,
  ⟨0x400000AC, [], [⟨31, 0, .rw, 4294967295⟩]⟩,
  ⟨0x400000C0, [], [⟨31, 26, .lk, 44⟩, ⟨25, 20, .lk, 40⟩, ⟨19, 14, .lk, 32⟩, ⟨13, 0, .lk, 250⟩]⟩,
  ⟨0x400000C4, [], [⟨24, 24, .lk, 0⟩, ⟨23, 21, .lk, 7⟩, ⟨20, 13, .lk, 40⟩, ⟨12, 8, .lk, 31⟩, ⟨5, 0, .lk, 56⟩]⟩,
  ⟨0x400000C8, [], [⟨31, 0, .ro, 0⟩]⟩,
  ⟨0x400000CC, [], [⟨31, 0, .ro, 4294967295⟩]⟩,
  ⟨0x400000D0, [], [⟨31, 0, .ro, 4294967295⟩]⟩,
  ⟨0x400000D4, [], [⟨31, 0, .ro, 0⟩]⟩,
  ⟨0x400000D8, [], [⟨31, 31, .ro, 0⟩, ⟨30, 30, .ro, 0⟩, ⟨29, 29, .w1c, 0⟩, ⟨18, 0, .ro, 0⟩]⟩,
  ⟨0x40000100, [], [⟨11, 0, .lk, 60⟩]⟩,
  ⟨0x40000104, [], [⟨23, 16, .ro, 0⟩, ⟨6, 6, .ro, 0⟩, ⟨5, 5, .ro, 0⟩, ⟨4, 4, .ro, 0⟩, ⟨3, 1, .ro, 0⟩, ⟨0, 0, .ro, 0⟩]⟩,
  ⟨0x40000108, [], [⟨31, 0, .ro, 0⟩]⟩,
  ⟨0x4000010C, [], [⟨31, 0, .ro, 0⟩]⟩,
  ⟨0x40000140, [], [⟨31, 20, .lk, 60⟩, ⟨19, 16, .lk, 0⟩, ⟨15, 4, .lk, 0⟩, ⟨3, 3, .lk, 0⟩, ⟨2, 0, .lk, 0⟩]⟩,
  ⟨0x40000144, [], [⟨31, 24, .lk, 10⟩, ⟨23, 16, .lk, 0⟩, ⟨9, 0, .lk, 100⟩]⟩]

/-- Registers of SYS, part 2. -/
def tableSYS2 : List RegDesc := [
  ⟨0x40000148, [], [⟨31, 0, .ro, 0⟩]⟩,
  ⟨0x4000014C, [], [⟨31, 0, .ro, 0⟩]⟩,
  ⟨0x40000150, [], [⟨31, 0, .wo, 0⟩]⟩,
  ⟨0x40000154, [], [⟨31, 0, .wo, 0⟩]⟩,
  ⟨0x40000158, [], [⟨31, 0, .rw, 0⟩]⟩,
  ⟨0x4000015C, [], [⟨1, 1, .wo, 0⟩, ⟨0, 0, .wo, 0⟩]⟩,
  ⟨0x40000160, [], [⟨31, 31, .ro, 0⟩, ⟨30, 30, .ro, 0⟩, ⟨29, 29, .ro, 0⟩, ⟨28, 16, .ro, 0⟩, ⟨15, 0, .w1cAll, 0⟩]⟩,
  ⟨0x40000164, [], [⟨31, 0, .ro, 0⟩]⟩,
  ⟨0x40000180, [], [⟨31, 16, .wo, 0⟩, ⟨2, 2, .wo, 0⟩, ⟨1, 1, .wo, 0⟩, ⟨0, 0, .wo, 0⟩]⟩,
  ⟨0x40000184, [], [⟨16, 16, .ro, 0⟩, ⟨15, 8, .ro, 0⟩, ⟨7, 0, .ro, 0⟩]⟩]

/-- The registers of SYS. -/
def tableSYS : List RegDesc := tableSYS0 ++ tableSYS1 ++ tableSYS2

/-- Registers of PWR, part 0. -/
def tablePWR0 : List RegDesc := [
  ⟨0x40010000, [], [⟨10, 10, .ro, 0⟩, ⟨9, 9, .ro, 0⟩, ⟨8, 8, .ro, 1⟩, ⟨7, 7, .ro, 0⟩, ⟨6, 6, .ro, 0⟩, ⟨5, 5, .ro, 0⟩, ⟨4, 4, .ro, 0⟩, ⟨3, 3, .ro, 0⟩, ⟨2, 2, .ro, 0⟩, ⟨1, 1, .ro, 0⟩, ⟨0, 0, .ro, 0⟩]⟩,
  ⟨0x40010004, [], [⟨7, 7, .w1c, 0⟩, ⟨6, 6, .w1c, 0⟩, ⟨5, 5, .w1c, 0⟩, ⟨4, 4, .w1c, 0⟩, ⟨3, 3, .w1c, 0⟩, ⟨2, 2, .w1c, 0⟩, ⟨1, 1, .w1c, 0⟩, ⟨0, 0, .w1c, 0⟩]⟩,
  ⟨0x40010008, [], [⟨7, 7, .rw, 0⟩, ⟨6, 6, .rw, 0⟩, ⟨5, 5, .rw, 0⟩, ⟨4, 4, .rw, 0⟩, ⟨3, 3, .rw, 0⟩, ⟨2, 2, .rw, 0⟩, ⟨1, 1, .rw, 0⟩, ⟨0, 0, .rw, 0⟩]⟩,
  ⟨0x4001000C, [], [⟨23, 20, .lk, 8⟩, ⟨19, 16, .lk, 4⟩, ⟨15, 8, .lk, 80⟩]⟩,
  ⟨0x40010010, [], [⟨31, 16, .wo, 0⟩, ⟨0, 0, .wo, 0⟩]⟩,
  ⟨0x40010014, [], [⟨23, 16, .ro, 0⟩, ⟨15, 8, .ro, 0⟩, ⟨6, 6, .ro, 0⟩, ⟨5, 3, .ro, 0⟩, ⟨2, 0, .ro, 0⟩]⟩,
  ⟨0x40010018, [], [⟨31, 31, .ro, 1⟩, ⟨30, 0, .ro, 0⟩]⟩,
  ⟨0x4001001C, [], [⟨31, 16, .ro, 0⟩, ⟨15, 0, .ro, 0⟩]⟩,
  ⟨0x40010020, [], [⟨29, 20, .ro, 0⟩, ⟨19, 10, .ro, 0⟩, ⟨9, 0, .ro, 0⟩]⟩,
  ⟨0x40010024, [], [⟨31, 16, .ro, 0⟩, ⟨15, 0, .ro, 0⟩]⟩]

/-- The registers of PWR. -/
def tablePWR : List RegDesc := tablePWR0

/-- Registers of AON, part 0. -/
def tableAON0 : List RegDesc := [
  ⟨0x40020000, [], [⟨31, 0, .ro, 0⟩]⟩,
  ⟨0x40020004, [], [⟨31, 0, .ro, 0⟩]⟩,
  ⟨0x40020008, [], [⟨15, 0, .rw, 0⟩]⟩,
  ⟨0x4002000C, [], [⟨15, 0, .rw, 0⟩]⟩,
  ⟨0x40020010, [], [⟨15, 0, .rw, 0⟩]⟩,
  ⟨0x40020014, [], [⟨1, 1, .wo, 0⟩, ⟨0, 0, .wo, 0⟩]⟩,
  ⟨0x40020018, [], [⟨15, 0, .rw, 0⟩]⟩,
  ⟨0x4002001C, [], [⟨2, 2, .w1c, 0⟩, ⟨1, 1, .ro, 0⟩, ⟨0, 0, .ro, 0⟩]⟩,
  ⟨0x40020020, [], [⟨31, 0, .ro, 0⟩]⟩,
  ⟨0x40020024, [], [⟨31, 0, .ro, 0⟩]⟩,
  ⟨0x40020040, [(0x10, 2)], [⟨31, 0, .rw, 0⟩]⟩,
  ⟨0x40020044, [(0x10, 2)], [⟨15, 0, .rw, 0⟩]⟩,
  ⟨0x40020048, [(0x10, 2)], [⟨15, 8, .ro, 0⟩, ⟨7, 7, .w1c, 0⟩, ⟨6, 6, .rw, 0⟩, ⟨5, 0, .rw, 0⟩]⟩,
  ⟨0x40020060, [], [⟨2, 2, .w1c, 0⟩, ⟨1, 1, .w1c, 0⟩, ⟨0, 0, .w1c, 0⟩]⟩,
  ⟨0x40020064, [], [⟨2, 2, .rw, 0⟩, ⟨1, 1, .rw, 0⟩, ⟨0, 0, .rw, 0⟩]⟩,
  ⟨0x40020080, [(0x4, 8)], [⟨31, 0, .rw, 0⟩]⟩,
  ⟨0x40020100, [(0x4, 16)], [⟨31, 0, .ro, 0⟩]⟩,
  ⟨0x40020140, [(0x4, 16)], [⟨5, 2, .lk, 2⟩, ⟨1, 1, .lk, 0⟩, ⟨0, 0, .lk, 0⟩]⟩]

/-- The registers of AON. -/
def tableAON : List RegDesc := tableAON0

/-- Registers of LE, part 0. -/
def tableLE0 : List RegDesc := [
  ⟨0x40030000, [], [⟨1, 1, .ro, 0⟩, ⟨0, 0, .lk, 0⟩]⟩,
  ⟨0x40030004, [], [⟨6, 6, .ro, 0⟩, ⟨5, 5, .ro, 0⟩, ⟨4, 4, .ro, 0⟩, ⟨3, 0, .ro, 15⟩]⟩,
  ⟨0x40030008, [], [⟨16, 16, .w1c, 0⟩, ⟨10, 10, .w1c, 0⟩, ⟨9, 9, .w1c, 0⟩, ⟨8, 8, .w1c, 0⟩, ⟨4, 4, .w1c, 0⟩, ⟨3, 3, .w1c, 0⟩, ⟨2, 2, .w1c, 0⟩, ⟨1, 1, .w1c, 0⟩, ⟨0, 0, .w1c, 0⟩]⟩,
  ⟨0x4003000C, [], [⟨16, 16, .rw, 0⟩, ⟨10, 10, .rw, 0⟩, ⟨9, 9, .rw, 0⟩, ⟨8, 8, .rw, 0⟩, ⟨4, 4, .rw, 0⟩, ⟨3, 3, .rw, 0⟩, ⟨2, 2, .rw, 0⟩, ⟨1, 1, .rw, 0⟩, ⟨0, 0, .rw, 0⟩]⟩,
  ⟨0x40030010, [], [⟨31, 0, .ro, 0⟩]⟩,
  ⟨0x40030014, [], [⟨31, 0, .ro, 0⟩]⟩,
  ⟨0x40030020, [(0x4, 4)], [⟨31, 31, .ro, 0⟩, ⟨30, 30, .ro, 0⟩, ⟨26, 20, .ro, 0⟩, ⟨19, 10, .ro, 0⟩, ⟨9, 0, .ro, 0⟩]⟩,
  ⟨0x40030040, [(0x4, 8)], [⟨5, 2, .lk, 0⟩, ⟨1, 1, .lk, 0⟩, ⟨0, 0, .lk, 0⟩]⟩,
  ⟨0x40030060, [(0x8, 8)], [⟨31, 0, .lk, 0⟩]⟩,
  ⟨0x40030064, [(0x8, 8)], [⟨31, 0, .lk, 0⟩]⟩,
  ⟨0x400300A0, [], [⟨15, 8, .ro, 0⟩, ⟨7, 0, .w1c, 0⟩]⟩,
  ⟨0x400300C0, [], [⟨31, 20, .lk, 900⟩, ⟨15, 14, .lk, 0⟩, ⟨13, 8, .lk, 8⟩, ⟨0, 0, .lk, 0⟩]⟩,
  ⟨0x400300C4, [], [⟨16, 16, .ro, 0⟩, ⟨15, 8, .ro, 0⟩, ⟨7, 7, .ro, 0⟩, ⟨6, 6, .ro, 0⟩, ⟨5, 0, .ro, 0⟩]⟩,
  ⟨0x40031100, [(0x10, 16)], [⟨13, 8, .lk, 0⟩, ⟨7, 2, .lk, 0⟩, ⟨0, 0, .lk, 0⟩]⟩,
  ⟨0x40031104, [(0x10, 16)], [⟨31, 0, .lk, 1065353216⟩]⟩,
  ⟨0x40031108, [(0x10, 16)], [⟨31, 0, .lk, 0⟩]⟩,
  ⟨0x40030100, [(0x40, 64)], [⟨31, 21, .lk, 0⟩, ⟨20, 18, .lk, 0⟩, ⟨17, 8, .lk, 0⟩, ⟨7, 4, .lk, 0⟩, ⟨3, 3, .lk, 0⟩, ⟨2, 2, .ro, 0⟩, ⟨1, 0, .ro, 0⟩]⟩,
  ⟨0x40030104, [(0x40, 64)], [⟨16, 0, .lk, 0⟩]⟩,
  ⟨0x40030108, [(0x40, 64)], [⟨28, 17, .ro, 0⟩, ⟨16, 0, .lk, 0⟩]⟩,
  ⟨0x4003010C, [(0x40, 64)], [⟨5, 5, .ro, 0⟩, ⟨4, 4, .w1s, 0⟩, ⟨2, 1, .rw, 0⟩, ⟨0, 0, .rw, 0⟩]⟩]

/-- Registers of LE, part 1. -/
def tableLE1 : List RegDesc := [
  ⟨0x40030110, [(0x40, 64)], [⟨25, 25, .ro, 0⟩, ⟨24, 24, .w1c, 0⟩, ⟨23, 16, .ro, 0⟩, ⟨15, 12, .ro, 0⟩, ⟨9, 9, .w1c, 0⟩, ⟨8, 8, .ro, 0⟩, ⟨7, 0, .ro, 0⟩]⟩,
  ⟨0x40030114, [(0x40, 64)], [⟨31, 0, .w1cAll, 0⟩]⟩,
  ⟨0x40030118, [(0x40, 64)], [⟨31, 0, .w1cAll, 0⟩]⟩,
  ⟨0x4003011C, [(0x40, 64)], [⟨31, 0, .ro, 0⟩]⟩,
  ⟨0x40030120, [(0x40, 64), (0x4, 8)], [⟨31, 16, .lk, 0⟩, ⟨15, 0, .lk, 0⟩]⟩,
  ⟨0x40032000, [(0x80, 64)], [⟨12, 8, .ro, 0⟩, ⟨7, 0, .rw, 128⟩]⟩,
  ⟨0x40032004, [(0x80, 64), (0x4, 16)], [⟨31, 0, .rw, 0⟩]⟩,
  ⟨0x40034000, [(0x200, 64)], [⟨12, 10, .rw, 0⟩, ⟨9, 0, .rw, 0⟩]⟩,
  ⟨0x40034004, [(0x200, 64), (0x4, 127)], [⟨31, 0, .rw, 0⟩]⟩,
  ⟨0x4003110C, [(0x10, 16)], [⟨31, 31, .lk, 0⟩, ⟨5, 0, .lk, 0⟩]⟩,
  ⟨0x40031200, [(0x4, 16)], [⟨31, 0, .lk, 0⟩]⟩,
  ⟨0x4003C000, [(0x40, 16)], [⟨16, 0, .lk, 1⟩]⟩,
  ⟨0x4003C004, [(0x40, 16)], [⟨31, 0, .lk, 1065353216⟩]⟩,
  ⟨0x4003C008, [(0x40, 16)], [⟨31, 0, .lk, 1065353216⟩]⟩,
  ⟨0x4003C00C, [(0x40, 16)], [⟨31, 0, .lk, 1065353216⟩]⟩,
  ⟨0x4003C010, [(0x40, 16)], [⟨31, 0, .rw, 0⟩]⟩,
  ⟨0x4003C014, [(0x40, 16)], [⟨31, 0, .wo, 0⟩]⟩,
  ⟨0x4003C018, [(0x40, 16)], [⟨31, 0, .ro, 0⟩]⟩,
  ⟨0x4003C01C, [(0x40, 16)], [⟨31, 0, .ro, 0⟩]⟩,
  ⟨0x4003C020, [(0x40, 16)], [⟨31, 0, .ro, 0⟩]⟩]

/-- Registers of LE, part 2. -/
def tableLE2 : List RegDesc := [
  ⟨0x4003C024, [(0x40, 16)], [⟨31, 0, .ro, 0⟩]⟩,
  ⟨0x4003C028, [(0x40, 16)], [⟨2, 2, .w1s, 0⟩, ⟨0, 0, .rw, 0⟩]⟩,
  ⟨0x4003C02C, [(0x40, 16)], [⟨15, 8, .ro, 0⟩, ⟨3, 3, .ro, 0⟩, ⟨2, 2, .ro, 0⟩, ⟨1, 1, .ro, 0⟩, ⟨0, 0, .ro, 0⟩]⟩,
  ⟨0x4003C400, [], [⟨31, 16, .w1c, 0⟩, ⟨15, 0, .w1c, 0⟩]⟩,
  ⟨0x4003C404, [], [⟨31, 16, .rw, 0⟩, ⟨15, 0, .rw, 0⟩]⟩]

/-- The registers of LE. -/
def tableLE : List RegDesc := tableLE0 ++ tableLE1 ++ tableLE2

/-- Registers of PD, part 0. -/
def tablePD0 : List RegDesc := [
  ⟨0x40040000, [(0x100, 4)], [⟨31, 20, .lk, 0⟩, ⟨19, 19, .lk, 0⟩, ⟨18, 18, .lk, 0⟩, ⟨17, 16, .lk, 0⟩, ⟨15, 9, .lk, 1⟩, ⟨8, 0, .lk, 10⟩]⟩,
  ⟨0x40040004, [(0x100, 4)], [⟨15, 0, .lk, 0⟩]⟩,
  ⟨0x40040008, [(0x100, 4)], [⟨31, 0, .lk, 1065353216⟩]⟩,
  ⟨0x4004000C, [(0x100, 4)], [⟨5, 5, .ro, 1⟩, ⟨4, 4, .ro, 0⟩, ⟨3, 3, .ro, 0⟩, ⟨2, 2, .ro, 0⟩, ⟨1, 1, .ro, 1⟩, ⟨0, 0, .ro, 0⟩]⟩,
  ⟨0x40040010, [(0x100, 4), (0x4, 3)], [⟨16, 0, .ro, 0⟩]⟩,
  ⟨0x4004001C, [(0x100, 4)], [⟨3, 3, .w1c, 0⟩, ⟨2, 2, .w1c, 0⟩, ⟨1, 1, .w1c, 0⟩, ⟨0, 0, .w1c, 0⟩]⟩,
  ⟨0x40040020, [(0x100, 4)], [⟨3, 3, .rw, 0⟩, ⟨2, 2, .rw, 0⟩, ⟨1, 1, .rw, 0⟩, ⟨0, 0, .rw, 0⟩]⟩,
  ⟨0x40040024, [(0x100, 4)], [⟨1, 1, .wo, 0⟩, ⟨0, 0, .wo, 0⟩]⟩]

/-- The registers of PD. -/
def tablePD : List RegDesc := tablePD0

/-- Registers of TUNE, part 0. -/
def tableTUNE0 : List RegDesc := [
  ⟨0x40050000, [], [⟨4, 4, .ro, 0⟩, ⟨3, 3, .ro, 0⟩, ⟨2, 2, .ro, 0⟩, ⟨0, 0, .ro, 0⟩]⟩,
  ⟨0x40050004, [], [⟨4, 4, .w1c, 0⟩, ⟨3, 3, .w1c, 0⟩, ⟨2, 2, .w1c, 0⟩, ⟨1, 1, .w1c, 0⟩, ⟨0, 0, .w1c, 0⟩]⟩,
  ⟨0x40050008, [], [⟨4, 4, .rw, 0⟩, ⟨3, 3, .rw, 0⟩, ⟨2, 2, .rw, 0⟩, ⟨1, 1, .rw, 0⟩, ⟨0, 0, .rw, 0⟩]⟩,
  ⟨0x40050010, [], [⟨31, 24, .rw, 0⟩, ⟨23, 20, .rw, 7⟩, ⟨19, 18, .rw, 0⟩, ⟨17, 16, .rw, 0⟩, ⟨5, 0, .rw, 0⟩]⟩,
  ⟨0x40050014, [], [⟨31, 0, .rw, 0⟩]⟩,
  ⟨0x40050018, [], [⟨31, 0, .rw, 0⟩]⟩,
  ⟨0x4005001C, [], [⟨31, 0, .rw, 0⟩]⟩,
  ⟨0x40050020, [], [⟨31, 0, .rw, 0⟩]⟩,
  ⟨0x40050024, [], [⟨31, 0, .rw, 0⟩]⟩,
  ⟨0x40050028, [], [⟨1, 1, .wo, 0⟩, ⟨0, 0, .wo, 0⟩]⟩,
  ⟨0x4005002C, [], [⟨15, 8, .ro, 0⟩, ⟨2, 0, .ro, 0⟩]⟩,
  ⟨0x40050040, [], [⟨31, 16, .rw, 1⟩, ⟨3, 1, .rw, 0⟩, ⟨0, 0, .rw, 0⟩]⟩,
  ⟨0x40050044, [], [⟨31, 0, .rw, 0⟩]⟩,
  ⟨0x40050048, [], [⟨31, 0, .ro, 0⟩]⟩,
  ⟨0x40050050, [(0x4, 4)], [⟨31, 16, .rw, 0⟩, ⟨15, 0, .rw, 0⟩]⟩,
  ⟨0x40050090, [(0x4, 4)], [⟨31, 16, .rw, 0⟩, ⟨15, 0, .rw, 0⟩]⟩,
  ⟨0x40050080, [], [⟨31, 16, .rw, 1⟩, ⟨15, 10, .rw, 0⟩, ⟨9, 7, .rw, 0⟩, ⟨6, 5, .rw, 0⟩, ⟨4, 4, .rw, 1⟩, ⟨3, 2, .rw, 2⟩]⟩,
  ⟨0x40050084, [], [⟨2, 0, .rw, 0⟩]⟩,
  ⟨0x400500A0, [], [⟨31, 0, .rw, 0⟩]⟩,
  ⟨0x400500A4, [], [⟨31, 0, .rw, 0⟩]⟩]

/-- Registers of TUNE, part 1. -/
def tableTUNE1 : List RegDesc := [
  ⟨0x400500A8, [], [⟨31, 0, .rw, 0⟩]⟩,
  ⟨0x400500AC, [], [⟨6, 0, .rw, 1⟩]⟩,
  ⟨0x400500B0, [], [⟨1, 1, .w1s, 0⟩, ⟨0, 0, .w1s, 0⟩]⟩,
  ⟨0x400500B4, [], [⟨25, 25, .ro, 0⟩, ⟨24, 24, .ro, 0⟩, ⟨23, 0, .ro, 0⟩]⟩]

/-- The registers of TUNE. -/
def tableTUNE : List RegDesc := tableTUNE0 ++ tableTUNE1

/-- Registers of SA, part 0. -/
def tableSA0 : List RegDesc := [
  ⟨0x40060000, [], [⟨1, 1, .ro, 0⟩, ⟨0, 0, .lk, 0⟩]⟩,
  ⟨0x40060004, [], [⟨21, 16, .ro, 0⟩, ⟨15, 8, .ro, 255⟩, ⟨5, 5, .ro, 0⟩, ⟨4, 4, .ro, 0⟩, ⟨3, 3, .ro, 0⟩, ⟨1, 0, .ro, 0⟩]⟩,
  ⟨0x40060008, [], [⟨3, 0, .w1c, 0⟩]⟩,
  ⟨0x4006000C, [], [⟨3, 0, .rw, 0⟩]⟩,
  ⟨0x40060010, [(0x4, 4)], [⟨31, 0, .wo, 0⟩]⟩,
  ⟨0x40060020, [], [⟨31, 16, .ro, 0⟩, ⟨15, 8, .ro, 0⟩, ⟨1, 1, .w1c, 0⟩, ⟨0, 0, .ro, 0⟩]⟩,
  ⟨0x40060024, [], [⟨31, 0, .ro, 0⟩]⟩,
  ⟨0x40060030, [(0x4, 4)], [⟨31, 0, .ro, 0⟩]⟩,
  ⟨0x40060040, [(0x4, 8)], [⟨31, 0, .ro, 0⟩]⟩,
  ⟨0x40060060, [], [⟨3, 3, .wo, 0⟩, ⟨2, 0, .wo, 0⟩]⟩,
  ⟨0x40060064, [], [⟨23, 16, .ro, 0⟩, ⟨15, 8, .w1c, 0⟩, ⟨7, 0, .ro, 0⟩]⟩,
  ⟨0x40060068, [], [⟨23, 16, .ro, 0⟩, ⟨15, 8, .ro, 0⟩, ⟨7, 0, .ro, 255⟩]⟩]

/-- The registers of SA. -/
def tableSA : List RegDesc := tableSA0

/-- Registers of PT, part 0. -/
def tablePT0 : List RegDesc := [
  ⟨0x40070000, [], [⟨1, 1, .ro, 0⟩, ⟨0, 0, .lk, 0⟩]⟩,
  ⟨0x40070004, [], [⟨31, 16, .ro, 0⟩, ⟨15, 8, .ro, 0⟩, ⟨7, 0, .ro, 0⟩]⟩,
  ⟨0x40070008, [], [⟨2, 2, .w1c, 0⟩, ⟨1, 1, .w1c, 0⟩, ⟨0, 0, .w1c, 0⟩]⟩,
  ⟨0x4007000C, [], [⟨2, 2, .rw, 0⟩, ⟨1, 1, .rw, 0⟩, ⟨0, 0, .rw, 0⟩]⟩,
  ⟨0x40070010, [], [⟨31, 12, .lk, 100000⟩, ⟨7, 4, .lk, 6⟩, ⟨3, 0, .lk, 5⟩]⟩,
  ⟨0x40070014, [], [⟨16, 0, .lk, 0⟩]⟩,
  ⟨0x40070018, [], [⟨9, 9, .wo, 0⟩, ⟨8, 8, .wo, 0⟩, ⟨7, 0, .wo, 0⟩]⟩,
  ⟨0x40071000, [(0x40, 256)], [⟨31, 16, .rw, 0⟩, ⟨15, 0, .rw, 0⟩]⟩,
  ⟨0x40071004, [(0x40, 256)], [⟨31, 30, .rw, 0⟩, ⟨29, 26, .rw, 0⟩, ⟨25, 24, .rw, 2⟩, ⟨23, 21, .rw, 0⟩, ⟨20, 18, .rw, 4⟩, ⟨7, 0, .rw, 0⟩]⟩,
  ⟨0x40071008, [(0x40, 256)], [⟨31, 0, .rw, 0⟩]⟩,
  ⟨0x4007100C, [(0x40, 256)], [⟨31, 0, .rw, 0⟩]⟩,
  ⟨0x40071010, [(0x40, 256)], [⟨31, 0, .rw, 0⟩]⟩,
  ⟨0x40071014, [(0x40, 256)], [⟨31, 0, .rw, 0⟩]⟩,
  ⟨0x40071018, [(0x40, 256)], [⟨31, 0, .rw, 0⟩]⟩,
  ⟨0x4007101C, [(0x40, 256)], [⟨31, 0, .rw, 0⟩]⟩,
  ⟨0x40071020, [(0x40, 256)], [⟨31, 0, .rw, 0⟩]⟩,
  ⟨0x40071024, [(0x40, 256)], [⟨31, 0, .rw, 0⟩]⟩,
  ⟨0x40071028, [(0x40, 256)], [⟨31, 16, .ro, 0⟩, ⟨15, 4, .w1cAll, 0⟩, ⟨3, 3, .w1c, 0⟩, ⟨2, 2, .ro, 0⟩, ⟨1, 1, .ro, 0⟩, ⟨0, 0, .ro, 0⟩]⟩,
  ⟨0x4007102C, [(0x40, 256)], [⟨31, 0, .ro, 0⟩]⟩,
  ⟨0x40070100, [(0x20, 8)], [⟨31, 31, .rw, 0⟩, ⟨30, 29, .rw, 0⟩, ⟨28, 28, .rw, 0⟩, ⟨27, 24, .rw, 0⟩, ⟨23, 16, .rw, 0⟩, ⟨15, 13, .rw, 0⟩, ⟨1, 0, .rw, 0⟩]⟩]

/-- Registers of PT, part 1. -/
def tablePT1 : List RegDesc := [
  ⟨0x40070104, [(0x20, 8)], [⟨31, 16, .rw, 0⟩, ⟨15, 0, .rw, 0⟩]⟩,
  ⟨0x40070108, [(0x20, 8)], [⟨31, 0, .rw, 1065353216⟩]⟩,
  ⟨0x4007010C, [(0x20, 8)], [⟨31, 0, .rw, 0⟩]⟩,
  ⟨0x40070110, [(0x20, 8)], [⟨31, 3, .ro, 0⟩, ⟨2, 2, .ro, 0⟩, ⟨1, 1, .ro, 0⟩]⟩,
  ⟨0x40078000, [(0x400, 8), (0x4, 96)], [⟨31, 0, .rw, 0⟩]⟩,
  ⟨0x40078200, [(0x400, 8), (0x4, 96)], [⟨31, 0, .rw, 2143289344⟩]⟩]

/-- The registers of PT. -/
def tablePT : List RegDesc := tablePT0 ++ tablePT1

/-- Registers of MH, part 0. -/
def tableMH0 : List RegDesc := [
  ⟨0x40080000, [], [⟨1, 1, .ro, 0⟩, ⟨0, 0, .lk, 0⟩]⟩,
  ⟨0x40080004, [], [⟨2, 2, .ro, 0⟩, ⟨1, 1, .ro, 0⟩, ⟨0, 0, .ro, 0⟩]⟩,
  ⟨0x40080008, [], [⟨18, 18, .w1c, 0⟩, ⟨17, 17, .w1c, 0⟩, ⟨16, 16, .w1c, 0⟩, ⟨15, 8, .w1c, 0⟩, ⟨7, 0, .w1c, 0⟩]⟩,
  ⟨0x4008000C, [], [⟨18, 18, .rw, 0⟩, ⟨17, 17, .rw, 0⟩, ⟨16, 16, .rw, 0⟩, ⟨15, 8, .rw, 0⟩, ⟨7, 0, .rw, 0⟩]⟩,
  ⟨0x40080010, [], [⟨31, 0, .ro, 0⟩]⟩,
  ⟨0x40080014, [], [⟨31, 16, .ro, 0⟩, ⟨12, 0, .ro, 0⟩]⟩,
  ⟨0x40080018, [], [⟨31, 0, .wo, 0⟩]⟩,
  ⟨0x40080020, [], [⟨31, 16, .wo, 0⟩, ⟨8, 4, .wo, 0⟩, ⟨0, 0, .wo, 0⟩]⟩,
  ⟨0x40080024, [], [⟨23, 16, .ro, 0⟩, ⟨15, 8, .ro, 0⟩, ⟨0, 0, .ro, 0⟩]⟩,
  ⟨0x40080100, [(0x8, 16)], [⟨31, 24, .rw, 0⟩, ⟨23, 16, .rw, 0⟩, ⟨15, 0, .rw, 0⟩]⟩,
  ⟨0x40080104, [(0x8, 16)], [⟨31, 0, .rw, 0⟩]⟩,
  ⟨0x40081000, [(0x200, 8)], [⟨31, 28, .ro, 3⟩, ⟨27, 26, .ro, 0⟩, ⟨25, 25, .ro, 0⟩, ⟨24, 24, .ro, 0⟩, ⟨23, 20, .ro, 0⟩, ⟨19, 16, .ro, 1⟩, ⟨15, 12, .ro, 0⟩, ⟨1, 0, .ro, 0⟩]⟩,
  ⟨0x40081004, [(0x200, 8)], [⟨15, 10, .ro, 0⟩, ⟨7, 7, .w1c, 0⟩, ⟨6, 6, .ro, 0⟩, ⟨5, 0, .ro, 0⟩]⟩,
  ⟨0x40081008, [(0x200, 8)], [⟨31, 0, .ro, 0⟩]⟩,
  ⟨0x4008100C, [(0x200, 8)], [⟨31, 0, .ro, 0⟩]⟩,
  ⟨0x40081010, [(0x200, 8)], [⟨31, 0, .ro, 0⟩]⟩,
  ⟨0x40081014, [(0x200, 8)], [⟨31, 0, .ro, 0⟩]⟩,
  ⟨0x40081018, [(0x200, 8)], [⟨31, 0, .ro, 0⟩]⟩,
  ⟨0x4008101C, [(0x200, 8)], [⟨31, 0, .ro, 0⟩]⟩,
  ⟨0x40081088, [(0x200, 8)], [⟨31, 0, .ro, 1⟩]⟩]

/-- Registers of MH, part 1. -/
def tableMH1 : List RegDesc := [
  ⟨0x40081098, [(0x200, 8)], [⟨31, 0, .ro, 10000⟩]⟩,
  ⟨0x4008109C, [(0x200, 8)], [⟨31, 0, .ro, 1065353216⟩]⟩,
  ⟨0x400810A8, [(0x200, 8)], [⟨31, 0, .ro, 600⟩]⟩,
  ⟨0x400810AC, [(0x200, 8)], [⟨31, 0, .ro, 100⟩]⟩,
  ⟨0x400810B0, [(0x200, 8)], [⟨31, 0, .ro, 2500⟩]⟩,
  ⟨0x400810B4, [(0x200, 8)], [⟨31, 0, .ro, 100000⟩]⟩,
  ⟨0x400810B8, [(0x200, 8)], [⟨31, 0, .ro, 3⟩]⟩,
  ⟨0x400810D0, [(0x200, 8)], [⟨31, 0, .ro, 5⟩]⟩,
  ⟨0x400810D4, [(0x200, 8)], [⟨31, 0, .ro, 5⟩]⟩,
  ⟨0x40081080, [(0x200, 8), (0x4, 22)], [⟨31, 0, .ro, 0⟩]⟩,
  ⟨0x40081100, [(0x200, 8), (0x10, 6)], [⟨31, 0, .ro, 0⟩]⟩,
  ⟨0x40081104, [(0x200, 8), (0x10, 6)], [⟨31, 0, .ro, 0⟩]⟩,
  ⟨0x40081108, [(0x200, 8), (0x10, 6)], [⟨29, 0, .ro, 0⟩]⟩,
  ⟨0x4008110C, [(0x200, 8), (0x10, 6)], [⟨15, 0, .ro, 0⟩]⟩]

/-- The registers of MH. -/
def tableMH : List RegDesc := tableMH0 ++ tableMH1

/-- Registers of ME, part 0. -/
def tableME0 : List RegDesc := [
  ⟨0x40090000, [], [⟨1, 1, .ro, 0⟩, ⟨0, 0, .lk, 0⟩]⟩,
  ⟨0x40090004, [], [⟨2, 2, .ro, 0⟩, ⟨1, 1, .ro, 0⟩, ⟨0, 0, .ro, 0⟩]⟩,
  ⟨0x40091000, [(0x400, 2)], [⟨7, 4, .ro, 3⟩, ⟨3, 3, .ro, 0⟩, ⟨1, 0, .ro, 0⟩]⟩,
  ⟨0x40091004, [(0x400, 2)], [⟨14, 11, .w1c, 0⟩, ⟨10, 10, .ro, 0⟩, ⟨9, 9, .ro, 0⟩, ⟨8, 6, .ro, 0⟩, ⟨5, 3, .ro, 0⟩, ⟨2, 0, .ro, 0⟩]⟩,
  ⟨0x40091008, [(0x400, 2)], [⟨31, 16, .w1cAll, 0⟩, ⟨7, 0, .ro, 0⟩]⟩,
  ⟨0x4009100C, [(0x400, 2)], [⟨31, 0, .ro, 0⟩]⟩,
  ⟨0x40091010, [(0x400, 2)], [⟨7, 7, .w1c, 0⟩, ⟨6, 6, .w1c, 0⟩, ⟨5, 5, .w1c, 0⟩, ⟨4, 4, .w1c, 0⟩, ⟨3, 3, .w1c, 0⟩, ⟨2, 2, .w1c, 0⟩, ⟨1, 1, .w1c, 0⟩, ⟨0, 0, .w1c, 0⟩]⟩,
  ⟨0x40091014, [(0x400, 2)], [⟨7, 7, .rw, 0⟩, ⟨6, 6, .rw, 0⟩, ⟨5, 5, .rw, 0⟩, ⟨4, 4, .rw, 0⟩, ⟨3, 3, .rw, 0⟩, ⟨2, 2, .rw, 0⟩, ⟨1, 1, .rw, 0⟩, ⟨0, 0, .rw, 0⟩]⟩,
  ⟨0x40091040, [(0x400, 2), (0x4, 16)], [⟨31, 0, .ro, 0⟩]⟩,
  ⟨0x40091208, [(0x400, 2)], [⟨31, 0, .ro, 1137180672⟩]⟩,
  ⟨0x4009120C, [(0x400, 2)], [⟨31, 0, .ro, 1128792064⟩]⟩,
  ⟨0x40091210, [(0x400, 2)], [⟨31, 0, .ro, 2300⟩]⟩,
  ⟨0x40091214, [(0x400, 2)], [⟨31, 0, .ro, 1000⟩]⟩,
  ⟨0x40091218, [(0x400, 2)], [⟨31, 0, .ro, 3⟩]⟩,
  ⟨0x4009121C, [(0x400, 2)], [⟨31, 0, .ro, 90⟩]⟩,
  ⟨0x40091220, [(0x400, 2)], [⟨31, 0, .ro, 110⟩]⟩,
  ⟨0x40091224, [(0x400, 2)], [⟨31, 0, .ro, 20⟩]⟩,
  ⟨0x40091200, [(0x400, 2), (0x4, 47)], [⟨31, 0, .ro, 0⟩]⟩,
  ⟨0x40091100, [(0x400, 2), (0x10, 7)], [⟨31, 0, .ro, 0⟩]⟩,
  ⟨0x40091104, [(0x400, 2), (0x10, 7)], [⟨31, 0, .ro, 0⟩]⟩]

/-- Registers of ME, part 1. -/
def tableME1 : List RegDesc := [
  ⟨0x40091108, [(0x400, 2), (0x10, 7)], [⟨29, 0, .ro, 0⟩]⟩,
  ⟨0x4009110C, [(0x400, 2), (0x10, 7)], [⟨15, 0, .ro, 0⟩]⟩]

/-- The registers of ME. -/
def tableME : List RegDesc := tableME0 ++ tableME1

/-- Registers of CAN, part 0. -/
def tableCAN0 : List RegDesc := [
  ⟨0x400A0000, [(0x2000, 8)], [⟨6, 6, .w1s, 0⟩, ⟨5, 5, .w1s, 0⟩, ⟨4, 4, .lk, 1⟩, ⟨3, 3, .lk, 0⟩, ⟨2, 1, .rw, 0⟩, ⟨0, 0, .lk, 0⟩]⟩,
  ⟨0x400A0004, [(0x2000, 8)], [⟨25, 24, .ro, 0⟩, ⟨23, 16, .ro, 0⟩, ⟨15, 8, .ro, 0⟩, ⟨0, 0, .ro, 0⟩]⟩,
  ⟨0x400A0008, [(0x2000, 8)], [⟨31, 25, .lk, 0⟩, ⟨24, 17, .lk, 0⟩, ⟨16, 10, .lk, 0⟩, ⟨4, 0, .lk, 0⟩]⟩,
  ⟨0x400A000C, [(0x2000, 8)], [⟨31, 25, .lk, 0⟩, ⟨24, 17, .lk, 0⟩, ⟨16, 10, .lk, 0⟩, ⟨9, 5, .lk, 0⟩, ⟨4, 0, .lk, 0⟩]⟩,
  ⟨0x400A0010, [(0x2000, 8)], [⟨7, 7, .w1c, 0⟩, ⟨6, 6, .w1c, 0⟩, ⟨5, 5, .w1c, 0⟩, ⟨4, 4, .w1c, 0⟩, ⟨3, 3, .w1c, 0⟩, ⟨2, 2, .w1c, 0⟩, ⟨1, 1, .w1c, 0⟩, ⟨0, 0, .w1c, 0⟩]⟩,
  ⟨0x400A0014, [(0x2000, 8)], [⟨7, 7, .rw, 0⟩, ⟨6, 6, .rw, 0⟩, ⟨5, 5, .rw, 0⟩, ⟨4, 4, .rw, 0⟩, ⟨3, 3, .rw, 0⟩, ⟨2, 2, .rw, 0⟩, ⟨1, 1, .rw, 0⟩, ⟨0, 0, .rw, 0⟩]⟩,
  ⟨0x400A0018, [(0x2000, 8)], [⟨31, 16, .w1cAll, 0⟩, ⟨15, 8, .ro, 0⟩, ⟨2, 0, .ro, 0⟩]⟩,
  ⟨0x400A001C, [(0x2000, 8)], [⟨31, 23, .ro, 0⟩, ⟨22, 18, .ro, 0⟩, ⟨12, 0, .ro, 0⟩]⟩,
  ⟨0x400A0020, [(0x2000, 8)], [⟨31, 0, .ro, 0⟩]⟩,
  ⟨0x400A0024, [(0x2000, 8)], [⟨31, 0, .ro, 0⟩]⟩,
  ⟨0x400A0028, [(0x2000, 8)], [⟨31, 0, .ro, 0⟩]⟩,
  ⟨0x400A002C, [(0x2000, 8)], [⟨31, 0, .ro, 0⟩]⟩,
  ⟨0x400A0030, [(0x2000, 8)], [⟨28, 16, .ro, 0⟩, ⟨12, 0, .ro, 0⟩]⟩,
  ⟨0x400A0038, [(0x2000, 8)], [⟨28, 16, .ro, 0⟩, ⟨12, 0, .ro, 0⟩]⟩,
  ⟨0x400A0034, [(0x2000, 8)], [⟨12, 0, .wo, 0⟩]⟩,
  ⟨0x400A003C, [(0x2000, 8)], [⟨12, 0, .wo, 0⟩]⟩,
  ⟨0x400A0040, [(0x2000, 8)], [⟨31, 31, .w1c, 0⟩, ⟨30, 24, .w1cAll, 0⟩, ⟨23, 12, .w1cAll, 0⟩, ⟨11, 0, .w1cAll, 0⟩]⟩,
  ⟨0x400A0044, [(0x2000, 8)], [⟨9, 0, .lk, 50⟩]⟩,
  ⟨0x400A0048, [(0x2000, 8)], [⟨31, 0, .w1s, 0⟩]⟩,
  ⟨0x400A004C, [(0x2000, 8)], [⟨31, 0, .ro, 0⟩]⟩]

/-- Registers of CAN, part 1. -/
def tableCAN1 : List RegDesc := [
  ⟨0x400A0050, [(0x2000, 8)], [⟨31, 0, .w1s, 0⟩]⟩,
  ⟨0x400A0054, [(0x2000, 8)], [⟨31, 0, .w1c, 0⟩]⟩,
  ⟨0x400A0058, [(0x2000, 8)], [⟨10, 1, .lk, 10⟩, ⟨0, 0, .lk, 0⟩]⟩,
  ⟨0x400A0100, [(0x2000, 8), (0x4, 32)], [⟨21, 16, .ro, 0⟩, ⟨15, 8, .ro, 0⟩, ⟨7, 0, .ro, 0⟩]⟩]

/-- The registers of CAN. -/
def tableCAN : List RegDesc := tableCAN0 ++ tableCAN1

/-- Registers of ETH, part 0. -/
def tableETH0 : List RegDesc := [
  ⟨0x400B0000, [(0x1000, 2)], [⟨3, 3, .lk, 0⟩, ⟨2, 2, .lk, 1⟩, ⟨1, 1, .rw, 0⟩, ⟨0, 0, .lk, 0⟩]⟩,
  ⟨0x400B0004, [(0x1000, 2)], [⟨31, 16, .w1cAll, 0⟩, ⟨2, 2, .ro, 0⟩, ⟨1, 1, .ro, 0⟩, ⟨0, 0, .ro, 0⟩]⟩,
  ⟨0x400B0008, [(0x1000, 2)], [⟨16, 16, .lk, 0⟩, ⟨11, 8, .lk, 8⟩, ⟨2, 0, .lk, 0⟩]⟩,
  ⟨0x400B000C, [(0x1000, 2)], [⟨15, 0, .lk, 47140⟩]⟩,
  ⟨0x400B0800, [(0x1000, 2), (0x4, 4)], [⟨31, 0, .lk, 0⟩]⟩,
  ⟨0x400B0840, [(0x1000, 2)], [⟨31, 0, .wo, 0⟩]⟩,
  ⟨0x400B0844, [(0x1000, 2)], [⟨31, 31, .wo, 0⟩, ⟨10, 0, .wo, 0⟩]⟩,
  ⟨0x400B0848, [(0x1000, 2)], [⟨31, 0, .ro, 0⟩]⟩,
  ⟨0x400B084C, [(0x1000, 2)], [⟨31, 0, .ro, 0⟩]⟩,
  ⟨0x400B0850, [(0x1000, 2)], [⟨15, 8, .ro, 0⟩, ⟨1, 1, .w1c, 0⟩, ⟨0, 0, .ro, 0⟩]⟩,
  ⟨0x400B0854, [(0x1000, 2)], [⟨31, 16, .lk, 0⟩, ⟨15, 0, .lk, 0⟩]⟩,
  ⟨0x400B0010, [(0x1000, 2)], [⟨4, 4, .w1c, 0⟩, ⟨3, 3, .w1c, 0⟩, ⟨2, 2, .w1c, 0⟩, ⟨1, 1, .w1c, 0⟩, ⟨0, 0, .w1c, 0⟩]⟩,
  ⟨0x400B0014, [(0x1000, 2)], [⟨4, 4, .rw, 0⟩, ⟨3, 3, .rw, 0⟩, ⟨2, 2, .rw, 0⟩, ⟨1, 1, .rw, 0⟩, ⟨0, 0, .rw, 0⟩]⟩,
  ⟨0x400B0018, [(0x1000, 2)], []⟩,
  ⟨0x400B001C, [(0x1000, 2)], [⟨31, 23, .ro, 0⟩, ⟨22, 18, .ro, 0⟩, ⟨12, 0, .ro, 0⟩]⟩,
  ⟨0x400B0020, [(0x1000, 2)], [⟨31, 0, .ro, 0⟩]⟩,
  ⟨0x400B0024, [(0x1000, 2)], [⟨31, 0, .ro, 0⟩]⟩,
  ⟨0x400B0028, [(0x1000, 2)], [⟨31, 0, .ro, 0⟩]⟩,
  ⟨0x400B002C, [(0x1000, 2)], [⟨31, 0, .ro, 0⟩]⟩,
  ⟨0x400B0030, [(0x1000, 2)], [⟨28, 16, .ro, 0⟩, ⟨12, 0, .ro, 0⟩]⟩]

/-- Registers of ETH, part 1. -/
def tableETH1 : List RegDesc := [
  ⟨0x400B0038, [(0x1000, 2)], [⟨28, 16, .ro, 0⟩, ⟨12, 0, .ro, 0⟩]⟩,
  ⟨0x400B0034, [(0x1000, 2)], [⟨12, 0, .wo, 0⟩]⟩,
  ⟨0x400B003C, [(0x1000, 2)], [⟨12, 0, .wo, 0⟩]⟩,
  ⟨0x400B0040, [(0x1000, 2)], [⟨31, 31, .w1c, 0⟩, ⟨30, 24, .w1cAll, 0⟩, ⟨23, 12, .w1cAll, 0⟩, ⟨11, 0, .w1cAll, 0⟩]⟩,
  ⟨0x400B0044, [(0x1000, 2)], [⟨9, 0, .lk, 50⟩]⟩,
  ⟨0x400B0048, [(0x1000, 2)], [⟨31, 0, .w1s, 0⟩]⟩,
  ⟨0x400B004C, [(0x1000, 2)], [⟨31, 0, .ro, 0⟩]⟩,
  ⟨0x400B0050, [(0x1000, 2)], [⟨31, 0, .w1s, 0⟩]⟩,
  ⟨0x400B0054, [(0x1000, 2)], [⟨31, 0, .w1c, 0⟩]⟩,
  ⟨0x400B0100, [(0x1000, 2), (0x4, 16)], [⟨21, 16, .ro, 0⟩, ⟨15, 8, .ro, 0⟩, ⟨7, 0, .ro, 0⟩]⟩]

/-- The registers of ETH. -/
def tableETH : List RegDesc := tableETH0 ++ tableETH1

/-- Registers of WFL, part 0. -/
def tableWFL0 : List RegDesc := [
  ⟨0x400C0800, [], [⟨1, 1, .ro, 0⟩, ⟨0, 0, .lk, 0⟩]⟩,
  ⟨0x400C0804, [], [⟨9, 9, .wo, 0⟩, ⟨8, 4, .wo, 0⟩, ⟨3, 0, .wo, 0⟩]⟩,
  ⟨0x400C0808, [], [⟨7, 0, .ro, 0⟩]⟩,
  ⟨0x400C0000, [(0x40, 24)], [⟨31, 24, .lk, 20⟩, ⟨23, 21, .lk, 2⟩, ⟨20, 4, .lk, 100⟩, ⟨0, 0, .lk, 0⟩]⟩,
  ⟨0x400C0004, [(0x40, 24)], [⟨31, 16, .ro, 0⟩, ⟨15, 0, .ro, 0⟩]⟩,
  ⟨0x400C0008, [(0x40, 24)], [⟨31, 0, .w1cAll, 0⟩]⟩,
  ⟨0x400C000C, [(0x40, 24)], [⟨31, 0, .w1cAll, 0⟩]⟩,
  ⟨0x400C0010, [(0x40, 24)], [⟨3, 3, .w1c, 0⟩, ⟨2, 2, .w1c, 0⟩, ⟨1, 1, .w1c, 0⟩, ⟨0, 0, .w1c, 0⟩]⟩,
  ⟨0x400C0014, [(0x40, 24)], [⟨3, 3, .rw, 0⟩, ⟨2, 2, .rw, 0⟩, ⟨1, 1, .rw, 0⟩, ⟨0, 0, .rw, 0⟩]⟩,
  ⟨0x400C1000, [(0x400, 24), (0x40, 16)], [⟨31, 31, .rw, 0⟩, ⟨30, 30, .rw, 0⟩, ⟨29, 29, .rw, 0⟩, ⟨13, 7, .rw, 0⟩, ⟨6, 0, .rw, 0⟩]⟩,
  ⟨0x400C1004, [(0x400, 24), (0x40, 16)], [⟨27, 16, .rw, 0⟩, ⟨11, 0, .rw, 0⟩]⟩,
  ⟨0x400C1008, [(0x400, 24), (0x40, 16)], [⟨31, 16, .rw, 0⟩, ⟨15, 0, .rw, 0⟩]⟩,
  ⟨0x400C1018, [(0x400, 24), (0x40, 16)], [⟨31, 16, .ro, 0⟩, ⟨15, 0, .ro, 0⟩]⟩,
  ⟨0x400C100C, [(0x400, 24), (0x40, 16)], [⟨31, 0, .rw, 0⟩]⟩,
  ⟨0x400C1010, [(0x400, 24), (0x40, 16)], [⟨31, 0, .rw, 0⟩]⟩,
  ⟨0x400C101C, [(0x400, 24), (0x40, 16)], [⟨31, 0, .ro, 0⟩]⟩,
  ⟨0x400C1020, [(0x400, 24), (0x40, 16)], [⟨31, 0, .ro, 0⟩]⟩,
  ⟨0x400C1014, [(0x400, 24), (0x40, 16)], [⟨31, 16, .ro, 0⟩, ⟨7, 7, .ro, 0⟩, ⟨6, 4, .ro, 0⟩, ⟨1, 0, .ro, 0⟩]⟩,
  ⟨0x400C1024, [(0x400, 24), (0x40, 16)], [⟨14, 8, .ro, 0⟩, ⟨6, 0, .ro, 0⟩]⟩,
  ⟨0x400C8000, [(0x4, 4096)], [⟨31, 0, .ro, 0⟩]⟩]

/-- Registers of WFL, part 1. -/
def tableWFL1 : List RegDesc := [
  ⟨0x400CC000, [(0x4, 4096)], [⟨31, 0, .rw, 0⟩]⟩]

/-- The registers of WFL. -/
def tableWFL : List RegDesc := tableWFL0 ++ tableWFL1

/-- Registers of SE, part 0. -/
def tableSE0 : List RegDesc := [
  ⟨0x400D0000, [], [⟨1, 1, .ro, 0⟩, ⟨0, 0, .lk, 0⟩]⟩,
  ⟨0x400D0004, [], [⟨16, 0, .lk, 1000⟩]⟩,
  ⟨0x400D0008, [], [⟨15, 8, .ro, 0⟩, ⟨2, 2, .ro, 0⟩, ⟨1, 1, .ro, 0⟩, ⟨0, 0, .ro, 0⟩]⟩,
  ⟨0x400D000C, [], [⟨5, 5, .w1c, 0⟩, ⟨4, 4, .w1c, 0⟩, ⟨3, 3, .w1c, 0⟩, ⟨2, 2, .w1c, 0⟩, ⟨1, 1, .w1c, 0⟩, ⟨0, 0, .w1c, 0⟩]⟩,
  ⟨0x400D0010, [], [⟨5, 5, .rw, 0⟩, ⟨4, 4, .rw, 0⟩, ⟨3, 3, .rw, 0⟩, ⟨2, 2, .rw, 0⟩, ⟨1, 1, .rw, 0⟩, ⟨0, 0, .rw, 0⟩]⟩,
  ⟨0x400D0014, [], [⟨31, 16, .ro, 0⟩, ⟨15, 0, .ro, 0⟩]⟩,
  ⟨0x400D0018, [], [⟨31, 0, .ro, 0⟩]⟩,
  ⟨0x400D001C, [], [⟨31, 0, .w1cAll, 0⟩]⟩,
  ⟨0x400D0020, [], [⟨31, 16, .w1cAll, 0⟩, ⟨15, 0, .ro, 0⟩]⟩,
  ⟨0x400D0030, [], [⟨31, 31, .wo, 0⟩, ⟨15, 0, .wo, 0⟩]⟩,
  ⟨0x400D0034, [], [⟨31, 31, .ro, 0⟩, ⟨23, 16, .ro, 0⟩, ⟨15, 0, .ro, 65535⟩]⟩,
  ⟨0x400D0040, [], [⟨15, 0, .rw, 0⟩]⟩,
  ⟨0x400D0044, [], [⟨31, 0, .rw, 0⟩]⟩,
  ⟨0x400D0048, [], [⟨31, 0, .rw, 0⟩]⟩,
  ⟨0x400D004C, [], [⟨1, 1, .wo, 0⟩, ⟨0, 0, .wo, 0⟩]⟩,
  ⟨0x400D0050, [], [⟨15, 8, .ro, 0⟩, ⟨6, 0, .ro, 0⟩]⟩,
  ⟨0x400D0100, [(0x10, 64), (0x4, 4)], [⟨31, 0, .ro, 0⟩]⟩,
  ⟨0x400D0500, [(0x4, 16)], [⟨17, 16, .ro, 0⟩, ⟨15, 0, .ro, 0⟩]⟩,
  ⟨0x400D0540, [], [⟨31, 16, .ro, 0⟩, ⟨3, 0, .ro, 0⟩]⟩]

/-- The registers of SE. -/
def tableSE : List RegDesc := tableSE0

/-- Registers of PM, part 0. -/
def tablePM0 : List RegDesc := [
  ⟨0x400E0004, [], [⟨31, 16, .w1cAll, 0⟩, ⟨15, 8, .ro, 0⟩, ⟨3, 3, .ro, 0⟩, ⟨2, 2, .ro, 0⟩, ⟨1, 1, .ro, 0⟩, ⟨0, 0, .ro, 0⟩]⟩,
  ⟨0x400E0008, [], [⟨3, 3, .w1c, 0⟩, ⟨2, 2, .w1c, 0⟩, ⟨1, 1, .w1c, 0⟩, ⟨0, 0, .w1c, 0⟩]⟩,
  ⟨0x400E000C, [], [⟨3, 3, .rw, 0⟩, ⟨2, 2, .rw, 0⟩, ⟨1, 1, .rw, 0⟩, ⟨0, 0, .rw, 0⟩]⟩,
  ⟨0x400E0010, [], [⟨31, 16, .wo, 0⟩, ⟨15, 12, .wo, 0⟩, ⟨10, 0, .wo, 0⟩]⟩,
  ⟨0x400E0014, [], [⟨15, 0, .lk, 64⟩]⟩,
  ⟨0x400E0020, [], [⟨6, 6, .wo, 0⟩, ⟨5, 5, .wo, 0⟩, ⟨4, 4, .wo, 0⟩, ⟨3, 0, .wo, 0⟩]⟩,
  ⟨0x400E0024, [], [⟨31, 0, .wo, 0⟩]⟩,
  ⟨0x400E0028, [], [⟨31, 0, .wo, 0⟩]⟩,
  ⟨0x400E0030, [], [⟨31, 16, .w1cAll, 0⟩, ⟨15, 0, .w1cAll, 0⟩]⟩,
  ⟨0x400E0034, [], [⟨31, 0, .ro, 0⟩]⟩,
  ⟨0x400E0038, [], [⟨31, 0, .ro, 0⟩]⟩,
  ⟨0x400E003C, [], [⟨31, 16, .ro, 0⟩, ⟨15, 0, .ro, 0⟩]⟩,
  ⟨0x400E0040, [(0x4, 16)], [⟨31, 31, .ro, 0⟩, ⟨30, 30, .ro, 0⟩, ⟨29, 29, .ro, 0⟩, ⟨28, 28, .ro, 0⟩, ⟨27, 27, .ro, 0⟩, ⟨26, 26, .ro, 0⟩, ⟨25, 25, .ro, 0⟩, ⟨24, 21, .ro, 0⟩, ⟨7, 0, .ro, 0⟩]⟩,
  ⟨0x400E0080, [(0x4, 16)], [⟨26, 16, .ro, 0⟩, ⟨10, 0, .ro, 0⟩]⟩,
  ⟨0x400E0100, [(0x4, 64)], [⟨31, 0, .rw, 0⟩]⟩,
  ⟨0x400E0200, [(0x4, 32)], [⟨31, 0, .ro, 0⟩]⟩,
  ⟨0x400E0280, [], [⟨31, 16, .wo, 0⟩, ⟨5, 5, .wo, 0⟩, ⟨4, 0, .wo, 0⟩]⟩,
  ⟨0x400E0284, [], [⟨15, 8, .ro, 0⟩, ⟨1, 1, .w1c, 0⟩, ⟨0, 0, .ro, 0⟩]⟩,
  ⟨0x400E0288, [], [⟨31, 0, .ro, 0⟩]⟩]

/-- The registers of PM. -/
def tablePM : List RegDesc := tablePM0

/-- Registers of VLT, part 0. -/
def tableVLT0 : List RegDesc := [
  ⟨0x400F0000, [], [⟨11, 10, .ro, 0⟩, ⟨9, 9, .ro, 0⟩, ⟨8, 8, .ro, 0⟩, ⟨7, 7, .ro, 0⟩, ⟨6, 6, .ro, 0⟩, ⟨5, 5, .ro, 0⟩, ⟨4, 4, .ro, 0⟩, ⟨3, 3, .ro, 1⟩, ⟨2, 2, .ro, 0⟩, ⟨1, 1, .ro, 0⟩, ⟨0, 0, .ro, 0⟩]⟩,
  ⟨0x400F0004, [], [⟨31, 16, .ro, 0⟩, ⟨6, 0, .ro, 0⟩]⟩,
  ⟨0x400F0008, [], [⟨31, 0, .ro, 0⟩]⟩,
  ⟨0x400F000C, [], [⟨31, 0, .ro, 0⟩]⟩,
  ⟨0x400F0010, [], [⟨31, 0, .ro, 0⟩]⟩,
  ⟨0x400F0014, [], [⟨31, 0, .ro, 0⟩]⟩,
  ⟨0x400F0018, [], [⟨31, 24, .ro, 255⟩, ⟨23, 16, .ro, 255⟩, ⟨7, 7, .ro, 0⟩, ⟨5, 4, .ro, 2⟩]⟩,
  ⟨0x400F001C, [], [⟨31, 0, .ro, 0⟩]⟩,
  ⟨0x400F0020, [], [⟨31, 0, .ro, 0⟩]⟩,
  ⟨0x400F0100, [(0x8, 32)], [⟨31, 0, .ro, 0⟩]⟩,
  ⟨0x400F0104, [(0x8, 32)], [⟨31, 16, .ro, 0⟩, ⟨15, 0, .ro, 0⟩]⟩,
  ⟨0x400F1000, [], [⟨31, 0, .wo, 0⟩]⟩,
  ⟨0x400F1004, [], [⟨31, 16, .ro, 0⟩, ⟨15, 8, .ro, 0⟩, ⟨2, 2, .ro, 0⟩, ⟨1, 1, .w1c, 0⟩, ⟨0, 0, .ro, 0⟩]⟩,
  ⟨0x400F1008, [], [⟨2, 2, .w1c, 0⟩, ⟨1, 1, .w1c, 0⟩, ⟨0, 0, .w1c, 0⟩]⟩,
  ⟨0x400F100C, [], [⟨2, 2, .rw, 0⟩, ⟨1, 1, .rw, 0⟩, ⟨0, 0, .rw, 0⟩]⟩,
  ⟨0x400F1010, [], [⟨31, 16, .wo, 0⟩, ⟨0, 0, .wo, 0⟩]⟩]

/-- The registers of VLT. -/
def tableVLT : List RegDesc := tableVLT0

/-- Registers of LCS, part 0. -/
def tableLCS0 : List RegDesc := [
  ⟨0x40100000, [], [⟨11, 11, .ro, 0⟩, ⟨10, 10, .ro, 0⟩, ⟨9, 9, .ro, 0⟩, ⟨8, 8, .ro, 0⟩, ⟨7, 7, .ro, 1⟩, ⟨6, 3, .ro, 0⟩, ⟨2, 0, .ro, 0⟩]⟩,
  ⟨0x40100004, [], [⟨31, 16, .wo, 0⟩, ⟨3, 0, .wo, 0⟩]⟩,
  ⟨0x40100008, [], [⟨15, 8, .ro, 0⟩, ⟨0, 0, .ro, 0⟩]⟩,
  ⟨0x4010000C, [], [⟨3, 3, .w1c, 0⟩, ⟨2, 2, .w1c, 0⟩, ⟨1, 1, .w1c, 0⟩, ⟨0, 0, .w1c, 0⟩]⟩,
  ⟨0x40100010, [], [⟨3, 3, .rw, 0⟩, ⟨2, 2, .rw, 0⟩, ⟨1, 1, .rw, 0⟩, ⟨0, 0, .rw, 0⟩]⟩,
  ⟨0x40100020, [(0x4, 8)], [⟨31, 0, .rw, 0⟩]⟩,
  ⟨0x40100040, [], [⟨31, 31, .wo, 0⟩, ⟨30, 30, .wo, 0⟩, ⟨20, 16, .wo, 0⟩, ⟨11, 8, .wo, 0⟩, ⟨2, 0, .wo, 0⟩]⟩,
  ⟨0x40100044, [], [⟨23, 16, .ro, 0⟩, ⟨15, 12, .ro, 0⟩, ⟨10, 8, .ro, 0⟩, ⟨1, 1, .ro, 0⟩, ⟨0, 0, .ro, 0⟩]⟩,
  ⟨0x40100048, [], [⟨31, 0, .ro, 0⟩]⟩,
  ⟨0x4010004C, [], [⟨31, 0, .ro, 0⟩]⟩,
  ⟨0x40100050, [], [⟨31, 0, .ro, 0⟩]⟩,
  ⟨0x40100060, [], [⟨21, 21, .ro, 0⟩, ⟨20, 20, .ro, 0⟩, ⟨19, 12, .ro, 0⟩, ⟨11, 4, .ro, 0⟩, ⟨3, 0, .ro, 0⟩]⟩,
  ⟨0x40100070, [], [⟨31, 0, .ro, 0⟩]⟩,
  ⟨0x40100074, [], [⟨31, 0, .w1c, 0⟩]⟩,
  ⟨0x40100078, [], [⟨15, 0, .ro, 0⟩]⟩,
  ⟨0x40100080, [(0x8, 10)], [⟨31, 0, .ro, 0⟩]⟩,
  ⟨0x40100084, [(0x8, 10)], [⟨31, 0, .ro, 0⟩]⟩]

/-- The registers of LCS. -/
def tableLCS : List RegDesc := tableLCS0

/-- Registers of ANA, part 0. -/
def tableANA0 : List RegDesc := [
  ⟨0x40110100, [(0x10, 16)], [⟨31, 12, .lk, 100000⟩, ⟨3, 3, .lk, 1⟩, ⟨2, 1, .lk, 1⟩, ⟨0, 0, .lk, 0⟩]⟩,
  ⟨0x40110104, [(0x10, 16)], [⟨31, 0, .ro, 0⟩]⟩,
  ⟨0x40110108, [(0x10, 16)], [⟨3, 3, .ro, 0⟩, ⟨2, 2, .ro, 0⟩, ⟨1, 1, .ro, 0⟩, ⟨0, 0, .ro, 0⟩]⟩]

/-- The registers of ANA. -/
def tableANA : List RegDesc := tableANA0

/-- Registers of INTC, part 0. -/
def tableINTC0 : List RegDesc := [
  ⟨0x40130004, [(0x4, 96)], [⟨2, 0, .rw, 0⟩]⟩,
  ⟨0x40131000, [(0x4, 4)], [⟨31, 0, .ro, 0⟩]⟩,
  ⟨0x40132000, [(0x4, 4)], [⟨31, 0, .rw, 0⟩]⟩,
  ⟨0x40138000, [], [⟨2, 0, .rw, 0⟩]⟩,
  ⟨0x40138004, [], [⟨6, 0, .rw, 0⟩]⟩]

/-- The registers of INTC. -/
def tableINTC : List RegDesc := tableINTC0

/-- The tables of the block at address `a` (the block bases of R107). -/
def tableAt (a : Nat) : List RegDesc :=
  match a / 0x10000 with
  | 0x4000 => tableSYS
  | 0x4001 => tablePWR
  | 0x4002 => tableAON
  | 0x4003 => tableLE
  | 0x4004 => tablePD
  | 0x4005 => tableTUNE
  | 0x4006 => tableSA
  | 0x4007 => tablePT
  | 0x4008 => tableMH
  | 0x4009 => tableME
  | 0x400A => tableCAN
  | 0x400B => tableETH
  | 0x400C => tableWFL
  | 0x400D => tableSE
  | 0x400E => tablePM
  | 0x400F => tableVLT
  | 0x4010 => tableLCS
  | 0x4011 => tableANA
  | 0x4013 => tableINTC
  | _ => []

/-- The table that describes the register at address `a`, if the address is mapped. -/
def regDesc (a : Nat) : Option RegDesc := findDesc (tableAt a) a

/-- The default of sealed calculator field `k` (R294). -/
def mhDefault (k : Nat) : Nat :=
  nth [0, 0, 1, 0, 0, 0, 10000, 0x3F800000, 0, 0, 600, 100, 2500, 100000, 3, 0, 0, 0, 0, 0, 5, 5] k 0
/-- The default of sealed port field `k` (R316). -/
def meDefault (k : Nat) : Nat := nth [0, 0, 0x43C80000, 0x43480000, 2300, 1000, 3, 90, 110, 20] k 0

/-- The value a register holds at reset (R2); MH_C_FIELD and ME_P_FIELD hold the defaults of their fields; an address that holds
no register reads 0. (DESIGN CHOICE, log entry 1) -/
def regReset (a : Nat) : Word :=
  match regDesc a with
  | some r =>
    if r.base = 0x40081080 then BitVec.ofNat 32 (mhDefault ((a - r.base) % 0x200 / 4))
    else if r.base = 0x40091200 then BitVec.ofNat 32 (meDefault ((a - r.base) % 0x400 / 4))
    else BitVec.ofNat 32 (resetOf r.fields)
  | none => 0

end Sys2Proof.Machine
end

