-- ==== Sys2Proof/Machine/Sparse.lean ====
section
/-! DEFINITION. Maps from addresses to values as plain data: a list of pairs in one canonical form, addresses strictly
rising and no entry equal to what an unlisted address reads as. -/

namespace Sys2Proof.Machine

/-- What the map reads at `k`; an unlisted address reads as `d k`. -/
def sparseGet {α : Type} (d : Nat → α) : List (Nat × α) → Nat → α
  | [], k => d k
  | (k', v) :: t, k => if k' = k then v else sparseGet d t k

/-- The map without an entry at `k`. -/
def sparseDrop {α : Type} (k : Nat) : List (Nat × α) → List (Nat × α)
  | [] => []
  | (k', v) :: t => if k' = k then sparseDrop k t else (k', v) :: sparseDrop k t

/-- The entry put before the first entry of a higher address. -/
def sparseInsert {α : Type} (k : Nat) (v : α) : List (Nat × α) → List (Nat × α)
  | [] => [(k, v)]
  | (k', v') :: t => if k < k' then (k, v) :: (k', v') :: t else (k', v') :: sparseInsert k v t

/-- A write of `v` at `k` that keeps the canonical form. -/
def sparseSet {α : Type} [DecidableEq α] (d : Nat → α) (l : List (Nat × α)) (k : Nat) (v : α) : List (Nat × α) :=
  if v = d k then sparseDrop k l else sparseInsert k v (sparseDrop k l)

/-- The entries whose address satisfies `p` return to what an unlisted address reads as. -/
def sparseClear {α : Type} (p : Nat → Bool) : List (Nat × α) → List (Nat × α)
  | [] => []
  | (k, v) :: t => if p k then sparseClear p t else (k, v) :: sparseClear p t

/-- Addresses strictly rising, every one above `lo`, no entry equal to what an unlisted address reads as. -/
def sparseWfFrom {α : Type} [DecidableEq α] (d : Nat → α) : Option Nat → List (Nat × α) → Bool
  | _, [] => true
  | lo, (k, v) :: t =>
    (match lo with
      | none => true
      | some b => decide (b < k)) && decide (v ≠ d k) && sparseWfFrom d (some k) t

/-- The canonical form of a map. -/
def sparseWf {α : Type} [DecidableEq α] (d : Nat → α) (l : List (Nat × α)) : Bool := sparseWfFrom d none l

end Sys2Proof.Machine
end

