-- ==== Sys2Proof/Machine/State.lean ====
section
/-! DEFINITION. The state of one OE-7140: its registers, its memories, the commands that wait, and for every block the
state that its rules name beyond its registers. -/

namespace Sys2Proof.Machine

/-- Why a step stops with a fault. -/
inductive Fault where
  /-- Raised by no meaning: every command of the table has an effect (safe). -/
  | none
  deriving DecidableEq, Repr

/-- Why a command has no meaning. -/
inductive Refusal where
  /-- The command of this mnemonic has no meaning yet; raised by its arm of exec (safe: nothing is proved of it). -/
  | notModelled (mnemonic : String)
  deriving DecidableEq, Repr

/-- What a byte of memory that no entry lists reads as: 0, but in cell 0 of every spread counter, whose upper half reads
0xFF, the complement of the value 0 it holds at manufacture (R456). (DESIGN CHOICE, log entry 2) -/
def memDefault (a : Nat) : Byte :=
  if 0x38001000 ≤ a ∧ a < 0x38002000 ∧ (a - 0x38001000) % 0x80 / 4 = 1 then 0xFF else 0

/-- What a byte of vault SRAM that no entry lists reads as. -/
def zeroDefault (_ : Nat) : Byte := 0

/-- What a byte of flash that no entry lists reads as: an erased byte (R83). -/
def flashDefault (_ : Nat) : Byte := 0xFF

/-- One entry of the partition table (R447). (DESIGN CHOICE, log entry 10) -/
structure PmPart where
  defined : Bool := false
  base : Nat := 0
  size : Nat := 0
  journal : Bool := false
  rpw : Option (List Byte) := none
  wpw : Option (List Byte) := none
  deriving DecidableEq, Repr

/-- The PM controller beyond its registers: the loaded page (R443), the words a CP commit has still to program (R444,
R453), the corrected reads of the present hour and of the last 24 (R440), the partition table in use (R447; the stored one is in
the array), the SYS_MTIME values at which the waits of R450 end, each with its partition, the words that wait for a writer of
higher claim, each with its claim, and the spread counter whose increment waits (R445, R458). -/
structure PmSt where
  loaded : Option Nat := none
  steps : List (Nat × Nat) := []
  ceNow : Nat := 0
  ceHours : List Nat := []
  parts : List PmPart := []
  waits : List (Nat × Nat) := []
  later : List (Nat × Nat × Nat) := []
  sc : Option (Fin 32) := none
  deriving DecidableEq, Repr

/-- One RTD channel beyond its registers: the last valid temperature in binary64 (R297), a conversion in progress (R296),
and whether a valid conversion has come since the start tick (R302). -/
structure RtdSt where
  t64 : Nat := 0
  conv : Bool := false
  seen : Bool := false
  deriving DecidableEq, Repr

/-- The analogue flow conversions of one step of a calculator (R299), oldest first, and whether one lay out of range. -/
structure FlowMean where
  vals : List Nat := []
  bad : Bool := false
  deriving DecidableEq, Repr

/-- One calculator beyond its registers. Accumulators count units of 2⁻³² (R303). A step is `running` from its instant to its end;
`flow` gathers the present step's conversions, and `closing` says that the conversion of the instant's own tick has still to close
the `closed` mean (R299); `flowAt` is the tick of the last conversion, `lastA` and `lastBad` the last valid one. `newFields` are
the sealed values that act from the next instant (R308). -/
structure MhCalc where
  acc : List Nat := [0, 0, 0, 0, 0, 0]
  nPrev : Nat := 0
  npv : Bool := false
  running : Bool := false
  latched : Nat := 0
  flow : FlowMean := {}
  closed : FlowMean := {}
  closing : Bool := false
  flowAt : Option Nat := none
  lastA : Nat := 0
  lastBad : Bool := false
  flowSeen : Bool := false
  ftRem : Nat := 0
  tsV : Nat := 0
  trV : Nat := 0
  valid : Bool := false
  dt : Nat := 0
  dvL : Nat := 0
  newFields : Option (List Nat) := none
  deriving DecidableEq, Repr

/-- What an entry records (R311). -/
structure LedgerEntry where
  type : Nat
  block : Nat
  inst : Nat
  slot : Nat := 0xFF
  field : Nat := 0
  before : Nat := 0
  after : Nat := 0
  deriving DecidableEq, Repr

/-- A staged entry of a sealed commit. -/
structure SealEntry where
  block : Nat
  inst : Nat
  id : Nat
  value : Nat
  deriving DecidableEq, Repr

/-- A sealed commit in progress (R308): its entries, the words to program before the ledger counter advances, how many
entries it books, the field values it applies (block, instance, values), and whether it waits for an ME takeover (R505). -/
structure SealSt where
  entries : List SealEntry := []
  words : List (Nat × Nat) := []
  booked : Nat := 0
  fields : List (Nat × Nat × List Nat) := []
  waiting : Bool := false
  deriving DecidableEq, Repr

/-- What waits for the array with the claim of ledger bookings (R445): an event, or the acknowledgement word. -/
inductive Booking where
  | event (e : LedgerEntry)
  | ack (word : Nat)
  deriving DecidableEq, Repr

/-- Heat metering beyond its registers; `deferred` holds the bookings that wait for a save or a sealed commit, in order of request
(R445), `slot` is the key slot of the session that holds the metrology right (R306). -/
structure MhSt where
  calcs : List MhCalc := List.replicate 8 {}
  sealing : Option SealSt := none
  deferred : List Booking := []
  slot : Nat := 0xFF
  deriving DecidableEq, Repr

/-- The analogue and digital channels beyond their registers: RTD channels, the AI channels in current mode (R299), the levels of
DIO0 to DIO31 and which of them are outputs, the codes of AO0 to AO7 and those that wait for the end of a hold window (R49). -/
structure AnaSt where
  rtd : List RtdSt := List.replicate 16 {}
  aiCurrent : List Bool := List.replicate 16 false
  dio : List Bool := List.replicate 32 false
  dioOut : List Bool := List.replicate 32 false
  ao : List Nat := List.replicate 8 0
  aoNext : List (Option Nat) := List.replicate 8 none
  deriving DecidableEq, Repr

/-- One set of samples of a metering port after the high-pass filter of R315, before scales and corrections: the eight channels V1
to V3, VN, I1 to I3, IN in volts at the balls, the gain codes of the currents, which samples are valid, whether the whole set
carries the invalid flag of R7, and the number of its sample instant. -/
structure MeFrame where
  y : List Nat := List.replicate 8 0
  g : List Nat := [0, 0, 0, 0]
  ok : List Bool := List.replicate 8 true
  flagged : Bool := false
  no : Nat := 0
  deriving DecidableEq, Repr

/-- What a sample of one channel stands for, each sample a filtered value with its gain code: itself, half the sum of the valid
samples on either side (R317), or the point `n` of `d` on the line between them (R51). -/
inductive MeVal where
  | own (a : Nat × Nat)
  | half (a b : Nat × Nat)
  | line (a b : Nat × Nat) (n d : Nat)
  deriving DecidableEq, Repr

/-- A resolved set of samples: the eight channels, the gain codes of the currents, and the number of its sample instant. -/
structure MeSet where
  vals : List MeVal := []
  g : List Nat := [0, 0, 0, 0]
  no : Nat := 0
  deriving DecidableEq, Repr

/-- What a port watches on one phase (R322): its last sample, once there is one, the half cycles summed, the cycle RMS, samples
since the last
crossing, crossings met (counted to 3), cycles low and high for PLOSS, and the start sample and extreme of the events in
progress. -/
structure MePhase where
  last : Nat := 0
  seen : Bool := false
  curSum : Nat := 0
  curN : Nat := 0
  oldSum : Nat := 0
  oldN : Nat := 0
  rms : Nat := 0
  sinceCross : Nat := 0
  crossings : Nat := 0
  low : Nat := 0
  high : Nat := 0
  sagAt : Nat := 0
  sagExt : Nat := 0
  swellAt : Nat := 0
  swellExt : Nat := 0
  plossAt : Nat := 0
  deriving DecidableEq, Repr

/-- The sums of a block in progress (R319, R322): the samples taken in, powers, reactive products, squares of voltages and
currents per phase, the squares of IN, of the displacement, and of the displacement and current sum of the phases that take part
in NEUTRAL. -/
structure MeSums where
  n : Nat := 0
  p : List Nat := [0, 0, 0]
  q : List Nat := [0, 0, 0]
  v2 : List Nat := [0, 0, 0]
  i2 : List Nat := [0, 0, 0]
  in2 : Nat := 0
  disp2 : Nat := 0
  nd2 : Nat := 0
  isum2 : Nat := 0
  deriving DecidableEq, Repr

/-- One metering port beyond its registers (chapter 15). `frames` wait for the sample that follows (R315; what stands there before
the first sample is a sample of zeros), `due` are the block boundaries passed whose block waits for such samples; of each channel
the last valid sample taken in and the number of samples since then; `history` are the sets taken in, newest first; `cycle` says
that V1 has crossed upwards, so that a cycle of it runs. -/
structure MePort where
  acc : List Nat := [0, 0, 0, 0, 0, 0, 0]
  hpX : List Nat := List.replicate 8 0
  hpY : List Nat := List.replicate 8 0
  below : List Nat := [0, 0, 0, 0]
  switched : List Bool := [false, false, false, false]
  clips : List Nat := [0, 0, 0, 0]
  frames : List MeFrame := [{}]
  due : Nat := 0
  valid : List (Nat × Nat) := List.replicate 8 (0, 0)
  since : List Nat := List.replicate 8 0
  history : List MeSet := []
  sums : MeSums := {}
  phases : List MePhase := [{}, {}, {}]
  period : Nat := 0
  crossAt : Nat := 0
  cycle : Bool := false
  order : List Nat := []
  seqWrong : Nat := 0
  seqRight : Nat := 0
  seqAt : Nat := 0
  neutralOn : Nat := 0
  neutralOff : Nat := 0
  neutralAt : Nat := 0
  samples : Nat := 0
  deriving DecidableEq, Repr

/-- Electrical metering beyond its registers: the ports, the sealed values that act from the next block boundary (R316),
and the block boundaries a shadowing spare copy has passed (R321). -/
structure MeSt where
  ports : List MePort := [{}, {}]
  newFields : List (Option (List Nat)) := [none, none]
  shadowed : Nat := 0
  deriving DecidableEq, Repr

/-- The kinds of a totals save (R326). -/
inductive SaveKind where
  | periodic | warning | sleep | reset | merge
  deriving DecidableEq, Repr

/-- A totals save in progress: its kind, the area it writes, its 1,024 bytes, and the ledger counter it requires. -/
structure SaveSt where
  kind : SaveKind
  area : Nat
  bytes : List Byte
  lreq : Nat
  deriving DecidableEq, Repr

/-- Totals saves (chapter 16): the save in progress, the occasions that wait, those that waited when the waiting run mark was
requested (R445), whether this start's MERGE save is committed (R329), whether saves are barred because no area was complete
(R333), the tick from which PERIODIC occasions and run marks are counted, how many of each have come (R328, R332), and whether a
brown stall has ended the WARNING saves (R328). -/
structure TotSt where
  save : Option SaveSt := none
  waiting : List SaveKind := []
  ahead : List SaveKind := []
  merged : Bool := false
  barred : Bool := false
  origin : Nat := 0
  periods : Nat := 0
  marks : Nat := 0
  stalled : Bool := false
  deriving DecidableEq, Repr

/-- One loop slot beyond its registers: whether the image configures it (R127), the gain and offset words of its inputs in the
active and the shadow bank (R134; an input not listed has gain 1 and offset 0), the input, state and intermediate values of its
last completed step and the value injected in it (R176), its output as input kind 6 reads it (R151), the duty cycles of template
2, whether that step ran in AUTO (R154) and met a limit (R155), the following-error monitor (R158), the fault action in force
(R159), the tick it last ran at, the SE command word that waits, whether it was written in a hold window (R49), and the enable and
mode it controls (R141), the q-axis reference of its last step (R171), its places in both timetables (R127, R128), a move to a
cell, offset, period and phase that waits for the next sample instant (R129), and the cell and offset held before a self-test
(R502). (DESIGN CHOICE, log entry 24; DESIGN CHOICE, log entry 69) -/
structure LeSlot where
  named : Bool := false
  gains : List (Word × Word) := []
  gainsShadow : List (Word × Word) := []
  u : List Bf := []
  st : List Bf := []
  inter : List Bf := []
  injW : Bf := {}
  out : Bf := {}
  duty : List Bf := []
  auto : Bool := false
  atLimit : Bool := false
  feAcc : Nat := 0
  feArmed : Bool := true
  act : Nat := 0
  ranAt : Option Nat := none
  cmd : Option Nat := none
  cmdHeld : Bool := false
  seEn : Bool := false
  seMode : Nat := 0
  seLock : Bool := false
  refQ : Dy := {}
  ofs : Nat := 0
  thriftOfs : Option Nat := none
  move : Option (Nat × Nat × Nat × Nat) := none
  home : Option (Nat × Nat) := none
  deriving DecidableEq, Repr

/-- A request of a profile generator: a move to a target (binary64) or a stop (R163, R164). -/
inductive PgReq where
  | go (x : Nat)
  | stop
  deriving DecidableEq, Repr

/-- One PG channel beyond its registers, in binary64: position, velocity and acceleration at the last update instant, the
start of its profile, the profile's segments (jerk, duration in s), the ticks of profile time elapsed, the profile's target,
a planned request that waits for the next update instant, and the set-point in binary32 (R160). -/
structure PgCh where
  x : Nat := 0
  v : Nat := 0
  a : Nat := 0
  x0 : Nat := 0
  v0 : Nat := 0
  a0 : Nat := 0
  segs : List (Nat × Nat) := []
  ticks : Nat := 0
  target : Nat := 0
  ready : Option PgReq := none
  setp : Nat := 0
  deriving DecidableEq, Repr

/-- The latest conversion of a synchronous channel and its invalid flag (R7). -/
structure Conv where
  value : Dy := {}
  flagged : Bool := false
  deriving DecidableEq, Repr

/-- One pump drive beyond its registers: the latest codes of its three phases, whether its slot has completed a step since the
drive entered its off state (R169), and the compare values in force before the latest compare point, none in the off state
(R168). -/
structure PdSt where
  codes : List Int := [0, 0, 0]
  stepped : Bool := false
  before : Option (List Nat) := none
  deriving DecidableEq, Repr

/-- The loop engine beyond its registers: LE_TICK, the slots, the active banks (word k of slot n at 128·n + k), the latest
conversions (AI0 to AI15, then three per drive), the start offsets of the AI channels and of the drives (R123), the planner's
queue (tick, channel, request; R163), the PG channels, the plan in use and the newest plans offered since the last boundary,
newest first, each with its status and tick (R12, R147), the tick of that boundary (R147), the stale count, the drives, and the
published copy of the scan engine's variables (R421). -/
structure LeSt where
  tick : Nat := 0
  slots : List LeSlot := List.replicate 64 {}
  bank : List (Nat × Word) := []
  conv : List Conv := List.replicate 28 {}
  aiStart : List Nat := List.replicate 16 0
  pdStart : List Nat := List.replicate 4 0
  queue : List (Nat × Nat × PgReq) := []
  pg : List PgCh := List.replicate 16 {}
  plan : Option (List Nat) := none
  offers : List (List Nat × Nat × Nat) := []
  boundary : Option Nat := none
  staleN : Nat := 0
  pd : List PdSt := List.replicate 4 {}
  sePub : List (Nat × Word) := []
  deriving DecidableEq, Repr

/-- The TUNE block beyond its registers: the injection's sample count j, its phase (binary64) and whole turns, its PRBS state and
its value w (R180); the sample instants since the capture started; for the trace the instants since ARM, the frames written, the
frames since the trigger frame, the trigger channel's previous value, and the trigger events since the previous frame (R186). -/
structure TuneSt where
  j : Nat := 0
  phi : Nat := 0
  turn : Nat := 0
  prbs : Nat := 0
  w : Bf := {}
  capInst : Nat := 0
  trcInst : Nat := 0
  trcCount : Nat := 0
  trcPost : Option Nat := none
  trcPrev : Option Nat := none
  events : Nat := 0
  deriving DecidableEq, Repr

/-- A request that a live-change hold keeps back (R511, R512): a bank swap of a slot, a plug tracker commit word, a field-link
commit word, a canvas swap of a slot, a scan engine exchange word. -/
inductive HeldReq where
  | swap (slot : Nat)
  | pt (v : Word)
  | wfl (v : Word)
  | sa (v : Word)
  | se (v : Word)
  deriving DecidableEq, Repr

/-- A request to the waystation (R367): the channel or port, the record, and on a port where it came from. -/
structure WayReq where
  chan : Nat
  rec_ : List Byte
  src : List Byte
  deriving DecidableEq, Repr

/-- A COMMIT whose boot record word waits for the array (R516): the request to answer, the palette slot, and the entries that no
held request stands for. -/
structure CommitWait where
  req : WayReq
  pal : Nat
  rest : List (Nat × Nat × Nat × Nat)
  deriving DecidableEq, Repr

/-- Live change (chapter 24): the requests a hold keeps, oldest first, the tick it began, the change set staged over the
waystation, its number and its entries (type, instance, field, value), and a COMMIT that waits for its commit point. -/
structure LiveSt where
  held : List HeldReq := []
  since : Nat := 0
  setNo : Nat := 0
  set : List (Nat × Nat × Nat × Nat) := []
  commit : Option CommitWait := none
  deriving DecidableEq, Repr

/-- One entry of the condition report (R96). -/
structure RptEntry where
  type : Nat
  inst : Nat
  field : Nat := 0xFFFF
  code : Nat
  given : Nat := 0
  applied : Nat := 0
  deriving DecidableEq, Repr

/-- A value the image gives: the instance its record names, where it goes, the value or, of a bulk record, the elements with
their size in bytes; its record type and field, the image offset of its field entry, and the value as given. -/
structure PalEffect where
  inst : Nat
  target : Config.PalTarget
  vals : List Nat
  size : Nat := 4
  type : Nat := 0
  id : Nat := 0xFFFF
  off : Nat := 0
  given : Nat := 0
  deriving DecidableEq, Repr

/-- The steward's results for an image (R90 to R95): the values to programme, the report's entries with their image offsets, the
offsets of the field entries applied as given or by default (R96), the offset of the record that stopped parsing, the loop slots
its records name, the metrology fields and the credential fields it gives (record, instance, field, value), the records applied so
far, the instances left disabled for a structural field (type, instance), the offset in hand, and where the image gives each
instance and field (type, instance, field, offset; R97). -/
structure PalResult where
  effects : List PalEffect := []
  entries : List (Nat × RptEntry) := []
  applied : List Nat := []
  stop : Option Nat := none
  loops : List Nat := []
  metrology : List SealEntry := []
  creds : List SealEntry := []
  seen : List (Nat × Nat) := []
  disabled : List (Nat × Nat) := []
  off : Nat := 0
  places : List (Nat × Nat × Nat × Nat) := []
  deriving DecidableEq, Repr

/-- The steward (chapter 5). The step of R81 in progress: 0 none, 1 HFXO starting, 2 PLL starting, 3 boot test and PM, 4 boot test
failed, 5 waiting for PF_WARN to deassert, 6 reading a slot, 7 verifying it, 9 programmed, 10 started. Whether the boot test has
ended, whether step 5 has been done; the slot under evaluation and whether it is the second; the slot accepted; the results for
it; the condition report, each entry with its place in the image (R97); the firmware slot under evaluation and whether it is the
second, and whether a watchdog's first expiry asks for the other one first (R115); the LFXO edges counted at the start tick; the
size of the CP area in KiB; whether the seals of R101 are written; the words of the condition report still to program (R96); the
watchdog timeout the image gives (R115). -/
structure BootSt where
  step : Nat := 0
  tested : Bool := false
  read : Bool := false
  slot : Nat := 0
  second : Bool := false
  slotUsed : Option Nat := none
  result : PalResult := {}
  report : List (Nat × RptEntry) := []
  fwSlot : Option Nat := none
  fwSecond : Bool := false
  fallback : Bool := false
  startEdge : Nat := 0
  cpArea : Nat := 64
  sealed_ : Bool := false
  rpt : List (Nat × Nat) := []
  wdt : Option Nat := none
  deriving DecidableEq, Repr

/-- A job of the solver array (R225): its order of acceptance, priority and descriptor; its acceptance tick and estimated
start; the directory entry it uses, whether it waits for a swap, and whether that swap was withdrawn (R245); its start
tick; whether it started late, ran with fewer than 8 groups, and how often it was pre-empted; the problems whose waves have
ended, those of the wave in flight, and the cycles before that wave; status and iterations of each problem ended; and its
offer buffer (R244). -/
structure SaJob where
  id : Nat
  prio : Nat
  desc : List Nat
  accept : Nat
  est : Nat := 0
  half : Nat := 0
  wait : Bool := false
  dead : Bool := false
  start : Option Nat := none
  late : Bool := false
  reduced : Bool := false
  preempts : Nat := 0
  next : Nat := 0
  per : Nat := 0
  head : Nat := 0
  done : List (Nat × Nat) := []
  z : Option (List Nat) := none
  deriving DecidableEq, Repr

/-- The solver array beyond its registers (chapter 11): the queue in order of acceptance, the running and the pre-empted
job, the number of jobs accepted, and the lane groups that leave and rejoin at the next problem boundary (R191, R503). -/
structure SaSt where
  queue : List SaJob := []
  run : Option SaJob := none
  pre : Option SaJob := none
  accepted : Nat := 0
  leaving : Option Nat := none
  joining : Option Nat := none
  deriving DecidableEq, Repr

/-- A parcel (R249): volume in mL, age in s, temperature in 0.01 K. -/
structure PtParcel where
  vol : Nat
  age : Nat
  temp : Int
  deriving DecidableEq, Repr

/-- One segment of the plug tracker (chapter 12): the configuration in effect (the words of RING, SRC, VOL, AMB, GAIN, SHARE,
INIT, TAU), the parcels from the outlet end, the place of the oldest in its ring, the volume below 1 mL carried over and the
MH volume last read (R252), and the inflow since the segment started (R254). -/
structure PtSeg where
  cfg : List Nat := [0, 0x02100000, 0, 0, 0, 0, 0, 0]
  parcels : List PtParcel := []
  tail : Nat := 0
  carry : Nat := 0
  cum : Nat := 0
  deriving DecidableEq, Repr

/-- A commit that waits (R260): its PT_COMMIT index with OUT, the shadow's words, and whether a live-change hold has let it
go (R512). -/
structure PtStage where
  key : Nat
  words : List Nat
  armed : Bool
  deriving DecidableEq, Repr

/-- The plug tracker beyond its registers: segments, the outputs' configuration in effect (the words of CFG, DST, GAIN, OFS),
commits that wait, the tick of the last update, the volumes the eight MH calculators had counted at it. -/
structure PtSt where
  segs : List PtSeg := List.replicate 256 {}
  outs : List (List Nat) := List.replicate 8 [0, 0, 0x3F800000, 0]
  staged : List PtStage := []
  last : Option Nat := none
  vols : List Nat := List.replicate 8 0
  deriving DecidableEq, Repr

/-- Network Time beyond its registers (chapter 18), in units of 2⁻⁷² s: the clock, the highest NT reached since VALID became 1
with its value before the last advance (R378), and whether that advance was a step or the time made up after SLEEP or a stall;
FREQ in 2⁻⁴⁰ units (R382); the tick of the last accepted offset or firmware write (R377); the last REF of the time source (node,
SEQ, NTV, own NT at its SOF, R381); and MTIME in µs. -/
structure TimeSt where
  now : Nat := 0
  top : Nat := 0
  prevTop : Nat := 0
  freq : Int := 0
  lastAcc : Nat := 0
  pair : Option (Nat × Nat × Bool × Nat) := none
  jumped : Bool := false
  mtime : Nat := 0
  deriving DecidableEq, Repr

/-- A caravan being reassembled (R361): identifier bits [28:7], caravan ID, header, the frames received, the tick it opened,
the time stamp of its last frame, whether it has passed to software, and on a port the source address and UDP port it came from.
-/
structure BusCtx where
  key : Nat
  car : Nat
  header : Nat
  frames : List (Nat × List Byte) := []
  opened : Nat := 0
  ts : Nat := 0
  owned : Bool := false
  src : List Byte := []
  deriving DecidableEq, Repr

/-- What a channel sends: an entry of its transmit area, a caravan handed to the bus by number, a reference message, a power-fail
notice, a heartbeat. -/
inductive BusSrc where
  | entry (e : Nat)
  | msg (no : Nat)
  | ref
  | pfail
  | heartbeat
  deriving DecidableEq, Repr

/-- One CAN channel or ETH port beyond its registers (chapter 17): of each entry the frames sent, the tick of its request and
whether its abort waits; the frame on the bus; hardware messages that wait; the number of REF messages, the SEQ of the last one
sent and the NT at its SOF, those of the last one started, and the tick the last was queued (R379, R380); reassembly contexts;
frames received; the contexts of the caravan queue entries that software owns, oldest first; the caravans completed of late
(identifier, caravan ID, CRC, tick; R366); a self-test (R504), asked for or running since a tick; the frame that left last on a
port, its FCS at the end, and the source address and UDP port of the segment it received last. -/
structure BusCh where
  sent : List Nat := List.replicate 32 0
  reqAt : List Nat := List.replicate 32 0
  abort : List Bool := List.replicate 32 false
  cur : Option (BusSrc × CanFrame) := none
  ref : Option (List Byte) := none
  refSeq : Nat := 0
  refPrev : Option (Nat × Nat) := none
  refSof : Option (Nat × Nat) := none
  refAt : Nat := 0
  pfail : Option (List Byte) := none
  heartbeat : Bool := false
  ctx : List (Option BusCtx) := List.replicate 16 none
  rxno : Nat := 0
  cq : List (Option Nat) := []
  recent : List (Nat × Nat × Nat × Nat) := []
  testWait : Bool := false
  testing : Option Nat := none
  out : List Byte := []
  src : List Byte := []
  deriving DecidableEq, Repr

/-- A caravan handed to the bus by the rounds (chapter 13) or the waystation (R367), or an entry of ETH0 copied for ETH1 (R366):
the channel or port, the priority class, the message type and the node of its identifier, the record, on a port the address and
UDP port it goes to (none for ff02::1), the tag, the caravan ID, whether it is a single-frame message, the entry it copies, its
number and the frames sent. -/
structure NetMsg where
  chan : Nat
  prio : Nat
  type : Nat
  node : Nat
  record : List Byte
  dst : List Byte := []
  tag : List Byte := []
  car : Nat := 0
  single : Bool := false
  entry : Option Nat := none
  no : Nat := 0
  done : Nat := 0
  deriving DecidableEq, Repr

/-- A candidacy caravan received from another head, or sent by this one (R274, R291): the head, its rank, ELIGIBLE, the tick it
arrived and the reference instants counted by then. -/
structure CandSeen where
  head : Nat
  rank : Nat
  eligible : Bool
  tick : Nat
  inst : Nat
  deriving DecidableEq, Repr

/-- A participant as its head knows it (R281): node, commodity, stored draw, rounds MISSING in a row, and the flags (STATUS,
REPEAT) of its record for the present round. -/
structure RndMember where
  node : Nat
  com : Nat
  draw : List Nat
  miss : Nat := 0
  heard : Option (Nat × Bool) := none
  deriving DecidableEq, Repr

/-- A domain-sum record (R274): head, round, the four counts, per commodity the members counted and the sum, and LOAD. -/
structure RndSum where
  head : Nat
  round : Nat
  counts : List Nat
  n : List Nat
  sum : List (List Nat)
  load : List Nat
  deriving DecidableEq, Repr

/-- The planning values of the palette image (chapter 13): the channel and commodity of a participant and the fixed part of q
for its draws; the horizon, the commodities, ρc, LAMBDA0, EPS_P, EPS_D, CW and TRET of a holder; where a participant's firmware
builds its price packet, and the slot that packet names. -/
structure RndCfg where
  chan : Nat := 0
  com : Nat := 0
  qfix : List Nat := []
  h : Nat := 24
  ncom : Nat := 1
  rhoC : Nat := 0
  lambda0 : List Nat := [0, 0]
  epsP : List Nat := [0, 0]
  epsD : List Nat := [0, 0]
  cw : Nat := 0
  tret : Nat := 0
  packet : Nat := 0
  slot : Nat := 0
  deriving DecidableEq, Repr

/-- Planning rounds (chapter 13). A participant: the price record accepted in this round, the draw sent last, the draw entries of
q it formed and the price packet that writes them, whether a holder was named at the boundary, its job of this round or the code
it was refused with, whether it replied. A head: the price it holds for the next round, the newest price record received, whether
any was published since POR, its members and those that join, every head's last domain sum, those of the round the newest price
record answered (R291). A holder: whether it has published since it took the token, RIC, CYCLE, and λ, d̄ and Sprev by commodity.
-/
structure RndSt where
  cfg : RndCfg := {}
  index : Nat := 0
  price : Option (List Byte) := none
  dprev : List Nat := []
  qd : List Nat := []
  prices : List Nat := []
  named : Bool := false
  job : Option Nat := none
  refused : Option Nat := none
  replied : Bool := false
  next : Option (List Byte) := none
  newest : Option (List Byte) := none
  published : Bool := false
  members : List RndMember := []
  joining : List RndMember := []
  sums : List RndSum := []
  kept : List RndSum := []
  summed : Bool := false
  collected : Bool := false
  holding : Bool := false
  ric : Nat := 0
  cycle : Nat := 0
  lam : List (List Nat) := []
  dbar : List (List Nat) := []
  sprev : List (List Nat) := []
  deriving DecidableEq, Repr

/-- The buses and the time masters (chapters 17, 18): the channels, then the ports; whether NT stepped since each one's previous
REF; PTP frames that wait (address, length) and their timestamps; the last backbone REF with TM = 1 (node, rank, grant word, tick)
and the tick of the last of any kind; the candidacies; the reference instants counted, the tick of the last, the one at which
this head became acting
master, those in a row without its quorum, the grant word it sends, the instant at which it last named a holder, and the holder it
names (R289, R386); the caravans that wait to be sent, oldest first, and how many there have been. -/
structure NetSt where
  ch : List BusCh := List.replicate 10 {}
  stepped : List Bool := List.replicate 10 false
  ptp : List (Option (Nat × Nat)) := [none, none]
  ptpTs : List Nat := [0, 0]
  backRef : Option (Nat × Nat × Nat × Nat) := none
  backSeen : Option Nat := none
  cands : List CandSeen := []
  inst : Nat := 0
  instAt : Option Nat := none
  actingAt : Nat := 0
  noQuorum : Nat := 0
  grant : Nat := 0
  namedAt : Option Nat := none
  holder : Option Nat := none
  sent : List NetMsg := []
  msgs : Nat := 0
  deriving DecidableEq, Repr

/-- A module address beyond its registers (chapter 19): the record in effect (the words of CFG, BASE, EXP, EXP_SN), a commit
that waits, one that a live-change hold keeps back, the identity record last answered, and whether it must be identified
again before its next exchange (R406). -/
structure WflMod where
  rec_ : List Nat := [0, 0, 0, 0, 0]
  stage : Option (List Nat) := none
  held : Option (List Nat) := none
  ident : Option (List Byte) := none
  again : Bool := false
  deriving DecidableEq, Repr

/-- A request on a link: module address, command, request number, whether it is a probe; the bytes sent, and the PCLK cycles at
which its first start bit begins and its last stop bit ends. -/
structure WflReq where
  addr : Nat
  cmd : Nat
  seq : Nat
  probe : Bool
  frame : List Byte := []
  starts : Nat := 0
  ends : Nat := 0
  deriving DecidableEq, Repr

/-- One field link beyond its registers: modules, the next request number, the request under way, the addresses its cycle has
still to poll, the next address to probe, and, of a cycle in progress, its start in PCLK cycles. -/
structure WflLink where
  mods : List WflMod := List.replicate 16 {}
  seq : Nat := 0
  req : Option WflReq := none
  todo : List Nat := []
  probe : Nat := 0
  start : Option Nat := none
  deriving DecidableEq, Repr

/-- A force (R433). -/
structure SeForce where
  tag : Nat
  mask : Nat
  value : Nat
  word : Nat
  deriving DecidableEq, Repr

/-- The scan engine beyond its registers (chapter 20): forces in the order they were set, the first image word of an exchange
that waits and of one that a live-change hold keeps back, the cycle instant last run or skipped (R414, R416), the PCLK cycles
at which the last cycle ends and at which the last check of an image does, and the DIO levels that the last cycle's image phase
met (R32). -/
structure SeSt where
  forces : List SeForce := []
  next : Option Nat := none
  held : Option Nat := none
  had : Option Nat := none
  ends : Nat := 0
  checks : Nat := 0
  dio : List Bool := []
  deriving DecidableEq, Repr

/-- A pulse input (R533): its level, the level its filter holds, and the samples in a row that differ from it. -/
structure PulseIn where
  level : Bool := false
  taken : Bool := false
  run : Nat := 0
  deriving DecidableEq, Repr

/-- The AON domain beyond its registers (chapters 1, 18): the tick counter, H, the LFXO edges counted since VAULT-UP, the staged
value of a LOAD and whether one edge has passed since, the armed shift, a CLRHI that waits; whether CP access is locked out,
whether VBAT supplies the domain (R396), whether the domain holds state at all, and the pulse inputs (R533).
(DESIGN CHOICE, log entry 4) -/
structure AonSt where
  count : Nat := 0
  high : Nat := 0
  edges : Nat := 0
  load : Option Nat := none
  aged : Bool := false
  shift : Option Int := none
  clrhi : Bool := false
  locked : Bool := false
  onVbat : Bool := false
  lost : Bool := false
  pulses : List PulseIn := List.replicate 16 {}
  deriving DecidableEq, Repr

/-- An open waystation session (R369 to R372): its key slot, the rights granted (bits 0 CHANGE, 1 IMAGE, 2 METROLOGY, 3
COMMISSION, 4 SERVICE, 5 LIFECYCLE), the keys of both directions, the last SEQ accepted and sent, the records refused in a row,
and the tick of the last accepted record. -/
structure Session where
  slot : Nat
  rights : Nat
  keyIn : List Byte
  keyOut : List Byte
  seqIn : Nat := 0
  seqOut : Nat := 0
  bad : Nat := 0
  last : Nat := 0
  deriving DecidableEq, Repr

/-- A session that OPEN has begun (R370): the key slot, Hs, the node's ephemeral private key and the requester's
public key. -/
structure Handshake where
  slot : Nat
  hs : List Byte
  priv : Nat
  qr : List Byte
  deriving DecidableEq, Repr

/-- The waystation (R367 to R372): the session, a session that OPEN has begun, and the session timeout in seconds (a palette
field, R372). -/
structure WaySt where
  sess : Option Session := none
  hand : Option Handshake := none
  timeout : Nat := 300
  deriving DecidableEq, Repr

/-- The vault beyond its registers (chapter 22): its SRAM, whether the root's check value matches, the command in progress (the
words of its block) and whether a CPRST came meanwhile (R478), and the measurements of the boot ROM, the running firmware and the
applied palette image (R486; none: 32 zero bytes). -/
structure VltSt where
  sram : List Host.Cell := []
  root : Bool := false
  cmd : Option (List Nat) := none
  dropSram : Bool := false
  mRom : Option (List Byte) := none
  mFw : Option (List Byte) := none
  mPal : Option (List Byte) := none
  deriving DecidableEq, Repr

/-- A self-test run (R497): its target, its COUNT, whether it has started and whether it was cut short. -/
structure BistRun where
  kind : Nat
  index : Nat
  count : Nat
  running : Bool := false
  cut : Bool := false
  deriving DecidableEq, Repr

/-- Life cycle, self-test and replacement beyond their registers (chapter 23): how many of the three fuses of each state bit are
programmed (PROVISIONED, DEPLOYED, the two DECOMMISSIONED bits; R491), the words of the owner key hash as fused and as staged
(R492, R494), whether SERVICE lies over DEPLOYED and whether DEBUG_OPEN opened the debug port, the fused operation in progress,
the self-test, and the measurements in a row below 2.30 V and at or above 2.50 V (R507). (DESIGN CHOICE, log entry 1) -/
structure LcsSt where
  fuses : List Nat := [0, 0, 0, 0]
  owner : List Nat := List.replicate 8 0
  staged : List Nat := List.replicate 8 0
  service : Bool := false
  debug : Bool := false
  op : Option Nat := none
  bist : Option BistRun := none
  vbatLow : Nat := 0
  vbatHigh : Nat := 0
  deriving DecidableEq, Repr

/-- The control processor beyond its registers (chapter 6): whether customer firmware runs, whether a CPRST is in progress (from
its start to the hand-over), whether the hart is halted in debug mode; the sources claimed and not completed, and a DIO edge whose
request the gateway has still to forward (R112, R113); the LFXO edges since the watchdog's last unit; whether the machine timer
interrupt is pending (R106); the trap cause of the CP's last access fault and the sberror of the debugger's (R108); whether the
harts differed (R105); whether the hart is in machine mode, its hart number, and its PMP entries, configuration and address
(R104). (DESIGN CHOICE, log entry 1; DESIGN CHOICE, log entry 64) -/
structure CpSt where
  fw : Bool := false
  cprst : Bool := false
  halted : Bool := false
  claimed : List Nat := []
  dioReq : Bool := false
  wdtSub : Nat := 0
  mtip : Bool := false
  trap : Option Nat := none
  sberror : Nat := 0
  mismatch : Bool := false
  machine : Bool := true
  hartid : Nat := 0
  pmp : List (Nat × Nat) := List.replicate 16 (0, 0)
  deriving DecidableEq, Repr

/-- A grant that a handover or a recovery makes (R44 to R47, R57): `back` after a dead standby of a supervised handover,
`recovery` a recovery grant; whether it is supervised; the outgoing and the incoming feed; the cause; the checks since the
decision and since the grant; the checks in a row in regulation band, whether the handover is complete, and whether the incoming
feed has been in regulation. -/
structure Handover where
  back : Bool := false
  recovery : Bool := false
  sup : Bool := false
  out : Nat := 0
  inn : Nat := 0
  cause : Nat := 0
  since : Nat := 0
  granted : Option Nat := none
  band : Nat := 0
  complete : Bool := false
  inReg : Bool := false
  deriving DecidableEq, Repr

/-- The supply beyond its registers (chapter 3), counted in supervisor checks of 10 µs. Whether the rails are up; a brown stall,
the checks and the LFXO edge since its entry, whether the PLL relocks, the ticks missed and whether the loop engine has still to
resume (R52, R54). Per feed: checks in a row that meet R41 (up to 100), checks ineligible in a row, whether FEED_1H has come,
whether its path is closed, checks since it last held the token in regulation and whether it ever did (R55). The holder's checks
in a row below the undervoltage threshold; the feed whose controller converts (R40), the holder, checks left on the supervisor's
record of the lease and until a recovery grant may be made (R44), whether the holder has been in regulation, whether the three
rails were in band at the last check, the handover in progress (up to the check of R47), a supervised handover requested (R56);
checks in a row below the warning threshold and clear of it (R59); the length of the open hold window, the length at which it
closes, checks in a row towards the close of R47, and checks since the last window closed (R56). (DEDUCED, log entry 53) -/
structure PwrSt where
  on : Bool := false
  stall : Bool := false
  stallAt : Nat := 0
  stallEdge : Nat := 0
  relock : Bool := false
  missed : Nat := 0
  resume : Bool := false
  good : List Nat := [0, 0]
  bad : List Nat := [0, 0]
  fired : List Bool := [false, false]
  closed : List Bool := [false, false]
  age : List Nat := [0, 0]
  held : List Bool := [false, false]
  uv : Nat := 0
  conv : Nat := 0
  holder : Option Nat := none
  lease : Nat := 0
  guard : Nat := 0
  reg : Bool := false
  rails : Bool := false
  ho : Option Handover := none
  req : Bool := false
  low : Nat := 0
  clear : Nat := 0
  window : Nat := 0
  closeAt : Option Nat := none
  regAfter : Option Nat := none
  sinceHold : Nat := 100000
  deriving DecidableEq, Repr

/-- The cadence profiles beyond their registers (chapter 4): whether the clocks of SLEEP are in effect, the profile before
HOLDUP or SLEEP, the profile a pending request asks for, a wake source that fired, LE_TICK and the LFXO edge at entry to SLEEP,
and the edge of the last wake. -/
structure ProfSt where
  sleep : Bool := false
  prev : Nat := 0
  req : Nat := 0
  woke : Bool := false
  tickE : Nat := 0
  edgeE : Nat := 0
  lastEdge : Nat := 0
  deriving DecidableEq, Repr

/-- Resets that have been asked for and not yet taken effect: a SYSRST, whether it comes at once without a RESET save (R67), a
CPRST (R18, R22); whether a VAULT-UP came since the last POR (R23); and RESTART's response, by its number and the tick of its
request, which goes out before the SYSRST (R369). (DEDUCED, log entry 51) -/
structure RstSt where
  sys : Bool := false
  now : Bool := false
  cp : Bool := false
  vaultUp : Bool := false
  answer : Option (Nat × Nat) := none
  deriving DecidableEq, Repr

/-- The state of the machine. (DESIGN CHOICE, log entry 67) -/
structure State where
  /-- The registers, by CP address; an unlisted register holds its reset value. -/
  regs : List (Nat × Word) := []
  /-- The memories of R107, by CP address; the PM array stands at its window. -/
  mem : List Host.Cell := []
  /-- The words of the PM array that read with an ECC error, by window offset: true where it is uncorrectable (R438). -/
  ecc : List (Nat × Bool) := []
  /-- The flash devices: slot A at 0 (QSPI0), slot B at 2³² (QSPI1). -/
  flash : List Host.Cell := []
  /-- The word the last reading command returned. -/
  readback : Word := 0
  /-- How many open values have been taken (the model's own; log entry 3). -/
  free : Nat := 0
  rst : RstSt := {}
  boot : BootSt := {}
  live : LiveSt := {}
  pwr : PwrSt := {}
  prof : ProfSt := {}
  pm : PmSt := {}
  le : LeSt := {}
  tune : TuneSt := {}
  sa : SaSt := {}
  pt : PtSt := {}
  cp : CpSt := {}
  time : TimeSt := {}
  aon : AonSt := {}
  net : NetSt := {}
  rnd : RndSt := {}
  wfl : List WflLink := List.replicate 24 {}
  se : SeSt := {}
  way : WaySt := {}
  vlt : VltSt := {}
  lcs : LcsSt := {}
  ana : AnaSt := {}
  mh : MhSt := {}
  me : MeSt := {}
  tot : TotSt := {}
  /-- The commands that wait, first in, first out. -/
  pending : List Instr := []
  deriving DecidableEq, Repr

/-- The machine right after reset, no command taken. (DESIGN CHOICE, log entry 1) -/
def State.reset : State := { rst := { vaultUp := true } }

end Sys2Proof.Machine
end

