-- ==== Sys2Proof/Machine/Ops.lean ====
section
/-! DEFINITION. The named operations over registers and memory that every meaning is written with. -/

namespace Sys2Proof.Machine

/-- What a command answers. -/
abbrev Out := Host.Outcome State Fault Refusal

/-- The contents of the register at `a`. -/
def State.reg (s : State) (a : Nat) : Word := sparseGet regReset s.regs a

/-- The register at `a` set to `v`. -/
def State.setReg (s : State) (a : Nat) (v : Word) : State := { s with regs := sparseSet regReset s.regs a v }

/-- The mask of a field's bits. -/
def Field.mask (f : Field) : Word := BitVec.ofNat 32 ((2 ^ (f.hi + 1 - f.lo) - 1) * 2 ^ f.lo)

/-- The contents of a field. -/
def State.fld (s : State) (f : Field) : Nat := bits (s.reg f.addr).toNat f.hi f.lo

/-- The word with the bits of a field replaced by `v`. -/
def Field.put (f : Field) (w : Word) (v : Nat) : Word :=
  (w &&& ~~~ f.mask) ||| (BitVec.ofNat 32 (v * 2 ^ f.lo) &&& f.mask)

/-- A field set to `v`, the register's other bits kept. -/
def State.setFld (s : State) (f : Field) (v : Nat) : State := s.setReg f.addr (f.put (s.reg f.addr) v)

/-- A one-bit field as a flag. -/
def State.flag (s : State) (f : Field) : Bool := s.fld f == 1

/-- A one-bit field set or cleared. -/
def State.setFlag (s : State) (f : Field) (b : Bool) : State := s.setFld f (b2n b)

/-- One bit of a field set or cleared. -/
def State.setBit (s : State) (f : Field) (i : Nat) (b : Bool) : State := s.setFld f (putBit (s.fld f) i b)

/-- A count field incremented, stopping at its largest value. -/
def State.countUp (s : State) (f : Field) : State := s.setFld f (satInc (2 ^ (f.hi + 1 - f.lo) - 1) (s.fld f))

/-- A count field incremented modulo its width. -/
def State.countWrap (s : State) (f : Field) : State := s.setFld f (s.fld f + 1)

/-- A field of a written word. -/
def Field.of (f : Field) (v : Word) : Nat := bits v.toNat f.hi f.lo

/-- Two registers, low word first, as one 64-bit number. -/
def State.reg64 (s : State) (lo hi : Nat) : Nat := (s.reg lo).toNat + 2 ^ 32 * (s.reg hi).toNat

/-- Two registers set to a 64-bit number, low word first. -/
def State.setReg64 (s : State) (lo hi : Nat) (v : Nat) : State :=
  (s.setReg lo (BitVec.ofNat 32 v)).setReg hi (BitVec.ofNat 32 (v / 2 ^ 32))

/-- The registers whose address satisfies `p` return to their reset values. -/
def State.resetRegs (s : State) (p : Nat → Bool) : State := { s with regs := sparseClear p s.regs }

/-- One byte of memory. -/
def State.rd8 (s : State) (a : Nat) : Byte := sparseGet memDefault s.mem a

/-- One byte of memory written. -/
def State.wr8 (s : State) (a : Nat) (v : Byte) : State := { s with mem := sparseSet memDefault s.mem a v }

/-- `n` bytes of memory from `a` upwards. -/
def State.rdBytes (s : State) (a : Nat) : Nat → List Byte
  | 0 => []
  | n + 1 => s.rd8 a :: s.rdBytes (a + 1) n

/-- Bytes written from `a` upwards. -/
def State.wrBytes (s : State) (a : Nat) : List Byte → State
  | [] => s
  | b :: t => (s.wr8 a b).wrBytes (a + 1) t

/-- A little-endian number. -/
def ofBytes : List Byte → Nat
  | [] => 0
  | b :: t => b.toNat + 256 * ofBytes t

/-- The `n` bytes of a number, least significant first. -/
def toBytes : Nat → Nat → List Byte
  | 0, _ => []
  | n + 1, v => BitVec.ofNat 8 v :: toBytes n (v / 256)

/-- A big-endian number. -/
def ofBytesBE (l : List Byte) : Nat := ofBytes l.reverse

/-- The `n` bytes of a number, most significant first. -/
def toBytesBE (n v : Nat) : List Byte := (toBytes n v).reverse

/-- A 16-bit number in memory. -/
def State.rd16 (s : State) (a : Nat) : Nat := ofBytes (s.rdBytes a 2)
/-- A 32-bit number in memory. -/
def State.rd32 (s : State) (a : Nat) : Nat := ofBytes (s.rdBytes a 4)
/-- A 64-bit number in memory. -/
def State.rd64 (s : State) (a : Nat) : Nat := ofBytes (s.rdBytes a 8)
/-- A 16-bit number written. -/
def State.wr16 (s : State) (a v : Nat) : State := s.wrBytes a (toBytes 2 v)
/-- A 32-bit number written. -/
def State.wr32 (s : State) (a v : Nat) : State := s.wrBytes a (toBytes 4 v)
/-- A 64-bit number written. -/
def State.wr64 (s : State) (a v : Nat) : State := s.wrBytes a (toBytes 8 v)

/-- The bytes of memory whose address satisfies `p` return to what an unlisted byte reads as.
(DESIGN CHOICE, log entry 2) -/
def State.clearMem (s : State) (p : Nat → Bool) : State := { s with mem := sparseClear p s.mem }

/-- The next open value (log entry 3). (DESIGN CHOICE, log entry 3) -/
def State.freeValue (s : State) : Nat := Config.freeNat s.free
/-- One open value taken. (DESIGN CHOICE, log entry 3) -/
def State.takeFree (s : State) : State := { s with free := s.free + 1 }

/-- One step of the CRC-32 register, one bit. -/
def crc32Bit (c : Nat) : Nat := if c % 2 = 1 then (c / 2) ^^^ 0xEDB88320 else c / 2

/-- The CRC-32 register after one byte. -/
def crc32Byte (c : Nat) (b : Byte) : Nat :=
  crc32Bit (crc32Bit (crc32Bit (crc32Bit (crc32Bit (crc32Bit (crc32Bit (crc32Bit (c ^^^ b.toNat))))))))

/-- The CRC-32 of IEEE 802.3 over a string of bytes (R359). (PRESUMED, log entry 12) -/
def crc32 (l : List Byte) : Nat := (l.foldl crc32Byte 0xFFFFFFFF) ^^^ 0xFFFFFFFF

/-- The profile in effect (R67): 0 FULL, 1 BALANCED, 2 THRIFT, 3 HOLDUP, 4 SLEEP, 5 START. -/
def State.profile (s : State) : Nat := s.fld SYS_PROF_STAT.CUR
/-- The clocks of SLEEP are in effect (R68, R78). -/
def State.inSleep (s : State) : Bool := s.prof.sleep

/-- The accesses of the CP have no effect: it does not run in SLEEP (R104), and its harts may have differed (R105). -/
def State.cpStopped (s : State) : Bool := s.inSleep || s.cp.mismatch
/-- Customer firmware runs, and what it does has an effect (R102, R104, R105). -/
def State.fwRuns (s : State) : Bool := s.cp.fw && !s.cpStopped
/-- Wake source `i`, in the bit order of SYS_SLEEP_CFG, fires in SLEEP: its cause is recorded, and SLEEP is to end (R78, R79). -/
def State.wakeBy (s : State) (i : Nat) : State :=
  if !s.inSleep then s
  else
    let s := s.setBit SYS_WAKE_CAUSE.CAUSE i true
    { s with prof := { s.prof with woke := true } }
/-- The brown-stall column of R34 applies: from the entry into the stall until the LE resumes. -/
def State.stalled (s : State) : Bool := s.pwr.stall || s.pwr.resume
/-- The engine tick runs: not in SLEEP, nor from a brown stall's entry until the LE resumes (R52, R54, R68). -/
def State.ticks (s : State) : Bool := !s.stalled && !s.inSleep
/-- The start tick has passed. -/
def State.started (s : State) : Bool := s.boot.step == 10
/-- HOLDUP is in effect. -/
def State.inHoldup (s : State) : Bool := s.profile == 3
/-- A hold window is open (R49). -/
def State.inHold (s : State) : Bool := s.flag PWR_STAT.HOLD

/-- The bits of a field that are set in `v` set as well. -/
def State.orFld (s : State) (f : Field) (v : Nat) : State := s.setFld f (s.fld f ||| v)

/-- Network Time in units of 2⁻²⁴ s (R375). -/
def State.nt (s : State) : Nat := s.time.now / 2 ^ 48 % 2 ^ 64

/-- The number of whole periods of `ms` milliseconds in Network Time (R266, R379). -/
def State.ntIndex (s : State) (ms : Nat) : Nat := s.time.now * 1000 / (ms * 2 ^ 72)

/-- Network Time has just reached a whole multiple of `ms` milliseconds, above every value it reached before (R266, R378). -/
def State.ntReached (s : State) (ms : Nat) : Bool :=
  s.flag SYS_NT_STAT.VALID && decide (s.time.prevTop * 1000 < s.ntIndex ms * ms * 2 ^ 72)

/-- The AON tick count (R389). -/
def State.tickCount (s : State) : Nat := s.aon.count

/-- The functions `f 0`, …, `f (n-1)` applied one after another. -/
def forN {σ : Type} (f : Nat → σ → σ) : Nat → σ → σ
  | 0, s => s
  | n + 1, s => f n (forN f n s)

end Sys2Proof.Machine
end

