-- ==== Sys2Proof/Machine/Intc.lean ====
section
/-! DEFINITION. The interrupt controller's gateways: which sources request, and how a request becomes pending (R112, R113). Every
command's meaning ends with them. -/

namespace Sys2Proof.Machine

/-- The control processor's state set. -/
def State.setCp (s : State) (c : CpSt) : State := { s with cp := c }

/-- The CP takes an access fault into machine mode (R104, R108). (DESIGN CHOICE, log entry 64) -/
def State.trapTaken (s : State) (cause : Nat) : State := s.setCp { s.cp with trap := some cause, machine := true }

/-- Some bit of [hi:lo] of an event register is set with its enable. -/
def State.evtOn (s : State) (e i hi lo : Nat) : Bool := bits (s.reg e &&& s.reg i).toNat hi lo != 0

/-- Source `n` requests (R112, R113). (DESIGN CHOICE, log entry 39) -/
def State.srcLevel (s : State) (n : Nat) : Bool :=
  if n = 1 then s.evtOn SYS_PROF_EVT SYS_PROF_IEN 31 0
  else if n = 2 then s.flag SYS_WDT_STAT.PREWARN
  else if n = 3 then s.fld SYS_FW_STAT.COUNT != 0
  else if n = 4 then s.fld SYS_CP_STAT.CE_COUNT != 0
  else if n = 5 then s.evtOn PWR_EVT PWR_IEN 31 0
  else if 6 ≤ n ∧ n ≤ 8 then s.evtOn AON_EVT AON_IEN (n - 6) (n - 6)
  else if n = 9 then s.evtOn LE_EVT LE_IEN 7 0
  else if n = 10 then s.evtOn LE_EVT LE_IEN 15 8
  else if n = 11 then s.evtOn LE_EVT LE_IEN 16 16
  else if n = 12 then s.evtOn PG_EVT PG_IEN 31 0
  else if 13 ≤ n ∧ n ≤ 16 then s.evtOn (PD_EVT (n - 13)) (PD_IEN (n - 13)) 31 0
  else if n = 17 then s.evtOn TUNE_EVT TUNE_IEN 31 0
  else if 18 ≤ n ∧ n ≤ 21 then s.evtOn SA_EVT SA_IEN (n - 18) (n - 18)
  else if n = 22 then s.evtOn PT_EVT PT_IEN 31 0
  else if n = 23 then s.evtOn MH_EVT MH_IEN 31 0
  else if n = 24 ∨ n = 25 then s.evtOn (ME_P_EVT (n - 24)) (ME_P_IEN (n - 24)) 31 0
  else if 26 ≤ n ∧ n ≤ 41 then
    s.evtOn (CAN_EVT ((n - 26) / 2)) (CAN_IEN ((n - 26) / 2)) (4 * ((n - 26) % 2) + 3) (4 * ((n - 26) % 2))
  else if n = 42 ∨ n = 43 then s.evtOn (ETH_EVT (n - 42)) (ETH_IEN (n - 42)) 31 0
  else if n = 44 then s.flag (ETH_PTP_STAT.TSV 0) || s.flag (ETH_PTP_STAT.TSV 1)
  else if 45 ≤ n ∧ n ≤ 68 then s.evtOn (WFL_L_EVT (n - 45)) (WFL_L_IEN (n - 45)) 31 0
  else if n = 69 then s.evtOn SE_EVT SE_IEN 31 0
  else if n = 70 then s.evtOn PM_EVT PM_IEN 31 0
  else if n = 71 then s.flag VLT_EVT.DONE && s.flag VLT_IEN.DONE || s.flag VLT_EVT.TRNG && s.flag VLT_IEN.TRNG
  else if n = 72 then s.flag VLT_EVT.TAMPER && s.flag VLT_IEN.TAMPER
  else if n = 73 then s.evtOn LCS_EVT LCS_IEN 31 0
  else if n = 75 then s.cp.dioReq
  else false

/-- The pending bit of source `n`. -/
def State.intPending (s : State) (n : Nat) : Bool := bit (s.reg (INTC_PEND (n / 32))).toNat (n % 32)

/-- The gateway of source `n` forwards its request, if none of its is pending or claimed (R112).
(DESIGN CHOICE, log entry 39) -/
def State.gateway (s : State) (n : Nat) : State :=
  if s.srcLevel n && !s.intPending n && !s.cp.claimed.contains n then
    let s := s.setBit (INTC_PEND.BITS (n / 32)) (n % 32) true
    if n = 75 then s.setCp { s.cp with dioReq := false } else s
  else s

/-- Every gateway. (DESIGN CHOICE, log entry 39) -/
def State.intcLatch (s : State) : State := forN (fun n s => s.gateway n) 80 s

/-- The next state of a command: what its effect leaves, with every request forwarded. (DESIGN CHOICE, log entry 5) -/
def State.out (s : State) : Out := .next s.intcLatch

/-- A command that the CP gives: it has no effect while the CP's instructions have none outside it. -/
def State.cpDoes (s : State) (f : State → State) : Out := State.out <| if s.cpStopped then s else f s

end Sys2Proof.Machine
end

