-- ==== Sys2Proof/Machine/Nt.lean ====
section
/-! DEFINITION. Network Time (R375 to R383): its clock, validity, rate, steps and offsets. -/

namespace Sys2Proof.Machine

/-- Network Time changed. -/
def State.setTime (s : State) (t : TimeSt) : State := { s with time := t }

/-- The rate in use (R376). -/
def State.ntRate (s : State) : Int := clampInt (-549755814) 549755814 (signed 32 (s.reg SYS_NT_RATE).toNat)

/-- What NT gains in `n` PCLK cycles, in units of 2⁻⁷² s, rounded down (R376; log entry 37).
(DESIGN CHOICE, log entry 37) -/
def State.ntGain (s : State) (n : Nat) : Nat := n * 2 ^ 32 * ((2 ^ 40 + s.ntRate).toNat) / 10 ^ 8

/-- Network Time reaches a whole multiple of `ms` milliseconds during the present engine tick, at its start or later, or reached
it in it by a step or with time made up, above every value it reached before (R147, R378). (DEDUCED, log entry 27) -/
def State.ntReaches (s : State) (ms : Nat) : Bool :=
  let p := ms * 2 ^ 72
  let x := (s.time.now * 1000 + p - 1) / p * p
  s.flag SYS_NT_STAT.VALID
    && (decide (x < (s.time.now + s.ntGain 1000) * 1000 ∧ s.time.prevTop * 1000 < x) || s.time.jumped && s.ntReached ms)

/-- NT `n` PCLK cycles after the present engine tick, or before it, in units of 2⁻²⁴ s: what a capture takes. -/
def State.ntAt (s : State) (n : Int) : Nat :=
  let d : Int := if 0 ≤ n then s.ntGain n.toNat else -(s.ntGain (-n).toNat : Int)
  ((s.time.now + d) / 2 ^ 48 % 2 ^ 64).toNat

/-- The round period in ms (SYS_RND_CFG.PERIOD). -/
def State.roundMs (s : State) : Nat := max 1 (s.fld SYS_RND_CFG.PERIOD)
/-- The reference period in ms (SYS_NT_REF.PERIOD). -/
def State.refMs (s : State) : Nat := max 1 (s.fld SYS_NT_REF.PERIOD)

/-- SYS_RND_NEXT brought up to date: the MTIME value at the next round boundary, all ones without valid NT (R293). -/
def State.showRound (s : State) : State :=
  if !s.flag SYS_NT_STAT.VALID then s.setReg64 SYS_RND_NEXT_LO SYS_RND_NEXT_HI (2 ^ 64 - 1)
  else
    let left := (s.ntIndex s.roundMs + 1) * s.roundMs * 2 ^ 72 - s.time.now * 1000
    let us := left * 1000 * 2 ^ 40
    let per := 2 ^ 72 * (2 ^ 40 + s.ntRate).toNat
    s.setReg64 SYS_RND_NEXT_LO SYS_RND_NEXT_HI (s.time.mtime + (us + per - 1) / per)

/-- SYS_MTIMECMP. -/
def State.mtimecmp (s : State) : Nat := s.reg64 SYS_MTIMECMP_LO SYS_MTIMECMP_HI

/-- The machine timer interrupt is pending while SYS_MTIME is at or above SYS_MTIMECMP (R106).
(DESIGN CHOICE, log entry 39) -/
def State.timerLevel (s : State) : State := s.setCp { s.cp with mtip := decide (s.mtimecmp ≤ s.time.mtime) }

/-- The waits of R450 as PM_PART_STAT shows them, in units of 10 ms, rounded up (R459); those over are forgotten. -/
def State.showWaits (s : State) : State :=
  let left (w : Nat × Nat) : Nat := (w.2 - s.time.mtime + 9999) / 10000
  let t := s.pm.waits.foldl (fun t w => t.setFld (PM_PART_STAT.WAIT w.1) (left w)) s
  { t with pm := { s.pm with waits := s.pm.waits.filter fun w => left w != 0 } }

/-- SYS_MTIME set, with its registers (R106). -/
def State.setMtime (s : State) (m : Nat) : State :=
  ((s.setTime { s.time with mtime := m % 2 ^ 64 }).setReg64 SYS_MTIME_LO SYS_MTIME_HI (m % 2 ^ 64)).timerLevel.showWaits

/-- VALID set or cleared, with its mirror; a clock that becomes valid starts its record of the highest NT (R377, R378). -/
def State.setValid (s : State) (b : Bool) : State :=
  let was := s.flag SYS_NT_STAT.VALID
  let s := (s.setFlag SYS_NT_STAT.VALID b).setFlag SYS_COORD_STAT.NT_VALID b
  let s := s.setFlag LE_PB_STAT.NT_SYNC (b && s.flag LE_CTL.EN)
  let s := if b && !was then s.setTime { s.time with top := s.time.now, prevTop := s.time.now } else s
  s.showRound

/-- NT advanced by `d` units of 2⁻⁷² s; `jump` where that is not one engine tick. (DESIGN CHOICE, log entry 37) -/
def State.ntAdvance (s : State) (d : Nat) (jump : Bool) : State :=
  let now := (s.time.now + d) % 2 ^ 112
  s.setTime { s.time with now := now, prevTop := s.time.top, top := max s.time.top now, jumped := jump }

/-- A step of NT by a signed amount of 2⁻⁷² s (R378). -/
def State.ntStep (s : State) (off : Int) : State :=
  let now := ((s.time.now + off) % 2 ^ 112).toNat
  let s := s.setTime { s.time with now := now, prevTop := s.time.top, top := max s.time.top now, jumped := true }
  ({ s with net := { s.net with stepped := List.replicate 10 true } }).countUp SYS_NT_STAT.STEPS |>.showRound

/-- The firmware source is in use (SYS_NT_CFG.SRC = 9). -/
def State.ntFirmware (s : State) : Bool := s.fld SYS_NT_CFG.SRC == 9

/-- A write of SYS_NT_STEP_HI (R377, R378). -/
def State.ntStepWrite (s : State) (v : Word) : State :=
  if !s.ntFirmware then s
  else
    let s := s.ntStep (signed 64 ((s.reg SYS_NT_STEP_LO).toNat + 2 ^ 32 * v.toNat) * 2 ^ 48)
    s.setTime { s.time with lastAcc := s.le.tick }

/-- The rate set (R376). (DESIGN CHOICE, log entry 37) -/
def State.setRate (s : State) (r : Int) : State := (s.setReg SYS_NT_RATE (BitVec.ofInt 32 (clampInt (-549755814) 549755814 r))).showRound

/-- A write of SYS_NT_RATE (R376, R377). -/
def State.ntRateWrite (s : State) (v : Word) : State :=
  if !s.ntFirmware then s
  else
    let s := s.setRate (signed 32 v.toNat)
    s.setTime { s.time with lastAcc := s.le.tick, freq := s.ntRate }

/-- A write of SYS_NT_CTL: FW_VALID with the firmware source, then INVAL (R377). Holdover counts from it where it sets VALID.
(DESIGN CHOICE, log entry 37) -/
def State.ntCtlWrite (s : State) (v : Word) : State :=
  let s := if SYS_NT_CTL.FW_VALID.of v = 1 ∧ s.ntFirmware then
    (if s.flag SYS_NT_STAT.VALID then s else s.setTime { s.time with lastAcc := s.le.tick }).setValid true else s
  if SYS_NT_CTL.INVAL.of v = 1 then s.setValid false else s

/-- The holdover in ticks (SYS_NT_CFG.HOLD). -/
def State.holdTicks (s : State) : Nat := min 3600 (max 1 (s.fld SYS_NT_CFG.HOLD)) * 100000

/-- ±200 ppm in 2⁻⁴⁰ units (R382). (DESIGN CHOICE, log entry 37) -/
abbrev ppm200 : Int := 219902325
/-- ±300 ppm in 2⁻⁴⁰ units (R382). (DESIGN CHOICE, log entry 37) -/
abbrev ppm300 : Int := 329853488

/-- An accepted offset, in units of 2⁻⁷² s, from node `node` (R382). (DEDUCED, log entry 60) -/
def State.offsetAccept (s : State) (node : Nat) (off : Int) : State :=
  let lim : Int := (max 1 (s.fld SYS_NT_REF.STEP_LIM) * 2 ^ 72 / 100000 : Nat)
  let s :=
    if !s.flag SYS_NT_STAT.VALID || s.flag SYS_NT_STAT.COARSE || decide (lim < off) || decide (off < -lim) then
      ((s.ntStep off).setValid true).setFlag SYS_NT_STAT.COARSE false
    else
      let f := clampInt (-ppm200) ppm200 (s.time.freq + off * 1000 / (2 ^ 35 * s.refMs : Nat))
      (s.setTime { s.time with freq := f }).setRate (f + clampInt (-ppm300) ppm300 (off * 1000 / (2 ^ 32 * s.refMs : Nat)))
  let s := s.setTime { s.time with lastAcc := s.le.tick }
  let s := s.setFld SYS_NT_STAT.SOURCE node
  s.setReg SYS_NT_OFS (BitVec.ofInt 32 (clampInt (-2147483647) 2147483647 (off * 10 ^ 9 / 2 ^ 72)))

/-- A REF with sequence number `seq` from `node` on the time source's channel: an offset where it makes a pair with the one
before (R381). `tl` is the node's own NT at its SOF. (DEDUCED, log entry 60) -/
def State.refPair (s : State) (node seq : Nat) (ntv : Bool) (prev tl : Nat) : State :=
  let next := s.setTime { s.time with pair := some (node, seq, ntv, tl) }
  match s.time.pair with
  | none => next
  | some (n0, q0, v0, t0) =>
    if n0 = node ∧ seq = (q0 + 1) % 65536 ∧ ntv ∧ v0 ∧ prev ≠ 0 then
      let off := (prev : Int) * 2 ^ 48 + (s.fld SYS_NT_CFG.DLY * 2 ^ 72 / 10 ^ 9 : Nat) - (t0 : Int) * 2 ^ 48
      let t := s.offsetAccept node off
      -- a step moves the node's own capture as well
      let shift := (t.time.now : Int) - s.time.now
      t.setTime { t.time with pair := some (node, seq, ntv, ((tl : Int) + shift / 2 ^ 48).toNat % 2 ^ 64) }
    else next

/-- SYS_NT_STEP (R378): a write of SYS_NT_STEP_HI. -/
def execSysNtStep (v : Word) (s : State) : Out := s.cpDoes fun s => s.ntStepWrite v

/-- SYS_NT_RATE (R376). -/
def execSysNtRate (v : Word) (s : State) : Out := s.cpDoes fun s => s.ntRateWrite v

/-- FW_VALID (R377): a write of SYS_NT_CTL with FW_VALID = 1. -/
def execFwValid (v : Word) (s : State) : Out := s.cpDoes fun s => if SYS_NT_CTL.FW_VALID.of v = 1 then s.ntCtlWrite v else s

/-- INVAL (R377): a write of SYS_NT_CTL with INVAL = 1. -/
def execInval (v : Word) (s : State) : Out := s.cpDoes fun s => if SYS_NT_CTL.INVAL.of v = 1 then s.ntCtlWrite v else s

/-- HOLDOVER_EXPIRY (R377): VALID clears, and the rate is held at FREQ. -/
def execHoldoverExpiry (s : State) : Out :=
  State.out <|
    if s.flag SYS_NT_STAT.VALID ∧ s.time.lastAcc + s.holdTicks ≤ s.le.tick then
      (s.setValid false).setReg SYS_NT_RATE (BitVec.ofInt 32 s.time.freq)
    else s

/-- A write of ETH_PTP_TXLEN (R388, R399): the frame waits ahead of the port's entries, or the send is refused. -/
def State.ptpWrite (s : State) (k : Nat) (v : Word) : State :=
  let len := (ETH_PTP_TXLEN.LEN k).of v
  if (ETH_PTP_TXLEN.GO k).of v ≠ 1 ∨ s.flag (ETH_PTP_STAT.BUSY k) then s
  else if len < 60 ∨ 1514 < len then s.setFld (ETH_PTP_STAT.CODE k) 0x20
  else
    let s := (s.setFld (ETH_PTP_STAT.CODE k) 0).setFlag (ETH_PTP_STAT.BUSY k) true
    { s with net := { s.net with ptp := putAt s.net.ptp k (some ((s.reg (ETH_PTP_TX k)).toNat, len)) } }

/-- PTP_SEND (R388). -/
def execPtpSend (port : Fin 2) (v : Word) (s : State) : Out := s.cpDoes fun s => s.ptpWrite port v

/-- PTP_TIMESTAMP (R388): the SFD of the frame that left crosses the MDI `cycles` PCLK cycles after the present tick. -/
def execPtpTimestamp (port : Fin 2) (cycles : Nat) (s : State) : Out :=
  State.out <|
    if !s.flag (ETH_PTP_STAT.BUSY port) || (nth s.net.ptp port none).isSome then s else
    let lat := s.fld (ETH_PTP_LAT.TX port) * 2 ^ 24 / 10 ^ 9
    let s := { s with net := { s.net with
      ptpTs := putAt s.net.ptpTs port ((s.ntAt cycles + lat) % 2 ^ 64) } }
    (s.setFlag (ETH_PTP_STAT.TSV port) true).setFlag (ETH_PTP_STAT.BUSY port) false

end Sys2Proof.Machine
end

