-- ==== Sys2Proof/Machine/Aon.lean ====
section
/-! DEFINITION. The AON tick counter, its alarms and pulse counters, and the switch to VBAT (R389 to R397, R533). -/

namespace Sys2Proof.Machine

/-- The AON domain changed. -/
def State.setAon (s : State) (a : AonSt) : State := { s with aon := a }

/-- The value of alarm `n`. -/
def State.almVal (s : State) (n : Nat) : Nat := s.reg64 (AON_ALM_VAL0 n) (AON_ALM_VAL1 n) % 2 ^ 48

/-- The byte lanes below lane `i` of `c` and the alarm value agree where selected (R393). -/
def lanesAgree (mask val c : Nat) : Nat → Bool
  | 0 => true
  | i + 1 => (!bit mask i || c / 256 ^ i % 256 == val / 256 ^ i % 256) && lanesAgree mask val c i

/-- Alarm `n` matches a count (R393). -/
def State.almMatches (s : State) (n c : Nat) : Bool :=
  s.flag (AON_ALM_CFG.EN n) && s.fld (AON_ALM_CFG.MASK n) != 0 && lanesAgree (s.fld (AON_ALM_CFG.MASK n)) (s.almVal n) c 6

/-- The smallest count of lanes 0 to i−1 that agrees with the alarm value, and is at least those lanes of `lo` when `tight`.
(DEDUCED, log entry 61) -/
def leastMatch (mask val lo : Nat) : Nat → Bool → Option Nat
  | 0, _ => some 0
  | i + 1, tight =>
    let l := if tight then lo / 256 ^ i % 256 else 0
    let low := leastMatch mask val lo i
    let free (b : Nat) := (low false).map (b * 256 ^ i + ·)
    if bit mask i then
      let v := val / 256 ^ i % 256
      if v < l then none else if l < v ∨ !tight then free v else (low true).map (v * 256 ^ i + ·)
    else
      match low tight with
      | some x => some (l * 256 ^ i + x)
      | none => if l < 255 then free (l + 1) else none

/-- Whether the move of the count from `a` to `b`, H being `h`, fires alarm `n`, and with which code (R394). At the wrap H is 0
and an alarm that matches 0 fires, as the rule says in words. (DEDUCED, log entry 61) -/
def State.almFires (s : State) (n h a b : Nat) : Option Nat :=
  if s.almMatches n b ∧ (h < b ∨ (a + 1 = 2 ^ 48 ∧ h = 0 ∧ b = 0)) then some Code.ok
  else if a + 1 < b ∧ h + 1 < b ∧ s.flag (AON_ALM_CFG.EN n) ∧ s.fld (AON_ALM_CFG.MASK n) ≠ 0
      ∧ (leastMatch (s.fld (AON_ALM_CFG.MASK n)) (s.almVal n) (max (a + 2) (h + 1)) 6 true).any (fun c => decide (c < b)) then
    some Code.skipped
  else none

/-- Alarm `n` fires (R393); an enabled one wakes the node (R79). -/
def State.almFire (s : State) (n code : Nat) : State :=
  let s := ((s.setFld (AON_ALM_CFG.CODE n) code).setFlag (AON_ALM_CFG.FIRED n) true).setBit ⟨AON_EVT, 2, 0⟩ n true
  if s.flag SYS_SLEEP_CFG.ALM then s.wakeBy 0 else s

/-- H as its registers show it. -/
def State.setHigh (s : State) (h : Nat) : State := (s.setAon { s.aon with high := h }).setReg64 AON_HIGH0 AON_HIGH1 h

/-- The count moves from `a` to `b`; `h` is H before the tests, 0 where it wraps: the alarms, then H (R394).
(DEDUCED, log entry 61) -/
def State.countMove (s : State) (h a b : Nat) : State :=
  let s := s.setAon { s.aon with count := b }
  let f0 := s.almFires 0 h a b
  let f1 := s.almFires 1 h a b
  let s := match f0 with
    | some c => s.almFire 0 c
    | none => s
  let s := match f1 with
    | some c => s.almFire 1 c
    | none => s
  s.setHigh (max h b)

/-- The AON domain holds state and counts. -/
def State.aonRuns (s : State) : Bool := !s.aon.lost

/-- The next edge is a second boundary: bits [14:0] roll over (R391). -/
def State.atSecond (s : State) : Bool := s.aon.count % 32768 == 32767

/-- Whether a LOAD acts at this edge: `early` lets it act at the first edge after the write, and it acts at the second
(R390). -/
def State.loadActs (s : State) (early : Bool) : Bool := s.aon.load.isSome && (early || s.aon.aged)

/-- One LFXO edge of the tick counter (R389 to R395). A shift at the second boundary of the highest count is no wrap unless it
gives 0
(R394). (DEDUCED, log entry 61) -/
def State.countEdge (s : State) (early : Bool) : State :=
  if !s.aonRuns then s else
  let a := s.aon.count
  let s := s.setAon { s.aon with edges := s.aon.edges + 1 }
  let acts := s.loadActs early
  let s :=
    if acts then
      let b := s.aon.load.getD 0
      let t := (s.setAon { s.aon with load := none, aged := false }).setFlag AON_STAT.LOAD_PEND false
      t.countMove t.aon.high a b
    else
      let k := if s.atSecond then s.aon.shift else none
      let s := if k.isSome then (s.setAon { s.aon with shift := none }).setFlag AON_STAT.SHIFT_PEND false else s
      let b := (((a : Int) + 1 + k.getD 0) % 2 ^ 48).toNat
      s.countMove (if a + 1 = 2 ^ 48 ∧ b = 0 then 0 else s.aon.high) a b
  let s := if s.aon.clrhi then (s.setHigh s.aon.count).setAon { (s.setHigh s.aon.count).aon with clrhi := false } else s
  if acts then s else s.setAon { s.aon with aged := s.aon.load.isSome }

/-- One LFXO edge of the watchdog: it counts down in units of 32 edges, but not in SLEEP and not while the hart is halted with
DBG_PAUSE (R115). (DESIGN CHOICE, log entry 4) -/
def State.wdtEdge (s : State) : State :=
  if !s.flag SYS_WDT_CFG.EN || s.inSleep || (s.cp.halted && s.flag SYS_WDT_CFG.DBG_PAUSE) then s
  else if s.cp.wdtSub + 1 < 32 then { s with cp := { s.cp with wdtSub := s.cp.wdtSub + 1 } }
  else
    let s : State := { s with cp := { s.cp with wdtSub := 0 } }
    s.setFld SYS_WDT_STAT.REMAIN (s.fld SYS_WDT_STAT.REMAIN - 1)

/-- SYS_MTIME in SLEEP with the HFXO running goes on at 1 MHz, here by the microseconds of one LFXO edge (R106).
(DESIGN CHOICE, log entry 54) -/
def State.mtimeEdge (s : State) : State :=
  let us (n : Nat) : Nat := n * 15625 / 512
  if s.inSleep && s.flag SYS_CLK_STAT.HFXO_ON then s.setMtime (s.time.mtime + (us s.aon.edges - us (s.aon.edges - 1))) else s

/-- Pulse input `n`. -/
def State.pulseIn (s : State) (n : Nat) : PulseIn := nth s.aon.pulses n {}

/-- The filter takes the input's level at a sample (R533): it read that level at `filt` samples in a row. -/
def PulseIn.takes (p : PulseIn) (filt : Nat) : Bool := p.level != p.taken && decide (filt ≤ p.run + 1)

/-- The filter of input `n` takes the input's level (R533): a count where an enabled channel's EDGE selects the edge before it. -/
def State.pulseTake (s : State) (n : Nat) : State :=
  let p := s.pulseIn n
  let s := s.setAon { s.aon with pulses := putAt s.aon.pulses n { p with taken := p.level, run := 0 } }
  if s.flag (AON_PLS_CFG.EN n) && p.level != p.taken && p.level == s.flag (AON_PLS_CFG.EDGE n) then s.countWrap (AON_PLS_CNT.COUNT n)
  else s

/-- Input `n` sampled at an LFXO edge (R533); with FILT = 0 nothing is sampled. -/
def State.pulseSample (s : State) (n : Nat) : State :=
  let p := s.pulseIn n
  let filt := s.fld (AON_PLS_CFG.FILT n)
  if filt = 0 then s
  else if p.takes filt then s.pulseTake n
  else s.setAon { s.aon with pulses := putAt s.aon.pulses n { p with run := if p.level = p.taken then 0 else p.run + 1 } }

/-- One LFXO edge. (DESIGN CHOICE, log entry 4) -/
def State.aonEdge (s : State) (early : Bool) : State :=
  let s := if s.aonRuns then forN (fun n s => s.pulseSample n) 16 s else s
  ((s.countEdge early).wdtEdge).mtimeEdge

/-- An armed shift discarded (R392). -/
def State.shiftLost (s : State) : State :=
  ((s.setAon { s.aon with shift := none }).setFlag AON_STAT.SHIFT_PEND false).setFlag AON_STAT.SHIFT_LOST true
    |>.setFlag AON_EVT.SHIFT_LOST true

/-- The staged count (R390). -/
def State.staged (s : State) : Nat :=
  s.fld AON_SET0.VALUE + 2 ^ 16 * s.fld AON_SET1.VALUE + 2 ^ 32 * s.fld AON_SET2.VALUE

/-- A write of AON_CTL (R390, R392, R395). -/
def State.aonCtlWrite (s : State) (v : Word) : State :=
  let s := if AON_CTL.CLRHI.of v = 1 then s.setAon { s.aon with clrhi := true } else s
  if AON_CTL.LOAD.of v ≠ 1 ∨ s.aon.load.isSome then s
  else
    let s := (s.setAon { s.aon with load := some s.staged, aged := false }).setFlag AON_STAT.LOAD_PEND true
    if s.aon.shift.isSome then s.shiftLost else s

/-- A write of AON_SHIFT (R391, R392). -/
def State.aonShiftWrite (s : State) (v : Word) : State :=
  let s := s.setFld AON_SHIFT.K (AON_SHIFT.K.of v)
  if s.aon.load.isSome then s.shiftLost
  else (s.setAon { s.aon with shift := some (signed 16 v.toNat) }).setFlag AON_STAT.SHIFT_PEND true

/-- A write of an AON register, which faults during the lockout (R108, R396). -/
def State.aonWrite (s : State) (f : State → State) : State := if s.aon.locked then s.trapTaken 7 else f s

/-- LOAD (R390): a write of AON_CTL with LOAD = 1. -/
def execLoad (v : Word) (s : State) : Out :=
  s.cpDoes fun s => if AON_CTL.LOAD.of v = 1 then s.aonWrite fun s => s.aonCtlWrite v else s

/-- LOAD_EFFECT (R390): the LFXO edge at which a pending LOAD acts, the first after the write. (DEDUCED, log entry 61) -/
def execLoadEffect (s : State) : Out := State.out <| if s.aon.load.isSome then s.aonEdge true else s

/-- AON_SHIFT (R391). -/
def execAonShift (v : Word) (s : State) : Out := s.cpDoes fun s => s.aonWrite fun s => s.aonShiftWrite v

/-- SECOND_BOUNDARY (R391): the LFXO edge of a second boundary. -/
def execSecondBoundary (s : State) : Out := State.out <| if s.atSecond && !s.loadActs false then s.aonEdge false else s

/-- H as the tests of an edge that gives the count `b` find it: 0 at the wrap (R394). -/
def State.edgeHigh (s : State) (early : Bool) (b : Nat) : Nat :=
  if s.aon.count + 1 = 2 ^ 48 ∧ b = 0 ∧ !s.loadActs early then 0 else s.aon.high

/-- ALARM (R394): the LFXO edge at which alarm `n` fires. -/
def execAlarm (n : Fin 2) (s : State) : Out :=
  State.out <|
    let t := s.aonEdge false
    if (s.almFires n (s.edgeHigh false t.aon.count) s.aon.count t.aon.count).isSome then t else s

/-- TICK_COUNTER_WRAP (R394): the LFXO edge at which the count goes from 2⁴⁸ − 1 to 0. (DEDUCED, log entry 61) -/
def execTickCounterWrap (s : State) : Out :=
  State.out <| if s.aon.count + 1 = 2 ^ 48 ∧ !s.loadActs false then s.aonEdge false else s

/-- CLRHI (R395): a write of AON_CTL with CLRHI = 1. -/
def execClrhi (v : Word) (s : State) : Out :=
  s.cpDoes fun s => if AON_CTL.CLRHI.of v = 1 then s.aonWrite fun s => s.aonCtlWrite v else s

/-- LOCKOUT (R396): VDD33 falls below 3.00 V. -/
def execLockout (s : State) : Out := State.out <| s.setAon { s.aon with locked := true }

/-- VBAT_SWITCH (R396): the AON supply switches to VBAT. -/
def execVbatSwitch (s : State) : Out := State.out <| if s.aon.locked then s.setAon { s.aon with onVbat := true } else s

/-- LOCKOUT_LIFT (R396): 1 ms after the main rails are good; the supply has switched back. -/
def execLockoutLift (s : State) : Out := State.out <| s.setAon { s.aon with locked := false, onVbat := false }

/-- PULSE_COUNT (R79, R533): an input is at a level; a change of it is an edge, which wakes the node where that is enabled. With
FILT = 0 the edge is counted at once; else, where the next sample completes FILT samples of that level, the LFXO edge passes that
takes it. (DESIGN CHOICE, log entry 4) -/
def execPulseCount (x : PulseLevel) (s : State) : Out :=
  State.out <|
    let n := x.input.val
    let p := s.pulseIn n
    let s := if s.flag SYS_SLEEP_CFG.PLS && p.level != x.level then s.wakeBy 1 else s
    if !s.aonRuns then s
    else
      let s := s.setAon { s.aon with pulses := putAt s.aon.pulses n { p with level := x.level } }
      let filt := s.fld (AON_PLS_CFG.FILT n)
      if filt = 0 then s.pulseTake n
      else if (s.pulseIn n).takes filt then s.aonEdge false
      else s

end Sys2Proof.Machine
end

