-- ==== Sys2Proof/Machine/Analog.lean ====
section
/-! DEFINITION. What the converters deliver for a level at their inputs (R531). -/

namespace Sys2Proof.Machine

/-- The result of an analogue input in V or mA, binary64 (R531): its level taken to the nearest multiple of a 65,536th of the
span of
10 V or 16 mA. Levels beyond the span convert too, as the limits of R299 need. (DESIGN CHOICE, log entry 26) -/
def aiResult (current : Bool) (level : Int) : Nat :=
  if current then fofScaled b64 (16 * rneDiv (level * 65536) 16000000) (-16)
  else fofScaled b64 (10 * rneDiv (level * 65536) 10000000000) (-16)

/-- The code of a phase-current input at a level in nV (R531). (DESIGN CHOICE, log entry 26) -/
def phaseCode (level : Int) : Int := clampInt (-32768) 32767 (rneDiv ((level - 900000000) * 32768) 900000000)

end Sys2Proof.Machine
end

