-- ==== Sys2Proof/Machine/PmOps.lean ====
section
/-! DEFINITION. Operations on the parameter memory array that several blocks share: words and records (R437), spread
counters (R456, R457), and the replacement-request word with its health record (R507, R508). -/

namespace Sys2Proof.Machine

/-- The CP address of PM window offset `off` (R107); the window has 512 KiB. -/
def pmAddr (off : Nat) : Nat := 0x38000000 + off % 0x80000

/-- The offset of the 8-byte word of the array that holds window offset `off`. -/
def pmWordAt (off : Nat) : Nat := off / 8 * 8

/-- The 8-byte word of the array at window offset `off`. -/
def State.pmWord (s : State) (off : Nat) : Nat := s.rd64 (pmAddr (pmWordAt off))

/-- The word at window offset `off` has an uncorrectable error (R438). -/
def State.pmBad (s : State) (off : Nat) : Bool := s.ecc.contains (off, true)

/-- No word among the `n` bytes from window offset `off` has an uncorrectable error: a device reader takes one that has as failing
the check of its record (R438). -/
def State.pmSound (s : State) (off n : Nat) : Bool :=
  s.ecc.all fun x => !x.2 || decide (x.1 + 8 ≤ off) || decide (off + n ≤ x.1)

/-- The words among the `n` bytes from `off` whose read is corrected. -/
def State.pmSoft (s : State) (off n : Nat) : Nat :=
  (s.ecc.filter fun x => !x.2 && decide (off ≤ x.1) && decide (x.1 < off + n)).length

/-- `n` reads corrected (R438, R440). -/
def State.ceCount (s : State) (n : Nat) : State :=
  if n = 0 then s
  else { s.setFld PM_ECC.CE (min 0xFFFF (s.fld PM_ECC.CE + n)) with pm := { s.pm with ceNow := s.pm.ceNow + n } }

/-- The word at window offset `off` is not `v` as a device reads it: a word with an uncorrectable error is none (R438, R444). -/
def State.pmDiffers (s : State) (off v : Nat) : Bool := s.pmBad off || s.pmWord off != v

/-- The words of `l` that differ from the array, and so have to be programmed (R444). -/
def State.pmToProgram (s : State) (l : List (Nat × Nat)) : List (Nat × Nat) := l.filter fun w => s.pmDiffers w.1 w.2

/-- A word programmed whole, with its ECC bits (R437). -/
def State.pmProgram (s : State) (off v : Nat) : State :=
  { s.wr64 (pmAddr (pmWordAt off)) v with ecc := s.ecc.filter fun x => x.1 != off }

/-- Words programmed one after another. -/
def State.pmProgramAll (s : State) : List (Nat × Nat) → State
  | [] => s
  | (off, v) :: t => (s.pmProgram off v).pmProgramAll t

/-- Bytes as the 8-byte words they fill, from window offset `off`. -/
def wordsOf (off : Nat) : Nat → List Byte → List (Nat × Nat)
  | 0, _ => []
  | n + 1, l => (off, ofBytes (l.take 8)) :: wordsOf (off + 8) n (l.drop 8)

/-- `n` bytes of the array from window offset `off`. -/
def State.pmBytes (s : State) (off n : Nat) : List Byte := s.rdBytes (pmAddr off) n

/-- Bytes of whole words programmed from window offset `off`. -/
def State.pmWrite (s : State) (off : Nat) (l : List Byte) : State :=
  { s.wrBytes (pmAddr off) l with ecc := s.ecc.filter fun x => decide (x.1 < off) || decide (off + l.length ≤ x.1) }

/-- A sealed commit holds the array (R445): it is past its wait and has not ended. -/
def State.sealing (s : State) : Bool :=
  match s.mh.sealing with
  | some c => !c.waiting
  | none => false

/-- A writer of claim `c` of R445 waits: for a totals save, for a sealed commit before it, or for the end of a brown stall
(R446). -/
def State.pmBlocked (s : State) (c : Nat) : Bool := s.pwr.stall || s.tot.save.isSome || (decide (2 < c) && s.sealing)

/-- PM_STAT.HELD (R445, R459): a totals save or a sealed commit holds the array. (DESIGN CHOICE, log entry 15) -/
def State.showHeld (s : State) : State := s.setFlag PM_STAT.HELD (s.tot.save.isSome || s.sealing)

/-- A word of claim `c` programmed, at once or when the array is free (R445). -/
def State.pmLater (s : State) (c off v : Nat) : State :=
  if s.pmBlocked c then { s with pm := { s.pm with later := s.pm.later ++ [(c, off, v)] } } else s.pmProgram off v

/-- The word at window offset `off` as its last writer has it, whether programmed yet or not. -/
def State.pmSeen (s : State) (off : Nat) : Nat :=
  match s.pm.later.reverse.find? fun x => x.2.1 == off with
  | some x => x.2.2
  | none => s.pmWord off

/-- The window offset of cell `j` of spread counter `k` (R456). -/
def scCell (k j : Nat) : Nat := 0x1000 + 0x80 * k + 8 * j

/-- The value of a cell, if its complement matches (R456). -/
def scValid (w : Nat) : Option Nat :=
  if w / 2 ^ 32 = 2 ^ 32 - 1 - w % 2 ^ 32 then some (w % 2 ^ 32) else none

/-- The value of cell `j` of spread counter `k`, if its ECC is good and its complement matches (R456). -/
def State.scCellValue (s : State) (k j : Nat) : Option Nat :=
  if s.pmBad (scCell k j) then none else scValid (s.pmWord (scCell k j))

/-- The cell among the first `n` that holds the largest valid value, with that value. -/
def State.scBest (s : State) (k : Nat) : Nat → Option (Nat × Nat)
  | 0 => none
  | n + 1 =>
    match s.scCellValue k n, s.scBest k n with
    | none, b => b
    | some v, none => some (n, v)
    | some v, some (j, w) => if w < v then some (n, v) else some (j, w)

/-- The value of spread counter `k`: the largest of its valid cells, 0xFFFF_FFFF with none (R456). -/
def State.scValue (s : State) (k : Nat) : Nat :=
  match s.scBest k 16 with
  | some (_, v) => v
  | none => 0xFFFFFFFF

/-- An increment refused or done (R456, R457): REFUSED_STATE with no valid cell, RANGE at the end. -/
inductive ScResult where
  | done | noCell | atEnd
  deriving DecidableEq, Repr

/-- What an increment of counter `k` would give. -/
def State.scCheck (s : State) (k : Nat) : ScResult :=
  match s.scBest k 16 with
  | none => .noCell
  | some (_, v) => if v = 0xFFFFFFFF then .atEnd else .done

/-- The word shown in PM_SC_VAL and PM_SC_BAD brought up to date with the cells of counter `k` (R456). -/
def State.scShow (s : State) (k : Nat) : State :=
  (s.setReg (PM_SC_VAL k) (BitVec.ofNat 32 (s.scValue k))).setReg PM_SC_BAD
    (BitVec.ofNat 32 (putBit (s.reg PM_SC_BAD).toNat k (s.scBest k 16).isNone))

/-- PM_SC_VAL and PM_SC_BAD take what the PM holds (R2). -/
def State.scShowAll (s : State) : State := forN (fun k s => s.scShow k) 32 s

/-- LCS_CAUSE bit `b` set or cleared (R507): a change sets its SEEN bit and LCS_EVT.CAUSE, and a change from 0 to 1
records the tick count in word 1 + b of the health record, PM page 40 (R508). -/
def State.setCause (s : State) (b : Nat) (v : Bool) : State :=
  let w := (s.reg LCS_CAUSE).toNat
  if bit w b = v || (v && s.fld LCS_STAT.STATE == 4) then s else
  let s := s.setReg LCS_CAUSE (BitVec.ofNat 32 (putBit w b v))
  let s := s.setReg LCS_CAUSE_SEEN (BitVec.ofNat 32 (putBit (s.reg LCS_CAUSE_SEEN).toNat b true))
  let s := s.setFlag LCS_EVT.CAUSE true
  if v then
    let t := s.tickCount % 2 ^ 48
    (s.pmLater 4 (0x2800 + 8 * (1 + b)) t).setReg64 (LCS_CAUSE_TICK_LO b) (LCS_CAUSE_TICK_HI b) t
  else s

/-- REPLACE_N is driven low while any cause bit is 1, but not in DECOMMISSIONED (R508). -/
def State.replaceN (s : State) : Bool := s.reg LCS_CAUSE == 0 || s.fld LCS_STAT.STATE == 4

/-- The COUNTER cause of R507: a counter at or above 4,252,017,622, or without a valid cell. -/
def State.counterCause (s : State) (k : Nat) : State :=
  if 4252017622 ≤ s.scValue k then s.setCause 5 true else s

/-- One increment of spread counter `k` (R457): the cell after the one that holds v takes v + 1. -/
def State.scIncrement (s : State) (k : Nat) : State :=
  match s.scBest k 16 with
  | none => s
  | some (j, v) =>
    if v = 0xFFFFFFFF then s
    else ((s.pmProgram (scCell k ((j + 1) % 16)) (v + 1 + 2 ^ 32 * (2 ^ 32 - 2 - v))).scShow k).counterCause k

end Sys2Proof.Machine
end

