-- ==== Sys2Proof/Machine/Ledger.lean ====
section
/-! DEFINITION. The metrology ledger (R306, R309 to R311): a ring of 4,096 entries of 32 bytes in the sealed partition,
booked by spread counter 2. -/

namespace Sys2Proof.Machine

/-- Network Time, 0 without valid Network Time (R311). -/
def State.ntBooked (s : State) : Nat := if s.flag SYS_NT_STAT.VALID then s.nt else 0

/-- The window offset of ledger entry `e` (14, "Sealed commits"). -/
def ledgerAt (e : Nat) : Nat := 0x20000 + 32 * (e % 4096)

/-- The four words of an entry with number `no`, booked by ledger counter value `commit` (R311). -/
def State.ledgerWords (s : State) (no commit : Nat) (e : LedgerEntry) : List (Nat × Nat) :=
  let a := ledgerAt no
  [(a, no % 2 ^ 32 + 2 ^ 32 * (commit % 2 ^ 32)),
   (a + 8, e.type + 2 ^ 8 * e.block + 2 ^ 16 * e.inst + 2 ^ 24 * e.slot + 2 ^ 32 * (e.field % 2 ^ 16)),
   (a + 16, e.before % 2 ^ 32 + 2 ^ 32 * (e.after % 2 ^ 32)),
   (a + 24, s.ntBooked)]

/-- Unacknowledged entries in the ledger. -/
def State.ledgerHeld (s : State) : Nat := s.fld MH_LEDGER_HELD.COUNT

/-- `n` more entries stand in the ledger: NEXT and HELD move on, and the ledger may become full (R310). -/
def State.ledgerGrow (s : State) (n : Nat) : State :=
  let held := s.ledgerHeld + n
  let s := (s.setFld MH_LEDGER_NEXT.ENTRY_NO (s.fld MH_LEDGER_NEXT.ENTRY_NO + n)).setFld MH_LEDGER_HELD.COUNT held
  if 4096 ≤ held then (s.setFlag MH_STAT.FULL true).setFlag MH_EVT.FULL true else s

/-- One entry written and the ledger counter incremented (R309). -/
def State.ledgerWrite (s : State) (e : LedgerEntry) : State :=
  let s := s.pmProgramAll (s.ledgerWords (s.fld MH_LEDGER_NEXT.ENTRY_NO) (s.scValue 2 + 1) e)
  if s.scCheck 2 = .done then (s.scIncrement 2).ledgerGrow 1 else s

/-- After LOST events, one LOST entry that carries their count, where there is room (R309). -/
def State.bookLost (s : State) : State :=
  if 0 < s.fld MH_LEDGER_HELD.LOST ∧ s.ledgerHeld < 4096 then
    (s.ledgerWrite { type := 7, block := 0x08, inst := 0, after := s.fld MH_LEDGER_HELD.LOST }).setFld MH_LEDGER_HELD.LOST 0
  else s

/-- An event booked, or counted in LOST when the ledger is full; after LOST events a LOST entry goes first (R309). -/
def State.bookNow (s : State) (e : LedgerEntry) : State :=
  let s := s.bookLost
  if s.ledgerHeld < 4096 then s.ledgerWrite e else s.countUp MH_LEDGER_HELD.LOST

/-- An event booked, or put after the save or sealed commit that holds the array (R309, R445). -/
def State.bookEvent (s : State) (e : LedgerEntry) : State :=
  if s.pmBlocked 3 then { s with mh := { s.mh with deferred := s.mh.deferred ++ [.event e] } } else s.bookNow e

/-- An increment of a firmware counter carried out, with its code (R456 to R458). -/
def State.scServe (s : State) (k : Nat) : State :=
  let s : State := { s.setFlag PM_SC_STAT.BUSY false with pm := { s.pm with sc := none } }
  match s.scCheck k with
  | .noCell => s.setFld PM_SC_STAT.CODE 0x12
  | .atEnd => s.setFld PM_SC_STAT.CODE 0x21
  | .done => (s.scIncrement k).setFld PM_SC_STAT.CODE 0

/-- The words of claim `c` that wait are programmed in order of request. -/
def State.laterServe (s : State) (c : Nat) : State :=
  let l := s.pm.later
  let s : State := { s with pm := { s.pm with later := l.filter fun x => x.1 != c } }
  (l.filter fun x => x.1 == c).foldl (fun s x => s.pmProgram x.2.1 x.2.2) s

/-- A booking that waited, carried out (R309, R310). -/
def State.bookWaiting (s : State) : Booking → State
  | .event e => s.bookNow e
  | .ack w => s.pmProgram 0x8808 w

/-- The bookings that wait are carried out in order of request (R309, R310, R445). -/
def State.deferredBook (s : State) : State :=
  let l := s.mh.deferred
  l.foldl State.bookWaiting { s with mh := { s.mh with deferred := [] } }

/-- The array is free for writers that wait: they follow in order of claim (R445), a run mark also during a sealed commit.
(DESIGN CHOICE, log entry 15) -/
def State.pmServe (s : State) : State :=
  let s := s.showHeld
  if s.pmBlocked 1 then s
  else
    let s := s.laterServe 1
    if s.pmBlocked 3 then s
    else
      let s := s.deferredBook.laterServe 4
      match s.pm.sc with
      | some k => s.scServe k
      | none => s

/-- Entries acknowledged up to and including entry `v`: the acknowledgement word holds the number of the oldest
unacknowledged entry and its complement (R310). -/
def State.ledgerAck (s : State) (v : Nat) : State :=
  let next := s.fld MH_LEDGER_NEXT.ENTRY_NO
  let oldest := (next + 2 ^ 32 - s.ledgerHeld) % 2 ^ 32
  let n := (v + 2 ^ 32 - oldest) % 2 ^ 32 + 1
  if s.ledgerHeld < n then s
  else
    let o := (v + 1) % 2 ^ 32
    let w := o + 2 ^ 32 * (2 ^ 32 - 1 - o)
    let s : State := if s.pmBlocked 3 then { s with mh := { s.mh with deferred := s.mh.deferred ++ [.ack w] } } else s.pmProgram 0x8808 w
    (s.setFld MH_LEDGER_HELD.COUNT (s.ledgerHeld - n)).setFlag MH_STAT.FULL false

/-- The oldest unacknowledged entry that the acknowledgement word names (R310). -/
def State.ackWord (s : State) : Nat := if s.pmBad 0x8808 then 0 else (scValid (s.pmWord 0x8808)).getD 0

/-- Whether ring position `i` holds an entry that counts as booked (R308): of a type in use, at its own place, its COMMIT
at or below the ledger counter. -/
def State.entryBooked (s : State) (i : Nat) : Bool :=
  let a := pmAddr (0x20000 + 32 * i)
  s.pmSound (0x20000 + 32 * i) 32 && s.rd8 (a + 8) ≠ 0 && s.rd32 a % 4096 == i && decide (s.rd32 (a + 4) ≤ s.scValue 2)

/-- The number after the highest booked entry among the first `n` ring positions. (DESIGN CHOICE, log entry 18) -/
def State.ledgerScan (s : State) : Nat → Nat
  | 0 => 0
  | n + 1 =>
    let m := s.ledgerScan n
    if s.entryBooked n then max m (s.rd32 (pmAddr (0x20000 + 32 * n)) + 1) else m

/-- NEXT and HELD from what the ledger holds (R2, R310). (DESIGN CHOICE, log entry 18) -/
def State.ledgerShow (s : State) : State :=
  let next := s.ledgerScan 4096
  (s.setFld MH_LEDGER_NEXT.ENTRY_NO next).setFld MH_LEDGER_HELD.COUNT (min 4096 (next - s.ackWord))

/-- The ledger taken up at a start (R310). -/
def State.ledgerStart (s : State) : State :=
  let s := s.ledgerShow
  s.setFlag MH_STAT.FULL (decide (4096 ≤ s.ledgerHeld))

end Sys2Proof.Machine
end

