-- ==== Sys2Proof/Machine/Water.lean ====
section
/-! DEFINITION. The water-property engine (R300): IAPWS-IF97 region 1 and, within the error bounds of the rule, a free
deviation from it. PRESUMED: the coefficients are those of the standard that R300 names (log entry 8). -/

namespace Sys2Proof.Machine

/-- One term of region 1: I, J and the coefficient n = m · 10^(-e). -/
structure If97Term where
  i : Nat
  j : Int
  m : Int
  e : Nat
  deriving DecidableEq, Repr

/-- Terms 1 to 18 of region 1. -/
def if97A : List If97Term := [
  ⟨0, -2, 14632971213167, 14⟩, ⟨0, -1, -84548187169114, 14⟩, ⟨0, 0, -3756360367204, 12⟩,
  ⟨0, 1, 33855169168385, 13⟩, ⟨0, 2, -95791963387872, 14⟩, ⟨0, 3, 15772038513228, 14⟩,
  ⟨0, 4, -16616417199501, 15⟩, ⟨0, 5, 81214629983568, 17⟩, ⟨1, -9, 28319080123804, 17⟩,
  ⟨1, -7, -60706301565874, 17⟩, ⟨1, -1, -18990068218419, 15⟩, ⟨1, 0, -32529748770505, 15⟩,
  ⟨1, 1, -21841717175414, 15⟩, ⟨1, 3, -5283835796993, 17⟩, ⟨2, -3, -47184321073267, 17⟩,
  ⟨2, 0, -30001780793026, 17⟩, ⟨2, 1, 47661393906987, 18⟩, ⟨2, 3, -44141845330846, 19⟩]

/-- Terms 19 to 34 of region 1. -/
def if97B : List If97Term := [
  ⟨2, 17, -72694996297594, 29⟩, ⟨3, -4, -31679644845054, 18⟩, ⟨3, 0, -28270797985312, 19⟩,
  ⟨3, 6, -85205128120103, 23⟩, ⟨4, -5, -22425281908, 16⟩, ⟨4, -2, -65171222895601, 20⟩,
  ⟨4, 10, -14341729937924, 26⟩, ⟨5, -8, -40516996860117, 20⟩, ⟨8, -11, -12734301741641, 22⟩,
  ⟨8, -6, -17424871230634, 23⟩, ⟨21, -29, -68762131295531, 32⟩, ⟨23, -31, 14478307828521, 33⟩,
  ⟨29, -38, 26335781662795, 36⟩, ⟨30, -39, -11947622640071, 36⟩, ⟨31, -40, 18228094581404, 37⟩,
  ⟨32, -41, -93537087292458, 39⟩]

/-- x to an integer power. -/
def ratPow (x : Rat) (j : Int) : Rat := if 0 ≤ j then x ^ j.toNat else (x ^ (-j).toNat)⁻¹

/-- The coefficient of a term. -/
def If97Term.n (t : If97Term) : Rat := mkRat t.m (10 ^ t.e)

/-- ∂γ/∂π of region 1 at a = 7.1 − π and b = τ − 1.222. -/
def gammaPi (a b : Rat) (l : List If97Term) : Rat :=
  l.foldl (fun acc t => acc - t.n * t.i * ratPow a (t.i - 1 : Nat) * ratPow b t.j) 0

/-- ∂γ/∂τ of region 1. -/
def gammaTau (a b : Rat) (l : List If97Term) : Rat :=
  l.foldl (fun acc t => acc + t.n * ratPow a t.i * t.j * ratPow b (t.j - 1)) 0

/-- The exact value of a finite binary64 number. -/
def ratOf (x : Nat) : Rat :=
  match fdec b64 x with
  | .fin neg m e =>
    let v : Rat := if 0 ≤ e then (m * 2 ^ e.toNat : Nat) else mkRat m (2 ^ (-e).toNat)
    if neg then -v else v
  | _ => 0

/-- A rational rounded to binary64. -/
def ofRat64 (q : Rat) : Nat := fofRat b64 q.num q.den

/-- Specific enthalpy of IF97 region 1 in kJ/kg at t °C and p MPa: h = R·T·τ·γ_τ = R·1386 K·γ_τ. (PRESUMED, log entry 8) -/
def if97Enthalpy (t p : Rat) : Rat :=
  let tk := t + mkRat 27315 100
  let a := mkRat 71 10 - p / mkRat 1653 100
  let b := 1386 / tk - mkRat 1222 1000
  mkRat 461526 1000000 * 1386 * (gammaTau a b if97A + gammaTau a b if97B)

/-- Density of IF97 region 1 in kg/m³: 1/v, v = R·T/p · π·γ_π with p in kPa. (PRESUMED, log entry 8) -/
def if97Density (t p : Rat) : Rat :=
  let tk := t + mkRat 27315 100
  let a := mkRat 71 10 - p / mkRat 1653 100
  let b := 1386 / tk - mkRat 1222 1000
  16530 / (mkRat 461526 1000000 * tk * (gammaPi a b if97A + gammaPi a b if97B))

/-- h(t, p) of the engine, t and p in binary64: within 0.002 kJ/kg of IF97 (R300). (PRESUMED, log entry 8) -/
def waterH (t p : Nat) : Nat :=
  ofRat64 (if97Enthalpy (ratOf t) (ratOf p)
    + mkRat (clampInt (-1999999) 1999999 (Config.enthalpyError t p)) 1000000000)

/-- ρ(t, p) of the engine: within 2·10⁻⁶ of IF97, relatively (R300). (PRESUMED, log entry 8) -/
def waterRho (t p : Nat) : Nat :=
  ofRat64 (if97Density (ratOf t) (ratOf p)
    * (1 + mkRat (clampInt (-1999999) 1999999 (Config.densityError t p)) 1000000000000))

end Sys2Proof.Machine
end

