-- ==== Sys2Proof/Machine/MhOps.lean ====
section
/-! DEFINITION. Shared operations of the meters: accumulators and billing registers (R303 to R305), sealed fields and
sealed records (R294, R295, R316, R536). -/

namespace Sys2Proof.Machine

/-- A calculator. -/
def State.calculator (s : State) (c : Nat) : MhCalc := nth s.mh.calcs c {}

/-- A calculator replaced. -/
def State.setCalc (s : State) (c : Nat) (m : MhCalc) : State := { s with mh := { s.mh with calcs := putAt s.mh.calcs c m } }

/-- An accumulator of units of 2⁻³² plus a binary64 amount of units, rounded to the nearest 2⁻³² unit (R303). -/
def accAdd (acc : Nat) (x : Nat) : Nat :=
  match fdec b64 x with
  | .fin false m e => (acc + roundEven m (e + 32)) % 2 ^ 96
  | _ => acc

/-- Quantity `q` of a list of accumulators with an amount added. (DEDUCED, log entry 16) -/
def addTo (accs : List Nat) (q x : Nat) : List Nat := putAt accs q (accAdd (nth accs q 0) x)

/-- The whole units of an accumulator. -/
def accUnits (acc : Nat) : Nat := acc / 2 ^ 32

/-- The energy units of the table "Register units", in J. -/
def energyUnit : Nat → Nat
  | 0 => 3600
  | 1 => 36000
  | 2 => 360000
  | 3 => 3600000
  | 4 => 36000000
  | 5 => 360000000
  | 6 => 3600000000
  | 7 => 1000000
  | 8 => 10000000
  | _ => 1000000000

/-- The volume units of the table "Register units", in mL. -/
def volumeUnit : Nat → Nat
  | 0 => 1000
  | 1 => 10000
  | 2 => 100000
  | _ => 1000000

/-- The billing register of R304. -/
def billOf (units unit : Nat) : Nat := units / unit % 1000000000
/-- The wrap counter of R304. -/
def wrapOf (units unit : Nat) : Nat := units / unit / 1000000000 % 65536

/-- The difference of two readings by R305: (B1, W1) then (B2, W2). The count of wraps is modulo 65,536 throughout, which is what
makes the difference exact up to 65,536 × 10⁹ units. (DEDUCED, log entry 16) -/
def readingDiff (b1 w1 b2 w2 : Nat) : Nat :=
  let d := (b2 + 1000000000 - b1) % 1000000000
  let wraps := (w2 + 65536 - w1) % 65536
  d + (if b2 < b1 then (wraps + 65535) % 65536 else wraps) * 1000000000

/-- Sealed field `k` of calculator `c` as in use (R294). -/
def State.mhField (s : State) (c k : Nat) : Nat := (s.reg (MH_C_FIELD c k)).toNat

/-- The unit of quantity `q` of calculator `c`. -/
def State.mhUnit (s : State) (c q : Nat) : Nat :=
  if q = 2 ∨ q = 5 then volumeUnit (s.mhField c 15) else energyUnit (s.mhField c 14)

/-- The billing register of quantity `q` of calculator `c`. -/
def State.mhBill (s : State) (c q : Nat) : Nat := billOf (accUnits (nth (s.calculator c).acc q 0)) (s.mhUnit c q)

/-- The accumulators of calculator `c` shown in their ACC_LO registers. -/
def State.mhShow (s : State) (c : Nat) : State :=
  forN (fun q s => s.setReg (MH_C_ACC_LO c q) (BitVec.ofNat 32 (accUnits (nth (s.calculator c).acc q 0)))) 6 s

/-- The companions of MH_C_ACC_LO captured at its read (R305). (DESIGN CHOICE, log entry 17) -/
def State.mhCapture (s : State) (c q : Nat) : State :=
  let u := accUnits (nth (s.calculator c).acc q 0)
  let s := s.setReg (MH_C_ACC_HI c q) (BitVec.ofNat 32 (u / 2 ^ 32))
  (s.setFld (MH_C_BILL.BILL c q) (billOf u (s.mhUnit c q))).setFld (MH_C_WRAP.WRAP c q) (wrapOf u (s.mhUnit c q))

/-- A finite binary32. -/
def finite32 (v : Nat) : Bool := fisFin b32 v

/-- Whether `v` lies in the range of sealed calculator field 0x0801 + k (R294). -/
def mhFieldOk (k v : Nat) : Bool :=
  match k with
  | 0 => decide (v ≤ 3)
  | 1 | 2 | 4 => decide (v ≤ 15)
  | 3 | 5 => decide (v ≤ 1)
  | 6 => decide (100 ≤ v ∧ v ≤ 1000000)
  | 7 | 8 => finite32 v
  | 9 => finite32 v && fle b32 0 v
  | 10 => decide (100 ≤ v ∧ v ≤ 2500)
  | 11 => decide (10 ≤ v ∧ v ≤ 3000)
  | 12 => decide (v ≤ 15000)
  | 13 => decide (10000 ≤ v ∧ v ≤ 6000000)
  | 14 => decide (v ≤ 9)
  | 15 => decide (v ≤ 3)
  | 16 | 18 => decide (-500 ≤ signed 32 v ∧ signed 32 v ≤ 500)
  | 17 | 19 => decide (-2000 ≤ signed 32 v ∧ signed 32 v ≤ 2000)
  | 20 | 21 => decide (v ≤ 5)
  | _ => false

/-- Whether 0x0901 + k is a sealed port field (R316). -/
def meFieldDefined (k : Nat) : Bool := decide (k < 47) && k != 14

/-- Whether `v` lies in the range of sealed port field 0x0901 + k (R316). -/
def meFieldOk (k v : Nat) : Bool :=
  match k with
  | 0 => decide (v ≤ 2)
  | 1 => decide (v ≤ 1)
  | 2 | 3 => finite32 v && flt b32 0 v
  | 4 => decide (500 ≤ v ∧ v ≤ 6000)
  | 5 => decide (1 ≤ v ∧ v ≤ 1000000)
  | 6 => decide (v ≤ 6)
  | 7 => decide (50 ≤ v ∧ v ≤ 95)
  | 8 => decide (105 ≤ v ∧ v ≤ 150)
  | 9 => decide (2 ≤ v ∧ v ≤ 50)
  | _ =>
    if 10 ≤ k ∧ k ≤ 13 ∨ 15 ≤ k ∧ k ≤ 30 then decide (-20000 ≤ signed 32 v ∧ signed 32 v ≤ 20000)
    else if 31 ≤ k ∧ k ≤ 46 then decide (-5000 ≤ signed 32 v ∧ signed 32 v ≤ 5000)
    else false

/-- The rules of R295 for calculator `c` against calculator `d`: their RTD channels are distinct, and they share no AI
channel. -/
def calcsAgree (a b : List Nat) : Bool :=
  let s1 := nth a 1 0; let r1 := nth a 2 0; let s2 := nth b 1 0; let r2 := nth b 2 0
  let on (x : List Nat) : Bool := nth x 0 0 != 0
  !((on a || on b) && nth a 3 0 == 1 && nth b 3 0 == 1 && nth a 4 0 == nth b 4 0)
    && (!(on a && on b) || (s1 != s2 && s1 != r2 && r1 != s2 && r1 != r2))

/-- A calculator alone obeys R295: RTD_S and RTD_R differ, or it is OFF. -/
def calcAlone (a : List Nat) : Bool := nth a 0 0 == 0 || nth a 1 0 != nth a 2 0

/-- Every two of the calculators obey R295. -/
def calcsOk : List (List Nat) → Bool
  | [] => true
  | a :: t => calcAlone a && t.all (calcsAgree a) && calcsOk t

/-- The ME rule of R316 for one port: V_SCALE × 1.000 V is at least 1.05 × √2 × V_NOM × SWELL/100, squared and exact. -/
def portOk (f : List Nat) : Bool :=
  if nth f 0 0 = 0 then true
  else match fdec b32 (nth f 2 0) with
    | .fin false m e =>
      -- both sides squared and multiplied by (100·100·10)²: V_SCALE² · 10¹⁰ ≥ 2 · (105 · V_NOM · SWELL)²
      let lhs : Rat := ((m : Rat) ^ 2) * (if 0 ≤ e then ((2 : Rat) ^ (2 * e).toNat) else ((2 : Rat) ^ (-2 * e).toNat)⁻¹) * 10 ^ 10
      decide ((2 * (105 * nth f 4 0 * nth f 8 0) ^ 2 : Nat) ≤ lhs)
    | _ => false

/-- The sealed values of calculator `c`: those that wait for its next instant, else those in use. -/
def State.mhFields (s : State) (c : Nat) : List Nat :=
  ((s.calculator c).newFields).getD ((List.range 22).map (s.mhField c))

/-- Calculator `c` is not OFF, or a commit that waits for its next instant makes it so (R308). -/
def State.mhRuns (s : State) (c : Nat) : Bool := s.mhField c 0 != 0 || nth (s.mhFields c) 0 0 != 0

/-- The window offset of copy `i` of the sealed record of a calculator or port (R536). -/
def recordAt (block inst i : Nat) : Nat := (if block = 8 then 0x9000 else 0xA000) + 0x200 * inst + 0x100 * i

/-- A copy is valid when its CRC matches (R536). (DEDUCED, log entry 65) -/
def State.recordValid (s : State) (off : Nat) : Bool := 
  s.pmSound off 0x100 && crc32 (s.pmBytes off 0xFC) == s.rd32 (pmAddr (off + 0xFC))

/-- Generation of a copy. -/
def State.recordGen (s : State) (off : Nat) : Nat := s.rd32 (pmAddr (off + 0xF8))

/-- A copy that may be current: valid, its REQ at or below the ledger counter (R536). -/
def State.recordUsable (s : State) (off : Nat) : Bool :=
  s.recordValid off && decide (s.rd32 (pmAddr (off + 8)) ≤ s.scValue 2)

/-- The current copy of a pair: the usable copy of highest GEN (R536). (DEDUCED, log entry 65) -/
def State.recordCurrent (s : State) (block inst : Nat) : Option Nat :=
  let a := recordAt block inst 0
  let b := recordAt block inst 1
  match s.recordUsable a, s.recordUsable b with
  | true, true => if s.recordGen a < s.recordGen b then some 1 else some 0
  | true, false => some 0
  | false, true => some 1
  | false, false => none

/-- The sealed partition is valid (R536). (DESIGN CHOICE, log entry 58) -/
def State.sealedValid (s : State) : Bool :=
  ((List.range 8).all fun c => (s.recordCurrent 8 c).isSome) && (List.range 2).all fun p => (s.recordCurrent 9 p).isSome

/-- The field values of the current copy. -/
def State.recordFields (s : State) (block inst i : Nat) : List Nat :=
  (List.range (if block = 8 then 22 else 47)).map fun k => s.rd32 (pmAddr (recordAt block inst i + 0x10 + 4 * k))

/-- Padding to `n` bytes with zeros. -/
def padTo (n : Nat) (l : List Byte) : List Byte := l ++ List.replicate (n - l.length) 0

/-- The 256 bytes of a record copy (R536). -/
def recordBytes (block inst req gen : Nat) (fields : List Nat) : List Byte :=
  let body := padTo 0xF8 (toBytes 4 0x4C414553 ++ toBytes 4 (block + 256 * inst) ++ toBytes 4 req ++ toBytes 4 0
    ++ fields.flatMap (toBytes 4)) ++ toBytes 4 gen
  body ++ toBytes 4 (crc32 body)

/-- The record of a calculator or port as the words that write it into the page that is not current, GEN and CRC last
(R308, R536), with the GEN written. -/
def State.recordWords (s : State) (block inst req : Nat) (fields : List Nat) : List (Nat × Nat) :=
  let cur := s.recordCurrent block inst
  let gen := match cur with
    | some i => s.recordGen (recordAt block inst i) + 1
    | none => 1
  let i := match cur with
    | some 0 => 1
    | _ => 0
  wordsOf (recordAt block inst i) 32 (recordBytes block inst req gen fields)

/-- The channel is paired: some calculator that is not OFF names it (R295). -/
def State.rtdPair (s : State) (n : Nat) : Option (Nat × Bool) :=
  (List.range 8).findSome? fun c =>
    if s.mhField c 0 = 0 then none
    else if s.mhField c 1 = n then some (c, true)
    else if s.mhField c 2 = n then some (c, false)
    else none

/-- The read-only views of the calculators' sealed fields brought up to date: MH_C_CFG, the pulse inputs named (R400), and
the ANA settings of paired channels (R295, R296). -/
def State.mhViews (s : State) : State :=
  let s := forN (fun c s =>
    let s := ((s.setFld (MH_C_CFG.MODE c) (s.mhField c 0)).setFld (MH_C_CFG.RTD_S c) (s.mhField c 1)).setFld (MH_C_CFG.RTD_R c) (s.mhField c 2)
    let s := ((s.setFld (MH_C_CFG.FLOW_KIND c) (s.mhField c 3)).setFld (MH_C_CFG.FLOW_IDX c) (s.mhField c 4)).setFld (MH_C_CFG.FLOW_POS c) (s.mhField c 5)
    (s.setFld (MH_C_CFG.E_UNIT c) (s.mhField c 14)).setFld (MH_C_CFG.V_UNIT c) (s.mhField c 15)) 8 s
  let s := forN (fun c s =>
    if s.mhField c 0 ≠ 0 ∧ s.mhField c 3 = 0 then s.setFlag (AON_PLS_CFG.EN (s.mhField c 4 % 16)) true else s) 8 s
  forN (fun n s =>
    match s.rtdPair n with
    | none => s.setFlag (ANA_RTD_STAT.PAIRED n) false
    | some (c, supply) =>
      let sens := s.mhField c (if supply then 20 else 21)
      let s := (s.setFlag (ANA_RTD_STAT.PAIRED n) true).setFlag (ANA_RTD_CFG.EN n) true
      (s.setFld (ANA_RTD_CFG.TYPE n) (sens % 4)).setFlag (ANA_RTD_CFG.WIRE4 n) (bit sens 2)) 16 s

/-- Values put into use in the sealed fields of calculator `c`; leaving OFF, it has no N_prev of its own, nor has it in OFF
(R298). Conversions
gathered so far are those of another source where the mode leaves or enters OFF or the flow source changes.
(DESIGN CHOICE, log entry 17) -/
def State.mhApply (s : State) (c : Nat) (vals : List Nat) : State :=
  let leavesOff := s.mhField c 0 == 0 && nth vals 0 0 != 0
  let other := leavesOff || nth vals 0 0 == 0 || s.mhField c 3 != nth vals 3 0 || s.mhField c 4 != nth vals 4 0
  let s := forN (fun k s => s.setReg (MH_C_FIELD c k) (BitVec.ofNat 32 (nth vals k 0))) 22 s
  let m := s.calculator c
  let m := { m with newFields := none, npv := m.npv && !leavesOff && nth vals 0 0 != 0 }
  (s.setCalc c (if other then { m with flow := {}, flowAt := none, flowSeen := false } else m)).mhViews

end Sys2Proof.Machine
end

