-- ==== Sys2Proof/Machine/Mh.lean ====
section
/-! DEFINITION. Heat and cold calculators (chapter 14): conversions, the integration step, sealed commits and the ledger's
acknowledgement. -/

namespace Sys2Proof.Machine

/-- An RTD channel. -/
def State.rtd (s : State) (n : Nat) : RtdSt := nth s.ana.rtd n {}
/-- An RTD channel replaced. -/
def State.setRtd (s : State) (n : Nat) (r : RtdSt) : State := { s with ana := { s.ana with rtd := putAt s.ana.rtd n r } }

/-- A of IEC 60751 (R297). -/
def rtdA : Nat := fofRat b64 39083 10000000
/-- B of IEC 60751 (R297). -/
def rtdB : Nat := fofRat b64 (-5775) 10000000000
/-- C of IEC 60751 (R297). -/
def rtdC : Nat := fofRat b64 (-4183) 1000000000000000

/-- An integer in binary64. -/
def f64 (i : Int) : Nat := fofInt b64 i

/-- Znom of a sensor type (R297); 3 acts as 2. -/
def rtdNominal (type : Nat) : Nat := if type = 0 then 100 else if type = 1 then 500 else 1000

/-- One Newton step on the full equation (R297). (DESIGN CHOICE, log entry 14) -/
def rtdNewton (znom z t : Nat) : Nat :=
  let t2 := fmul b64 t t
  let t3 := fmul b64 t2 t
  let poly := fadd b64 (fadd b64 (fadd b64 (f64 1) (fmul b64 rtdA t)) (fmul b64 rtdB t2))
    (fmul b64 (fmul b64 rtdC (fsub b64 t (f64 100))) t3)
  let g := fsub b64 (fmul b64 znom poly) z
  let dpoly := fadd b64 (fadd b64 rtdA (fmul b64 (fmul b64 (f64 2) rtdB) t))
    (fmul b64 rtdC (fsub b64 (fmul b64 (f64 4) t3) (fmul b64 (f64 300) t2)))
  fsub b64 t (fdiv b64 g (fmul b64 znom dpoly))

/-- The temperature of a resistance before corrections; none where R297 computes none. (DESIGN CHOICE, log entry 14) -/
def rtdTemp (znom z : Nat) : Option Nat :=
  let ratio := fsub b64 (f64 1) (fdiv b64 z znom)
  let disc := fsub b64 (fmul b64 rtdA rtdA) (fmul b64 (fmul b64 (f64 4) rtdB) ratio)
  if fisNan b64 disc || flt b64 disc 0 then none
  else
    let t := fdiv b64 (fadd b64 (fneg b64 rtdA) (fsqrt b64 disc)) (fmul b64 (f64 2) rtdB)
    if fle b64 znom z then some t else some (rtdNewton znom z (rtdNewton znom z (rtdNewton znom z t)))

/-- The sealed corrections of a paired channel: t·(1 + GAIN·10⁻⁶) + OFS·10⁻³ (R297). -/
def rtdCorrect (gain ofs : Int) (t : Nat) : Nat :=
  fadd b64 (fmul b64 t (fadd b64 (f64 1) (fmul b64 (f64 gain) (fofRat b64 1 1000000)))) (fmul b64 (f64 ofs) (fofRat b64 1 1000))

/-- A conversion ends: the temperature replaces the held one unless the channel is OPEN or SHORT or the conversion
carries the invalid flag of R7. (DESIGN CHOICE, log entry 14) -/
def State.rtdConversion (s : State) (n : Nat) (ohms : BitVec 64) (overlap : Bool) : State :=
  if !(s.rtd n).conv then s else
  let s := s.setRtd n { s.rtd n with conv := false }
  if overlap || s.flag PWR_STAT.HOLD then s.setFlag (ANA_RTD_STAT.INVALID n) true
  else
    let s := s.setFlag (ANA_RTD_STAT.INVALID n) false
    let temp := (rtdTemp (f64 (rtdNominal (s.fld (ANA_RTD_CFG.TYPE n)))) ohms.toNat).map fun t =>
      match s.rtdPair n with
      | some (c, true) => rtdCorrect (signed 32 (s.mhField c 17)) (signed 32 (s.mhField c 16)) t
      | some (c, false) => rtdCorrect (signed 32 (s.mhField c 19)) (signed 32 (s.mhField c 18)) t
      | none => t
    match temp with
    | none => (s.setFlag (ANA_RTD_STAT.OPEN n) true).setFlag (ANA_RTD_STAT.SHORT n) false
    | some t =>
      let short := flt b64 t (f64 (-50))
      let opens := flt b64 (f64 200) t
      let s := (s.setFlag (ANA_RTD_STAT.OPEN n) opens).setFlag (ANA_RTD_STAT.SHORT n) short
      if short || opens then s
      else (s.setReg (ANA_RTD_VAL n) (BitVec.ofNat 32 (fconv b64 b32 t))).setRtd n { s.rtd n with t64 := t, seen := true }

/-- RTD_CONVERSION (R297). (DESIGN CHOICE, log entry 17) -/
def execRtdConversion (n : Fin 16) (ohms : BitVec 64) (overlap : Bool) (s : State) : Out := State.out <| s.rtdConversion n ohms overlap

/-- The conversion period of an unpaired channel in ticks (R313): values outside 10,000 to 1,000,000 act as the nearer limit. -/
def State.rtdPeriod (s : State) (n : Nat) : Nat := min 1000000 (max 10000 (s.fld (ANA_RTD_CFG.PERIOD n)))

/-- RTD_PERIOD (R296): an unpaired enabled channel starts a conversion at a tick at which LE_TICK is a multiple of its period. -/
def execRtdPeriod (n : Fin 16) (s : State) : Out :=
  State.out <|
    if s.ticks && s.flag (ANA_RTD_CFG.EN n) && !(s.flag (ANA_RTD_STAT.PAIRED n)) && s.le.tick % s.rtdPeriod n == 0 then
      s.setRtd n { s.rtd n with conv := true }
    else s

/-- The conversions of one step with another one, out of range when `bad` (R299). -/
def FlowMean.add (m : FlowMean) (a : Nat) (bad : Bool) : FlowMean := { vals := m.vals ++ [a], bad := m.bad || bad }

/-- q = AGAIN × a + AOFS of a conversion `a`, before its limits (R299). -/
def State.flowRaw (s : State) (c a : Nat) : Nat :=
  fadd b64 (fmul b64 (fconv b32 b64 (s.mhField c 7)) a) (fconv b32 b64 (s.mhField c 8))

/-- The flow of a conversion: 0 where it is negative or below QCUT (R299). -/
def State.flowQ (s : State) (c a : Nat) : Nat :=
  let q := s.flowRaw c a
  if flt b64 q 0 || flt b64 q (fconv b32 b64 (s.mhField c 9)) then 0 else q

/-- Whether an analogue flow signal lies out of range (R299). -/
def flowBad (current : Bool) (a : Nat) : Bool :=
  if current then flt b64 a (fofRat b64 36 10) || flt b64 (f64 21) a else flt b64 (fofRat b64 105 10) a

/-- The conversion of the present tick of an analogue flow channel joins those of its step; a flagged one is replaced by the last
valid one, as R51 has it. -/
def State.flowConversion (s : State) (c value : Nat) (invalid : Bool) : State :=
  let m := s.calculator c
  let a := if invalid then m.lastA else value
  let bad := if invalid then m.lastBad else flowBad (nth s.ana.aiCurrent (s.mhField c 4) false) a
  let m := if invalid then m else { m with lastA := a, lastBad := bad, flowSeen := true }
  if invalid && !m.flowSeen then s.setCalc c { m with closing := false }
  else if m.closing then s.setCalc c { m with closed := m.closed.add a bad, closing := false }
  else s.setCalc c { m with flow := m.flow.add a bad }

/-- Calculator `c` takes its flow from an analogue channel. -/
def State.flowAnalogue (s : State) (c : Nat) : Bool := s.flag MH_CTL.EN && s.mhField c 0 != 0 && s.mhField c 3 != 0

/-- AI_FLOW_CONVERSION (R299, R51): at every 1,000th tick a conversion joins those of its step, each of which is formed into q by
the values that step is computed under (R308); a flagged conversion is replaced by the last valid one.
(DESIGN CHOICE, log entry 17) -/
def execAiFlowConversion (c : Fin 8) (level : Int) (overlap : Bool) (s : State) : Out :=
  State.out <|
    if !s.flowAnalogue c || !s.ticks || s.le.tick % 1000 != 0 || (s.calculator c).flowAt == some s.le.tick then s
    else
      let a := aiResult (nth s.ana.aiCurrent (s.mhField c 4) false) level
      (s.setCalc c { s.calculator c with flowAt := some s.le.tick }).flowConversion c a (overlap || s.inHold)

/-- The analogue flow conversions that a brown stall kept from tick `a` on to below tick `b`: the last valid one stands for each
(R51, R54). -/
def State.flowStall (s : State) (a b : Nat) : State :=
  forN (fun c s =>
    if !s.flowAnalogue c then s
    else
      let own := a % 1000 == 0 && (s.calculator c).flowAt != some a
      forN (fun _ s => s.flowConversion c 0 true) ((b - 1) / 1000 - a / 1000 + b2n own) s) 8 s

/-- An integration instant (R301, R308): values of a sealed commit act from here; the pulse count is latched or the AI mean
closed, and both conversions start. -/
def State.integrate (s : State) (c : Nat) : State :=
  if !(s.flag MH_CTL.EN) then s else
  let s := match (s.calculator c).newFields with
    | some vals => s.mhApply c vals
    | none => s
  if s.mhField c 0 = 0 then s else
  let m := s.calculator c
  let pulses := (s.reg (AON_PLS_CNT (s.mhField c 4))).toNat
  let sameTick := s.mhField c 3 == 1 && s.le.tick % 1000 == 0 && m.flowAt != some s.le.tick
  let s := s.setCalc c { m with running := true, latched := pulses, closed := m.flow, flow := {}, closing := sameTick }
  let s := s.setRtd (s.mhField c 1) { s.rtd (s.mhField c 1) with conv := true }
  s.setRtd (s.mhField c 2) { s.rtd (s.mhField c 2) with conv := true }

/-- LE_TICK is a multiple of PERIOD of calculator `c` (R301). -/
def State.atInstant (s : State) (c : Nat) : Bool := s.le.tick % max 1 (s.mhField c 13) == 0

/-- INTEGRATION_INSTANT (R301): no instant is taken in a brown stall or SLEEP. -/
def execIntegrationInstant (c : Fin 8) (s : State) : Out := State.out <| if s.ticks && s.atInstant c then s.integrate c else s

/-- A binary64 number out of 0 °C to 150 °C, or not a number. -/
def tempOut (t : Nat) : Bool := !(fle b64 0 t && fle b64 t (f64 150))

/-- The fault causes of R302 at a step of calculator `c`. -/
def State.mhCauses (s : State) (c : Nat) : Nat :=
  let rs := s.mhField c 1
  let rr := s.mhField c 2
  let m := s.calculator c
  s.fld (ANA_RTD_STAT.OPEN rs) + 2 * s.fld (ANA_RTD_STAT.SHORT rs)
    + 4 * s.fld (ANA_RTD_STAT.OPEN rr) + 8 * s.fld (ANA_RTD_STAT.SHORT rr)
    + 16 * b2n (!(s.rtd rs).seen || !(s.rtd rr).seen || tempOut (s.rtd rs).t64 || tempOut (s.rtd rr).t64)
    + 32 * b2n (s.mhField c 3 == 1 && (m.closed.bad || !m.flowSeen))

/-- TI in seconds, binary64. -/
def State.mhTi (s : State) (c : Nat) : Nat := fdiv b64 (f64 (s.mhField c 13)) (f64 100000)

/-- The step volume in mL, binary64 (R298, R299). -/
def State.mhVolume (s : State) (c : Nat) : Nat :=
  let m := s.calculator c
  if s.mhField c 3 = 1 then
    let q := m.closed.vals.map (s.flowQ c)
    fmul b64 (fmul b64 (fdiv b64 (fsum b64 0 q) (f64 q.length)) (s.mhTi c)) (f64 1000)
  else if m.npv then f64 ((m.latched + 2 ^ 32 - m.nPrev) % 2 ^ 32 * s.mhField c 6 : Nat)
  else 0

/-- A conversion of the step forms a negative q (R299). -/
def State.flowReverse (s : State) (c : Nat) : Bool :=
  s.mhField c 3 == 1 && (s.calculator c).closed.vals.any fun a => flt b64 (s.flowRaw c a) 0

/-- The heat and cold of a volume dv between ts and tr by the rules of R301: quantity 0 HEAT or 1 COLD and its energy in
J, binary64; none when no energy is counted. -/
def State.mhEnergy (s : State) (c dv ts tr : Nat) : Option (Nat × Nat) :=
  let mode := s.mhField c 0
  let p := fdiv b64 (f64 (s.mhField c 10)) (f64 1000)
  let dt := fsub b64 ts tr
  let lim := fdiv b64 (f64 (s.mhField c 11)) (f64 1000)
  let tf := if s.mhField c 5 = 1 then ts else tr
  let k := fmul b64 (fmul b64 dv (waterRho tf p)) (fofRat b64 1 1000)
  if (mode = 1 ∨ mode = 3) ∧ fle b64 lim dt then some (0, fmul b64 k (fsub b64 (waterH ts p) (waterH tr p)))
  else if (mode = 2 ∨ mode = 3) ∧ fle b64 dt (fneg b64 lim)
      ∧ fle b64 ts (fdiv b64 (f64 (s.mhField c 12)) (f64 100)) then
    some (1, fmul b64 k (fsub b64 (waterH tr p) (waterH ts p)))
  else none

/-- The value registers of a step (R312): ts, tr, flow in L/s, power in kW, and the items dt and dv in L. -/
def State.mhItems (s : State) (c ts tr dv power : Nat) : State :=
  let dvL := fdiv b64 dv (f64 1000)
  let s := (s.setReg (MH_C_TS c) (BitVec.ofNat 32 (fconv b64 b32 ts))).setReg (MH_C_TR c) (BitVec.ofNat 32 (fconv b64 b32 tr))
  let s := s.setReg (MH_C_FLOW c) (BitVec.ofNat 32 (fconv b64 b32 (fdiv b64 dvL (s.mhTi c))))
  let s := s.setReg (MH_C_POWER c) (BitVec.ofNat 32 (fconv b64 b32 (fdiv b64 power (f64 1000))))
  s.setCalc c { s.calculator c with dt := fconv b64 b32 (fsub b64 ts tr), dvL := fconv b64 b32 dvL }

/-- FTIME with TI added: whole seconds of 100,000 ticks, the rest kept (R302). -/
def State.mhFaultTime (s : State) (c : Nat) : State :=
  let m := s.calculator c
  let ticks := m.ftRem + s.mhField c 13
  let s := s.setCalc c { m with ftRem := ticks % 100000 }
  s.setReg (MH_C_FTIME c) (BitVec.ofNat 32 (min 0xFFFFFFFF (s.fld (MH_C_FTIME.VALUE c) + ticks / 100000)))

/-- The fault state of R302 after a step with causes `cause`: FAULT_START, SEEN, and FAULT_END with its running totals. -/
def State.mhFault (s : State) (c cause : Nat) : State :=
  let was := s.flag (MH_C_STAT.FAULT c)
  let s := s.setFld (MH_C_STAT.CAUSE c) cause
  if cause ≠ 0 then
    let s := s.setFld (MH_C_STAT.SEEN c) (if was then s.fld (MH_C_STAT.SEEN c) ||| cause else cause)
    if was then s
    else
      let s := (s.setFlag (MH_C_STAT.FAULT c) true).setFld MH_EVT.FAULT (putBit (s.fld MH_EVT.FAULT) c true)
      s.bookEvent { type := 3, block := 8, inst := c, field := cause, before := s.mhBill c 0, after := s.mhBill c 1 }
  else if was then
    let s := (s.setFlag (MH_C_STAT.FAULT c) false).setFld MH_EVT.FAULT (putBit (s.fld MH_EVT.FAULT) c true)
    s.bookEvent { type := 4, block := 8, inst := c, field := s.fld (MH_C_STAT.SEEN c), before := s.fld (MH_C_FTIME.VALUE c),
                  after := accUnits (nth (s.calculator c).acc 5 0) / 1000 }
  else s

/-- An amount added to quantity `q` of calculator `c`. (DEDUCED, log entry 16) -/
def State.mhAdd (s : State) (c q x : Nat) : State :=
  s.setCalc c { s.calculator c with acc := addTo (s.calculator c).acc q x }

/-- A calculator step (R301 to R303): once both conversions, and the one that closes an analogue mean (R299), have ended, the step
books its volume and energy, or its fault. -/
def State.calculatorStep (s : State) (c : Nat) : State :=
  if !((s.calculator c).running) || (s.calculator c).closing || (s.rtd (s.mhField c 1)).conv || (s.rtd (s.mhField c 2)).conv then s else
  let ts := (s.rtd (s.mhField c 1)).t64
  let tr := (s.rtd (s.mhField c 2)).t64
  let cause := s.mhCauses c
  let flowBad := bit cause 5
  let dv := if flowBad then 0 else s.mhVolume c
  let s := if s.flowReverse c then s.setFlag (MH_C_STAT.REV c) true else s
  let m := s.calculator c
  let s := s.setCalc c { m with running := false, nPrev := if s.mhField c 3 = 0 then m.latched else m.nPrev,
                                npv := m.npv || s.mhField c 3 == 0 }
  let s := if flowBad then s else s.mhAdd c 2 dv
  let s :=
    if cause ≠ 0 then
      let s := if flowBad then s else s.mhAdd c 5 dv
      (s.mhFaultTime c).mhItems c ts tr dv 0
    else
      let s := match s.mhEnergy c dv ts tr with
        | some (q, e) =>
          (s.mhAdd c q e).mhItems c ts tr dv (fdiv b64 (if q = 0 then e else fneg b64 e) (s.mhTi c))
        | none => s.mhItems c ts tr dv 0
      s.setCalc c { s.calculator c with tsV := fconv b64 b32 ts, trV := fconv b64 b32 tr, valid := true }
  let s := (s.mhFault c cause).mhShow c
  let s := s.setReg (MH_C_SEQ c) (s.reg (MH_C_SEQ c) + 2)
  s.setFld MH_EVT.STEP (putBit (s.fld MH_EVT.STEP) c true)

/-- CALCULATOR_STEP (R301). -/
def execCalculatorStep (c : Fin 8) (s : State) : Out := State.out <| s.calculatorStep c

/-- Staged entry `i` (R306). -/
def State.sealEntry (s : State) (i : Nat) : SealEntry :=
  { block := s.fld (MH_SEAL_ENT_ID.BLOCK i), inst := s.fld (MH_SEAL_ENT_ID.INSTANCE i),
    id := s.fld (MH_SEAL_ENT_ID.FIELD_ID i), value := s.fld (MH_SEAL_ENT_VAL.VALUE i) }

/-- The index of the entry's field in its record. -/
def SealEntry.index (e : SealEntry) : Nat := if e.block = 8 then e.id - 0x0801 else e.id - 0x0901

/-- Check 4 of R307 for one entry: a known block and a defined field. -/
def SealEntry.known (e : SealEntry) : Bool :=
  (e.block == 8 && decide (0x0801 ≤ e.id) && decide (e.id ≤ 0x0816))
    || (e.block == 9 && decide (0x0901 ≤ e.id) && meFieldDefined (e.id - 0x0901))

/-- Check 5 of R307 for one entry. -/
def SealEntry.inRange (e : SealEntry) : Bool :=
  if e.block = 8 then decide (e.inst < 8) && mhFieldOk e.index e.value
  else decide (e.inst < 2) && meFieldOk e.index e.value

/-- The same field of the same block. -/
def SealEntry.same (e d : SealEntry) : Bool := e.block == d.block && e.inst == d.inst && e.id == d.id

/-- The first position whose entry fails `p`. -/
def firstFailing (p : SealEntry → Bool) : Nat → List SealEntry → Option Nat
  | _, [] => none
  | i, e :: t => if p e then firstFailing p (i + 1) t else some i

/-- The first position whose entry names a field that an earlier entry names. -/
def firstTwice : Nat → List SealEntry → List SealEntry → Option Nat
  | _, _, [] => none
  | i, seen, e :: t => if seen.any e.same then some i else firstTwice (i + 1) (e :: seen) t

/-- The sealed values of port `p` as in use or awaiting its next block. -/
def State.meFieldsNow (s : State) (p : Nat) : List Nat := (List.range 47).map fun k => (s.reg (ME_P_FIELD p k)).toNat

/-- The values of a calculator or port after the entries. -/
def sealApplied (block inst : Nat) (vals : List Nat) (es : List SealEntry) : List Nat :=
  es.foldl (fun v e => if e.block = block ∧ e.inst = inst then putAt v e.index e.value else v) vals

/-- The checks of R307 in order: the code of the first that fails and the entry it names. -/
def State.sealRefusal (s : State) (num : Nat) (es : List SealEntry) (ports : Nat → List Nat) : Option (Nat × Nat) :=
  if !(s.flag MH_STAT.MAUTH) then some (0x13, 0)
  else if s.mh.sealing.isSome || s.fld LCS_STAT.STATE == 4 then some (0x12, 0)
  else if num = 0 ∨ 16 < num then some (0x20, 0)
  else match firstFailing SealEntry.known 0 es with
    | some i => some (0x23, i)
    | none => match firstTwice 0 [] es with
      | some i => some (0x22, i)
      | none => match firstFailing SealEntry.inRange 0 es with
        | some i => some (0x21, i)
        | none =>
          if !(calcsOk ((List.range 8).map fun c => sealApplied 8 c (s.mhFields c) es))
              || !((List.range 2).all fun p => portOk (sealApplied 9 p (ports p) es)) then some (0x12, 0)
          else if 4096 < s.ledgerHeld + num then some (0x14, 0)
          else none

/-- The calculators and ports a commit changes, each with its values after it. -/
def State.sealTargets (s : State) (es : List SealEntry) (ports : Nat → List Nat) : List (Nat × Nat × List Nat) :=
  ((List.range 8).filterMap fun c =>
      if es.any (fun e => e.block == 8 && e.inst == c) then some (8, c, sealApplied 8 c (s.mhFields c) es) else none)
    ++ ((List.range 2).filterMap fun p =>
      if es.any (fun e => e.block == 9 && e.inst == p) then some (9, p, sealApplied 9 p (ports p) es) else none)

/-- An accepted commit as the words of its first two writes (R308): one CHANGE entry per field with COMMIT = L + 1, then
the new records with REQ = L + 1. -/
def State.sealStart (s : State) (es : List SealEntry) (ports : Nat → List Nat) (waiting : Bool) : State :=
  let l := s.scValue 2
  let next := s.fld MH_LEDGER_NEXT.ENTRY_NO
  let entries := (List.range es.length).flatMap fun i =>
    let e := nth es i ⟨0, 0, 0, 0⟩
    let old := if e.block = 8 then nth (s.mhFields e.inst) e.index 0 else nth (ports e.inst) e.index 0
    s.ledgerWords (next + i) (l + 1)
      { type := 1, block := e.block, inst := e.inst, slot := s.mh.slot, field := e.id, before := old, after := e.value }
  let targets := s.sealTargets es ports
  let records := targets.flatMap fun t => s.recordWords t.1 t.2.1 (l + 1) t.2.2
  let s := (s.setFlag MH_SEAL_STAT.BUSY true).setFld MH_SEAL_STAT.CODE 0
  let s : State := { s.setFld MH_SEAL_STAT.ENTRY 0 with
    mh := { s.mh with sealing := some { entries := es, words := entries ++ records, booked := es.length, fields := targets, waiting := waiting } } }
  s.showHeld

/-- A sealed commit refused: its code and entry, nothing else (R307). -/
def State.sealRefuse (s : State) (code entry : Nat) : State :=
  ((s.setFld MH_SEAL_STAT.CODE code).setFld MH_SEAL_STAT.ENTRY entry).setFlag MH_EVT.COMMIT true

/-- The sealed values of port `p`: those that await its next block, else those in use. -/
def State.portFields (s : State) (p : Nat) : List Nat := (nth s.me.newFields p none).getD (s.meFieldsNow p)

/-- A sealed commit checked and started (R307, R308); one that names an ME field waits for the end of a BIST run or
shadowing of the ME spare (R505). -/
def State.sealCommit (s : State) (num : Nat) (es : List SealEntry) : State :=
  match s.sealRefusal num es s.portFields with
  | some (c, i) => s.sealRefuse c i
  | none =>
    s.sealStart es s.portFields
      (es.any (fun e => e.block == 9) && (s.flag ME_STAT.BIST || s.flag ME_STAT.SHADOW))

/-- A write of MH_SEAL_CMD (R306 to R308). -/
def State.sealCmdWrite (s : State) (v : Word) : State :=
  if MH_SEAL_CMD.KEY.of v ≠ 0x5EA1 ∨ MH_SEAL_CMD.GO.of v = 0 then s else
  let n := MH_SEAL_CMD.NUM.of v
  let num := if n = 31 then 16 else n
  s.sealCommit num ((List.range (min num 16)).map s.sealEntry)

/-- MH_SEAL_CMD (R306 to R308). -/
def execMhSealCmd (v : Word) (s : State) : Out := s.cpDoes fun s => s.sealCmdWrite v

/-- The commit point of R308 has passed: the entries are booked, the records are current (R536) and the new values wait for their
boundaries. -/
def State.sealBook (s : State) (c : SealSt) : State :=
  let s := (s.scIncrement 2).ledgerGrow c.booked
  let s := s.setFlag MH_STAT.SEALV s.sealedValid
  c.fields.foldl (fun s t =>
    if t.1 = 8 then s.setCalc t.2.1 { s.calculator t.2.1 with newFields := some t.2.2 }
    else { s with me := { s.me with newFields := putAt s.me.newFields t.2.1 (some t.2.2) } }) s

/-- SEALED_COMMIT_END (R308): the writes are done and the ledger counter advances; a totals save, a brown stall and a coming
SYSRST keep the array from it (R22, R445, R446). Where it is the first booking after room returned, the LOST entry follows it
(R309). (DESIGN CHOICE, log entry 15) -/
def execSealedCommitEnd (s : State) : Out :=
  State.out <|
    match s.mh.sealing with
    | none => s
    | some c =>
      if c.waiting || s.pmBlocked 2 || s.rst.sys then s else
      let s : State := { s.pmProgramAll c.words with mh := { s.mh with sealing := none } }
      let s := (if s.scCheck 2 = .done then (s.sealBook c).bookLost else s).pmServe
      ((s.setFlag MH_SEAL_STAT.BUSY false).setFld MH_SEAL_STAT.CODE 0).setFlag MH_EVT.COMMIT true

/-- A sealed commit cut after `n` of its words, or after its counter increment when `n` exceeds them (R308): nothing of it
stays in the machine but what the array holds. (DESIGN CHOICE, log entry 15) -/
def State.sealCut (s : State) (n : Nat) : State :=
  match s.mh.sealing with
  | none => s
  | some c =>
    let s : State := { s with mh := { s.mh with sealing := none, deferred := [] } }
    if c.waiting then s
    else
      let s := s.pmProgramAll (c.words.take n)
      if c.words.length < n then s.scIncrement 2 else s

/-- A commit that waited for the ME takeover goes on (R505): it starts from the ledger as it now stands. -/
def State.sealResume (s : State) : State :=
  match s.mh.sealing with
  | none => s
  | some c => if c.waiting then s.sealStart c.entries s.portFields false else s

/-- ME_COMMIT_WAIT_TIMEOUT (R505): a waiting commit is refused with REFUSED_SELFTEST. -/
def execMeCommitWaitTimeout (s : State) : Out :=
  State.out <|
    match s.mh.sealing with
    | none => s
    | some c =>
      if c.waiting then
        { (s.sealRefuse 0x11 0).setFlag MH_SEAL_STAT.BUSY false with mh := { s.mh with sealing := none } }
      else s

/-- A write of MH_LEDGER_ACK (R310): it acts only with the metrology authorisation and on a booked entry not yet acknowledged. -/
def State.ledgerAckWrite (s : State) (v : Word) : State := if s.flag MH_STAT.MAUTH then s.ledgerAck v.toNat else s

/-- MH_LEDGER_ACK (R310). -/
def execMhLedgerAck (v : Word) (s : State) : Out := s.cpDoes fun s => s.ledgerAckWrite v

end Sys2Proof.Machine
end

