-- ==== Sys2Proof/Machine/Me.lean ====
section
/-! DEFINITION. Electrical metering (chapter 15): the sample chain, automatic gain, block energies and supply events. -/

namespace Sys2Proof.Machine

/-- A metering port. -/
def State.port (s : State) (p : Nat) : MePort := nth s.me.ports p {}
/-- A metering port replaced. -/
def State.setPort (s : State) (p : Nat) (m : MePort) : State := { s with me := { s.me with ports := putAt s.me.ports p m } }

/-- Sealed port field 0x0901 + k as in use. -/
def State.meField (s : State) (p k : Nat) : Nat := (s.reg (ME_P_FIELD p k)).toNat

/-- The phases of a port's MODE: 3P4W has three, 1P2W one (R316). -/
def State.mePhases (s : State) (p : Nat) : List Nat :=
  match s.meField p 0 with
  | 1 => [0, 1, 2]
  | 2 => [0]
  | _ => []

/-- The billing register of quantity `q` of port `p` (R320). -/
def State.meBill (s : State) (p q : Nat) : Nat := billOf (accUnits (nth (s.port p).acc q 0)) (energyUnit (s.meField p 6))

/-- The gain code in use on current channel `ch`. -/
def State.meGain (s : State) (p ch : Nat) : Nat := bits (s.fld (ME_P_GAIN.GAIN p)) (2 * ch + 1) (2 * ch)

/-- 4^g: ×1, ×4, ×16, ×64. -/
def gainFactor (g : Nat) : Nat := 4 ^ g

/-- The full scale of current channel at gain code `g`, in amperes: 0.5 V / gain × I_SCALE (R314, R317). -/
def State.meFullScale (s : State) (p g : Nat) : Nat :=
  fmul b64 (fdiv b64 (fofRat b64 1 2) (f64 (gainFactor g))) (fconv b32 b64 (s.meField p 3))

/-- A 24-bit modulator code as volts at the balls, `fs` its full scale (R314). (DESIGN CHOICE, log entry 20) -/
def codeVolts (code : Int) (fs : Nat) : Nat := fmul b64 (fofScaled b64 code (-23)) fs

/-- A sample at the modulator limit (R317). (DESIGN CHOICE, log entry 20) -/
def atLimit (code : Int) : Bool := decide (code ≤ -8388608) || decide (8388607 ≤ code)

/-- 1 + ppm · 10⁻⁶. -/
def ppmFactor (ppm : Int) : Nat := fadd b64 (f64 1) (fmul b64 (f64 ppm) (fofRat b64 1 1000000))

/-- The coefficient of the high-pass filter: 1/(1 + 2π·0.5/8000), for a corner at 0.5 Hz and 8,000 samples a second (R315).
(DESIGN CHOICE, log entry 9) -/
def highPass : Nat := fofScaled b64 (1099080020061 + clampInt (-131072) 131072 Config.highPassError) (-40)

/-- Step 1 of R315 on one channel: the input in volts at the balls and the output of the high-pass filter. Channels 0 to 3 are V1,
V2, V3, VN; 4 to 7 are I1, I2, I3, IN. (DESIGN CHOICE, log entry 9) -/
def State.meFilter (s : State) (p ch : Nat) (code : Int) : Nat × Nat :=
  let m := s.port p
  let fs := if 4 ≤ ch then fdiv b64 (fofRat b64 1 2) (f64 (gainFactor (s.meGain p (ch - 4)))) else f64 1
  let x := codeVolts code fs
  (x, fmul b64 highPass (fadd b64 (nth m.hpY ch 0) (fsub b64 x (nth m.hpX ch 0))))

/-- Step 2 of R315: V_SCALE or I_SCALE. -/
def State.meRaw (s : State) (p ch y : Nat) : Nat := fmul b64 y (fconv b32 b64 (s.meField p (if 4 ≤ ch then 3 else 2)))

/-- Steps 2 and 3 of R315 on a filtered value with its gain code, by the values in use: a block is computed wholly under them,
also for the sample that waits at its boundary (R316). -/
def State.meCorr (s : State) (p ch : Nat) (v : Nat × Nat) : Nat :=
  let corr := if 4 ≤ ch then s.meField p (15 + 4 * (ch - 4) + v.2) else s.meField p (10 + ch)
  fmul b64 (s.meRaw p ch v.1) (ppmFactor (signed 32 corr))

/-- The value a sample stands for after steps 2 and 3. (DESIGN CHOICE, log entry 20) -/
def State.meVal (s : State) (p ch : Nat) : MeVal → Nat
  | .own a => s.meCorr p ch a
  | .half a b => fdiv b64 (fadd b64 (s.meCorr p ch a) (s.meCorr p ch b)) (f64 2)
  | .line a b n d =>
    let l := s.meCorr p ch a
    fadd b64 l (fdiv b64 (fmul b64 (fsub b64 (s.meCorr p ch b) l) (f64 n)) (f64 d))

/-- Channel `ch` of a set taken in `k` samples ago (0: the newest). -/
def State.mePast (s : State) (p ch k : Nat) : Nat :=
  s.meVal p ch (nth (nth (s.port p).history k {}).vals ch (.own (0, 0)))

/-- The phase correction of a current channel at gain code `g` as a number of samples: PHASE_I in 0.001° at F_NOM (R315, R316). -/
def State.mePhaseShift (s : State) (p ch g : Nat) : Nat :=
  let hz : Int := if s.meField p 1 = 1 then 60 else 50
  fofRat b64 (signed 32 (s.meField p (31 + 4 * ch + g)) * 8000) (360000 * hz.toNat)

/-- Step 4 of R315: the value `d` samples before the newest one, interpolated between its neighbours. `past k` is the value `k`
samples before, `ahead k` the value `k` samples after it. (DESIGN CHOICE, log entry 20) -/
def phaseShift (d : Nat) (ahead past : Nat → Nat) : Nat :=
  let line (x : Nat → Nat) (d : Nat) : Nat :=
    let k := ((ffloor b64 d).getD 0).toNat
    fadd b64 (x k) (fmul b64 (fsub b64 d (f64 k)) (fsub b64 (x (k + 1)) (x k)))
  if flt b64 d 0 then line ahead (fneg b64 d) else line past d

/-- The samples ahead of a set that a phase correction of `d` samples needs. (DESIGN CHOICE, log entry 20) -/
def samplesAhead (d : Nat) : Nat :=
  if flt b64 d 0 then
    let k := ((ffloor b64 (fneg b64 d)).getD 0).toNat
    if feq b64 (fneg b64 d) (f64 k) then k else k + 1
  else 0

/-- The highest gain code at which |x| is at most half of full scale (R317), from `g` downwards. -/
def State.gainDown (s : State) (p x : Nat) : Nat → Nat
  | 0 => 0
  | g + 1 => if fle b64 x (fmul b64 (fofRat b64 1 2) (s.meFullScale p (g + 1))) then g + 1 else s.gainDown p x g

/-- The gain procedure of R317 on current channel `ch` with raw magnitude `x`: the new gain code and the `below` count. -/
def State.gainStep (s : State) (p ch x : Nat) (clipped : Bool) : Nat × Nat :=
  let g := s.meGain p ch
  let fs := s.meFullScale p g
  let below := nth (s.port p).below ch 0
  if clipped then (0, below)
  else if flt b64 (fmul b64 (fofRat b64 9 10) fs) x then (s.gainDown p x 3, below)
  else
    let below := if flt b64 x (fmul b64 (fofRat b64 1 5) fs) then below + 1 else 0
    (if below = 320 ∧ g < 3 then g + 1 else g, below)

/-- Gain, CLIP and SWITCHES after one sample of current channel `ch` (R317, R318). -/
def State.meGainStep (s : State) (p ch x : Nat) (clipped : Bool) : State :=
  let g := s.meGain p ch
  let (gNew, below) := s.gainStep p ch x clipped
  let m := s.port p
  let s :=
    if clipped then
      let n := nth m.clips ch 0 + 1
      let s := s.setPort p { m with clips := putAt m.clips ch n }
      let s := (s.setFld (ME_P_STAT.CLIP p) (putBit (s.fld (ME_P_STAT.CLIP p)) ch true)).setFlag (ME_P_EVT.CLIP p) true
      s.bookEvent { type := 26, block := 9, inst := p, field := 2 ^ ch, before := g, after := n }
    else s
  let m := s.port p
  if gNew = g then s.setPort p { m with below := putAt m.below ch below, switched := putAt m.switched ch false }
  else
    let s := s.setPort p { m with below := putAt m.below ch 0, switched := putAt m.switched ch true }
    let all := s.fld (ME_P_GAIN.GAIN p)
    let s := s.setFld (ME_P_GAIN.GAIN p) (all - g * 4 ^ ch + gNew * 4 ^ ch)
    (s.countUp (ME_P_GAIN.SWITCHES p)).setFlag (ME_P_EVT.GAIN p) true

/-- The filtered value of a frame's channel, with its gain code. -/
def MeFrame.at_ (f : MeFrame) (ch : Nat) : Nat × Nat := (nth f.y ch 0, if 4 ≤ ch then nth f.g (ch - 4) 0 else 0)

/-- The first value of channel `ch` among later frames that is valid there, and how many frames ahead it lies. -/
def nextValid (ch : Nat) : Nat → List MeFrame → Option (Nat × (Nat × Nat))
  | _, [] => none
  | k, f :: t => if nth f.ok ch false then some (k, f.at_ ch) else nextValid ch (k + 1) t

/-- What a frame stands for on channel `ch`: its own value if valid; half the sum of the nearest valid samples on either side for
a switch or clipped sample (R317, R318); its place on the line between them for a flagged one (R51). None while no later valid
value is known. (DESIGN CHOICE, log entry 20) -/
def MePort.resolveChannel (m : MePort) (f : MeFrame) (later : List MeFrame) (ch : Nat) : Option MeVal :=
  if nth f.ok ch false then some (.own (f.at_ ch))
  else
    let n := nth m.since ch 0 + 1
    (nextValid ch 1 later).map fun (k, v) =>
      if f.flagged then .line (nth m.valid ch (0, 0)) v n (n + k) else .half (nth m.valid ch (0, 0)) v

/-- The port with a frame behind it: the last valid sample of each channel, and how long ago it was. -/
def MePort.passed (m : MePort) (f : MeFrame) : MePort :=
  { m with valid := (List.range 8).map fun ch => if nth f.ok ch false then f.at_ ch else nth m.valid ch (0, 0)
           since := (List.range 8).map fun ch => if nth f.ok ch false then 0 else nth m.since ch 0 + 1 }

/-- A frame resolved on all eight channels, once the sample that follows is there (R315). (DESIGN CHOICE, log entry 20) -/
def MePort.resolveFrame (m : MePort) (f : MeFrame) (later : List MeFrame) : Option MeSet :=
  if later.isEmpty then none
  else
    let r := (List.range 8).map (m.resolveChannel f later)
    if r.all Option.isSome then some { vals := r.map (·.getD (.own (0, 0))), g := f.g, no := f.no } else none

/-- What the next `n` frames stand for on channel `ch`. None while one of them is open. -/
def MePort.ahead (m : MePort) (ch : Nat) : Nat → List MeFrame → Option (List MeVal)
  | 0, _ => some []
  | _ + 1, [] => none
  | n + 1, f :: t =>
    match m.resolveChannel f t ch, (m.passed f).ahead ch n t with
    | some v, some l => some (v :: l)
    | _, _ => none

/-- The number of the sample instant of the newest set taken in. -/
def State.meNow (s : State) (p : Nat) : Nat := (nth (s.port p).history 0 {}).no

/-- v delayed by a quarter of the period measured on V1, interpolated between samples (R319). -/
def State.quarterDelayed (s : State) (p ph : Nat) : Nat :=
  let d := fdiv b64 (s.port p).period (f64 4)
  match ffloor b64 d with
  | some k =>
    let k := k.toNat
    let frac := fsub b64 d (f64 k)
    let a := s.mePast p ph k
    let b := s.mePast p ph (k + 1)
    fadd b64 (fmul b64 a (fsub b64 (f64 1) frac)) (fmul b64 b frac)
  | none => 0

/-- The sum with a product added. -/
def mac64 (acc x y : Nat) : Nat := fadd b64 acc (fmul b64 x y)

/-- A percentage of V_NOM in volts. -/
def State.pctNom (s : State) (p pct : Nat) : Nat := fofRat b64 (pct * s.meField p 4 : Nat) 1000

/-- An RMS value in 0.1 V. -/
def deciVolts (x : Nat) : Nat := ((ftoInt b64 (fmul b64 x (f64 10))).getD 0).toNat

/-- SAG and SWELL on phase `ph` after its cycle RMS was refreshed (R322, R323). -/
def State.sagSwell (s : State) (p ph : Nat) : State :=
  let m := s.port p
  let f := nth m.phases ph {}
  let sag := bit (s.fld (ME_P_STAT.SAG p)) ph
  let swell := bit (s.fld (ME_P_STAT.SWELL p)) ph
  let sagL := s.meField p 7
  let swL := s.meField p 8
  let put (s : State) (f : MePhase) : State := s.setPort p { s.port p with phases := putAt (s.port p).phases ph f }
  let s :=
    if !sag && flt b64 f.rms (s.pctNom p sagL) then
      let s := put s { f with sagAt := s.meNow p, sagExt := f.rms }
      let s := (s.setFld (ME_P_STAT.SAG p) (putBit (s.fld (ME_P_STAT.SAG p)) ph true)).setFlag (ME_P_EVT.SAG p) true
      s.bookEvent { type := 20, block := 9, inst := p, field := 2 ^ ph, before := deciVolts f.rms }
    else if sag then
      let ext := fmin b64 f.sagExt f.rms
      if fle b64 (s.pctNom p (sagL + 2)) f.rms then
        let s := (s.setFld (ME_P_STAT.SAG p) (putBit (s.fld (ME_P_STAT.SAG p)) ph false)).setFlag (ME_P_EVT.SAG p) true
        s.bookEvent { type := 21, block := 9, inst := p, field := 2 ^ ph, before := deciVolts ext,
                      after := (s.meNow p - f.sagAt) / 8 }
      else put s { f with sagExt := ext }
    else s
  let f := nth (s.port p).phases ph {}
  if !swell && flt b64 (s.pctNom p swL) f.rms then
    let s := put s { f with swellAt := s.meNow p, swellExt := f.rms }
    let s := (s.setFld (ME_P_STAT.SWELL p) (putBit (s.fld (ME_P_STAT.SWELL p)) ph true)).setFlag (ME_P_EVT.SWELL p) true
    s.bookEvent { type := 22, block := 9, inst := p, field := 2 ^ ph, before := deciVolts f.rms }
  else if swell then
    let ext := fmax b64 f.swellExt f.rms
    if fle b64 f.rms (s.pctNom p (swL - 2)) then
      let s := (s.setFld (ME_P_STAT.SWELL p) (putBit (s.fld (ME_P_STAT.SWELL p)) ph false)).setFlag (ME_P_EVT.SWELL p) true
      s.bookEvent { type := 23, block := 9, inst := p, field := 2 ^ ph, before := deciVolts ext,
                    after := (s.meNow p - f.swellAt) / 8 }
    else put s { f with swellExt := ext }
  else s

/-- PLOSS on phase `ph` started or ended (R322, R323). -/
def State.setPloss (s : State) (p ph : Nat) (on : Bool) : State :=
  let m := s.port p
  let f := nth m.phases ph {}
  let s := (s.setFld (ME_P_STAT.PLOSS p) (putBit (s.fld (ME_P_STAT.PLOSS p)) ph on)).setFlag (ME_P_EVT.PLOSS p) true
  let s := s.setPort p { m with phases := putAt m.phases ph { f with low := 0, high := 0, plossAt := if on then s.meNow p else f.plossAt } }
  s.bookEvent { type := if on then 24 else 25, block := 9, inst := p, field := 2 ^ ph, before := s.meBill p 0,
                after := if on then 0 else (s.meNow p - f.plossAt) / 8000 }

/-- PLOSS by cycle RMS, judged once a cycle: below 20 % for 2 cycles starts it, at or above 25 % for 2 cycles ends it. -/
def State.plossCycle (s : State) (p ph : Nat) : State :=
  let m := s.port p
  let f := nth m.phases ph {}
  let low := if flt b64 f.rms (s.pctNom p 20) then f.low + 1 else 0
  let high := if fle b64 (s.pctNom p 25) f.rms then f.high + 1 else 0
  let on := bit (s.fld (ME_P_STAT.PLOSS p)) ph
  let s := s.setPort p { m with phases := putAt m.phases ph { f with low := low, high := high } }
  if !on && decide (2 ≤ low) then s.setPloss p ph true
  else if on && decide (2 ≤ high) then s.setPloss p ph false
  else s

/-- The phases that take part in a test on all three: those of 3P4W not under PLOSS (R322). -/
def State.meWhole (s : State) (p : Nat) : List Nat :=
  if s.meField p 0 = 1 then [0, 1, 2].filter fun ph => !bit (s.fld (ME_P_STAT.PLOSS p)) ph else []

/-- The phase mask of the phases `l` (R323). -/
def phaseMask (l : List Nat) : Nat := l.foldl (fun m k => m + 2 ^ k) 0

/-- SEQ started or ended (R322, R323). (DESIGN CHOICE, log entry 20) -/
def State.setSeq (s : State) (p : Nat) (on : Bool) : State :=
  let s := (s.setFlag (ME_P_STAT.SEQ p) on).setFlag (ME_P_EVT.SEQ p) true
  s.bookEvent { type := if on then 16 else 17, block := 9, inst := p, field := phaseMask (s.meWhole p), before := s.meBill p 0,
                after := s.meBill p 1 }

/-- The order of rising crossings judged at each one of V1 that ends a cycle (R322): 50 cycles V1, V3, V2 start SEQ, 50 of V1,
V2, V3 end
it. A phase under PLOSS is left out; two phases follow each other in the same order in both rotations, which decides neither.
(DESIGN CHOICE, log entry 20) -/
def State.seqCycle (s : State) (p : Nat) : State :=
  let m := s.port p
  if !m.cycle then s.setPort p { m with cycle := true, order := [] } else
  let whole := s.meWhole p == [0, 1, 2]
  let wrong := if whole && m.order == [2, 1] then m.seqWrong + 1 else 0
  let right := if whole && m.order == [1, 2] then m.seqRight + 1 else 0
  let s := s.setPort p { m with order := [], seqWrong := wrong, seqRight := right }
  if wrong = 50 ∧ s.flag (ME_P_STAT.SEQ p) = false then s.setSeq p true
  else if right = 50 ∧ s.flag (ME_P_STAT.SEQ p) = true then s.setSeq p false
  else s

/-- The period and time of V1 after a rising crossing, interpolated between the samples `a` < 0 ≤ `b` (R319). -/
def State.periodStep (s : State) (p a b : Nat) : State :=
  let m := s.port p
  let at' := fsub b64 (f64 (s.meNow p)) (fdiv b64 b (fsub b64 b a))
  let per := fsub b64 at' m.crossAt
  s.setPort p { m with crossAt := at', period := if m.crossAt = 0 then m.period else per }

/-- One resolved voltage sample of phase `ph` (R322): squares gathered, and at a zero crossing the cycle RMS refreshed and
the events judged, once the two half cycles before it began at a crossing. (DESIGN CHOICE, log entry 20) -/
def State.phaseStep (s : State) (p ph v : Nat) : State :=
  let m := s.port p
  let f := nth m.phases ph {}
  let rising := f.seen && flt b64 f.last 0 && fle b64 0 v
  let falling := f.seen && fle b64 0 f.last && flt b64 v 0
  let before := f.last
  let f : MePhase := { f with seen := true }
  let f : MePhase :=
    if rising || falling then
      let n := f.oldN + f.curN
      let rms := if f.crossings < 2 then f.rms else fsqrt b64 (fdiv b64 (fadd b64 f.oldSum f.curSum) (f64 n))
      { f with rms := rms, oldSum := f.curSum, oldN := f.curN, curSum := fmul b64 v v, curN := 1, sinceCross := 0, last := v,
               crossings := min 3 (f.crossings + 1) }
    else { f with curSum := mac64 f.curSum v v, curN := f.curN + 1, sinceCross := f.sinceCross + 1, last := v }
  let s := s.setPort p { m with phases := putAt m.phases ph f }
  if rising || falling then
    let s := if f.crossings = 3 then s.sagSwell p ph else s
    if rising then
      let s := if f.crossings = 3 then s.plossCycle p ph else s
      if ph = 0 then (s.periodStep p before v).seqCycle p
      else s.setPort p { s.port p with order := (s.port p).order ++ [ph] }
    else s
  else if f.sinceCross = 320 ∧ bit (s.fld (ME_P_STAT.PLOSS p)) ph = false then s.setPloss p ph true
  else s

/-- The accumulators of port `p` shown in their ACC_LO registers. -/
def State.meShow (s : State) (p : Nat) : State :=
  forN (fun q s => s.setReg (ME_P_ACC_LO p q) (BitVec.ofNat 32 (accUnits (nth (s.port p).acc q 0)))) 7 s

/-- The companions of ME_P_ACC_LO captured at its read (R305, R320). -/
def State.meCapture (s : State) (p q : Nat) : State :=
  let u := accUnits (nth (s.port p).acc q 0)
  let s := s.setReg (ME_P_ACC_HI p q) (BitVec.ofNat 32 (u / 2 ^ 32))
  let unit := energyUnit (s.meField p 6)
  (s.setFld (ME_P_BILL.BILL p q) (billOf u unit)).setFld (ME_P_WRAP.WRAP p q) (wrapOf u unit)

/-- The mean over the 80 samples of a block. (DESIGN CHOICE, log entry 20) -/
def blockMean (x : Nat) : Nat := fdiv b64 x (f64 80)

/-- The read-only view of a port's sealed fields. -/
def State.meViews (s : State) (p : Nat) : State :=
  ((s.setFld (ME_P_CFG.MODE p) (s.meField p 0)).setFld (ME_P_CFG.F_NOM p) (s.meField p 1)).setFld (ME_P_CFG.E_UNIT p) (s.meField p 6)

/-- Values put into use in the sealed fields of port `p` (R316); samples are kept before scales and corrections, so the next block
is computed under them alone. -/
def State.meApply (s : State) (p : Nat) (vals : List Nat) : State :=
  let s := forN (fun k s => s.setReg (ME_P_FIELD p k) (BitVec.ofNat 32 (nth vals k 0))) 47 s
  { s.meViews p with me := { s.me with newFields := putAt s.me.newFields p none } }

/-- NEUTRAL after a block (R322, R323): both conditions over 5 blocks start it, either false over 5 blocks ends it. The values are
those of the phases `l` that take part. (DESIGN CHOICE, log entry 20) -/
def State.neutralStep (s : State) (p : Nat) (l : List Nat) (dispRms isumRms meanI : Nat) : State :=
  let m := s.port p
  let cond := s.meField p 0 == 1 && !l.isEmpty
    && flt b64 (s.pctNom p (s.meField p 9)) dispRms
    && flt b64 isumRms (fmul b64 (fofRat b64 2 100) meanI)
    && flt b64 (fofRat b64 (s.meField p 5) 10000) meanI
  let on := if cond then m.neutralOn + 1 else 0
  let off := if cond then 0 else m.neutralOff + 1
  let s := s.setPort p { m with neutralOn := on, neutralOff := off }
  let active := s.flag (ME_P_STAT.NEUTRAL p)
  if !active && decide (5 ≤ on) then
    let s := s.setPort p { s.port p with neutralAt := s.meNow p }
    let s := (s.setFlag (ME_P_STAT.NEUTRAL p) true).setFlag (ME_P_EVT.NEUTRAL p) true
    s.bookEvent { type := 18, block := 9, inst := p, field := phaseMask l, before := deciVolts dispRms }
  else if active && decide (5 ≤ off) then
    let s := (s.setFlag (ME_P_STAT.NEUTRAL p) false).setFlag (ME_P_EVT.NEUTRAL p) true
    s.bookEvent { type := 19, block := 9, inst := p, field := phaseMask l, before := deciVolts dispRms,
                    after := (s.meNow p - m.neutralAt) / 8000 }
  else s

/-- The energies of the block booked (R319): one active, one reactive and the apparent quantity.
(DESIGN CHOICE, log entry 20) -/
def State.bookBlock (s : State) (p pw q ap : Nat) : State :=
  let tenMs := fofRat b64 1 100
  let m := s.port p
  let pos := fle b64 0 pw
  let qpos := fle b64 0 q
  let acc := addTo m.acc (if pos then 0 else 1) (fmul b64 (fabs b64 pw) tenMs)
  let acc := addTo acc (if pos && qpos then 2 else if !pos && qpos then 3 else if !pos && !qpos then 4 else 5) (fmul b64 (fabs b64 q) tenMs)
  (s.setPort p { m with acc := addTo acc 6 (fmul b64 ap tenMs) }).meShow p

/-- The items of R324 after a block. -/
def State.meItems (s : State) (p pw q ap : Nat) (rms : List Nat) (inRms disp : Nat) (ps : List Nat) : State :=
  let m := s.port p
  let put (i x : Nat) (s : State) : State := s.setReg (ME_P_VAL p i) (BitVec.ofNat 32 (fconv b64 b32 x))
  let one := s.meField p 0 == 2
  let s := forN (fun k s => put k (if one && k != 0 then 0 else (nth m.phases k {}).rms) s) 3 s
  let s := forN (fun k s => put (3 + k) (if one && k != 0 then 0 else nth rms k 0) s) 3 s
  let s := put 6 pw (put 7 q (put 8 ap s))
  let s := put 9 (if m.period = 0 then 0 else fdiv b64 (f64 8000) m.period) s
  let s := put 10 (if feq b64 ap 0 then 0 else fdiv b64 pw ap) s
  let s := forN (fun k s => put (11 + k) (if one && k != 0 then 0 else nth ps k 0) s) 3 s
  put 14 (if one then 0 else inRms) (put 15 disp s)

/-- The block in which a spare copy takes over (R321): it shadows one whole block and takes over at the boundary that ends
it; a commit that waited for it goes on (R505). -/
def State.shadowStep (s : State) (p : Nat) : State :=
  let lead := if s.meField 0 0 = 0 ∧ s.meField 1 0 ≠ 0 then 1 else 0
  if !(s.flag ME_STAT.SHADOW) || p != lead then s
  else if s.me.shadowed = 0 then { s with me := { s.me with shadowed := 1 } }
  else
    let s := { s with me := { s.me with shadowed := 0 } }
    ((s.setFlag ME_STAT.SHADOW false).setFld ME_STAT.COPY (1 - s.fld ME_STAT.COPY)).sealResume

/-- A block boundary of port `p`: new sealed values if a commit left some (R316), and the shadowing copy (R321). -/
def State.blockNext (s : State) (p : Nat) : State :=
  let s := match nth s.me.newFields p none with
    | some vals => s.meApply p vals
    | none => s
  s.shadowStep p

/-- The newest set, phase-corrected, taken into the block's sums and the event watch (R315, R319, R322); `ahead` holds the
currents of the samples that follow, as far as a correction needs them. The sums of the NEUTRAL test leave out phases under PLOSS.
(DESIGN CHOICE, log entry 20) -/
def State.integrateFrame (s : State) (p : Nat) (ahead : List (List MeVal)) : State :=
  let m := s.port p
  let ph := s.mePhases p
  let b := m.sums
  let upd (l : List Nat) (g : Nat → Nat → Nat) : List Nat := (List.range 3).map fun i => if ph.contains i then g (nth l i 0) i else nth l i 0
  let v (k : Nat) := s.mePast p k 0
  let now (k : Nat) : MeVal := nth (nth m.history 0 {}).vals (4 + k) (.own (0, 0))
  let i (k : Nat) := phaseShift (s.mePhaseShift p k (nth (nth m.history 0 {}).g k 0))
    (fun j => s.meVal p (4 + k) (nth (now k :: nth ahead k []) j (now k))) (s.mePast p (4 + k))
  let mean (l : List Nat) (x : Nat → Nat) : Nat := fdiv b64 (fsum b64 0 (l.map x)) (f64 l.length)
  let disp := mean [0, 1, 2] v
  let l := s.meWhole p
  let nd := if l.isEmpty then 0 else mean l v
  let isum := fsum b64 0 (l.map i)
  let b := { n := b.n + 1
             p := upd b.p (fun a k => mac64 a (v k) (i k)), q := upd b.q (fun a k => mac64 a (s.quarterDelayed p k) (i k)),
             v2 := upd b.v2 (fun a k => mac64 a (v k) (v k)), i2 := upd b.i2 (fun a k => mac64 a (i k) (i k)),
             in2 := mac64 b.in2 (i 3) (i 3), disp2 := mac64 b.disp2 disp disp, nd2 := mac64 b.nd2 nd nd,
             isum2 := mac64 b.isum2 isum isum }
  let s := s.setPort p { m with sums := b }
  ph.foldl (fun s k => s.phaseStep p k (v k)) s

/-- The currents of the samples after `f`, as far as a phase correction ahead needs them: none where one of these is open.
(DESIGN CHOICE, log entry 20) -/
def State.meAhead (s : State) (p : Nat) (f : MeFrame) (later : List MeFrame) : Option (List (List MeVal)) :=
  let m := (s.port p).passed f
  let r := (List.range 4).map fun k => m.ahead (4 + k) (samplesAhead (s.mePhaseShift p k (nth f.g k 0))) later
  if r.all Option.isSome then some (r.map (·.getD [])) else none

/-- A block of port `p` whose 80 samples are taken in (R319 to R324): it is booked, its items are written, and the next block
begins, with new sealed values if a commit left some (R316). (DESIGN CHOICE, log entry 20) -/
def State.blockEnd (s : State) (p : Nat) : State :=
  let b := (s.port p).sums
  let ps := b.p.map blockMean
  let pw := fsum b64 0 ps
  let q := fsum b64 0 (b.q.map blockMean)
  let irms := b.i2.map fun x => fsqrt b64 (blockMean x)
  let vrms := b.v2.map fun x => fsqrt b64 (blockMean x)
  let ap := fsum b64 0 ((List.range 3).map fun k => fmul b64 (nth vrms k 0) (nth irms k 0))
  let disp := fsqrt b64 (blockMean b.disp2)
  let s := s.bookBlock p pw q ap
  let s := s.meItems p pw q ap irms (fsqrt b64 (blockMean b.in2)) disp ps
  let l := s.meWhole p
  let meanI := fdiv b64 (fsum b64 0 (l.map fun k => nth irms k 0)) (f64 l.length)
  let s := s.neutralStep p l (fsqrt b64 (blockMean b.nd2)) (fsqrt b64 (blockMean b.isum2)) meanI
  let s := s.setPort p { s.port p with sums := {} }
  ((s.setReg (ME_P_SEQ p) (s.reg (ME_P_SEQ p) + 2)).setFlag (ME_P_EVT.BLOCK p) true).blockNext p

/-- The oldest frame taken in, where what follows it is known and the block has room for it. -/
def State.resolveOne (s : State) (p : Nat) : Option State :=
  match (s.port p).frames with
  | f :: later =>
    match (s.port p).resolveFrame f later, s.meAhead p f later with
    | some set, some ahead =>
      let m := (s.port p).passed f
      some ((s.setPort p { m with frames := later, history := set :: m.history }).integrateFrame p ahead)
    | _, _ => none
  | [] => none

/-- Every frame that can be resolved taken in, oldest first. A block of 80 samples ends before the next sample is taken in: at
once where its boundary has passed (`due`), else at METERING_BLOCK. (DESIGN CHOICE, log entry 20) -/
def State.resolveAll (s : State) (p : Nat) : Nat → State
  | 0 => s
  | n + 1 =>
    let m := s.port p
    if m.sums.n < 80 then
      match s.resolveOne p with
      | some s => s.resolveAll p n
      | none => s
    else if m.due = 0 then s
    else ((s.setPort p { m with due := m.due - 1 }).blockEnd p).resolveAll p n

/-- The frames that can be resolved now are taken in. -/
def State.resolveNow (s : State) (p : Nat) : State := s.resolveAll p ((s.port p).frames.length + (s.port p).due + 1)

/-- One sample set of port `p` (R314, R315, R317, R318): the chain, the gains, and the frames now complete. -/
def State.portSample (s : State) (p : Nat) (codes : List Int) (invalid : Bool) : State :=
  if s.meField p 0 = 0 then s else
  let m := s.port p
  let m := { m with samples := m.samples + 1 }
  if invalid then
    let g := (List.range 4).map (s.meGain p)
    let s := s.setPort p { m with frames := m.frames ++ [{ g := g, ok := List.replicate 8 false, flagged := true, no := m.samples }] }
    s.resolveNow p
  else
    let chans := (List.range 8).map fun ch => s.meFilter p ch (nth codes ch 0)
    let y := chans.map (·.2)
    let ok := (List.range 8).map fun ch =>
      decide (ch < 4) || !(nth m.switched (ch - 4) false || atLimit (nth codes ch 0))
    let f : MeFrame := { y := y, g := (List.range 4).map (s.meGain p), ok := ok, no := m.samples }
    let m := { m with hpX := chans.map (·.1), hpY := y, frames := m.frames ++ [f] }
    let s := s.setPort p m
    let s := forN (fun ch s => s.meGainStep p ch (fabs b64 (s.meRaw p (4 + ch) (nth y (4 + ch) 0))) (atLimit (nth codes (4 + ch) 0))) 4 s
    s.resolveNow p

/-- METERING_SAMPLE (R314): both ports sample all channels through the correction chain. -/
def execMeteringSample (codes : List (List Int)) (overlap : Bool) (s : State) : Out :=
  State.out <|
    if !(s.flag ME_CTL.EN) then s
    else
      let invalid := overlap || s.flag PWR_STAT.HOLD
      (s.portSample 0 (nth codes 0 []) invalid).portSample 1 (nth codes 1 []) invalid

/-- METERING_BLOCK (R319 to R324): a port whose block has its 80 samples books it; one whose samples have been taken, the last of
them still waiting for those that follow, books it as soon as it has them. A port that is OFF runs no blocks, and its boundary
only brings new sealed values. (DESIGN CHOICE, log entry 20) -/
def execMeteringBlock (p : Fin 2) (s : State) : Out :=
  State.out <|
    if !(s.flag ME_CTL.EN) then s else
    let m := s.port p
    if s.meField p 0 = 0 then s.blockNext p
    else if m.sums.n + m.frames.length ≤ 80 * (m.due + 1) then s
    else (s.setPort p { m with due := m.due + 1, clips := [0, 0, 0, 0] }).resolveNow p

end Sys2Proof.Machine
end

