-- ==== Sys2Proof/Machine/Access.lean ====
section
/-! DEFINITION. What a write does to a register by the access codes of its fields alone (R4), and which accesses of the CP fault
(R104 to R111). -/

namespace Sys2Proof.Machine

/-- The seals of R101 are written: LK fields are read-only. -/
def State.lkSealed (s : State) : Bool := s.boot.sealed_

/-- The bits [hi:lo] of `w` replaced by those of `v`. -/
def mergeBits (hi lo w v : Nat) : Nat := w - bits w hi lo * 2 ^ lo + bits v hi lo * 2 ^ lo

/-- One field under a write of `v` (R4). -/
def FieldDesc.write (f : FieldDesc) (locked : Bool) (w v : Nat) : Nat :=
  let old := bits w f.hi f.lo
  let new := bits v f.hi f.lo
  let put (x : Nat) := mergeBits f.hi f.lo w (x * 2 ^ f.lo)
  match f.acc with
  | .ro | .wo => w
  | .rw => put new
  | .w1c => put (old - (old &&& new))
  | .w1cAll => if new = 0 then w else put 0
  | .w1s | .rws => put (old ||| new)
  | .lk => if locked then w else put new

/-- A register's value after a write of `v`. -/
def RegDesc.write (r : RegDesc) (locked : Bool) (w v : Nat) : Nat :=
  r.fields.foldl (fun w f => f.write locked w v) w

/-- What a read returns of a word: its WO fields read 0 (R4). -/
def RegDesc.read (r : RegDesc) (w : Nat) : Nat :=
  r.fields.foldl (fun w f => if f.acc = .wo then mergeBits f.hi f.lo w 0 else w) w

/-- A write of the register at `a` by its access codes alone. -/
def State.regWrite (s : State) (a : Nat) (v : Word) : State :=
  match regDesc a with
  | some r => s.setReg a (BitVec.ofNat 32 (r.write s.lkSealed (s.reg a).toNat v.toNat))
  | none => s

/-- The regions of the address map that hold memory: base, last address, and whether they take writes, execution, atomics
(R107). -/
def memRegions : List (Nat × Nat × Bool × Bool × Bool) :=
  [(0x00000000, 0x0001FFFF, false, true, false), (0x08000000, 0x0BFFFFFF, false, true, false),
   (0x20000000, 0x202FFFFF, true, true, true), (0x30000000, 0x301FFFFF, true, false, false),
   (0x31000000, 0x310FFFFF, true, false, false), (0x32000000, 0x320FFFFF, false, false, false),
   (0x33000000, 0x3307FFFF, true, false, false), (0x34000000, 0x3407FFFF, true, false, false),
   (0x38000000, 0x3807FFFF, false, false, false)]

/-- The memory region of an address. -/
def regionOf (a : Nat) : Option (Nat × Nat × Bool × Bool × Bool) :=
  memRegions.find? fun r => decide (r.1 ≤ a) && decide (a ≤ r.2.1)

/-- An address of the peripheral blocks (R107). -/
def inBlocks (a : Nat) : Bool := decide (0x40000000 ≤ a) && decide (a ≤ 0x4014FFFF)

/-- An access is not aligned to its size. -/
def cpMisaligned (x : CpAccess) : Bool := x.addr.toNat % 2 ^ x.size.val != 0

/-- The kinds of access that only CP SRAM takes (R107). -/
def atomicKind (k : AccessKind) : Bool := k == .atomic || k == .loadReserved

/-- The vault firewall denies an access (R110): in the status window all but loads, LR among them. R110 tells reads from writes; a
fetch is neither. (DESIGN CHOICE, log entry 64) -/
def cpDenied (x : CpAccess) : Bool :=
  decide (0x400F0000 ≤ x.addr.toNat) && decide (x.addr.toNat ≤ 0x400FFFFF) && x.who != .machine
    && (!(x.kind == .read || x.kind == .loadReserved) || decide (0x400F1000 ≤ x.addr.toNat))

/-- An access of the table of R108; `ue` says that it reads a CP SRAM word with an uncorrectable ECC error. An aligned 32-bit
access to an offset of a peripheral block that holds no register is none of the table. (DESIGN CHOICE, log entry 64) -/
def State.accessFaults (s : State) (x : CpAccess) (ue : Bool) : Bool :=
  let a := x.addr.toNat
  if inBlocks a then
    x.kind == .fetch || atomicKind x.kind || x.size != 2 || cpMisaligned x || cpDenied x
      || (s.aon.locked && decide (0x40020000 ≤ a) && decide (a < 0x40030000))
  else
    match regionOf a with
    | none => true
    | some (base, _, w, exec, atomics) =>
      (x.kind != .fetch && cpMisaligned x) || (x.kind == .write && !w) || (x.kind == .fetch && !exec) || (atomicKind x.kind && !atomics)
        || (ue && x.kind != .write && base == 0x20000000)

/-- A denial recorded and counted (R111). -/
def State.fwDenied (s : State) (x : CpAccess) : State :=
  let s :=
    if s.fld SYS_FW_STAT.COUNT = 0 then
      let s := s.setFld SYS_FW_STAT.OFFSET (x.addr.toNat % 2 ^ 16)
      (s.setFld SYS_FW_STAT.INIT (if x.who = .debug then 2 else 1)).setFlag SYS_FW_STAT.WRITE (x.kind == .write || x.kind == .atomic)
    else s
  s.countUp SYS_FW_STAT.COUNT

/-- The trap cause of an access fault: 1 instruction, 5 load, 7 store or atomic (R104, R108). -/
def faultCause : AccessKind → Nat
  | .fetch => 1
  | .read | .loadReserved => 5
  | .write | .atomic => 7

/-- The fault of an access, its only effect (R108, R110, R111): the CP's trap, or the debugger's sberror.
(DESIGN CHOICE, log entry 39; DESIGN CHOICE, log entry 64) -/
def State.takeFault (s : State) (x : CpAccess) : State :=
  let s := if inBlocks x.addr.toNat && cpDenied x then s.fwDenied x else s
  if x.who = .debug then s.setCp { s.cp with sberror := if cpMisaligned x then 3 else 2 }
  else s.trapTaken (faultCause x.kind)

/-- PMP entries after the writes of `l`, which leave a locked entry as it is, and the address below a locked TOR entry.
(PRESUMED, log entry 68) -/
def pmpMerge (old : List (Nat × Nat)) (l : List (BitVec 8 × Word)) : List (Nat × Nat) :=
  old.mapIdx fun i e =>
    let next := (nth old (i + 1) (0, 0)).1
    match l[i]? with
    | some w => if bit e.1 7 then e else (w.1.toNat, if bit next 7 && bits next 4 3 == 1 then e.2 else w.2.toNat)
    | none => e

/-- The bytes of PMP entry `e` after one whose address register holds `prev`: from, to. (PRESUMED, log entry 68) -/
def pmpRange (prev : Nat) (e : Nat × Nat) : Nat × Nat :=
  let step := (e.2 ^^^ (e.2 + 1)) + 1
  match bits e.1 4 3 with
  | 0 => (0, 0)
  | 1 => (4 * prev, 4 * e.2)
  | 2 => (4 * e.2, 4 * e.2 + 4)
  | _ => (4 * (e.2 - e.2 % step), 4 * (e.2 - e.2 % step + step))

/-- The permission a PMP entry gives a kind of access. (PRESUMED, log entry 68) -/
def pmpPermits (cfg : Nat) : AccessKind → Bool
  | .read | .loadReserved => bit cfg 0
  | .write => bit cfg 1
  | .atomic => bit cfg 0 && bit cfg 1
  | .fetch => bit cfg 2

/-- The PMP lets an access of a hart through (R104): the first entry that matches any of its bytes decides; without one, machine
mode alone may. (PRESUMED, log entry 68) -/
def pmpAllows (x : CpAccess) : Nat → List (Nat × Nat) → Bool
  | _, [] => x.who == .machine
  | prev, e :: t =>
    let r := pmpRange prev e
    let a := x.addr.toNat
    let n := 2 ^ x.size.val
    if a < r.2 ∧ r.1 < a + n then
      decide (r.1 ≤ a) && decide (a + n ≤ r.2) && ((x.who == .machine && !bit e.1 7) || pmpPermits e.1 x.kind)
    else pmpAllows x e.2 t

/-- The PMP of the CP denies an access of a hart (R104); a debugger's does not pass through it. (PRESUMED, log entry 68) -/
def State.pmpDenies (s : State) (x : CpAccess) : Bool := x.who != .debug && !pmpAllows x 0 s.cp.pmp

/-- An access of the CP to `addr`, of 2^`size` bytes: it faults (R108), or does `f`. The PMP lets it through.
(DESIGN CHOICE, log entry 64) -/
def State.cpAccess (s : State) (addr : Word) (kind : AccessKind) (size : Fin 3) (f : State → State) : Out :=
  s.cpDoes fun s =>
    let x : CpAccess := { addr := addr, kind := kind, size := size, who := .machine }
    if s.accessFaults x false then s.takeFault x else f s

end Sys2Proof.Machine
end

