-- ==== Sys2Proof/Machine/SaOps.lean ====
section
/-! DEFINITION. The numerics of the solver array: forming K, the factorisations, the solves, the products and the QP_ADMM
sequencer in binary32 as the lanes compute it (R189, R203 to R211, R234 to R238), and its cycle counts (R213, R241). A value
is its 32 bits; a vector is a list, a matrix a list of rows. `none` stands for a value that is not finite (R211). -/

namespace Sys2Proof.Machine

namespace Sa

/-- A vector. -/
abbrev Vec := List Nat
/-- A matrix, by rows. -/
abbrev Mat := List (List Nat)

/-- a·b + c with one rounding. -/
def fma (a b c : Nat) : Nat := ffma sa32 a b c
/-- a·b. -/
def mul (a b : Nat) : Nat := fmul sa32 a b
/-- a + b. -/
def add (a b : Nat) : Nat := fadd sa32 a b
/-- a − b. -/
def sub (a b : Nat) : Nat := fsub sa32 a b
/-- −a. -/
def neg (a : Nat) : Nat := fneg sa32 a
/-- The number 1. -/
def one : Nat := 0x3F800000

/-- An element of a vector; +0 where there is none. -/
def at1 (v : Vec) (i : Nat) : Nat := v.getD i 0
/-- An element of a matrix. -/
def at2 (m : Mat) (i j : Nat) : Nat := at1 (m.getD i []) j
/-- A vector of `n` elements. -/
def vec (n : Nat) (f : Nat → Nat) : Vec := (List.range n).map f
/-- A matrix of `r` rows and `c` columns. -/
def mat (r c : Nat) (f : Nat → Nat → Nat) : Mat := (List.range r).map fun i => vec c (f i)

/-- Every element is finite. -/
def fin (v : Vec) : Bool := v.all (fisFin sa32)
/-- Every element is finite. -/
def finM (m : Mat) : Bool := m.all fin

/-- The largest magnitude of a vector, +0 for none. -/
def amax (v : Vec) : Nat := v.foldl (fun m x => fmax sa32 m (fabs sa32 x)) 0

/-- Row by row, from 0, columns upward (R210). -/
def dot (a x : Vec) : Nat := (List.zip a x).foldl (fun acc p => fma p.1 p.2 acc) 0

/-- The product of a matrix and a vector (R210). -/
def gemv (m : Mat) (x : Vec) : Vec := m.map (dot · x)

/-- acc plus the rows of A times the elements of t, rows ascending (R234). -/
def addRows (a : Mat) (t acc : Vec) : Vec :=
  (List.zip a t).foldl (fun acc p => (List.zip p.1 acc).map fun q => fma q.1 p.2 q.2) acc

/-- The lower triangle with its diagonal, mirrored (R203, R204). -/
def mirror (n : Nat) (p : Mat) : Mat := mat n n fun i j => at2 p (max i j) (min i j)

/-- K = P + σI + ρAᵀA in the order that fixes the rounding of each element (R203). -/
def formK (n : Nat) (p a : Mat) (rho sigma : Nat) : Mat :=
  let k := mirror n p
  let k := mat n n fun i j => if i = j then add (at2 k i j) sigma else at2 k i j
  a.foldl (fun k row =>
    let w := row.map (mul rho)
    mat n n fun i j => fma (at1 w i) (at1 row j) (at2 k i j)) k

/-- A factor: FKIND 1 CHOL, 2 LDLT, 3 LU; its matrix as stored, reciprocal pivots, row interchanges, whether a pivot was
tiny or zero, the first regularised column (0xFF: none), its scale. -/
structure Factor where
  kind : Nat := 0
  lu : Mat := []
  d : Vec := []
  p : List Nat := []
  flags : Nat := 0
  firstCol : Nat := 0xFF
  scale : Nat := 0
  deriving DecidableEq, Repr

/-- OK, or DONE_REGULARISED where a pivot was regularised (R206). -/
def Factor.status (f : Factor) : Nat := if f.flags = 0 then Code.ok else Code.doneRegularised

/-- The scale of a matrix (R203). -/
def scaleOf (lu : Bool) (n : Nat) (a : Mat) : Nat :=
  let dg := amax (vec n fun i => at2 a i i)
  if !feq sa32 dg 0 then dg
  else
    let all := amax ((List.range n).flatMap fun i => vec (if lu then n else i + 1) (at2 a i))
    if !feq sa32 all 0 then all else one

/-- 2^(−TAU_E), TAU_E brought within 8 to 40 (R196). -/
def tau (e : Nat) : Nat := (127 - min 40 (max 8 e)) * 2 ^ 23

/-- The pivot used and the FFLAGS bit it sets (R204 for CHOL, R205 otherwise). -/
def regularise (chol : Bool) (delta piv : Nat) : Nat × Nat :=
  if chol then
    if fle sa32 piv delta then (delta, if feq sa32 piv 0 then 2 else 1) else (piv, 0)
  else if feq sa32 piv 0 then (delta, 2)
  else if fle sa32 (fabs sa32 piv) delta then (delta + (piv / 2 ^ 31 % 2) * 2 ^ 31, 1)
  else (piv, 0)

/-- The smallest row from `k` on whose element in column `k` has the largest magnitude (R205). -/
def pivotRow (n k : Nat) (a : Mat) : Nat :=
  (List.range n).foldl (fun q i =>
    if k < i && flt sa32 (fabs sa32 (at2 a q k)) (fabs sa32 (at2 a i k)) then i else q) k

/-- Two rows exchanged. -/
def swapRows {α : Type} [Inhabited α] (a : List α) (i j : Nat) : List α :=
  (a.set i (a.getD j default)).set j (a.getD i default)

/-- One column step of a factorisation in progress. The factor grows in place: column k below the diagonal takes L, the
diagonal the pivot or its root, and the trailing square is updated (R204, R205). (DEDUCED, log entry 32) -/
def column (kind n delta k : Nat) (f : Factor) : Factor :=
  let q := if kind = 3 then pivotRow n k f.lu else k
  let a := if kind = 3 then swapRows f.lu k q else f.lu
  -- a pivot that is not finite stays so, and ends the problem (R211)
  let (piv, fl) := if fisFin sa32 (at2 a k k) then regularise (kind == 1) delta (at2 a k k) else (at2 a k k, 0)
  let diag := if kind = 1 then fsqrt sa32 piv else piv
  let r := fdiv sa32 one diag
  let l := vec n fun i => mul (at2 a i k) r
  let lu := mat n n fun i j =>
    if i = k ∧ j = k then diag
    else if j = k ∧ k < i then at1 l i
    else if k < i ∧ k < j then
      let c := if kind = 2 then at2 a i k else at1 l i
      let u := if kind = 3 then at2 a k j else at1 l j
      fma (neg c) u (at2 a i j)
    else at2 a i j
  { f with lu := lu, d := f.d ++ [r], p := if kind = 3 then f.p ++ [q] else f.p, flags := f.flags ||| fl,
           firstCol := if fl ≠ 0 then min f.firstCol k else f.firstCol }

/-- CHOL, LDLT or LU of a matrix of order `n` (R203 to R206). (DEDUCED, log entry 32) -/
def factorise (kind n tauE : Nat) (m : Mat) : Option Factor :=
  let a := if kind = 3 then m else mirror n m
  if !finM a then none else
  let scale := scaleOf (kind == 3) n a
  let delta := mul scale (tau tauE)
  let f := (List.range n).foldl (fun f k => column kind n delta k f) { kind := kind, lu := a, scale := scale }
  -- the trailing updates cover the full square, so a value above the diagonal counts before it is dropped (R204, R211)
  if finM f.lu && fin f.d then
    some { f with lu := if kind = 3 then f.lu else mat n n fun i j => if i < j then 0 else at2 f.lu i j }
  else none

/-- The row interchanges of an LU factor all lie below n (R209). (DEDUCED, log entry 32) -/
def permOk (n : Nat) (f : Factor) : Bool := f.kind != 3 || (decide (n ≤ f.p.length) && f.p.all (fun q => decide (q < n)))

/-- x := D⁻¹ L⁻¹ Pr b (R209). -/
def trsvF (n : Nat) (f : Factor) (b : Vec) : Vec :=
  let y := if f.kind = 3 then (List.range n).foldl (fun y k => swapRows y k (f.p.getD k 0)) b else b
  let y := (List.range n).foldl (fun y k =>
    let y := if f.kind = 1 then y.set k (mul (at1 y k) (at1 f.d k)) else y
    vec n fun i => if k < i then fma (neg (at2 f.lu i k)) (at1 y k) (at1 y i) else at1 y i) y
  if f.kind = 2 then vec n fun k => mul (at1 y k) (at1 f.d k) else y

/-- x := Lᵀ⁻¹ x or U⁻¹ x (R209). -/
def trsvB (n : Nat) (f : Factor) (x : Vec) : Vec :=
  (List.range n).reverse.foldl (fun x k =>
    let x := if f.kind = 2 then x else x.set k (mul (at1 x k) (at1 f.d k))
    vec n fun i =>
      if i < k then fma (neg (if f.kind = 3 then at2 f.lu i k else at2 f.lu k i)) (at1 x k) (at1 x i) else at1 x i) x

/-- The numbers of one QP problem and the parameters of its job (R226, R234). -/
structure Qp where
  n : Nat
  p : Mat
  q : Vec
  a : Mat
  l : Vec
  u : Vec
  rho : Nat
  sigma : Nat
  x0 : Vec
  y0 : Vec
  alpha : Nat
  epsAbs : Nat
  epsRel : Nat
  check : Nat
  maxIt : Nat
  deriving DecidableEq, Repr

/-- The codes of STOP (R235). -/
abbrev stopConverged : Nat := 0
abbrev stopLimit : Nat := 1
abbrev stopDeadline : Nat := 2
abbrev stopNotRun : Nat := 3
abbrev stopBounds : Nat := 4
abbrev stopNonfinite : Nat := 5

/-- How far QP_ADMM came with a problem: STOP, iterations completed, the iterate, the last residual check. -/
structure QpRun where
  stop : Nat
  it : Nat := 0
  x : Vec := []
  ax : Vec := []
  z : Vec := []
  y : Vec := []
  rprim : Nat := 0
  rdual : Nat := 0
  checkIt : Nat := 0
  deriving DecidableEq, Repr

/-- clip(v, l, u), element by element (R234). -/
def clip (v l u : Vec) : Vec := vec v.length fun i => fmin sa32 (fmax sa32 (at1 v i) (at1 l i)) (at1 u i)

/-- Element by element. -/
def map2 (f : Nat → Nat → Nat) (a b : Vec) : Vec := (List.zip a b).map fun p => f p.1 p.2

/-- One iteration (R234). -/
def iterate (c : Qp) (f : Factor) (om ir : Nat) (r : QpRun) : Option QpRun :=
  let t := map2 (fun z y => fma c.rho z (neg y)) r.z r.y
  let w := addRows c.a t (map2 (fun x q => fma c.sigma x (neg q)) r.x c.q)
  let v := trsvF c.n f w
  let xt := trsvB c.n f v
  let zt := gemv c.a xt
  let zh := map2 (fun zt z => fma c.alpha zt (mul om z)) zt r.z
  let zc := map2 (fun y zh => fma ir y zh) r.y zh
  let zn := clip zc c.l c.u
  let x := map2 (fun xt x => fma c.alpha xt (mul om x)) xt r.x
  let ax := map2 (fun zt ax => fma c.alpha zt (mul om ax)) zt r.ax
  let df := map2 sub zh zn
  let y := map2 (fun df y => fma c.rho df y) df r.y
  if fin t && fin w && fin v && fin xt && fin zt && fin zh && fin zc && fin x && fin ax && fin df && fin y then
    some { r with x := x, ax := ax, z := zn, y := y, it := r.it + 1 }
  else none

/-- The residual check after an iteration; its Bool says that the problem converged (R234). -/
def residuals (c : Qp) (r : QpRun) : Option (QpRun × Bool) :=
  let px := gemv (mirror c.n c.p) r.x
  let aty := addRows c.a r.y (List.replicate c.n 0)
  let g := addRows c.a r.y (map2 add px c.q)
  let d := map2 sub r.ax r.z
  let rp := amax d
  let rd := amax g
  let tp := fma c.epsRel (fmax sa32 (amax r.ax) (amax r.z)) c.epsAbs
  let td := fma c.epsRel (fmax sa32 (fmax sa32 (amax px) (amax aty)) (amax c.q)) c.epsAbs
  if fin px && fin aty && fin g && fin d && fin [tp, td] then
    some ({ r with rprim := rp, rdual := rd, checkIt := r.it }, fle sa32 rp tp && fle sa32 rd td)
  else none

/-- Iterations until the problem stops, or until `budget` of them are complete; `cut` says that the residual check after
that last one is not (R234, R235). -/
def loopQp (c : Qp) (f : Factor) (om ir budget : Nat) (cut : Bool) : Nat → QpRun → QpRun
  | 0, r => r
  | fuel + 1, r =>
    if r.it = c.maxIt then { r with stop := stopLimit }
    else if budget ≤ r.it then { r with stop := stopDeadline }
    else
      match iterate c f om ir r with
      | none => { r with stop := stopNonfinite }
      | some r =>
        if r.it % c.check ≠ 0 then loopQp c f om ir budget cut fuel r
        else if cut && r.it == budget then { r with stop := if r.it = c.maxIt then stopLimit else stopDeadline }
        else
          match residuals c r with
          | none => { r with stop := stopNonfinite }
          | some (r, true) => { r with stop := stopConverged }
          | some (r, false) => loopQp c f om ir budget cut fuel r

/-- QP_ADMM on one problem whose factor is settled. `budget` is the number of iterations complete before a deadline, none
where iterate 0 was not (R232, R234). -/
def qpAdmm (c : Qp) (f : Factor) (budget : Option Nat) (cut : Bool) : QpRun :=
  if !(fin c.l && fin c.u) then { stop := stopNonfinite }
  else if (List.zip c.l c.u).any (fun p => flt sa32 p.2 p.1) then { stop := stopBounds }
  else
    match budget with
    | none => { stop := stopNotRun }
    | some b =>
      let om := sub one c.alpha
      let ir := fdiv sa32 one c.rho
      let ax := gemv c.a c.x0
      if !(fin c.x0 && fin c.y0 && fin ax && fin [om, ir, c.rho, c.sigma]) then { stop := stopNonfinite }
      else loopQp c f om ir b cut (c.maxIt + 1)
        { stop := stopDeadline, x := c.x0, ax := ax, z := clip ax c.l c.u, y := c.y0 }

/-- Division rounding up. -/
def cdiv (a b : Nat) : Nat := (a + b - 1) / b

/-- The cycles of a factorisation of a dense matrix (R213). -/
def facCycles (kind n lanes : Nat) : Nat :=
  ((List.range n).map fun j =>
    let t := cdiv (j * j + j) lanes
    if kind = 1 then max t (if lanes = 1 then 46 else 32)
    else (if kind = 3 then cdiv (j + 1) lanes else 0) + max t (if lanes = 1 then 30 else 18)).sum

/-- The sum S of R213 and R241. -/
def sCycles (n lanes : Nat) : Nat := ((List.range n).map fun j => max (cdiv (j + 1) lanes) 4).sum

/-- CHOL or LDLT of a QP problem: K formed and factorised (R213). -/
def kCycles (kind n m lanes : Nat) : Nat := cdiv (m * n * (n + 1)) lanes + n + facCycles kind n lanes

/-- TRSV_F (R213). -/
def trsvFCycles (kind n lanes : Nat) : Nat :=
  sCycles n lanes + (if kind = 3 then n else if kind = 2 then cdiv n lanes else 0)

/-- C_0 of R241. -/
def c0 (n m lanes : Nat) : Nat := cdiv (m * n + 2 * m) lanes + 4
/-- C_it of R241. -/
def cIt (kind n m lanes : Nat) : Nat :=
  cdiv (2 * m * n + 3 * n + 9 * m) lanes + 2 * sCycles n lanes + (if kind = 2 then cdiv n lanes else 0)
/-- C_chk of R241. -/
def cChk (n m lanes : Nat) : Nat := cdiv (n * n + m * n + 3 * n + 3 * m) lanes + 8

/-- The compute cycles of a wave of operation `op` (R213, R241): the canvas kind, the factor kind, the cycles of forming and
factorising K where the wave does so, the iterations and the check interval. -/
def cycles (op : Nat) (qp : Bool) (n m lanes kind ck iters check : Nat) : Nat :=
  match op with
  | 1 => if qp then kCycles 1 n m lanes else facCycles 1 n lanes
  | 2 => if qp then kCycles 2 n m lanes else facCycles 2 n lanes
  | 3 => facCycles 3 n lanes
  | 4 => trsvFCycles kind n lanes
  | 5 => sCycles n lanes
  | 6 => facCycles kind n lanes + trsvFCycles kind n lanes + sCycles n lanes
  | 7 => cdiv (if qp then m * n else n * n) lanes + 4
  | _ => ck + c0 n m lanes + iters * cIt kind n m lanes
      + (iters / check) * cChk n m lanes

/-- The words in and out per problem (R213, R241). -/
def ioWords (op : Nat) (qp : Bool) (n m : Nat) (dstZ factorK : Bool) : Nat × Nat :=
  match op with
  | 1 => (n * n, n * n + n)
  | 2 => (n * n, n * n + n)
  | 3 => (n * n, n * n + 2 * n)
  | 4 => (n * n + 3 * n, n)
  | 5 => (n * n + 2 * n, n)
  | 6 => (n * n + n, n * n + 3 * n)
  | 7 => if qp then (m * n + n, m) else (n * n + n, n)
  | _ => (n * n + 3 * n + 3 * m, n + m + (if dstZ then m else 0) + (if factorK then n * n + n else 0))

end Sa

end Sys2Proof.Machine
end

