-- ==== Sys2Proof/Machine/SaStore.lean ====
section
/-! DEFINITION. The canvas store (R193 to R201), retouch packets (R216 to R223) and the exchange of a slot's halves
(R245). -/

namespace Sys2Proof.Machine

/-- Where the CP sees the canvas store. -/
abbrev canvasBase : Nat := 0x30000000

/-- The address of directory entry `i` (R193). -/
abbrev dirAt (i : Nat) : Nat := canvasBase + 0x40 + 64 * i

/-- A directory entry (R198); `count` is the number of problems its COUNT stands for, `rawCount` the field. -/
structure Canvas where
  state : Nat
  kind : Nat
  n : Nat
  m : Nat
  count : Nat
  rawCount : Nat
  base : Nat
  stride : Nat
  gen : Nat
  reserved : Bool
  deriving DecidableEq, Repr

/-- The directory entry whose words are `w` (R198). -/
def canvasOf (w : List Nat) : Canvas :=
  let w0 := w.getD 0 0
  let w1 := w.getD 1 0
  let raw := w1 % 2 ^ 16
  { state := w0 % 8, kind := bits w0 15 8, n := bits w0 23 16, m := bits w0 31 24
    count := if raw = 0xFFFF then 256 else raw, rawCount := raw
    base := w.getD 2 0, stride := w.getD 3 0, gen := w.getD 4 0
    reserved := bits w0 7 3 != 0 || bits w1 31 24 != 0 || (w.drop 5).any (· != 0) }

/-- `n` words of memory from `a` upwards. -/
def State.words (s : State) (a n : Nat) : List Nat := (List.range n).map fun i => s.rd32 (a + 4 * i)

/-- Words written from `a` upwards. -/
def State.wrWords (s : State) (a : Nat) : List Nat → State
  | [] => s
  | v :: t => (s.wr32 a v).wrWords (a + 4) t

/-- An extent of `n` bytes on a 4-byte boundary within CP SRAM or bus RAM. (DEDUCED, log entry 34) -/
def inRams (a n : Nat) : Bool :=
  a % 4 == 0 && ((decide (0x20000000 ≤ a) && decide (a + n ≤ 0x20300000))
    || (decide (0x31000000 ≤ a) && decide (a + n ≤ 0x31100000)))

/-- Directory entry `i`. -/
def State.canvas (s : State) (i : Nat) : Canvas := canvasOf (s.words (dirAt i) 16)

/-- STATE of directory entry `i` set. -/
def State.setCanvasState (s : State) (i st : Nat) : State :=
  let w := s.rd32 (dirAt i)
  s.wr32 (dirAt i) (w - w % 8 + st)

/-- CODE of directory entry `i` set. -/
def State.setCanvasCode (s : State) (i code : Nat) : State := s.wr8 (dirAt i + 6) (BitVec.ofNat 8 code)

/-- The half of a slot whose entry is in state `st` (R193). -/
def State.slotHalf (s : State) (slot st : Nat) : Option Nat :=
  if (s.canvas (2 * slot)).state = st then some (2 * slot)
  else if (s.canvas (2 * slot + 1)).state = st then some (2 * slot + 1) else none

/-- Bytes per problem (R194). (DEDUCED, log entry 30) -/
def footprint (kind n m : Nat) : Nat :=
  if kind = 1 then 64 + 4 * (2 * n * n + m * n + 4 * n + 3 * m) else 64 + 4 * (n * n + 4 * n)

/-- The region of an entry that is not EMPTY: its offset and length (log entry 30 for one not yet READY).
(DEDUCED, log entry 30) -/
def Canvas.region (c : Canvas) : Nat × Nat :=
  (c.base, c.count * (if c.state = 2 ∨ c.state = 3 then c.stride else footprint c.kind c.n c.m))

/-- Two regions share a byte. -/
def overlap (a b : Nat × Nat) : Bool := decide (0 < a.2) && decide (0 < b.2) && decide (b.1 < a.1 + a.2) && decide (a.1 < b.1 + b.2)

/-- The code of the checks on entering READY; `head0 i` is word 0x00 of problem header `i` (R200).
(DEDUCED, log entry 30) -/
def State.readyCheck (s : State) (i : Nat) (c : Canvas) (head0 : Nat → Nat) : Nat :=
  let stride := footprint c.kind c.n c.m
  let other := (s.canvas (i ^^^ 1)).state
  if 1 < c.kind ∨ c.reserved ∨ c.base % 64 ≠ 0 ∨ c.base < 0x440 then Code.format
  else if c.n < 1 ∨ 64 < c.n ∨ (c.kind = 0 ∧ c.m ≠ 0) ∨ (c.kind = 1 ∧ (c.m < 1 ∨ 128 < c.m))
      ∨ c.rawCount < 1 ∨ (256 < c.rawCount ∧ c.rawCount ≠ 0xFFFF) then Code.range
  else if 0x200000 < c.base + c.count * stride then Code.length
  else if other ≠ 0 ∧ other ≠ 3 then Code.refusedState
  else if (List.range 16).any (fun j => j != i && (s.canvas j).state != 0
      && overlap (c.base, c.count * stride) (s.canvas j).region) then Code.refusedCapacity
  else if (List.range c.count).any (fun p => head0 p != c.kind + 256 * c.n + 65536 * c.m) then Code.format
  else Code.ok

/-- The SEQ of the problem header at `a` set (R196). -/
def State.setHdrSeq (s : State) (a v : Nat) : State := s.wr16 (a + 0x1E) v

/-- The SEQ of the problem header at `a` incremented (R197). -/
def State.bumpSeq (s : State) (a : Nat) : State := s.setHdrSeq a (s.rd16 (a + 0x1E) + 1)

/-- STRIDE written and every header's SEQ set to 0 (R200). -/
def State.canvasReady (s : State) (i : Nat) : State :=
  let c := s.canvas i
  let stride := footprint c.kind c.n c.m
  let s := s.wr32 (dirAt i + 0x0C) stride
  forN (fun p s => s.setHdrSeq (canvasBase + c.base + p * stride) 0) c.count s

/-- The checks that a request for READY asks for, and their outcome (R200). -/
def State.readyEnd (s : State) (i : Nat) : State :=
  let c := s.canvas i
  if c.state ≠ 1 then s else
  let code := s.readyCheck i c fun p => s.rd32 (canvasBase + c.base + p * footprint c.kind c.n c.m)
  if code ≠ Code.ok then s.setCanvasCode i code
  else ((s.canvasReady i).setCanvasState i 2).setCanvasCode i Code.ok

/-- A palette canvas placed directly in the ACTIVE state, under the same checks: its directory words, then its problem
blocks (R200). The answer says whether it was taken. (DEDUCED, log entry 31) -/
def State.canvasLoad (s : State) (slot : Nat) (w : List Nat) : State × Bool :=
  let i := 2 * slot
  let c := canvasOf (w.take 16)
  let body := w.drop 16
  let stride := footprint c.kind c.n c.m
  if s.readyCheck i c (fun p => body.getD (p * stride / 4) 0) ≠ Code.ok then (s, false)
  else
    let s := s.wrWords (canvasBase + c.base) (body.take (c.count * stride / 4))
    let s := s.wrWords (dirAt i) (w.take 16)
    (((s.canvasReady i).wr32 (dirAt i + 0x10) 0 |>.setCanvasState i 3).setCanvasCode i Code.ok, true)

/-- A CP write that the store ignores (R199, R201). -/
def State.canvasIgnored (s : State) : State := s.wr16 canvasBase (satInc 0xFFFF (s.rd16 canvasBase))

/-- Uncorrectable and corrected errors counted in the store header (R201, R212). -/
def State.canvasErrors (s : State) (ue ce : Nat) : State :=
  let s := s.wr16 (canvasBase + 2) (min 0xFFFF (s.rd16 (canvasBase + 2) + ue))
  s.wr32 (canvasBase + 4) (min 0xFFFFFFFF (s.rd32 (canvasBase + 4) + ce))

/-- A CP write of `n` bytes at offset `off`, all within one word, but a request for READY and the cancelling of a load
(R199). Any write to an EMPTY or LOADING entry takes effect, STATE included. (DEDUCED, log entry 31) -/
def State.canvasWrite (s : State) (off n v : Nat) : State :=
  if off < 0x40 then s.canvasIgnored
  else if off < 0x440 then
    let i := (off - 0x40) / 64
    let w := (off - 0x40) % 64
    let st := (s.canvas i).state
    if (st ≠ 0 ∧ st ≠ 1) ∨ w / 4 = 3 ∨ w / 4 = 4 then s.canvasIgnored
    else s.wrBytes (canvasBase + off) (toBytes n v)
  else if (List.range 16).any (fun i =>
      let c := s.canvas i
      decide (c.state = 1) && decide (c.region.1 ≤ off) && decide (off + n ≤ c.region.1 + c.region.2)) then
    s.wrBytes (canvasBase + off) (toBytes n v)
  else s.canvasIgnored

/-- The former ACTIVE half becomes EMPTY, the READY half ACTIVE with GEN 0 (R245). -/
def State.canvasSwap (s : State) (slot : Nat) : State :=
  match s.slotHalf slot 2 with
  | none => s
  | some r =>
    let s := match s.slotHalf slot 3 with
      | none => s
      | some a => s.setCanvasState a 0
    ((s.setCanvasState r 3).wr32 (dirAt r + 0x10) 0).setCanvasCode r Code.ok

/-- The address of problem `p` of entry `i`. -/
def State.problemAt (s : State) (i p : Nat) : Nat := canvasBase + (s.canvas i).base + p * (s.canvas i).stride

/-- The word offset of an array after the problem header and its size, by the array's place in R195: DENSE M, b, x, d, p;
QP P, F, A, q, x, d, v, l, u, y. -/
def arrayAt (kind n m k : Nat) : Nat × Nat :=
  if kind = 0 then
    match k with
    | 0 => (0, n * n)
    | k + 1 => (n * n + k * n, n)
  else
    match k with
    | 0 => (0, n * n)
    | 1 => (n * n, n * n)
    | 2 => (2 * n * n, m * n)
    | k + 3 => if k < 4 then (2 * n * n + m * n + k * n, n) else (2 * n * n + m * n + 4 * n + (k - 4) * m, m)

/-- The place in R195 of an array code of R218; none where the kind has no such array. -/
def arrayOf (kind code : Nat) : Option Nat :=
  if kind = 0 then
    match code with
    | 0 => some 0
    | 2 => some 1
    | 3 => some 2
    | _ => none
  else
    match code with
    | 0 => some 0
    | 1 => some 2
    | 2 => some 3
    | 3 => some 4
    | 4 => some 7
    | 5 => some 8
    | 6 => some 9
    | _ => none

/-- The words an array code covers; none where the kind has no such array (R218). -/
def arraySize (c : Canvas) (code : Nat) : Option Nat :=
  if code = 7 then some 16 else (arrayOf c.kind code).map fun k => (arrayAt c.kind c.n c.m k).2

/-- One group of a retouch packet (R217): the problem, the array code, the mode, ALL, START, NUM with 0xFFFF resolved, and
its writes (index, value). -/
structure RtGroup where
  prob : Nat
  arr : Nat
  mode : Nat
  all : Bool
  start : Nat
  num : Nat
  writes : List (Nat × Nat)
  deriving DecidableEq, Repr

/-- What reading the groups of a packet finds: the groups, a violation of check 1 or of check 2 of R219, or that a NUM of
0xFFFF has no array to take its size from. -/
inductive RtScan where
  | groups (l : List RtGroup)
  | badFormat
  | badLength
  | unsized
  deriving DecidableEq, Repr

/-- A group before the groups that follow it. -/
def RtScan.cons (g : RtGroup) : RtScan → RtScan
  | .groups l => .groups (g :: l)
  | r => r

/-- The groups between `a` and the packet's end `fin`; `left` is the number still expected, none for as many as LEN holds
(R216, R217). A FILL has one body word, so it is read over where its NUM of 0xFFFF finds no array.
(DEDUCED, log entry 33) -/
def State.rtGroups (s : State) (c : Option Canvas) (fin : Nat) : Nat → Option Nat → Nat → RtScan
  | 0, _, _ => .badLength
  | fuel + 1, left, a =>
    if left = some 0 ∨ (left = none ∧ a = fin) then (if a = fin then .groups [] else .badLength)
    else if fin < a + 8 then .badLength
    else
      let prob := s.rd16 a
      let w := s.rd16 (a + 2)
      let start := s.rd16 (a + 4)
      let raw := s.rd16 (a + 6)
      let arr := w % 16
      let mode := bits w 5 4
      let all := bits w 6 6 == 1
      if w / 128 ≠ 0 ∨ mode = 3 ∨ 8 ≤ arr ∨ (all ∧ prob ≠ 0) then .badFormat
      else
        match (if raw = 0xFFFF then
            (((if arr = 7 then some 16 else c.bind (arraySize · arr))).map (· - start)).orElse fun _ => if mode = 2 then some 0 else none
          else some raw) with
        | none => .unsized
        | some num =>
          let body := if mode = 0 then 4 * num else if mode = 2 then 4 else 8 * num
          if mode = 1 ∧ (List.range num).any (fun k => decide (a + 12 + 8 * k ≤ fin) && s.rd16 (a + 8 + 8 * k + 2) != 0) then .badFormat
          else if fin < a + 8 + body then .badLength
          else
            let writes := (List.range num).map fun k =>
              if mode = 0 then (start + k, s.rd32 (a + 8 + 4 * k))
              else if mode = 2 then (start + k, s.rd32 (a + 8))
              else (s.rd16 (a + 8 + 8 * k), s.rd32 (a + 12 + 8 * k))
            (s.rtGroups c fin fuel (left.map (· - 1)) (a + 8 + body)).cons
              ⟨prob, arr, mode, all, start, num, writes⟩

/-- A retouch packet checked: the first check of R219 it fails with its code, or the entry it changes and its groups. -/
inductive RtPacket where
  | bad (check code : Nat)
  | good (entry : Nat) (groups : List RtGroup)
  deriving DecidableEq, Repr

/-- The groups obey checks 5 to 7 of R219, or the first of them that one fails. (DEDUCED, log entry 33) -/
def rtGroupCheck (c : Canvas) (l : List RtGroup) : Option (Nat × Nat) :=
  let size (g : RtGroup) := (arraySize c g.arr).getD 0
  if l.any (fun g => (!g.all && decide (c.count ≤ g.prob)) || (arraySize c g.arr).isNone
      || (g.arr == 7 && ((g.mode != 1 && (decide (g.start < 3) || decide (5 < g.start)))
        || g.writes.any (fun w => decide (w.1 < 3) || decide (5 < w.1))))) then some (5, Code.range)
  else if l.any (fun g => decide (size g < g.start + g.num)) then some (6, Code.length)
  else if l.any (fun g => g.mode == 1 && g.writes.any (fun w => decide (size g ≤ w.1))) then some (7, Code.range)
  else none

/-- The ACTIVE entry that the packet at `a` names (R216). -/
def State.rtHalf (s : State) (a : Nat) : Option Nat :=
  let slot := bits (s.rd32 a) 23 16
  if slot ≤ 7 then s.slotHalf slot 3 else none

/-- The groups of the packet at `a` read as a packet for entry `half`. -/
def State.rtScan (s : State) (a : Nat) (half : Option Nat) : RtScan :=
  let w1 := s.rd32 (a + 4)
  let left := if w1 % 2 ^ 16 = 0xFFFF then none else some (w1 % 2 ^ 16)
  s.rtGroups (half.map s.canvas) (a + min (s.rd32 (a + 8)) 131072) 16400 left (a + 16)

/-- The packet at `a` checked (R219). (DEDUCED, log entry 33) -/
def State.rtPacket (s : State) (a : Nat) : RtPacket :=
  let w0 := s.rd32 a
  let w1 := s.rd32 (a + 4)
  let len := s.rd32 (a + 8)
  let slot := bits w0 23 16
  let lenBad := len % 4 != 0 || decide (len < 24) || decide (131072 < len)
  if w0 % 2 ^ 16 ≠ 0x4854 ∨ bits w0 31 25 ≠ 0 ∨ bits w1 31 16 ≠ 0 then .bad 1 Code.format
  else
    match s.rtScan a (s.rtHalf a) with
    | .badFormat => .bad 1 Code.format
    | r =>
      if lenBad ∨ r = .badLength then .bad 2 Code.length
      else if 7 < slot then .bad 3 Code.range
      else
        match s.rtHalf a with
        | none => .bad 4 Code.refusedState
        | some i =>
          let c := s.canvas i
          if bits w0 24 24 = 1 ∧ c.gen ≠ s.rd32 (a + 12) then .bad 4 Code.refusedState
          else
            match r with
            | .groups l =>
              match rtGroupCheck c l with
              | some (k, code) => .bad k code
              | none => .good i l
            | _ => .bad 5 Code.range

/-- The code of the first failed check, in the table's order, over all packets together (R219). -/
def rtCode (l : List RtPacket) : Nat :=
  (l.foldl (fun best p => match p with
    | .bad k code => if k < best.1 then (k, code) else best
    | .good _ _ => best) (8, Code.ok)).2

/-- One entry written by a retouch, with what R221 clears where its bits differ. -/
def State.rtWrite (s : State) (i p arr idx v : Nat) : State :=
  let c := s.canvas i
  let base := s.problemAt i p
  let a := if arr = 7 then base + 4 * idx else
    base + 64 + 4 * ((arrayAt c.kind c.n c.m ((arrayOf c.kind arr).getD 0)).1 + idx)
  if s.rd32 a = v then s
  else
    let s := s.wr32 a v
    let clears := if arr = 7 then idx = 3 ∨ idx = 4 else arr = 0 ∨ arr = 1
    if ¬ clears then s
    else
      let h := s.rd8 (base + 4)
      s.wr8 (base + 4) (h &&& (if c.kind = 0 ∧ arr = 0 then ~~~ 0x0C#8 else ~~~ 0x04#8))

/-- The groups of one packet applied, each problem touched under one SEQ update, and GEN incremented (R220). -/
def State.rtApply (s : State) (i : Nat) (l : List RtGroup) : State :=
  let c := s.canvas i
  let hits (g : RtGroup) (p : Nat) : Bool := g.all || g.prob == p
  let s := forN (fun p s =>
    if l.any (fun g => hits g p && !g.writes.isEmpty) then
      let s := s.bumpSeq (s.problemAt i p)
      let s := l.foldl (fun s g =>
        if hits g p then g.writes.foldl (fun s w => s.rtWrite i p g.arr w.1 w.2) s else s) s
      s.bumpSeq (s.problemAt i p)
    else s) c.count s
  s.wr32 (dirAt i + 0x10) (s.rd32 (dirAt i + 0x10) + 1)

/-- The cycles that applying a job's retouches takes (R223): the sum of LEN and the ALL groups of the packets, whether or not a
packet's GEN is the expected one yet; `half` gives the entry that the packet at an address will change.
(DEDUCED, log entry 33) -/
def State.rtCycles (s : State) (addrs : List Nat) (half : Nat → Option Nat) : Nat :=
  if addrs.isEmpty then 0
  else
    32 + Sa.cdiv ((addrs.map fun a => s.rd32 (a + 8)).sum) 16
      + (addrs.map fun a =>
          match half a, s.rtScan a (half a) with
          | some i, .groups l => ((l.filter (·.all)).map fun g => Sa.cdiv ((s.canvas i).count * g.num) 64).sum
          | _, _ => 0).sum

end Sys2Proof.Machine
end

