-- ==== Sys2Proof/Machine/Rounds.lean ====
section
/-! DEFINITION. Planning rounds (chapter 13): participants, domain heads and the holder of the coordinator token. What
firmware does under the rules of the chapter is done as they state it; the transmit entries it uses are not given, so a
caravan it sends is put in the list of messages handed to the bus (log entry 38). -/

namespace Sys2Proof.Machine

/-- The rounds' state changed. -/
def State.setRnd (s : State) (r : RndSt) : State := { s with rnd := r }

/-- This node's ID. -/
def State.nodeId (s : State) : Nat := s.fld SYS_NODE_ID.ID
/-- This node is a domain head: the COORDINATOR role (R263). -/
def State.isHead (s : State) : Bool := s.fld SYS_ROLE.ROLE == 3 && !s.flag SYS_ROLE.GROUND
/-- This node is a participant (R263). -/
def State.isParticipant (s : State) : Bool := s.fld SYS_ROLE.ROLE != 3 && !s.flag SYS_ROLE.GROUND
/-- The node can send caravans: not in HOLDUP or SLEEP, its CP running (R278), with no lockstep mismatch (R105). -/
def State.canSend (s : State) : Bool := !s.inHoldup && s.fwRuns

/-- A holder is named (SYS_COORD.VALID). -/
def State.coordValid (s : State) : Bool := bit (s.reg SYS_COORD).toNat 16
/-- The holder named. -/
def State.coordId (s : State) : Nat := bits (s.reg SYS_COORD).toNat 12 0

/-- HOLD follows SYS_COORD (R287); one who loses the token and is named again is a new holder (R292). -/
def State.showHold (s : State) : State :=
  let hold := s.coordValid && s.coordId == s.nodeId
  (s.setRnd { s.rnd with holding := s.rnd.holding && hold }).setFlag SYS_COORD_STAT.HOLD hold

/-- A grant word received (R287): copied, and where it names a holder its lease starts again. -/
def State.grantCopy (s : State) (g : Nat) : State :=
  let s := s.setReg SYS_COORD (BitVec.ofNat 32 g)
  let s := if bit g 16 then s.setFld SYS_COORD_STAT.LEASE (3 * s.refMs * 100) else s.setFld SYS_COORD_STAT.LEASE 0
  s.showHold

/-- The lease has run down: no holder is named (R287). -/
def State.coordLapse (s : State) : State :=
  if s.coordValid ∧ s.fld SYS_COORD_STAT.LEASE = 0 then
    (s.setReg SYS_COORD (s.reg SYS_COORD &&& ~~~ 0x00010000#32)).showHold
  else s

/-- The lease runs down by the ticks that SLEEP or a brown stall took (R287). (DESIGN CHOICE, log entry 38) -/
def State.leasePass (s : State) (d : Nat) : State :=
  if d = 0 then s else (s.setFld SYS_COORD_STAT.LEASE (s.fld SYS_COORD_STAT.LEASE - d)).coordLapse

/-- A little-endian word of a record. -/
def recWord (r : List Byte) (off : Nat) : Nat := ofBytes ((r.drop off).take 4)
/-- `n` words of a record. -/
def recVec (r : List Byte) (off n : Nat) : List Nat := (List.range n).map fun i => recWord r (off + 4 * i)
/-- A vector as bytes. -/
def vecBytes (v : List Nat) : List Byte := v.flatMap (toBytes 4)

/-- H of a price record. -/
def priceH (r : List Byte) : Nat := bits (recWord r 0) 23 16
/-- STEP of a price record. -/
def priceStep (r : List Byte) : Nat := bits (recWord r 0x10) 31 16
def priceCycleStart (r : List Byte) : Bool := bit (recWord r 0) 8
def priceShifted (r : List Byte) : Bool := bit (recWord r 0) 10
def priceRound (r : List Byte) : Nat := recWord r 4
def priceLam (r : List Byte) (c : Nat) : List Nat := recVec r (0x24 + 8 * c * priceH r) (priceH r)
def priceDbar (r : List Byte) (c : Nat) : List Nat := recVec r (0x24 + (8 * c + 4) * priceH r) (priceH r)

/-- The plan step in s: a head takes it from the newest price record, a participant has it in LE_PB_CFG.STEP (R270). A head that
no price has reached yet has only its own. (DESIGN CHOICE, log entry 38) -/
def State.planStep (s : State) : Nat :=
  match s.rnd.newest with
  | some r => if s.isHead then max 1 (priceStep r) else min 3600 (max 60 (s.fld LE_PB_CFG.STEP)) / 60 * 60
  | none => min 3600 (max 60 (s.fld LE_PB_CFG.STEP)) / 60 * 60

/-- The horizon H a head works with: that of the newest price record, its palette image's where it has none (R270).
(DESIGN CHOICE, log entry 38) -/
def State.headH (s : State) : Nat := (s.rnd.newest.map priceH).getD s.rnd.cfg.h
/-- The block length B (R276). -/
def State.planBlock (s : State) : Nat := nth [1, 2, 4, 4] (s.fld LE_PB_CFG.BLK) 1

/-- T0 of round `k` (R267). -/
def State.roundT0 (s : State) (k : Nat) : Nat :=
  ((k + 1) * s.roundMs + s.planStep * 1000 - 1) / (s.planStep * 1000) % 2 ^ 32

/-- Round `k` is shifted (R267). -/
def State.roundShifted (s : State) (k : Nat) : Bool := decide (s.roundT0 (k - 1) < s.roundT0 k)

/-- A vector moved on by one step, its last entry repeated (R277, R282). -/
def shiftVec (v : List Nat) : List Nat :=
  match v with
  | [] => []
  | _ :: t => t ++ [v.getLastD 0]

/-- The time since the boundary of the present round, in units of 2⁻⁷² ms. -/
def State.sinceRound (s : State) : Nat := s.time.now * 1000 - s.rnd.index * s.roundMs * 2 ^ 72

/-- Phase offset `o` of the present round has come, rounded down to a whole tick (R268). -/
def State.phaseCome (s : State) (o : Nat) : Bool :=
  s.flag SYS_NT_STAT.VALID && decide (o * s.roundMs * 2 ^ 72 < (s.sinceRound + 2 ^ 72 / 100) * 64)

/-- The priority class of a message type (R271, R354). -/
def msgPrio (type : Nat) : Nat :=
  match type with
  | 0x02 => 6
  | 0x04 | 0x05 => 4
  | 0x08 | 0x0B => 1
  | 0x09 | 0x0A => 2
  | _ => 0

/-- The 29-bit identifier of a message, with SEQ 0 (R354). -/
def msgId (prio type node : Nat) : Nat := prio * 2 ^ 26 + type * 2 ^ 20 + node * 2 ^ 7

/-- The 29-bit identifier of a caravan handed to the bus, with SEQ 0 (R354). -/
def NetMsg.id (m : NetMsg) : Nat := msgId m.prio m.type m.node

/-- A message takes its place among those that wait, under its number. (DESIGN CHOICE, log entry 38) -/
def State.queueMsg (s : State) (m : NetMsg) : State :=
  { s with net := { s.net with sent := s.net.sent ++ [{ m with no := s.net.msgs }], msgs := s.net.msgs + 1 } }

/-- What leaves on ETH0 leaves on ETH1 too: DUP = 1 and ETH1 is up (R366). (DESIGN CHOICE, log entry 44) -/
def State.copies (s : State) (chan : Nat) : Bool :=
  chan == 8 && s.flag (ETH_CTL.DUP 0) && s.flag (ETH_CTL.EN 1) && s.flag (ETH_STAT.UP 1)

/-- A caravan handed to the bus, from ETH0 to ETH1 as well where ports copy (R366). (DESIGN CHOICE, log entry 38) -/
def State.handMsg (s : State) (m : NetMsg) : State :=
  let m := { m with car := (Config.caravanId s.net.msgs).toNat }
  let t := s.queueMsg m
  if s.copies m.chan then t.queueMsg { m with chan := 9 } else t

/-- A record of the rounds handed to the bus. -/
def State.sendMsg (s : State) (chan type node : Nat) (r : List Byte) : State :=
  s.handMsg { chan := chan, prio := msgPrio type, type := type, node := node, record := r }

/-- The enabled CAN segments of a head. -/
def State.segments (s : State) : List Nat := (List.range 8).filter fun c => s.flag (CAN_CTL.EN c)

/-- The draw entries of q for an accepted price record (R277). -/
def State.drawQ (s : State) (r : List Byte) (dprev : List Nat) : List Nat :=
  let c := s.rnd.cfg.com
  let b := s.planBlock
  let lam := priceLam r c
  let dbar := priceDbar r c
  (List.range 24).map fun k => (List.range b).foldl (fun q j =>
    let h := b * k + j
    fadd b32 (fadd b32 q (nth lam h 0)) (fmul b32 s.rnd.cfg.rhoC (fsub b32 (nth dbar h 0) (nth dprev h 0))))
    (nth s.rnd.cfg.qfix k 0)

/-- The retouch packet that writes `qd` on the draw entries of q of problem 0 (R216, R217, R276, R277): one RUN group where they
are contiguous, one LIST group in the layout of a PUMPHOUSE. -/
def State.pricePacket (s : State) (qd : List Nat) : List Nat :=
  let n := qd.length
  let list := s.fld SYS_ROLE.ROLE == 1
  let body := if list then qd.zipIdx.flatMap fun p => [2 * p.2, p.1] else qd
  [0x4854 + 2 ^ 16 * s.rnd.cfg.slot, 1, 24 + 4 * body.length, 0, 2 ^ 16 * (2 + 16 * b2n list), 2 ^ 16 * n] ++ body

/-- A participant's firmware forms qd and builds its price packet in CP SRAM or bus RAM (R277).
(DESIGN CHOICE, log entry 38) -/
def State.priceBuild (s : State) (r : List Byte) : State :=
  let d := if priceShifted r then shiftVec s.rnd.dprev else s.rnd.dprev
  let qd := s.drawQ r d
  let p := s.pricePacket qd
  let s := s.setRnd { s.rnd with price := some r, dprev := d, qd := qd, prices := p }
  if inRams s.rnd.cfg.packet (4 * p.length) then s.wrWords s.rnd.cfg.packet p else s

/-- A price record accepted by a participant, or ignored (R275, R277). -/
def State.priceAccept (s : State) (r : List Byte) : State :=
  let h := priceH r
  if !s.isParticipant || !s.coordValid || priceRound r != (s.reg SYS_RND_NUM).toNat
      || bits (recWord r 0x10) 12 0 != s.coordId || h != 24 * s.planBlock || priceStep r != s.planStep
      || recWord r 0x14 != s.rnd.cfg.rhoC || s.phaseCome (s.fld SYS_RND_CFG.SOLVE_END) || !s.fwRuns then s
  else
    let s := s.priceBuild r
    if s.fld SYS_ROLE.ROLE ≠ 0 then s
    else
      let ts := recVec r (0x24 + 8 * bits (recWord r 0) 25 24 * h) h
      forN (fun o s => if s.flag (PT_OUT_CFG.EN o) then
        forN (fun k s => s.setReg (PT_FCT o k) (BitVec.ofNat 32 (nth ts k 0))) (min h 96) s else s) 8 s

/-- The reply of a participant (R273, R278): its draw, status, REPEAT and ITER. -/
def State.reply (s : State) (status : Nat) (rep : Bool) (iter : Nat) (d : List Nat) : State :=
  if !s.isParticipant || !s.rnd.named || s.rnd.replied || !s.canSend then s
  else
    let h := 24 * s.planBlock
    let k := s.rnd.index
    let rec_ := toBytes 4 (1 + 2 ^ 8 * status + 2 ^ 16 * h + 2 ^ 24 * s.rnd.cfg.com + 2 ^ 25 * b2n rep) ++ toBytes 4 k
      ++ toBytes 4 (s.nodeId + 2 ^ 16 * iter) ++ toBytes 4 (s.roundT0 k) ++ vecBytes ((List.range h).map fun i => nth d i 0)
    let s := s.sendMsg s.rnd.cfg.chan 0x09 s.nodeId rec_
    s.setRnd { s.rnd with replied := true, dprev := d }

/-- The repeated draw of a participant: shifted with a shifted round (R278). (DESIGN CHOICE, log entry 38) -/
def State.repeatDraw (s : State) : List Nat :=
  if s.rnd.price.isNone ∧ s.roundShifted s.rnd.index then shiftVec s.rnd.dprev else s.rnd.dprev

/-- The draws that a vector z gives, each block's value for the steps of its block (R276, R278). -/
def State.drawsOf (s : State) (z : List Nat) : List Nat :=
  (List.range 24).flatMap fun b =>
    List.replicate s.planBlock (nth z (if s.fld SYS_ROLE.ROLE = 1 then 2 * b else b) 0)

/-- The completion record of job `id` was written (R278): `status` is the status offered for problem 0, or the job's where it was
refused or skipped; with problem 0's iterations and z. (DESIGN CHOICE, log entry 38) -/
def State.roundJobEnd (s : State) (id status iter : Nat) (z : Option (List Nat)) : State :=
  if s.rnd.job ≠ some id then s
  else
    match z with
    | some v =>
      if status = Code.ok ∨ status = Code.doneRegularised ∨ status = Code.delayed ∨ status = Code.sketch then
        s.reply status false iter (s.drawsOf v)
      else s.reply status true 0 s.repeatDraw
    | none => s.reply status true 0 s.repeatDraw

/-- ROUND_BOUNDARY's effect (R266, R280, R281): the round's number; a participant starts its round; a head fixes its members
where a cycle starts and relays the price. (DESIGN CHOICE, log entry 38) -/
def State.roundStart (s : State) : State :=
  let k := s.ntIndex s.roundMs
  let s := (s.setReg SYS_RND_NUM (BitVec.ofNat 32 k)).showRound
  let price := s.rnd.next.filter fun r => priceRound r == k % 2 ^ 32
  let starts := price.any priceCycleStart
  let drop := max 1 (s.fld SYS_RND_CFG2.MISS_DROP)
  let members := if starts then
      (s.rnd.members.filter fun m => decide (m.miss < drop)) ++
        s.rnd.joining.filter fun j => !s.rnd.members.any fun m => m.node == j.node && m.com == j.com && decide (m.miss < drop)
    else s.rnd.members
  let s := s.setRnd { s.rnd with
    index := k, price := none, qd := [], prices := [], named := s.coordValid, job := none, refused := none, replied := false
    next := none, members := members.map fun m => { m with heard := none }
    joining := if starts then [] else s.rnd.joining, summed := false, collected := false }
  match price with
  | some r =>
    if s.isHead && s.canSend && s.coordValid && bits (recWord r 0x10) 12 0 == s.coordId then
      s.segments.foldl (fun s c => s.sendMsg c 0x08 s.coordId r) s
    else s
  | none => s

/-- A draw record reaches its head (R281). -/
def State.drawReceived (s : State) (node : Nat) (r : List Byte) : State :=
  let w := recWord r 0
  let com := b2n (bit w 24)
  if !s.isHead || recWord r 4 != s.rnd.index % 2 ^ 32 || s.rnd.summed || s.phaseCome (s.fld SYS_RND_CFG.REPLY_END) then s
  else
    let d := recVec r 0x10 (bits w 23 16)
    let heard := some (bits w 15 8, bit w 25)
    if s.rnd.members.any fun m => m.node == node && m.com == com then
      s.setRnd { s.rnd with members := s.rnd.members.map fun m =>
        if m.node = node ∧ m.com = com then { m with draw := d, heard := heard } else m }
    else
      s.setRnd { s.rnd with joining := (s.rnd.joining.filter fun m => !(m.node == node && m.com == com))
        ++ [{ node := node, com := com, draw := d }] }

/-- A member put before the first one of a higher node ID. -/
def insertMember (m : RndMember) : List RndMember → List RndMember
  | [] => [m]
  | k :: t => if m.node < k.node then m :: k :: t else k :: insertMember m t

/-- Element-wise binary32 sum of vectors of length `h`, from zeros, in list order. -/
def sumVecs (h : Nat) (l : List (List Nat)) : List Nat :=
  l.foldl (fun acc v => (List.range h).map fun i => fadd b32 (nth acc i 0) (nth v i 0)) (List.replicate h 0)

/-- The domain sum of this head for the present round (R274, R281). (DESIGN CHOICE, log entry 38) -/
def State.domainSum (s : State) : RndSum :=
  let ms := s.rnd.members.foldl (fun l m => insertMember m l) []
  let h := s.headH
  let count (p : RndMember → Bool) := (ms.filter p).length
  let of_ (c : Nat) := ms.filter fun m => m.com == c
  { head := s.nodeId, round := s.rnd.index % 2 ^ 32
    counts := [count fun m => m.heard.any fun x => !x.2 && x.1 != Code.sketch, count fun m => m.heard.any fun x => !x.2 && x.1 == Code.sketch,
      count fun m => m.heard.any (·.2), count fun m => m.heard.isNone]
    n := (List.range s.rnd.cfg.ncom).map fun c => (of_ c).length
    sum := (List.range s.rnd.cfg.ncom).map fun c => sumVecs h ((of_ c).map (·.draw))
    load := if s.rnd.cfg.ncom = 2 then sumVecs h ((of_ 0).map fun m => m.draw.map fun d => fmax b32 d 0) else [] }

/-- The bytes of a domain-sum record (R274). -/
def RndSum.bytes (d : RndSum) (h : Nat) : List Byte :=
  toBytes 4 (1 + 2 ^ 16 * h + 2 ^ 24 * d.n.length) ++ toBytes 4 d.round ++ toBytes 4 d.head
    ++ toBytes 4 (nth d.counts 0 0 + 2 ^ 16 * nth d.counts 1 0) ++ toBytes 4 (nth d.counts 2 0 + 2 ^ 16 * nth d.counts 3 0)
    ++ toBytes 4 (nth d.n 0 0 + 2 ^ 16 * nth d.n 1 0) ++ vecBytes d.sum.flatten ++ vecBytes d.load

/-- A domain-sum record read from its bytes. -/
def sumOf (r : List Byte) : RndSum :=
  let w := recWord r 0
  let h := bits w 23 16
  let nc := bits w 25 24
  let lo (off : Nat) := recWord r off % 2 ^ 16
  let hi (off : Nat) := recWord r off / 2 ^ 16
  { head := recWord r 8 % 2 ^ 13, round := recWord r 4, counts := [lo 0x0C, hi 0x0C, lo 0x10, hi 0x10]
    n := [lo 0x14, hi 0x14].take nc
    sum := (List.range nc).map fun c => recVec r (0x18 + 4 * h * c) h
    load := if nc = 2 then recVec r (0x18 + 8 * h) h else [] }

/-- Domain sums with one put in the place of the same head's, in ascending HEAD_ID. -/
def putSum (d : RndSum) : List RndSum → List RndSum
  | [] => [d]
  | e :: t => if d.head < e.head then d :: e :: t else if d.head = e.head then d :: t else e :: putSum d t

/-- A domain sum sent or received: the last one of its head, kept while it is of the round the newest price record answered
(R291). -/
def State.sumKeep (s : State) (d : RndSum) : State :=
  s.setRnd { s.rnd with
    sums := putSum d s.rnd.sums
    kept := if s.rnd.newest.any fun r => priceRound r == d.round then putSum d s.rnd.kept else s.rnd.kept }

/-- A price record published or received becomes the newest one; the domain sums kept are those of its round (R291). -/
def State.priceNewest (s : State) (r : List Byte) : State :=
  s.setRnd { s.rnd with
    newest := some r, published := true
    kept := if s.rnd.newest.any fun o => priceRound o == priceRound r then s.rnd.kept
      else s.rnd.sums.filter fun d => d.round == priceRound r }

/-- REPLY_END's effect at a head (R281): stored draws of MISSING members are shifted with the round, the domain sum is sent. -/
def State.replyEnd (s : State) : State :=
  let sh := s.roundShifted s.rnd.index
  let s := s.setRnd { s.rnd with summed := true, members := s.rnd.members.map fun m =>
    if m.heard.isSome then { m with miss := 0 }
    else { m with miss := m.miss + 1, draw := if sh then shiftVec m.draw else m.draw } }
  let d := s.domainSum
  (s.sumKeep d).sendMsg 8 0x0A s.nodeId (d.bytes s.headH)

/-- The domain sum for round `k` of the head whose last one is `d`, if it came (R283, R291). -/
def State.sumFor (s : State) (k : Nat) (d : RndSum) : Option RndSum :=
  (d :: s.rnd.kept).find? fun e => e.head == d.head && e.round == k % 2 ^ 32

/-- The previous domain sum of a head that sent none for round `k`: shifted with the round, all its members MISSING (R283). -/
def State.sumAgain (s : State) (k : Nat) (d : RndSum) : RndSum :=
  if s.roundShifted k then { d with sum := d.sum.map shiftVec, load := shiftVec d.load, counts := [0, 0, 0, d.n.sum] }
  else { d with counts := [0, 0, 0, d.n.sum] }

/-- The domain sums the holder counts for round `k` (R283). -/
def State.countedSums (s : State) (k : Nat) : List RndSum :=
  s.rnd.sums.map fun d => (s.sumFor k d).getD (s.sumAgain k d)

/-- The last domain sums after round `k`: one that was substituted stands as if its head had sent it (R283). -/
def State.sumsAfter (s : State) (k : Nat) : List RndSum :=
  s.rnd.sums.map fun d => if (s.sumFor k d).isSome then d else s.sumAgain k d

/-- FIXc[h] (R282). -/
def State.fixDraw (s : State) (sums : List RndSum) (c h : Nat) : Nat :=
  if c = 0 then Config.trunkLoss s.rnd.index h % 2 ^ 32
  else
    let load := sums.foldl (fun a d => fadd b32 a (nth d.load h 0)) 0
    let ts := Config.supplyForecast s.rnd.index h % 2 ^ 32
    fdiv b32 load (fmul b32 s.rnd.cfg.cw (fsub b32 ts s.rnd.cfg.tret))

/-- The update of one commodity (R282): the count N, then λ, d̄, Sprev and the two residuals.
(DESIGN CHOICE, log entry 38) -/
def State.priceUpdate (s : State) (sums : List RndSum) (c : Nat) : Nat × List Nat × List Nat × List Nat × Nat × Nat :=
  let n : Nat := (sums.map fun d => nth d.n c 0).sum
  let lam := nth s.rnd.lam c []
  let dbar := nth s.rnd.dbar c []
  let sprev := nth s.rnd.sprev c []
  if n = 0 then (0, lam, dbar, sprev, 0, 0)
  else
    let hs := List.range s.headH
    let sum := hs.map fun h => sums.foldl (fun a d => fadd b32 a (nth (nth d.sum c []) h 0)) (s.fixDraw sums c h)
    let dn := sum.map fun x => fdiv b32 x (fofInt b32 (n : Int))
    let rho := s.rnd.cfg.rhoC
    let lam' := hs.map fun h => fadd b32 (nth lam h 0) (fmul b32 rho (nth dn h 0))
    let big (v : List Nat) := v.foldl (fun m x => fmax b32 m (fabs b32 x)) 0
    (n, lam', dn, sum, big sum, fmul b32 rho (big (hs.map fun h => fsub b32 (nth sum h 0) (nth sprev h 0))))

/-- The price record of round `k` from what the holder has (R272). -/
def State.priceRecord (s : State) (k : Nat) (start conv resumed : Bool) (counts n : List Nat) : List Byte :=
  let c := s.rnd.cfg
  let h := s.headH
  toBytes 4 (1 + 2 ^ 8 * b2n start + 2 ^ 9 * b2n conv + 2 ^ 10 * b2n (s.roundShifted k) + 2 ^ 11 * b2n resumed
      + 2 ^ 16 * h + 2 ^ 24 * c.ncom)
    ++ toBytes 4 k ++ toBytes 4 (s.rnd.cycle % 2 ^ 16 + 2 ^ 16 * s.rnd.ric) ++ toBytes 4 (s.roundT0 k)
    ++ toBytes 4 (s.nodeId + 2 ^ 13 * s.fld SYS_RND_CFG2.RANK + 2 ^ 16 * s.planStep) ++ toBytes 4 c.rhoC
    ++ toBytes 4 (nth n 0 0 + 2 ^ 16 * nth n 1 0) ++ toBytes 4 (nth counts 0 0 + 2 ^ 16 * nth counts 1 0)
    ++ toBytes 4 (nth counts 2 0 + 2 ^ 16 * nth counts 3 0)
    ++ ((List.range c.ncom).flatMap fun i => vecBytes (nth s.rnd.lam i []) ++ vecBytes (nth s.rnd.dbar i []))
    ++ vecBytes ((List.range h).map fun h => Config.supplyForecast k h % 2 ^ 32)

/-- A price published (R285): held for the next boundary, and sent on the backbone. -/
def State.publish (s : State) (r : List Byte) : State :=
  let s := s.priceNewest r
  let s := s.setRnd { s.rnd with next := some r, holding := true }
  s.sendMsg 8 0x08 s.nodeId r

/-- The update carried out on every commodity for round `r`, its vectors then moved on by `shifts` steps, and the price of
the round after the present one (R282, R284). -/
def State.collectUpdate (s : State) (r shifts : Nat) (resumed : Bool) : State :=
  let sums := s.countedSums r
  let up := (List.range s.rnd.cfg.ncom).map (s.priceUpdate sums)
  let conv := (List.range s.rnd.cfg.ncom).all fun c =>
    match up[c]? with
    | some (_, _, _, _, rp, rd) => fle b32 rp (nth s.rnd.cfg.epsP c 0) && fle b32 rd (nth s.rnd.cfg.epsD c 0)
    | none => true
  let sh (v : List Nat) := forN (fun _ v => shiftVec v) shifts v
  let start := resumed || conv || s.rnd.ric == s.fld SYS_RND_CFG2.RND_MAX
  let counts := (List.range 4).map fun i => (sums.map fun d => nth d.counts i 0).sum
  let s := s.setRnd { s.rnd with
    lam := up.map fun u => sh u.2.1
    dbar := up.map fun u => sh u.2.2.1
    sprev := up.map fun u => sh u.2.2.2.1
    sums := s.sumsAfter r
    ric := if start then 0 else (s.rnd.ric + 1) % 32
    cycle := if resumed then 0 else if start then s.rnd.cycle + 1 else s.rnd.cycle }
  s.publish (s.priceRecord (s.rnd.index + 1) start conv resumed counts (up.map (·.1)))

/-- The head holds the domain sums of the round that price record `r` answers: every head's it knows of, but for that of the
holder of that record, which may have stopped with it (R292 and its example). (DESIGN CHOICE, log entry 38) -/
def State.holdsSums (s : State) (r : List Byte) : Bool :=
  !s.rnd.kept.isEmpty && s.rnd.sums.all fun d =>
    s.rnd.kept.any (·.head == d.head) || (d.head == bits (recWord r 0x10) 12 0 && d.head != s.nodeId)

/-- The first price of a new holder (R285, R292). (DESIGN CHOICE, log entry 38) -/
def State.resumePrice (s : State) : State :=
  let c := s.rnd.cfg
  let h := s.headH
  let k := s.rnd.index
  match s.rnd.newest with
  | none =>
    let s := s.setRnd { s.rnd with
      lam := (List.range c.ncom).map fun i => List.replicate h (nth c.lambda0 i 0)
      dbar := List.replicate c.ncom (List.replicate h 0), sprev := List.replicate c.ncom (List.replicate h 0)
      ric := 0, cycle := 0 }
    s.publish (s.priceRecord (k + 1) true false true [] [])
  | some r =>
    let dbar := (List.range c.ncom).map (priceDbar r)
    let n : List Nat := [recWord r 0x18 % 2 ^ 16, recWord r 0x18 / 2 ^ 16]
    let shifts := min h ((s.roundT0 (k + 1) + 2 ^ 32 - recWord r 0x0C) % 2 ^ 32)
    let s := s.setRnd { s.rnd with
      lam := (List.range c.ncom).map (priceLam r), dbar := dbar
      sprev := (List.range c.ncom).map fun i => (nth dbar i []).map fun d => fmul b32 d (fofInt b32 ((nth n i 0 : Nat) : Int)) }
    if s.holdsSums r then s.collectUpdate (k + 1 - (k + 1 + 2 ^ 32 - priceRound r) % 2 ^ 32) shifts true
    else
      let s := s.setRnd { s.rnd with
        lam := s.rnd.lam.map (forN (fun _ v => shiftVec v) shifts)
        dbar := s.rnd.dbar.map (forN (fun _ v => shiftVec v) shifts)
        sprev := s.rnd.sprev.map (forN (fun _ v => shiftVec v) shifts), ric := 0, cycle := 0 }
      s.publish (s.priceRecord (k + 1) true false true [] n)

/-- A price record received on the backbone from the holder (R280, R291). -/
def State.priceReceived (s : State) (node : Nat) (r : List Byte) : State :=
  if !s.isHead || !s.coordValid || node != s.coordId then s
  else
    let s := s.priceNewest r
    if priceRound r == (s.rnd.index + 1) % 2 ^ 32 && !s.phaseCome (s.fld SYS_RND_CFG2.PUBLISH) then
      s.setRnd { s.rnd with next := some r }
    else s

/-- A candidacy caravan of the holder with ELIGIBLE 0 ends its naming, whatever follows (R289). -/
def State.candEnds (s : State) (node : Nat) (eligible : Bool) : State :=
  if s.net.holder = some node ∧ !eligible then { s with net := { s.net with holder := none } } else s

/-- A candidacy noted. (DESIGN CHOICE, log entry 38) -/
def State.candNote (s : State) (node rank : Nat) (eligible : Bool) : State :=
  let c : CandSeen := { head := node, rank := rank, eligible := eligible, tick := s.le.tick, inst := s.net.inst }
  { s with net := { s.net with cands := (s.net.cands.filter (·.head != node)) ++ [c] } }

/-- A candidacy caravan received (R274, R289). -/
def State.candReceived (s : State) (node : Nat) (r : List Byte) : State :=
  let w := recWord r 0
  let s := s.candEnds node (bit w 3)
  s.candNote node (w % 8) (bit w 3)

/-- A completed caravan given to the rounds: a price, draw, domain sum or candidacy (R271). -/
def State.planReceive (s : State) (chan type node : Nat) (r : List Byte) : State :=
  if type = 0x08 then (if chan < 8 then (if chan = s.rnd.cfg.chan then s.priceAccept r else s) else s.priceReceived node r)
  else if type = 0x09 ∧ chan < 8 then s.drawReceived node r
  else if type = 0x0A ∧ 8 ≤ chan ∧ s.isHead then s.sumKeep (sumOf r)
  else if type = 0x0B ∧ 8 ≤ chan ∧ s.isHead then s.candReceived node r
  else s

/-- This head is eligible for the token (R291). -/
def State.eligible (s : State) : Bool :=
  s.flag SYS_RND_CFG2.CAND && s.flag SYS_NT_STAT.VALID && (s.flag (ETH_STAT.UP 0) || s.flag (ETH_STAT.UP 1))
    && (match s.rnd.newest with
      | none => !s.rnd.published
      | some r => decide (((s.reg SYS_RND_NUM).toNat + 2 ^ 32 - priceRound r) % 2 ^ 32 ≤ 2
          ∨ (priceRound r + 2 ^ 32 - (s.reg SYS_RND_NUM).toNat) % 2 ^ 32 ≤ 1))

/-- The reference period in ticks. -/
def State.refTicks (s : State) : Nat := s.refMs * 100

/-- The number of other heads Q − 1 whose candidacy the quorum needs (R384). -/
def State.quorumOthers (s : State) : Nat := (s.fld SYS_NT_CFG.HEADS + 1) / 2

/-- A candidacy arrived within the last `n` reference periods, which end at reference instants; while none comes, as without valid
NT, the engine's ticks end them, a period late. (DESIGN CHOICE, log entry 38) -/
def State.candWithin (s : State) (n : Nat) (c : CandSeen) : Bool :=
  decide (s.net.inst ≤ c.inst + n) && decide (s.le.tick ≤ c.tick + (n + 1) * s.refTicks)

/-- Candidacies of other heads arrived in the last reference period reach the quorum (R384). -/
def State.hasQuorum (s : State) : Bool :=
  decide (s.quorumOthers ≤ (s.net.cands.filter fun c => c.head != s.nodeId && s.candWithin 1 c).length)

/-- The guard of R289 in reference periods. (DESIGN CHOICE, log entry 38) -/
def State.guardPeriods (s : State) : Nat := (max s.refMs 2 + s.refMs - 1) / s.refMs

/-- A candidate that meets the conditions of R384 becomes acting time master (R386); its grant word goes on from the last one it
received, with nobody named (R286). -/
def State.tmActing (s : State) : State :=
  let silent := decide (s.net.backSeen.getD 0 + (3 + s.fld SYS_RND_CFG2.RANK) * s.refTicks ≤ s.le.tick)
  if s.isHead && s.flag SYS_NT_CFG.TM_CAND && !s.flag SYS_NT_STAT.TM && s.flag SYS_NT_STAT.VALID && silent && s.hasQuorum then
    { s.setFlag SYS_NT_STAT.TM true with net := { s.net with
      actingAt := s.net.inst, noQuorum := 0, holder := none, namedAt := none, grant := (s.reg SYS_COORD &&& ~~~ 0x00010000#32).toNat } }
  else s

/-- These data are of a REF with TM = 1 (R380). -/
def refTm (d : List Byte) : Bool := bit (ofBytes (d.take 4)) 10

/-- The acting master stops: a REF with TM = 1 that waits is not sent (R385). -/
def State.tmStop (s : State) : State :=
  let quiet (b : BusCh) : BusCh := if b.ref.any refTm then { b with ref := none } else b
  { s with net := { s.net with ch := s.net.ch.map quiet } }.setFlag SYS_NT_STAT.TM false

/-- An acting master without its quorum for two reference periods stops (R385). -/
def State.tmQuorum (s : State) : State :=
  if !s.flag SYS_NT_STAT.TM then s
  else if s.hasQuorum then { s with net := { s.net with noQuorum := 0 } }
  else if s.net.noQuorum + 1 < 2 then { s with net := { s.net with noQuorum := s.net.noQuorum + 1 } }
  else s.tmStop

/-- The acting master decides the grant word it sends (R289, R386), its own candidacy among those it counts.
(DESIGN CHOICE, log entry 38) -/
def State.grantDecide (s : State) : State :=
  let l := s.net.cands
  let keep := s.net.holder.any fun h => l.any fun c => c.head == h && c.eligible && s.candWithin 2 c
  if keep then { s with net := { s.net with namedAt := some s.net.inst } }
  else
    let since := match s.net.namedAt with
      | some t => max t s.net.actingAt
      | none => s.net.actingAt
    let silent : State := { s with net := { s.net with holder := none, grant := s.net.grant - (s.net.grant / 2 ^ 16 % 2) * 2 ^ 16 } }
    if s.net.inst < since + 3 + s.guardPeriods then silent
    else
      let live := l.filter fun c => c.eligible && s.candWithin 1 c
      match live.foldl (fun best c => match best with
          | none => some c
          | some b => if c.rank < b.rank then some c else some b) (none : Option CandSeen) with
      | none => silent
      | some c =>
        let old := s.net.grant
        let gseq := if old % 2 ^ 13 = c.head then old / 2 ^ 24 else (old / 2 ^ 24 + 1) % 256
        { s with net := { s.net with
          holder := some c.head, namedAt := some s.net.inst
          grant := c.head + 2 ^ 13 * c.rank + 2 ^ 16 + 2 ^ 24 * gseq } }

/-- ROUND_BOUNDARY (R266). -/
def execRoundBoundary (s : State) : Out :=
  State.out <| if s.ntReached s.roundMs ∧ s.ntIndex s.roundMs ≠ s.rnd.index then s.roundStart else s

/-- SOLVE_END (R278): a participant that submitted no job sends its repeated draw. -/
def execSolveEnd (s : State) : Out :=
  State.out <|
    if s.phaseCome (s.fld SYS_RND_CFG.SOLVE_END) ∧ s.rnd.job.isNone then
      s.reply (s.rnd.refused.getD Code.stale) true 0 s.repeatDraw
    else s

/-- REPLY_END (R281). -/
def execReplyEnd (s : State) : Out :=
  State.out <| if s.isHead ∧ s.canSend ∧ !s.rnd.summed ∧ s.phaseCome (s.fld SYS_RND_CFG.REPLY_END) then s.replyEnd else s

/-- COLLECT (R282 to R285, R292): the holder computes the update and publishes the price of the next round. -/
def execCollect (s : State) : Out :=
  State.out <|
    if !s.isHead || !s.canSend || s.rnd.collected || !s.phaseCome (s.fld SYS_RND_CFG.COLLECT) then s
    else
      let s := s.setRnd { s.rnd with collected := true }
      if !s.flag SYS_COORD_STAT.HOLD then s.setRnd { s.rnd with holding := false }
      else if s.rnd.holding then s.collectUpdate s.rnd.index (b2n (s.roundShifted (s.rnd.index + 1))) false else s.resumePrice

/-- COORD_LEASE_LAPSE (R287). -/
def execCoordLeaseLapse (s : State) : Out :=
  State.out s.coordLapse

/-- CAND_SEND (R291, R384): a head sends its candidacy on the backbone. -/
def execCandSend (s : State) : Out :=
  State.out <|
    if s.isHead ∧ s.canSend ∧ (s.flag SYS_RND_CFG2.CAND ∨ 0 < s.fld SYS_NT_CFG.HEADS) then
      let w := s.fld SYS_RND_CFG2.RANK + 2 ^ 3 * b2n s.eligible + 2 ^ 4 * b2n (s.flag SYS_COORD_STAT.HOLD)
      let r := toBytes 4 w ++ toBytes 4 ((s.rnd.newest.map priceRound).getD 0)
      ((s.candEnds s.nodeId s.eligible).candNote s.nodeId (s.fld SYS_RND_CFG2.RANK) s.eligible).sendMsg 8 0x0B s.nodeId r
    else s

end Sys2Proof.Machine
end

