-- ==== Sys2Proof/Machine/BusOps.lean ====
section
/-! DEFINITION. What CAN channels and ETH ports share (chapter 17): channels 0 to 7 are CAN0 to CAN7, 8 and 9 are ETH0 and ETH1.
Receive and caravan queues, reassembly, the checks of transmit entries and their completion. -/

namespace Sys2Proof.Machine

/-- A channel that a self-test found failed is held disabled (R501, R507). -/
def State.canFailed (s : State) (c : Nat) : Bool := decide (c < 8) && bit (s.fld LCS_HEALTH.CAN) c

/-- The register block of a channel or port (R373, R374). -/
def busBase (c : Nat) : Nat := if c < 8 then 0x400A0000 + 0x2000 * c else 0x400B0000 + 0x1000 * (c - 8)

/-- A field of the registers that channels and ports lay out alike. -/
abbrev busField (c off hi lo : Nat) : Field := ⟨busBase c + off, hi, lo⟩

/-- One channel or port. -/
def State.ch (s : State) (c : Nat) : BusCh := nth s.net.ch c {}
/-- One channel or port changed. -/
def State.setCh (s : State) (c : Nat) (b : BusCh) : State := { s with net := { s.net with ch := putAt s.net.ch c b } }

/-- An event of a channel or port. -/
def State.busEvent (s : State) (c b : Nat) : State := s.setFlag (busField c 0x10 b b) true

/-- A channel or port is enabled and runs: not in SLEEP, not until the LE has resumed after a brown stall, no self-test running on
it (R34, R352, R504). -/
def State.busRuns (s : State) (c : Nat) : Bool :=
  s.flag (busField c 0 0 0) && !s.inSleep && (s.ch c).testing.isNone && !s.stalled && !s.canFailed c

/-- The data bytes a data length code stands for. -/
def dlcLen (fdf : Bool) (dlc : Nat) : Nat :=
  if dlc ≤ 8 then dlc else if !fdf then 8 else nth [12, 16, 20, 24, 32, 48, 64] (dlc - 9) 8

/-- The smallest FD data length code that holds `n` bytes. -/
def dlcFor (n : Nat) : Nat := ((List.range 16).find? fun d => decide (n ≤ dlcLen true d)).getD 15

/-- A list cut or filled with zeros to `n` bytes. -/
def fitBytes (n : Nat) (l : List Byte) : List Byte := l.take n ++ List.replicate (n - l.length) 0

/-- The data bytes of a frame; a remote frame has none. -/
def frameBytes (f : CanFrame) : List Byte := if f.rtr then [] else fitBytes (dlcLen f.fdf f.dlc.toNat) f.data

/-- The time stamp of a frame whose SOF sample point lay `sof` PCLK cycles after the present tick: Network Time, or LE_TICK
while NT is not valid (R342). -/
def State.busStamp (s : State) (sof : Int) : Bool × Nat :=
  if s.flag SYS_NT_STAT.VALID then (true, s.ntAt sof) else (false, ((s.le.tick : Int) + sof / 1000).toNat)

/-- The next index, and the owned entries, of the queue whose WIDX register lies at `off`. -/
def State.qNext (s : State) (c off : Nat) : Nat := s.fld (busField c off 12 0)
def State.qOwned (s : State) (c off : Nat) : Nat := s.fld (busField c off 28 16)

/-- The depth of the receive queue: RXQ, of which 0 stands for 4,096 on an enabled CAN channel (R373). -/
def State.rxDepth (s : State) (c : Nat) : Nat :=
  let n := s.fld (busField c 0x1C 12 0)
  if n = 0 ∧ c < 8 then 4096 else n
/-- The depth of the caravan queue. -/
def State.cqDepth (s : State) (c : Nat) : Nat := s.fld (busField c 0x1C 31 23)
/-- The number of reassembly contexts. -/
def State.ctxCount (s : State) (c : Nat) : Nat := min 16 (s.fld (busField c 0x1C 22 18))

/-- The index moves on by one, and one more entry passes to software (R343). -/
def State.qPost (s : State) (c off depth : Nat) : State :=
  let w := s.setFld (busField c off 12 0) ((s.qNext c off + 1) % max 1 depth)
  w.setFld (busField c off 28 16) (s.qOwned c off + 1)

/-- A frame counted, and put into the receive queue or dropped (R342 to R344): `size` bytes an entry, word 0, the format bits of
word 4, its time stamp, its bytes. -/
def State.rxPost (s : State) (c size w0 fmt : Nat) (ts : Bool × Nat) (data : List Byte) : State :=
  let no := ((s.ch c).rxno + 1) % 65536
  let s := s.setCh c { s.ch c with rxno := no }
  if s.rxDepth c ≤ s.qOwned c 0x30 then (s.countUp (busField c 0x40 11 0)).busEvent c 2
  else
    let a := s.fld (busField c 0x20 31 0) + size * s.qNext c 0x30
    let s := s.wrBytes a (toBytes 4 w0 ++ toBytes 4 (fmt + 2 ^ 7 * b2n ts.1 + 2 ^ 16 * no) ++ toBytes 8 ts.2
      ++ fitBytes (size - 16) data)
    (s.qPost c 0x30 (s.rxDepth c)).busEvent c 0

/-- How many owned entries an acknowledgement of index `v` releases, none where it names one that software does not own
(R343). -/
def State.ackCount (s : State) (c off depth v : Nat) : Option Nat :=
  let owned := s.qOwned c off
  let oldest := (s.qNext c off + depth - owned) % max 1 depth
  let d := (v + depth - oldest) % max 1 depth
  if v < depth ∧ d < owned then some (d + 1) else none

/-- An acknowledgement that names an entry not owned (R343). -/
def State.badAck (s : State) (c : Nat) : State := s.setFlag (busField c 0x40 31 31) true

/-- A write of CAN_RX_ACK or ETH_RX_ACK (R343). -/
def State.rxAck (s : State) (c v : Nat) : State :=
  match s.ackCount c 0x30 (s.rxDepth c) (v % 2 ^ 13) with
  | none => s.badAck c
  | some n => s.setFld (busField c 0x30 28 16) (s.qOwned c 0x30 - n)

/-- A context freed. -/
def State.ctxFree (s : State) (c x : Nat) : State := s.setCh c { s.ch c with ctx := putAt (s.ch c).ctx x none }

/-- A write of CAN_CQ_ACK or ETH_CQ_ACK: the entries and their contexts are released (R343, R361). -/
def State.cqAck (s : State) (c v : Nat) : State :=
  match s.ackCount c 0x38 (s.cqDepth c) (v % 2 ^ 13) with
  | none => s.badAck c
  | some n =>
    let gone := (s.ch c).cq.take n
    let s := gone.foldl (fun s x => match x with
      | some x => s.ctxFree c x
      | none => s) s
    (s.setCh c { s.ch c with cq := (s.ch c).cq.drop n }).setFld (busField c 0x38 28 16) (s.qOwned c 0x38 - n)

/-- A caravan frame or caravan dropped (R361). -/
def State.carLost (s : State) (c : Nat) : State := (s.countUp (busField c 0x40 23 12)).busEvent c 3

/-- COUNT, TAG, LEN of a caravan header (R357). -/
def hdrId (h : Nat) : Nat := bits h 7 0
def hdrCount (h : Nat) : Nat := bits h 13 8
def hdrTag (h : Nat) : Bool := bit h 14
def hdrLen (h : Nat) : Nat := bits h 27 16
/-- The bytes of a body. -/
def bodyLen (len : Nat) (tag : Bool) : Nat := len + 4 + 8 * b2n tag
/-- COUNT for a record length (R357). -/
def carCount (len : Nat) (tag : Bool) : Nat := (bodyLen len tag + 59) / 60
/-- The header of a caravan. -/
def carHeader (id count : Nat) (tag : Bool) (len : Nat) : Nat := id + 2 ^ 8 * count + 2 ^ 14 * b2n tag + 2 ^ 16 * len

/-- A valid header: row 1 of R362. -/
def hdrValid (h : Nat) : Bool :=
  !bit h 15 && bits h 31 28 == 0 && hdrCount h != 0 && hdrLen h != 0 && hdrCount h == carCount (hdrLen h) (hdrTag h)

/-- Body bytes that frame `q` of a caravan carries. -/
def bodyOf (h q : Nat) : Nat := min 60 (bodyLen (hdrLen h) (hdrTag h) - 60 * (q - 1))

/-- A caravan queue entry posted, or the caravan discarded where the queue is full (R361, R363): `h` is 0 where no valid header
was seen, `x` the context of an OK entry. -/
def State.cqPost (s : State) (c id status h frames ts : Nat) (x : Option Nat) : State :=
  if s.cqDepth c ≤ s.qOwned c 0x38 then
    (match x with
      | some x => s.ctxFree c x
      | none => s).carLost c
  else
    let a := s.fld (busField c 0x28 31 0) + 16 * s.qNext c 0x38
    let s := s.wrBytes a (toBytes 4 id
      ++ toBytes 4 (status + 2 ^ 8 * hdrId h + 2 ^ 16 * hdrCount h + 2 ^ 22 * b2n (hdrTag h) + 2 ^ 24 * frames)
      ++ toBytes 4 (hdrLen h + 2 ^ 16 * x.getD 0xFF) ++ toBytes 4 ts)
    let s := (s.qPost c 0x38 (s.cqDepth c)).busEvent c 1
    s.setCh c { s.ch c with cq := (s.ch c).cq ++ [x] }

/-- Context `x` discarded with an outcome (R362). -/
def State.ctxDrop (s : State) (c x status : Nat) : State :=
  match nth (s.ch c).ctx x none with
  | none => s
  | some k => (s.ctxFree c x).cqPost c (k.key * 128) status k.header k.frames.length k.ts none

/-- The open context of an identifier (bits [28:7]), not yet passed to software. -/
def State.ctxOpen (s : State) (c key : Nat) : Option Nat :=
  (s.ch c).ctx.findIdx? fun k => k.any fun k => k.key == key && !k.owned

/-- The lowest free context. -/
def State.ctxNew (s : State) (c : Nat) : Option Nat :=
  ((s.ch c).ctx.take (s.ctxCount c)).findIdx? Option.isNone

/-- The address of context `x` (R363). -/
def State.ctxAt (s : State) (c x : Nat) : Nat := s.fld (busField c 0x24 31 0) + 3840 * x

/-- A caravan completed on a backbone port with DUP = 1 equals one completed on either port within 1 s (R366).
(DESIGN CHOICE, log entry 43) -/
def State.dupCaravan (s : State) (c id car crc : Nat) : Bool :=
  decide (8 ≤ c) && s.flag (ETH_CTL.DUP 0)
    && (s.ch 8).recent.any fun r => r.1 == id && r.2.1 == car && r.2.2.1 == crc && decide (s.le.tick ≤ r.2.2.2 + 100000)

/-- A completion noted (R366). -/
def State.noteCaravan (s : State) (c id car crc : Nat) : State :=
  if c < 8 then s
  else s.setCh 8 { s.ch 8 with
    recent := ((s.ch 8).recent.filter fun r => decide (s.le.tick ≤ r.2.2.2 + 100000)) ++ [(id, car, crc, s.le.tick)] }

/-- Context `x` has all its frames: its CRC is checked, it is posted, and a planning caravan goes to the rounds (R271, R361,
R362, R366). -/
def State.ctxComplete (s : State) (c x : Nat) : State :=
  match nth (s.ch c).ctx x none with
  | none => s
  | some k =>
    let len := hdrLen k.header
    let r := s.rdBytes (s.ctxAt c x) len
    let crc := s.rd32 (s.ctxAt c x + len)
    let id := k.key * 128
    if crc32 r ≠ crc then s.ctxDrop c x Code.format
    else
      let dup := s.dupCaravan c id k.car crc
      let s := s.noteCaravan c id k.car crc
      if dup then (s.ctxFree c x).countUp (busField c 0x40 30 24)
      else
        let room := decide (s.qOwned c 0x38 < s.cqDepth c)
        let s := s.setCh c { s.ch c with ctx := putAt (s.ch c).ctx x (some { k with owned := true }) }
        let s := s.cqPost c id Code.ok k.header k.frames.length k.ts (some x)
        if room then s.planReceive c (k.key / 2 ^ 13 % 64) (k.key % 2 ^ 13) r else s

/-- Frame `q` of a caravan placed in context `x`. -/
def State.ctxPlace (s : State) (c x q ts : Nat) (data : List Byte) : State :=
  match nth (s.ch c).ctx x none with
  | none => s
  | some k =>
    let s := s.wrBytes (s.ctxAt c x + 60 * (q - 1)) ((data.drop 4).take (bodyOf k.header q))
    let k := { k with frames := k.frames ++ [(q, data)], ts := ts }
    let s := s.setCh c { s.ch c with ctx := putAt (s.ch c).ctx x (some k) }
    if k.frames.length = hdrCount k.header then s.ctxComplete c x else s

/-- A context opened for a caravan, or its frame dropped (R361). -/
def State.ctxBegin (s : State) (c key h q ts : Nat) (data : List Byte) : State :=
  match s.ctxNew c with
  | none => s.carLost c
  | some x =>
    let k : BusCtx := { key := key, car := hdrId h, header := h, opened := s.le.tick, ts := ts, src := (s.ch c).src }
    let s := s.setCh c { s.ch c with ctx := putAt (s.ch c).ctx x (some k) }
    if hdrCount h < q then s.ctxDrop c x Code.length else s.ctxPlace c x q ts data

/-- A caravan frame reaches the reassembler: identifier, data, low word of its time stamp (R361, R362).
(DESIGN CHOICE, log entry 43) -/
def State.carFrame (s : State) (c id ts : Nat) (data : List Byte) : State :=
  let key := id / 128
  let q := id % 128
  let h := ofBytes (data.take 4)
  let x := s.ctxOpen c key
  let own := x.filter fun x => (nth (s.ch c).ctx x none).any fun k => k.car == hdrId h
  let k := (own.bind fun x => nth (s.ch c).ctx x none).getD { key := key, car := hdrId h, header := h }
  if !hdrValid h || decide (data.length < 4 + bodyOf h q) then
    match own with
    | some x => s.ctxDrop c x Code.format
    | none => s.cqPost c (key * 128) Code.format (if hdrValid h then h else 0) 0 ts none
  else
    match own with
    | some x =>
      if hdrCount h < q ∨ h ≠ k.header then s.ctxDrop c x Code.length
      else
        match k.frames.find? fun f => f.1 == q with
        | some f => if f.2 = data then s.countUp (busField c 0x40 30 24) else s.ctxDrop c x Code.format
        | none => s.ctxPlace c x q ts data
    | none =>
      match x with
      | some x => (s.ctxDrop c x Code.length).ctxBegin c key h q ts data
      | none => s.ctxBegin c key h q ts data

/-- The entries of a channel or port. -/
def busEntries (c : Nat) : Nat := if c < 8 then 32 else 16

/-- Word `i` of transmit entry `e` (R345). -/
def State.txWord (s : State) (c e i : Nat) : Nat := s.rd32 (s.fld (busField c 0x2C 31 0) + 80 * e + 4 * i)
def State.txCaravan (s : State) (c e : Nat) : Bool := bit (s.txWord c e 1) 7
def State.txTag (s : State) (c e : Nat) : Bool := bit (s.txWord c e 1) 16
def State.txLen (s : State) (c e : Nat) : Nat := bits (s.txWord c e 3) 11 0
def State.txOneshot (s : State) (c e : Nat) : Bool := bit (s.txWord c e 1) 6
/-- COUNT of a KIND 1 entry. -/
def State.txCount (s : State) (c e : Nat) : Nat := if s.txCaravan c e then carCount (s.txLen c e) (s.txTag c e) else 1

/-- The extent of a body lies in bus RAM, its address on a 4-byte boundary; a port reads the address before it as well. -/
def State.txBodyOk (s : State) (c e : Nat) : Bool :=
  let a := s.txWord c e 2
  let lo := if c < 8 then a else a - 16
  a % 4 == 0 && decide (0x31000000 ≤ lo) && decide (a + s.txLen c e + 8 * b2n (s.txTag c e) ≤ 0x31100000)

/-- The check of a transmit entry (R346). (DESIGN CHOICE, log entry 43) -/
def State.txCheck (s : State) (c e : Nat) : Nat :=
  let w0 := s.txWord c e 0
  let w1 := s.txWord c e 1
  let car := s.txCaravan c e
  if bit w0 31 ∨ bits w1 31 17 ≠ 0 ∨ bits (s.txWord c e 3) 31 12 ≠ 0
      ∨ (car ∧ (!bit w0 29 ∨ !bit w1 4 ∨ w0 % 128 ≠ 0 ∨ bit w0 30)) then Code.format
  else if car ∧ (s.txLen c e = 0 ∨ 3776 - 8 * b2n (s.txTag c e) < s.txLen c e) then Code.length
  else if car ∧ !s.txBodyOk c e then Code.range
  else if c < 8 ∧ s.flag (CAN_STAT.RESTR c) then Code.refusedState
  else Code.ok

/-- Entry `e` is pending. -/
def State.txPending (s : State) (c e : Nat) : Bool := bit (s.reg (busBase c + 0x4C)).toNat e

/-- The copies of entry `e` for ETH1 (R366): they go with an entry that ends otherwise than well, and stay of one that was sent.
(DESIGN CHOICE, log entry 44) -/
def State.copyEnd (s : State) (c e status : Nat) : State :=
  let mine (m : NetMsg) := m.chan == 9 && m.entry == some e
  if c ≠ 8 then s
  else if status = Code.ok then
    { s with net := { s.net with sent := s.net.sent.map fun m => if mine m then { m with entry := none } else m } }
  else { s with net := { s.net with sent := s.net.sent.filter fun m => !mine m } }

/-- An entry completes (R348). -/
def State.txDone (s : State) (c e status detail : Nat) : State :=
  let s := s.copyEnd c e status
  let b := s.ch c
  let s := s.setReg (busBase c + 0x100 + 4 * e) (BitVec.ofNat 32 (status + 2 ^ 8 * detail + 2 ^ 16 * nth b.sent e 0))
  let s := (s.setBit (busField c 0x4C 31 0) e false).setBit (busField c 0x54 31 0) e true
  (s.setCh c { b with sent := putAt b.sent e 0, abort := putAt b.abort e false }).busEvent c 4

/-- SEQ of a REF's data (R380). -/
def refNo (d : List Byte) : Nat := ofBytes ((d.drop 2).take 2)

/-- A REF that was on the bus and did not go waits again, unless a newer one waits, or it has TM = 1 and this head acts no more
(R385). (DESIGN CHOICE, log entry 43) -/
def State.refBack (s : State) (c : Nat) (d : List Byte) : State :=
  if (s.ch c).ref.isSome || (refTm d && !s.flag SYS_NT_STAT.TM) then s
  else s.setCh c { s.ch c with ref := some d }

/-- A brown stall or SLEEP cuts the frame on every channel (R34, R352): its entry stays pending, or ends if its abort was asked.
(DESIGN CHOICE, log entry 43) -/
def State.busCut (s : State) : State :=
  forN (fun c s =>
    let s := match (s.ch c).cur with
      | some (.entry e, _) => if nth (s.ch c).abort e false then s.txDone c e Code.skipped 0 else s
      | some (.ref, f) => s.refBack c f.data
      | _ => s
    s.setCh c { s.ch c with cur := none }) 8 s

/-- The IPv6 address of a KIND 1 entry of a port and its UDP port: none for ff02::1, which all zeros stand for (R365). -/
def State.txDst (s : State) (c e : Nat) : List Byte :=
  let a := s.rdBytes (s.txWord c e 2 - 16) 16
  if a.all (· == 0) then [] else a ++ toBytesBE 2 (s.fld (ETH_UDP.PORT (c - 8)))

/-- An accepted entry of a port as a message. -/
def State.txMsg (s : State) (c e : Nat) : NetMsg :=
  let w0 := s.txWord c e 0
  let w1 := s.txWord c e 1
  let m : NetMsg := { chan := c, prio := bits w0 28 26, type := bits w0 25 20, node := bits w0 19 7, record := [] }
  if s.txCaravan c e then
    { m with
      record := s.rdBytes (s.txWord c e 2) (s.txLen c e), dst := s.txDst c e, car := bits w1 15 8
      tag := if s.txTag c e then s.rdBytes (s.txWord c e 2 + s.txLen c e) 8 else [] }
  else { m with single := true, record := s.rdBytes (s.fld (busField c 0x2C 31 0) + 80 * e + 16) (dlcLen (bit w1 4) (w1 % 16)) }

/-- One bit of CAN_TX_REQ or ETH_TX_REQ (R346). -/
def State.txRequest (s : State) (c e : Nat) : State :=
  if s.txPending c e ∨ !s.flag (busField c 0 0 0) then s
  else
    let s := s.setCh c { s.ch c with sent := putAt (s.ch c).sent e 0, reqAt := putAt (s.ch c).reqAt e s.le.tick }
    let code := if s.canFailed c then Code.busOff else s.txCheck c e
    if code ≠ Code.ok then s.txDone c e code 0
    else
      let s := s.setBit (busField c 0x4C 31 0) e true
      if s.copies c then s.queueMsg { s.txMsg c e with chan := 9, entry := some e } else s

/-- A write of CAN_TX_REQ or ETH_TX_REQ. -/
def State.txReqWrite (s : State) (c v : Nat) : State :=
  forN (fun e s => if bit v e then s.txRequest c e else s) (busEntries c) s

/-- The entry whose frame is on the bus. -/
def State.onBus (s : State) (c e : Nat) : Bool := (s.ch c).cur.any fun f => f.1 == BusSrc.entry e

/-- A write of CAN_TX_ABORT or ETH_TX_ABORT (R349). -/
def State.txAbortWrite (s : State) (c v : Nat) : State :=
  forN (fun e s =>
    if !bit v e ∨ !s.txPending c e then s
    else if s.onBus c e then s.setCh c { s.ch c with abort := putAt (s.ch c).abort e true }
    else s.txDone c e Code.skipped 0) (busEntries c) s

/-- The body of a KIND 1 entry: the record, its CRC, and the tag that follows the record in memory (R357, R359). -/
def State.txBody (s : State) (c e : Nat) : List Byte :=
  let a := s.txWord c e 2
  let n := s.txLen c e
  let r := s.rdBytes a n
  r ++ toBytes 4 (crc32 r) ++ (if s.txTag c e then s.rdBytes (a + n) 8 else [])

/-- The header of a KIND 1 entry (R360). -/
def State.txHeader (s : State) (c e : Nat) : Nat :=
  carHeader (bits (s.txWord c e 1) 15 8) (s.txCount c e) (s.txTag c e) (s.txLen c e)

/-- The identifier of the next frame of an entry. -/
def State.txId (s : State) (c e : Nat) : Nat :=
  let id := bits (s.txWord c e 0) 28 0
  if s.txCaravan c e then id + nth (s.ch c).sent e 0 + 1 else id

/-- COUNT of a message that waits. -/
def NetMsg.count (m : NetMsg) : Nat := if m.single then 1 else carCount m.record.length (!m.tag.isEmpty)
/-- The caravan header of a message (R357). -/
def NetMsg.header (m : NetMsg) : Nat := carHeader m.car m.count (!m.tag.isEmpty) m.record.length
/-- Its body: the record, its CRC, its tag. -/
def NetMsg.body (m : NetMsg) : List Byte := m.record ++ toBytes 4 (crc32 m.record) ++ m.tag
/-- The identifier of its next frame. -/
def NetMsg.nextId (m : NetMsg) : Nat := if m.single then m.id else m.id + m.done + 1

/-- The messages that wait on a channel or port, with the identifiers of their next frames. (DESIGN CHOICE, log entry 43) -/
def State.msgsOf (s : State) (c : Nat) : List (Nat × BusSrc) :=
  (s.net.sent.filter (·.chan == c)).map fun m => (m.nextId, BusSrc.msg m.no)
/-- The message of a number. -/
def State.msgAt (s : State) (no : Nat) : Option NetMsg := s.net.sent.find? (·.no == no)
/-- A message ends. -/
def State.msgDrop (s : State) (no : Nat) : State := { s with net := { s.net with sent := s.net.sent.filter (·.no != no) } }
/-- `n` frames of a message sent well. -/
def State.msgSent (s : State) (no n : Nat) : State :=
  let s : State := { s with net := { s.net with sent := s.net.sent.map fun m => if m.no = no then { m with done := m.done + n } else m } }
  { s with net := { s.net with sent := s.net.sent.filter fun m => m.no != no || decide (m.done < m.count) } }

/-- An identifier of type PRICE whose node is not the valid holder (R288). -/
def State.priceBarred (s : State) (id : Nat) : Bool :=
  id / 2 ^ 20 % 64 == 8 && !(s.coordValid && id / 2 ^ 7 % 2 ^ 13 == s.coordId)

/-- An entry that the check of R288 stops. -/
def State.priceRefuse (s : State) (c e : Nat) : State :=
  (s.txDone c e Code.refusedState 0).setFlag SYS_COORD_STAT.PRICE_REF true

/-- A message that it stops. -/
def State.msgRefuse (s : State) (no : Nat) : State := (s.msgDrop no).setFlag SYS_COORD_STAT.PRICE_REF true

/-- The heartbeat word at offset 0 (R355). -/
def State.beatWord (s : State) : Nat :=
  1 + 2 ^ 8 * s.fld SYS_PAL_STAT.STATE + 2 ^ 10 * s.fld SYS_ROLE.ROLE + 2 ^ 12 * s.fld SYS_ROLE.GROUND
    + 2 ^ 13 * s.fld SYS_PROF_STAT.CUR + 2 ^ 16 * s.fld LCS_STAT.STATE + 2 ^ 24 * s.fld SYS_COORD_STAT.HOLD
    + 2 ^ 25 * s.fld SYS_NT_STAT.VALID + 2 ^ 26 * b2n s.cp.cprst

/-- Seconds since the start tick (R355). (DESIGN CHOICE, log entry 45) -/
def State.uptime (s : State) : Nat := min 0xFFFFFFFF ((s.aon.edges - s.boot.startEdge) / 32768)

/-- The data of a heartbeat (R355). (DESIGN CHOICE, log entry 45) -/
def State.beatData (s : State) : List Byte :=
  toBytes 4 s.beatWord ++ toBytes 4 (s.reg LCS_CAUSE).toNat ++ toBytes 4 (s.reg SYS_PAL_VER).toNat ++ toBytes 4 s.uptime

/-- The data of a power-fail notice (R356). (DESIGN CHOICE, log entry 45) -/
def State.pfailData (s : State) : List Byte :=
  toBytes 4 s.beatWord ++ toBytes 6 s.tickCount ++ toBytes 2 (s.fld PWR_VMON.VHOLD) ++ toBytes 4 (s.reg SYS_TOT_SEQ).toNat

/-- Power-fail notices queued at an assertion of PF_WARN (R356). -/
def State.pfailQueue (s : State) : State :=
  let d := s.pfailData
  forN (fun c s =>
    if (if c < 8 then s.flag (CAN_HB_CFG.EN c) else s.flag (ETH_STAT.UP (c - 8))) && s.busRuns c then
      s.setCh c { s.ch c with pfail := some d }
    else s) 10 s

/-- The identifier of a hardware message of this node. -/
def State.hwId (s : State) (prio type : Nat) : Nat := msgId prio type s.nodeId

/-- Entries that wait out a self-test for more than 4 ms, completed at a tick (R504). -/
def State.busTestTick (s : State) (c : Nat) : State :=
  match (s.ch c).testing with
  | none => s
  | some t => forN (fun e s =>
      if s.txPending c e ∧ max t (nth (s.ch c).reqAt e 0) + 400 ≤ s.le.tick then s.txDone c e Code.refusedSelftest 0 else s) 32 s

end Sys2Proof.Machine
end

