-- ==== Sys2Proof/Machine/Can.lean ====
section
/-! DEFINITION. The CAN channels (R338 to R363) and the commands that write queues of channels and ports alike. -/

namespace Sys2Proof.Machine

/-- A frame is a caravan frame (R341). -/
def State.isCaravan (s : State) (c : Nat) (f : CanFrame) : Bool :=
  f.xtd && f.fdf && f.id.toNat % 128 != 0 && decide (8 ≤ (frameBytes f).length) && s.flag (CAN_CTL.RASM c)

/-- A received frame stored (R341). -/
def State.canReceive (s : State) (c : Nat) (f : CanFrame) (sof : Int) : State :=
  let ts := s.busStamp sof
  if s.isCaravan c f then
    (s.setCh c { s.ch c with rxno := ((s.ch c).rxno + 1) % 65536 }).carFrame c f.id.toNat (ts.2 % 2 ^ 32) (frameBytes f)
  else
    s.rxPost c 80 (f.id.toNat + 2 ^ 29 * b2n f.xtd + 2 ^ 30 * b2n f.rtr)
      (f.dlc.toNat + 2 ^ 4 * b2n f.fdf + 2 ^ 5 * b2n f.brs + 2 ^ 6 * b2n f.esi) ts (frameBytes f)

/-- The error counters (ISO 11898-1; PRESUMED, log entry 12). (PRESUMED, log entry 12) -/
def State.tec (s : State) (c : Nat) : Nat := s.fld (CAN_STAT.TEC c)
def State.recCount (s : State) (c : Nat) : Nat := s.fld (CAN_STAT.REC c)
/-- Error state: 0 active, 1 passive, 2 bus-off, 3 recovering. -/
def State.canState (s : State) (c : Nat) : Nat := s.fld (CAN_STAT.STATE c)

/-- Every pending entry of a channel that enters bus-off completes; what the hardware would send next is given up, a message among
it (R348). -/
def State.busOff (s : State) (c : Nat) : State :=
  let s := s.setFld (CAN_STAT.STATE c) (if s.flag (CAN_CTL.ABOR c) then 3 else 2)
  let s := (s.setCh c { s.ch c with cur := none }).busEvent c 5
  let s : State := { s with net := { s.net with sent := s.net.sent.filter (·.chan != c) } }
  forN (fun e s => if s.txPending c e then s.txDone c e Code.busOff 0 else s) 32 s

/-- The counters set, the error state following them (ISO 11898-1). (PRESUMED, log entry 12) -/
def State.setCounters (s : State) (c tec rec_ : Nat) : State :=
  let s := (s.setFld (CAN_STAT.TEC c) (min 255 tec)).setFld (CAN_STAT.REC c) (min 255 rec_)
  if 2 ≤ s.canState c then s
  else if 255 < tec then s.busOff c
  else
    let passive := decide (127 < tec) || decide (127 < rec_)
    let enters := passive && s.canState c == 0
    let s := s.setFld (CAN_STAT.STATE c) (b2n passive)
    if enters then s.busEvent c 6 else s

/-- The receive counter after a frame received well: above 127 it takes a value from 119 to 127, which the standard leaves
open. (PRESUMED, log entry 12) -/
def State.recDown (s : State) (c : Nat) : State :=
  if s.flag (CAN_STAT.RESTR c) then s
  else if 127 < s.recCount c then (s.setCounters c (s.tec c) (119 + s.freeValue % 9)).takeFree
  else s.setCounters c (s.tec c) (s.recCount c - 1)

/-- An error on the bus shown in CAN_ERR (R373). (PRESUMED, log entry 12) -/
def State.canErr (s : State) (c type pos : Nat) : State :=
  (((s.countUp (CAN_ERR.COUNT c)).setFld (CAN_ERR.TYPE c) type).setFld (CAN_ERR.POS c) pos).busEvent c 7

/-- The first data of the frame that a channel sends next from an entry (R360). -/
def State.entryFrame (s : State) (c e : Nat) : CanFrame :=
  let w0 := s.txWord c e 0
  let w1 := s.txWord c e 1
  let base := s.fld (CAN_TX_BASE.ADDR c) + 80 * e
  let esi := s.canState c == 1
  if s.txCaravan c e then
    let k := nth (s.ch c).sent e 0
    let part := ((s.txBody c e).drop (60 * k)).take 60
    let d := dlcFor (4 + part.length)
    { id := BitVec.ofNat 29 (s.txId c e), xtd := true, rtr := false, fdf := true, brs := bit w1 5, esi := esi
      dlc := BitVec.ofNat 4 d, data := fitBytes (dlcLen true d) (toBytes 4 (s.txHeader c e) ++ part) }
  else
    let rtr := bit w0 30
    let fdf := bit w1 4 && !rtr
    { id := BitVec.ofNat 29 w0, xtd := bit w0 29, rtr := rtr, fdf := fdf, brs := fdf && bit w1 5, esi := fdf && esi
      dlc := BitVec.ofNat 4 w1, data := if rtr then [] else s.rdBytes (base + 16) (dlcLen fdf (w1 % 16)) }

/-- The next frame of a message that waits, an FD frame with BRS (R360). (DESIGN CHOICE, log entry 43) -/
def State.msgFrame (s : State) (c : Nat) (m : NetMsg) : CanFrame :=
  let part := (m.body.drop (60 * m.done)).take 60
  let d := dlcFor (4 + part.length)
  { id := BitVec.ofNat 29 m.nextId, xtd := true, rtr := false, fdf := true, brs := true, esi := s.canState c == 1
    dlc := BitVec.ofNat 4 d, data := fitBytes (dlcLen true d) (toBytes 4 m.header ++ part) }

/-- A hardware message as an FD frame with BRS. -/
def State.hwFrame (s : State) (c id : Nat) (data : List Byte) : CanFrame :=
  { id := BitVec.ofNat 29 id, xtd := true, rtr := false, fdf := true, brs := true, esi := s.canState c == 1
    dlc := BitVec.ofNat 4 (dlcFor data.length), data := data }

/-- What may start on a channel, with its identifier: the power-fail notice; outside HOLDUP also the heartbeat, every pending
entry and every caravan handed to it (R347, R352). -/
def State.canReady (s : State) (c : Nat) : List (Nat × BusSrc) :=
  let b := s.ch c
  (if b.pfail.isSome then [(s.hwId 0 3, BusSrc.pfail)] else [])
    ++ (if s.inHoldup then [] else
      (if b.heartbeat then [(s.hwId 6 2, BusSrc.heartbeat)] else [])
        ++ ((List.range 32).filter (s.txPending c)).map (fun e => (s.txId c e, BusSrc.entry e)) ++ s.msgsOf c)

/-- A REF as it starts: PREV_NT is that of the REF of the SEQ before where that one was sent (R380).
(DEDUCED, log entry 60) -/
def BusCh.refFill (b : BusCh) (d : List Byte) : List Byte :=
  match b.refPrev with
  | some (q, t) => if (q + 1) % 65536 = refNo d then d.take 8 ++ toBytes 8 t ++ d.drop 16 else d
  | none => d

/-- The first of the pairs with the lowest identifier. (DESIGN CHOICE, log entry 43) -/
def lowestId : List (Nat × BusSrc) → Option (Nat × BusSrc)
  | [] => none
  | x :: t =>
    match lowestId t with
    | none => some x
    | some y => if y.1 < x.1 then some y else some x

/-- The channel may start a frame. (DESIGN CHOICE, log entry 43) -/
def State.canMayStart (s : State) (c : Nat) : Bool :=
  s.busRuns c && (s.ch c).cur.isNone && decide (s.canState c < 2) && !s.flag (CAN_STAT.RESTR c)

/-- The frame on the bus. -/
def State.setCur (s : State) (c : Nat) (src : BusSrc) (f : CanFrame) : State := s.setCh c { s.ch c with cur := some (src, f) }

/-- The next frame starts: a reference message first, else the lowest identifier; PRICE frames that fail the check of R288
complete unsent (R347, R379). `n` bounds the entries refused. -/
def State.canStart (s : State) (c : Nat) (sof : Int) : Nat → State
  | 0 => s
  | n + 1 =>
    match (if s.inHoldup then none else (s.ch c).ref) with
    | some d =>
      let s := s.setCur c .ref (s.hwFrame c (s.hwId 0 1) ((s.ch c).refFill d))
      s.setCh c { s.ch c with ref := none, refSof := some (refNo d, s.ntAt sof) }
    | none =>
      match lowestId (s.canReady c) with
      | none => s
      | some (id, .entry e) =>
        if bit (s.txWord c e 0) 29 && s.priceBarred id then (s.priceRefuse c e).canStart c sof n
        else s.setCur c (.entry e) (s.entryFrame c e)
      | some (id, .msg no) =>
        match s.msgAt no with
        | none => s
        | some m => if s.priceBarred id then (s.msgRefuse no).canStart c sof n else s.setCur c (.msg no) (s.msgFrame c m)
      | some (id, .heartbeat) => s.setCur c .heartbeat (s.hwFrame c id s.beatData)
      | some (id, src) => s.setCur c src (s.hwFrame c id ((s.ch c).pfail.getD []))

/-- A frame of an entry sent well (R348, R349). -/
def State.entrySent (s : State) (c e : Nat) : State :=
  let b := s.ch c
  let s := s.setCh c { b with sent := putAt b.sent e (nth b.sent e 0 + 1) }
  if nth b.abort e false then s.txDone c e Code.skipped 0
  else if s.txCount c e ≤ nth b.sent e 0 + 1 then s.txDone c e Code.ok 0
  else s

/-- A frame of an entry that did not succeed: it is sent again, or its entry ends (R347 to R349). -/
def State.entryFailed (s : State) (c e status detail : Nat) : State :=
  if nth (s.ch c).abort e false then s.txDone c e Code.skipped 0
  else if s.txOneshot c e then s.txDone c e status detail
  else s

/-- A transmitted frame ends (R348). -/
def State.canEnd (s : State) (c : Nat) (o : CanOutcome) : State :=
  match (s.ch c).cur with
  | none => s
  | some (src, f) =>
    let s := s.setCh c { s.ch c with cur := none }
    let s := match o, src with
      | .sent, .entry e => s.entrySent c e
      | .arbLost p, .entry e => s.entryFailed c e Code.arbLost p.toNat
      | .error t _, .entry e => s.entryFailed c e Code.busError t.val
      | .sent, .msg no => s.msgSent no 1
      | .sent, .ref => s.setCh c { s.ch c with refPrev := (s.ch c).refSof }
      | _, .ref => s.refBack c f.data
      | .sent, .heartbeat => s.setCh c { s.ch c with heartbeat := false }
      | _, .pfail => s.setCh c { s.ch c with pfail := none }
      | _, _ => s
    match o with
    | .sent => s.setCounters c (s.tec c - 1) (s.recCount c)
    | .arbLost _ => s
    | .error t p =>
      let s := s.canErr c t.val p.toNat
      -- an acknowledgement error of an error-passive transmitter leaves the counter (ISO 11898-1)
      if t.val = 4 ∧ s.canState c = 1 then s else s.setCounters c (s.tec c + 8) (s.recCount c)

/-- A write of CAN_CTL (R350, R351, R353, R373). -/
def State.canCtlWrite (s : State) (c : Nat) (v : Word) : State :=
  let old := s.flag (CAN_CTL.WUP c)
  let s := (s.regWrite (CAN_CTL c) v).setFlag (CAN_CTL.RECOVER c) false
  let s := s.setFlag (CAN_CTL.WUP c)
    (old || ((CAN_CTL.WUP c).of v == 1 && !s.flag (CAN_STAT.RESTR c)))
  if (CAN_CTL.RECOVER c).of v = 1 ∧ s.canState c = 2 then s.setFld (CAN_STAT.STATE c) 3 else s

/-- The bus is idle: a mode asked for takes effect (R350). -/
def State.canIdle (s : State) (c : Nat) : State :=
  if (s.ch c).cur.isSome then s else s.setFlag (CAN_STAT.RESTR c) (decide (s.fld (CAN_CTL.MODE c) ≠ 0))

/-- CARAVAN_TIMEOUT (R362). -/
def execCaravanTimeout (chan : Fin 10) (ctx : Fin 16) (s : State) : Out :=
  State.out <|
    if s.busRuns chan && (nth (s.ch chan).ctx ctx none).any fun k =>
        !k.owned && decide (k.opened + 100 * max 1 (s.fld (busField chan 0x44 9 0)) ≤ s.le.tick) then
      s.ctxDrop chan ctx Code.length
    else s

/-- CAN_RX_ACK (R343): a write of CAN_RX_ACK or ETH_RX_ACK. -/
def execCanRxAck (chan : Fin 10) (v : Word) (s : State) : Out := s.cpDoes fun s => s.rxAck chan v.toNat

/-- CAN_CQ_ACK (R361): a write of CAN_CQ_ACK or ETH_CQ_ACK. -/
def execCanCqAck (chan : Fin 10) (v : Word) (s : State) : Out := s.cpDoes fun s => s.cqAck chan v.toNat

/-- CAN_TX_REQ (R346): a write of CAN_TX_REQ or ETH_TX_REQ. -/
def execCanTxReq (chan : Fin 10) (v : Word) (s : State) : Out := s.cpDoes fun s => s.txReqWrite chan v.toNat

/-- CAN_FRAME_START (R347): the SOF sample point lies `cycles` PCLK cycles after the present tick. -/
def execCanFrameStart (chan : Fin 8) (cycles : Int) (s : State) : Out :=
  State.out <| if s.canMayStart chan then s.canStart chan cycles 33 else s

/-- CAN_FRAME_END (R348). -/
def execCanFrameEnd (chan : Fin 8) (outcome : CanOutcome) (s : State) : Out :=
  State.out <| if s.busRuns chan then s.canEnd chan outcome else s

/-- CAN_TX_ABORT (R349): a write of CAN_TX_ABORT or ETH_TX_ABORT. -/
def execCanTxAbort (chan : Fin 10) (v : Word) (s : State) : Out := s.cpDoes fun s => s.txAbortWrite chan v.toNat

/-- RECOVER (R351): a write of CAN_CTL with RECOVER = 1. -/
def execRecover (chan : Fin 8) (v : Word) (s : State) : Out :=
  s.cpDoes fun s => if (CAN_CTL.RECOVER chan).of v = 1 then s.canCtlWrite chan v else s

/-- BUS_OFF_RECOVERY (R351): the 128th occurrence of 11 recessive bits. (DESIGN CHOICE, log entry 43) -/
def execBusOffRecovery (chan : Fin 8) (s : State) : Out :=
  State.out <|
    if s.busRuns chan ∧ s.canState chan = 3 then
      ((s.setFld (CAN_STAT.STATE chan) 0).setFld (CAN_STAT.TEC chan) 0).setFld (CAN_STAT.REC chan) 0
    else s

/-- CAN_MODE (R350): a write of CAN_CTL with its MODE. -/
def execCanMode (chan : Fin 8) (v : Word) (s : State) : Out := s.cpDoes fun s => s.canCtlWrite chan v

/-- RESTRICTED_OPERATION (R350): the bus is idle. -/
def execRestrictedOperation (chan : Fin 8) (s : State) : Out := State.out <| if s.busRuns chan then s.canIdle chan else s

/-- WUP (R353): a write of CAN_CTL with WUP = 1. -/
def execWup (chan : Fin 8) (v : Word) (s : State) : Out :=
  s.cpDoes fun s => if (CAN_CTL.WUP chan).of v = 1 then s.canCtlWrite chan v else s

/-- WAKE_UP_PATTERN (R353): the channel sends the pattern once no frame of any kind is pending, not in HOLDUP (R352). -/
def execWakeUpPattern (chan : Fin 8) (s : State) : Out :=
  State.out <|
    if s.canMayStart chan ∧ !s.inHoldup ∧ (s.canReady chan).isEmpty ∧ (s.ch chan).ref.isNone ∧ s.reg (CAN_TX_PEND chan) = 0
        ∧ s.flag (CAN_CTL.WUP chan) then
      s.setFlag (CAN_CTL.WUP chan) false
    else s

/-- HEARTBEAT (R355): the period of a channel has passed. -/
def execHeartbeat (chan : Fin 8) (s : State) : Out :=
  State.out <|
    if s.busRuns chan ∧ s.flag (CAN_HB_CFG.EN chan) then s.setCh chan { s.ch chan with heartbeat := true } else s

/-- CAN_ERROR_DETECTED (R338): `large` says that the standard adds 8 to the receive counter in place of 1. -/
def execCanErrorDetected (chan : Fin 8) (type : Fin 6) (pos : BitVec 8) (large : Bool) (s : State) : Out :=
  State.out <|
    if !s.busRuns chan || decide (2 ≤ s.canState chan) then s
    else
      let s := s.canErr chan type.val pos.toNat
      if s.flag (CAN_STAT.RESTR chan) then s
      else s.setCounters chan (s.tec chan) (s.recCount chan + if large then 8 else 1)

end Sys2Proof.Machine
end

