-- ==== Sys2Proof/Machine/LiveOps.lean ====
section
/-! DEFINITION. Requests that a live-change hold keeps back (R512, R513). -/

namespace Sys2Proof.Machine

/-- A live-change hold lasts. -/
def State.holding (s : State) : Bool := s.flag SYS_LIVE_STAT.HOLD

/-- Two requests with the same target (R512). (DEDUCED, log entry 49) -/
def HeldReq.same : HeldReq → HeldReq → Bool
  | .swap a, .swap b => a == b
  | .pt a, .pt b => PT_COMMIT.INDEX.of a == PT_COMMIT.INDEX.of b && PT_COMMIT.OUT.of a == PT_COMMIT.OUT.of b
  | .wfl a, .wfl b => WFL_COMMIT.LINK.of a == WFL_COMMIT.LINK.of b && WFL_COMMIT.MOD.of a == WFL_COMMIT.MOD.of b
  | .sa a, .sa b => SA_SWAP.SLOT.of a == SA_SWAP.SLOT.of b
  | .se _, .se _ => true
  | _, _ => false

/-- The requests held, with the count SYS_LIVE_STAT shows. -/
def State.setHeld (s : State) (l : List HeldReq) : State :=
  ({ s with live := { s.live with held := l } }).setFld SYS_LIVE_STAT.HELD (min 0xFF l.length)

/-- Whether a hold has room for a request. (DEDUCED, log entry 49) -/
def State.heldRoom (s : State) (r : HeldReq) : Bool :=
  s.live.held.any (·.same r) || decide (s.live.held.length < 256)

/-- The SA clock runs (R215). (DESIGN CHOICE, log entry 29) -/
def State.saClock (s : State) : Bool := !s.inHoldup && !s.inSleep && !s.pwr.stall

/-- SA_STAT.FROZEN as the SA clock and the job in flight stand (R215, R248). -/
def State.saFreeze (s : State) : State := s.setFlag SA_STAT.FROZEN (s.sa.run.isSome && !s.saClock)

/-- An accepted request: held while a hold lasts, or acting at once (R512). (DEDUCED, log entry 49) -/
def State.request (s : State) (r : HeldReq) (act : State → State) : State :=
  if !s.holding then act s
  else if s.live.held.any (·.same r) then s.setHeld (s.live.held.map fun q => if q.same r then r else q)
  else if s.live.held.length < 256 then s.setHeld (s.live.held ++ [r])
  else s.setFld SYS_LIVE_STAT.CODE Code.refusedCapacity

/-- The configuration in effect of plug-tracker output `o`. -/
def State.ptOut (s : State) (o k : Nat) : Nat := nth (nth s.pt.outs o []) k 0
/-- Output `o` is enabled. -/
def State.ptOutOn (s : State) (o : Nat) : Bool := bits (s.ptOut o 0) 31 31 == 1

end Sys2Proof.Machine
end

