-- ==== Sys2Proof/Machine/LeLaw.lean ====
section
/-! DEFINITION. The four loop laws (R149 to R156) over the arithmetic of Block, as functions of a bank, a state stage and an
input stage. -/

namespace Sys2Proof.Machine

/-- What a law reads: the words of the active bank, the state and input stages, whether the mode is TRACK, whether the inner
slot of a cascade was at a limit (R155), whether the step re-enters (R154), the injected value with its point (R179), and the
q-axis reference that a HOLDUP coast sets (R171). -/
structure LawIn where
  word : Nat → Nat
  st : Nat → Bf
  u : Nat → Bf
  track : Bool
  inner : Bool
  reenter : Bool
  inj : Option (Nat × Bf)
  coast : Option Bf

/-- What a law gives: the values of the state stage in its order, the further values of that stage, the place of the output
among them, whether it is at or beyond a limit, the argument of fe, the intermediates of R176, and whether a value formed on
the way saturated. -/
structure LawOut where
  st : List Acc
  outs : List Acc
  y : Nat
  atLimit : Bool
  fe : Option Dy
  inter : List Bf
  sat : Bool

/-- A bank word as a BF scalar. -/
def LawIn.bf (i : LawIn) (k : Nat) : Bf := Bf.ofWord (i.word k)

/-- The injected value at point `p`, as a term. -/
def LawIn.injAt (i : LawIn) (p : Nat) : Acc :=
  match i.inj with
  | some (q, w) => if q = p then term w else []
  | none => []

/-- An operand with an injected value added: where it enters as a factor it is rounded first. -/
def withInj (x : Bf) (w : Acc) : Bf := if w.isEmpty then x else acc1 (term x ++ w)

/-- The limits YMAX and YMIN of the bank applied to `v`: the operand returned and whether a limit was met. -/
def LawIn.limit (i : LawIn) (v : Bf) : Bf × Bool :=
  if (i.bf 2).dy.le v.dy then (i.bf 2, true)
  else if v.dy.le (i.bf 3).dy then (i.bf 3, true)
  else (v, false)

/-- Whether any of the values saturated. -/
def anySat (l : List Bf) : Bool := l.any fun b => b.sat

/-- PID with feed-forward (template 0). Inputs: 0 measurement, 1 set-point, 2 feed-forward, 3 track value. At re-entry I is
assigned in stage 2, where P is; in TRACK v is assigned in the state stage.
(DEDUCED, log entry 23; DEDUCED, log entry 42) -/
def lawPid (i : LawIn) : LawOut :=
  let kp := i.bf 6
  let ki := i.bf 7
  let kd := i.bf 8
  let df := i.bf 9
  let bsp := i.bf 10
  let csp := i.bf 11
  let kff := i.bf 12
  let ym := i.u 0
  let wSp := i.injAt 0
  let wErr := i.injAt 1
  let r := withInj (i.u 1) wSp
  let s1 := stage
    [term (i.u 1) ++ wSp ++ termNeg ym ++ wErr, mac bsp r ++ termNeg ym ++ wErr, mac csp r ++ termNeg ym ++ wErr]
  let e := nth s1 0 {}
  let ep := nth s1 1 {}
  let ed := nth s1 2 {}
  let edp := if i.reenter then ed else i.st 2
  let d0 : Bf := if i.reenter then {} else i.st 1
  let nkff : Bf := coef (fneg b64 kff.f64)
  let iT : Acc := if i.reenter then term (i.st 3) ++ mac (coef (fneg b64 kp.f64)) ep ++ mac nkff (i.u 2) else term (i.st 0)
  let k1 := fmul b64 kd.f64 (fsub b64 (fofInt b64 1) df.f64)
  let p : Acc := mac kp ep
  let d : Acc := mac df d0 ++ mac (coef k1) ed ++ mac (coef (fneg b64 k1)) edp
  let s2 := stage ([p, d, p ++ iT ++ d ++ mac kff (i.u 2) ++ i.injAt 2] ++ if i.reenter then [iT] else [])
  let iS := if i.reenter then nth s2 3 {} else i.st 0
  let v := if i.track then i.u 3 else nth s2 2 {}
  let (y, lim) := i.limit v
  let iN : Acc :=
    if i.track then term y ++ termNeg (nth s2 0 {}) ++ mac nkff (i.u 2)
    else if !lim && !i.inner then term iS ++ mac ki e else term iS
  let dN : Bf := if i.track then {} else nth s2 1 {}
  { st := [iN, term dN, term ed, term y]
    outs := if i.track then [term v] else []
    y := 3
    atLimit := lim
    fe := some e.dy
    inter := [e, nth s2 0 {}, dN, v]
    sat := anySat [r] || anySat s1 || anySat s2 }

/-- A list of `n` items. -/
def tab {α : Type} (n : Nat) (f : Nat → α) : List α := (List.range n).map f

/-- The exponent byte `k` of a packed exponent word (R150). -/
def expByte (w k : Nat) : Int := signed 8 (w / 2 ^ (8 * k))

/-- A BF matrix element (R150). -/
def matEl (e : Int) (w : Nat) : Bf := ⟨signed 24 w, e, false⟩

/-- The order and the input count of a template 1 bank. -/
def ssOrder (word : Nat → Nat) : Nat := bits (word 6) 3 0
def ssInputs (word : Nat → Nat) : Nat := bits (word 6) 7 4 + 1

/-- State-space (template 1). At re-entry b is assigned in stage 1; y is assigned in stage 2. (DEDUCED, log entry 23) -/
def lawSs (i : LawIn) : LawOut :=
  let n := ssOrder i.word
  let p := ssInputs i.word
  let ex := i.word 8
  let a (r c : Nat) : Bf := matEl (expByte ex 0) (i.word (9 + r * n + c))
  let b (r c : Nat) : Bf := matEl (expByte ex 1) (i.word (9 + n * n + r * p + c))
  let cc (k : Nat) : Bf := matEl (expByte ex 2) (i.word (9 + n * n + n * p + k))
  let dd (k : Nat) : Bf := matEl (expByte ex 3) (i.word (9 + n * n + n * p + n + k))
  let wSp := i.injAt 0
  let u0 := withInj (i.u 0) wSp
  let u (k : Nat) : Bf := if k = 0 then u0 else i.u k
  let cxdu : Acc := (tab n fun k => mac (cc k) (i.st k)).flatten ++ (tab p fun k => mac (dd k) (u k)).flatten
  let neg : Acc := (tab n fun k => mac (coef (fneg b64 (cc k).f64)) (i.st k)).flatten ++
    (tab p fun k => mac (coef (fneg b64 (dd k).f64)) (u k)).flatten
  let bias : Acc := if i.reenter then term (i.st (n + 1)) ++ neg else term (i.st n)
  let s1 := stage ([cxdu ++ bias ++ i.injAt 2] ++ if i.reenter then [bias] else [])
  let yc := nth s1 0 {}
  let (y, lim) := i.limit yc
  let s2 := stage (term y :: tab n fun r => (tab n fun c => mac (a r c) (i.st c)).flatten ++ (tab p fun c => mac (b r c) (u c)).flatten)
  let held (r : Nat) : Bool := bit (i.word 6) (8 + r) && (lim || i.inner)
  let bd := i.bf 7
  let bd : Bf := if Bf.one.dy.le bd.dy then Bf.one else if bd.dy.le ⟨0, 0⟩ then {} else bd
  let bOp := if i.reenter then nth s1 1 {} else i.st n
  { st := (tab n fun r => term (if held r then i.st r else nth s2 (r + 1) {})) ++ [mac bd bOp, term (nth s2 0 {})]
    outs := []
    y := n + 1
    atLimit := lim
    fe := some (feArg (term (u 0) ++ termNeg (i.u 1)))
    inter := [yc]
    sat := anySat [u0] || anySat s1 || anySat s2 }

/-- The largest index below `n` whose breakpoint does not exceed `x`. -/
def curveIndex (xs : Nat → Dy) (x : Dy) : Nat → Nat
  | 0 => 0
  | n + 1 => if (xs n).le x then n else curveIndex xs x n

/-- Heating curve (template 3). Inputs: 0 outdoor temperature, 1 shift, 2 measured supply temperature. Both values that yc is
assigned are of stage 2 (R535 item 1). -/
def lawCurve (i : LawIn) (in2 : Bool) : LawOut :=
  let n := bits (i.word 6) 4 0
  let alpha := i.bf 7
  let ks := i.bf 8
  let ex := i.word 9
  let xs (k : Nat) : Bf := matEl (expByte ex 0) (i.word (10 + k))
  let ys (k : Nat) : Bf := matEl (expByte ex 1) (i.word (10 + n + k))
  let sl (k : Nat) : Bf := matEl (expByte ex 2) (i.word (10 + 2 * n + k))
  let s1 := stage [term (i.st 0) ++ mac alpha (i.u 0) ++ mac (coef (fneg b64 alpha.f64)) (i.st 0)]
  let xf := nth s1 0 {}
  let curve : Acc :=
    if xf.dy.le (xs 0).dy then term (ys 0)
    else if (xs (n - 1)).dy.le xf.dy then term (ys (n - 1))
    else
      let k := curveIndex (fun j => (xs j).dy) xf.dy (n - 1)
      term (ys k) ++ mac (sl k) xf ++ mac (coef (fneg b64 (fmul b64 (sl k).f64 (xs k).f64))) Bf.one
  let s2 := stage [curve, curve ++ mac ks (i.u 1) ++ i.injAt 2]
  let yc := nth s2 1 {}
  let (y, lim) := i.limit yc
  { st := [term xf, term y]
    outs := []
    y := 1
    atLimit := lim
    fe := if in2 then some (feArg (term y ++ termNeg (i.u 2))) else none
    inter := [xf, yc]
    sat := anySat s1 || anySat s2 }

/-- π in binary64. -/
def pi64 : Nat := 0x400921FB54442D18
/-- √3 in binary64. -/
def root3 : Nat := fsqrt b64 (fofInt b64 3)
/-- 1/(2π). -/
def inv2pi : Bf := coef (fdiv b64 (fofInt b64 1) (fmul b64 (fofInt b64 2) pi64))

/-- The larger and the smaller of two values under exact comparison. -/
def accMax (a b : Acc) : Acc := if (accDy a).le (accDy b) then b else a
def accMin (a b : Acc) : Acc := if (accDy a).le (accDy b) then a else b

/-- The square of a vector's magnitude, exactly. -/
def magSq (a b : Acc) : Dy := ((accDy a).mul (accDy a)).add ((accDy b).mul (accDy b))

/-- The factors a·m and b·m and 1/|(a, b)| by which a vector is scaled to magnitude `m` (R152); that m comes before the reciprocal
root is the model's. (DESIGN CHOICE, log entry 69) -/
def toMag (m : Bf) (a b : Acc) : Bf × Bf × Bf := (mul1 (acc1 a) m, mul1 (acc1 b) m, rsqrtBf (magSq a b))

/-- Field-oriented current control (template 2). Inputs: 0 IA, 1 IB, 2 DC-link voltage, 3 d reference, 4 q reference,
5 commanded electrical speed. State: θ, ω, wi, ψα, ψβ, vid, viq, vα_prev, vβ_prev. A scaled vector is rounded before it enters
its stage (R535 item 7). (DEDUCED, log entry 23) -/
def lawFoc (i : LawIn) : LawOut :=
  let rs := i.bf 6
  let ls := i.bf 7
  let psi := i.bf 8
  let kpi := i.bf 9
  let kii := i.bf 10
  let gam := i.bf 11
  let kpw := i.bf 12
  let kiw := i.bf 13
  let ts := i.bf 14
  let vlim := i.bf 15
  let wsw := i.bf 16
  let neg (x : Bf) : Bf := coef (fneg b64 x.f64)
  let vid : Bf := if i.reenter then {} else i.st 5
  let viq : Bf := if i.reenter then {} else i.st 6
  let vaP : Bf := if i.reenter then {} else i.st 7
  let vbP : Bf := if i.reenter then {} else i.st 8
  let wErr := i.injAt 1
  let mulErr (k : Bf) : Acc := if wErr.isEmpty then [] else mac k (acc1 wErr)
  -- stage 1
  let ia : Acc := term (i.u 0)
  let ib : Acc := mac (coef (fdiv b64 (fofInt b64 1) root3)) (i.u 0) ++ mac (coef (fdiv b64 (fofInt b64 2) root3)) (i.u 1)
  let ia1 := acc1 ia
  let ib1 := acc1 ib
  let c0 := cosBf (i.st 0).dy
  let s0 := sinBf (i.st 0).dy
  let id : Acc := mac c0 ia1 ++ mac s0 ib1
  let ns0 := negOp s0
  let iq : Acc := mac ns0 ia1 ++ mac c0 ib1
  let rd : Acc := match i.coast with | some _ => term {} | none => term (i.u 3)
  let rq : Acc := match i.coast with | some q => term q | none => term (i.u 4) ++ i.injAt 0
  let far := ((i.bf 2).dy.mul (i.bf 2).dy).lt (magSq rd rq)
  let (fd, fq, fr) := toMag (i.bf 2) rd rq
  let fdL := acc1 (mac fd fr)
  let fqL := acc1 (mac fq fr)
  let s1 := stage [ia, ib, term c0, term s0, id, iq, if far then term fdL else rd, if far then term fqL else rq]
  let f1 := [ia1, ib1, c0, s0, ns0] ++ if far then [fd, fq, fr, fdL, fqL] else []
  let ia := nth s1 0 {}
  let ib := nth s1 1 {}
  let c := nth s1 2 {}
  let s := nth s1 3 {}
  let id := nth s1 4 {}
  let iq := nth s1 5 {}
  let idr := nth s1 6 {}
  let iqr := nth s1 7 {}
  -- stage 2: up to and with vd
  let nls := neg ls
  let ea : Acc := term (i.st 3) ++ mac nls ia
  let eb : Acc := term (i.st 4) ++ mac nls ib
  let ea1 := acc1 ea
  let eb1 := acc1 eb
  let ng := neg gam
  let na := mul1 ng ea1
  let nb := mul1 ng eb1
  let g : Acc := mac (coef (fmul b64 gam.f64 (fmul b64 psi.f64 psi.f64))) Bf.one ++ mac na ea1 ++ mac nb eb1
  let g1 := acc1 g
  let ntr := coef (fneg b64 (fmul b64 ts.f64 rs.f64))
  let tg := mul1 ts g1
  let pa : Acc := term (i.st 3) ++ mac ts vaP ++ mac ntr ia ++ mac tg ea1
  let pb : Acc := term (i.st 4) ++ mac ts vbP ++ mac ntr ib ++ mac tg eb1
  let nea := negOp ea1
  let err : Acc := mac eb1 c ++ mac nea s
  let err1 := acc1 err
  let wi : Acc := term (i.st 2) ++ mac kiw err1
  let om : Acc := wi ++ mac kpw err1
  let om1 := acc1 om
  let sp := if (i.u 5).dy.abs.lt wsw.dy then i.u 5 else om1
  let tsp := mul1 ts sp
  let th : Acc := term (i.st 0) ++ mac tsp inv2pi
  let nkpi := neg kpi
  let nom := negOp om1
  let nwl := mul1 nom ls
  let vd : Acc := mac kpi idr ++ mac nkpi id ++ term vid ++ mac nwl iq
  let s2 := stage [ea, eb, g, pa, pb, err, wi, om, th, vd] (turn := some 8)
  let o (k : Nat) : Bf := nth s2 k {}
  let f2 := [ea1, eb1, na, nb, g1, tg, nea, err1, om1, tsp, nom, nwl]
  -- stage 3: from vq to vβ; vd, vid and viq only where they are assigned
  let wl3 := mul1 (o 7) ls
  let vq : Acc := mac kpi iqr ++ mac nkpi iq ++ mulErr kpi ++ term viq ++ mac wl3 id ++ mac psi (o 7) ++ i.injAt 2
  let vmax : Acc := mac (coef (fdiv b64 vlim.f64 root3)) (i.u 2)
  let vm1 := acc1 vmax
  let lim := ((accDy vmax).mul (accDy vmax)).le (magSq (term (o 9)) vq)
  let (gd, gq, gr) := toMag vm1 (term (o 9)) vq
  let vdL := acc1 (mac gd gr)
  let vqL := acc1 (mac gq gr)
  let hold := lim || i.inner
  let nkii := neg kii
  let vidS : Acc := term vid ++ mac kii idr ++ mac nkii id
  let viqS : Acc := term viq ++ mac kii iqr ++ mac nkii iq ++ mulErr kii
  let ts15 := coef (fmul b64 0x3FF8000000000000 ts.f64)
  let tsw := mul1 ts15 (o 7)
  let thp : Acc := term (o 8) ++ mac tsw inv2pi
  let cp := cosBf (accDy thp)
  let snp := sinBf (accDy thp)
  let vd1 := if lim then vdL else o 9
  let vq1 := if lim then vqL else acc1 vq
  let nsnp := negOp snp
  let va : Acc := mac cp vd1 ++ mac nsnp vq1
  let vb : Acc := mac snp vd1 ++ mac cp vq1
  let s3 := stage ([vmax, vq, thp, va, vb] ++ (if lim then [term vdL, term vqL] else []) ++ if hold then [] else [vidS, viqS])
  let f3 := [wl3, vm1, tsw, cp, snp, nsnp, vd1, vq1] ++ if lim then [gd, gq, gr] else []
  let va := nth s3 3 {}
  let vb := nth s3 4 {}
  let vdN := if lim then nth s3 5 {} else o 9
  let vqN := nth s3 (if lim then 6 else 1) {}
  let vidN := if hold then vid else nth s3 5 {}
  let viqN := if hold then viq else nth s3 6 {}
  -- state stage
  let nhalf : Bf := coef (fneg b64 0x3FE0000000000000)
  let h3 := fdiv b64 root3 (fofInt b64 2)
  let vA : Acc := term va
  let vB : Acc := mac nhalf va ++ mac (coef h3) vb
  let vC : Acc := mac nhalf va ++ mac (coef (fneg b64 h3)) vb
  let hi1 := acc1 (accMax (accMax vA vB) vC)
  let lo1 := acc1 (accMin (accMin vA vB) vC)
  let off : Acc := mac nhalf hi1 ++ mac nhalf lo1
  let r := recipBf (i.u 2)
  let off1 := acc1 off
  let vA1 := acc1 vA
  let vB1 := acc1 vB
  let vC1 := acc1 vC
  let duty (v : Bf) : Acc :=
    let d := mac (coef 0x3FE0000000000000) Bf.one ++ mac v r ++ mac off1 r
    if (accDy d).le ⟨0, 0⟩ then term {} else if (Dy.ofInt 1).le (accDy d) then term Bf.one else d
  { st := [term (o 8), term (o 7), term (o 6), term (o 3), term (o 4), term vidN, term viqN, term va, term vb]
    outs := [vA, vB, vC, off, duty vA1, duty vB1, duty vC1]
    y := 1
    atLimit := lim
    fe := some (feArg (term iqr ++ termNeg iq ++ wErr))
    inter := [id, iq, vdN, vqN, idr, iqr]
    sat := anySat (f1 ++ f2 ++ f3 ++ [hi1, lo1, r, off1, vA1, vB1, vC1]) || anySat s1 || anySat s2 || anySat s3 }

/-- The counts M and S of a template for a bank (R149); none for a reserved template. -/
def lawCounts (tmpl : Nat) (word : Nat → Nat) : Option (Nat × Nat) :=
  match tmpl with
  | 0 => some (12, 2)
  | 1 => let n := ssOrder word; let p := ssInputs word; some (n * n + n * p + n + p, 2)
  | 2 => some (40, 3)
  | 3 => some (8, 2)
  | _ => none

/-- Whether the template words that hold codes are in range (R149, R156). -/
def lawCodesOk (tmpl : Nat) (word : Nat → Nat) : Bool :=
  match tmpl with
  | 1 =>
    let n := ssOrder word
    let p := ssInputs word
    decide (1 ≤ n) && decide (n ≤ 8) && decide (9 + n * n + n * p + n + p ≤ 128)
  | 3 => decide (2 ≤ bits (word 6) 4 0 ∧ bits (word 6) 4 0 ≤ 16)
  | _ => true

/-- How many state elements a template has (R149). -/
def lawStates (tmpl : Nat) (word : Nat → Nat) : Nat :=
  match tmpl with
  | 0 => 4
  | 1 => ssOrder word + 2
  | 2 => 9
  | 3 => 2
  | _ => 0

/-- How many inputs the law of a template has (R149, R156). -/
def lawInputs (tmpl : Nat) (word : Nat → Nat) : Nat :=
  match tmpl with
  | 0 => 4
  | 1 => ssInputs word
  | 2 => 6
  | 3 => 3
  | _ => 0

/-- Whether a destination kind is permitted for a template (R149). -/
def dstOk (tmpl kind : Nat) : Bool := if tmpl = 2 then kind == 2 else decide (kind ≤ 1)

/-- Whether a bank passes the checks of R141 and R149 for a slot's template and reserved counts: the refusal's code. -/
def bankCode (tmpl mRes sRes : Nat) (word : Nat → Nat) : Nat :=
  let m := bits (word 0) 9 0
  let s := bits (word 0) 12 10 + 1
  if mRes < m ∨ sRes < s then 0x10
  else if lawCounts tmpl word ≠ some (m, s) ∨ lawCodesOk tmpl word = false then 0x22
  else 0

/-- One step of the law of a template. -/
def law (tmpl : Nat) (i : LawIn) (in2 : Bool) : LawOut :=
  match tmpl with
  | 0 => lawPid i
  | 1 => lawSs i
  | 2 => lawFoc i
  | _ => lawCurve i in2

end Sys2Proof.Machine
end

