-- ==== Sys2Proof/Machine/LeOps.lean ====
section
/-! DEFINITION. Operations on loop slots that the loop engine, the drives and the TUNE block share: outputs, safe values,
trips, fault actions, skipped steps and the sources of inputs. -/

namespace Sys2Proof.Machine

/-- Loop slot `n`. -/
def State.slot (s : State) (n : Nat) : LeSlot := nth s.le.slots n {}
/-- Loop slot `n` replaced. -/
def State.setSlot (s : State) (n : Nat) (x : LeSlot) : State := { s with le := { s.le with slots := putAt s.le.slots n x } }

/-- Word `k` of the active bank of slot `n`. -/
def State.bankWord (s : State) (n k : Nat) : Nat := (sparseGet (fun _ => (0 : Word)) s.le.bank (128 * n + k)).toNat
/-- Word `k` of the active bank of slot `n` replaced. -/
def State.setBankWord (s : State) (n k : Nat) (v : Word) : State :=
  { s with le := { s.le with bank := sparseSet (fun _ => (0 : Word)) s.le.bank (128 * n + k) v } }

/-- The destination kind and index of slot `n` (R148). -/
def State.dstKind (s : State) (n : Nat) : Nat := s.fld (LE_SLOT_CFG.DST n) / 256
def State.dstIndex (s : State) (n : Nat) : Nat := s.fld (LE_SLOT_CFG.DST n) % 256
/-- The template of slot `n`. -/
def State.template (s : State) (n : Nat) : Nat := s.fld (LE_SLOT_CFG.TEMPLATE n)
/-- Slot `n` is admitted. -/
def State.admitted (s : State) (n : Nat) : Bool := s.flag (LE_SLOT_CFG.ADM n)
/-- Slot `n` is owned by the scan engine (R141). -/
def State.seOwned (s : State) (n : Nat) : Bool := s.flag (LE_SLOT_CFG.SE_OWN n)
/-- Enable and mode of slot `n`, from its owner (R153). -/
def State.slotEn (s : State) (n : Nat) : Bool := if s.seOwned n then (s.slot n).seEn else s.flag (LE_SLOT_CTL.EN n)
def State.slotMode (s : State) (n : Nat) : Nat := if s.seOwned n then (s.slot n).seMode else s.fld (LE_SLOT_CTL.MODE n)

/-- The drive a slot drives, if its destination is one. -/
def State.slotDrive (s : State) (n : Nat) : Option Nat := if s.dstKind n = 2 then some (s.dstIndex n % 4) else none

/-- The first admitted slot below `n` that drives drive `d`. -/
def State.driveSlot (s : State) (d : Nat) : Nat → Option Nat
  | 0 => none
  | n + 1 => if s.admitted n && s.slotDrive n == some d then some n else s.driveSlot d n

/-- Drive `d` beyond its registers. -/
def State.drive (s : State) (d : Nat) : PdSt := nth s.le.pd d {}
def State.setDrive (s : State) (d : Nat) (x : PdSt) : State := { s with le := { s.le with pd := putAt s.le.pd d x } }

/-- Drive `d` enters its off state (R169). -/
def State.driveOff (s : State) (d : Nat) : State :=
  ((s.setFlag (PD_STAT.OFF d) true).setFlag (PD_STAT.RUN d) false).setDrive d { s.drive d with stepped := false }

/-- An event of a loop that the trace may trigger on (R186), in the bit order of TUNE_TRC_FMASK. -/
def State.traceEvent (s : State) (b : Nat) : State := { s with tune := { s.tune with events := putBit s.tune.events b true } }

/-- A code given to an analogue output: at once, or at the end of a hold window unless it is a trip's (R49, R50). -/
def State.aoWrite (s : State) (k v : Nat) (force : Bool) : State :=
  if s.inHold && !force then { s with ana := { s.ana with aoNext := putAt s.ana.aoNext k (some v) } }
  else { s with ana := { s.ana with ao := putAt s.ana.ao k v, aoNext := putAt s.ana.aoNext k none } }

/-- At the end of a hold window the outputs take the newest codes given to them (R49, R420). -/
def State.aoRelease (s : State) : State :=
  { s with ana := { s.ana with
      ao := List.zipWith (fun v w => Option.getD w v) s.ana.ao s.ana.aoNext
      aoNext := List.replicate 8 none } }

/-- The output register of slot `n` written, with the value input kind 6 reads (R151). -/
def State.setOut (s : State) (n : Nat) (w : Word) (view : Bf) (force : Bool) : State :=
  let s := (s.setReg (LE_SLOT_OUT n) w).setSlot n { s.slot n with out := view }
  if s.dstKind n = 1 then s.aoWrite (s.dstIndex n % 8) (w.toNat % 2 ^ 16) force else s

/-- The output of slot `n` at its safe value: SAFE of the active bank, or the drive's off state (R143, R153, R159). -/
def State.slotSafe (s : State) (n : Nat) (force : Bool) : State :=
  match s.slotDrive n with
  | some d => s.driveOff d
  | none =>
    let w := s.bankWord n 1
    if s.dstKind n = 1 then s.setOut n (BitVec.ofNat 32 (w % 2 ^ 16)) (Dy.ofInt (w % 2 ^ 16 : Nat)).bf force
    else s.setOut n (BitVec.ofNat 32 w) (Bf.ofWord w) force

/-- A running injection, and the capture with it, aborted (R183): causes 1 loop event, 2 AUTH cleared, 3 HOLDUP, 4 STOP.
(DEDUCED, log entry 42) -/
def State.injAbort (s : State) (cause : Nat) : State :=
  let run := s.flag TUNE_STAT.INJ_RUN
  let s := if run || cause != 1 then s.setFlag TUNE_STAT.CAP_RUN false else s
  if run then
    let s := ((s.setFlag TUNE_STAT.INJ_RUN false).setFld TUNE_INJ_STAT.CODE Code.incomplete).setFld TUNE_INJ_STAT.ABORT cause
    { s.setFlag TUNE_EVT.INJ_END true with tune := { s.tune with w := {} } }
  else s

/-- A loop event of slot `n` that aborts an injection into it (R183). -/
def State.injLoopEvent (s : State) (n : Nat) : State :=
  if s.flag TUNE_STAT.INJ_RUN && s.fld TUNE_INJ_CFG.SLOT == n then s.injAbort 1 else s

/-- Whether trip input `t` is enabled, latched, and masks slot `n` (R142). -/
def State.tripHits (s : State) (t n : Nat) : Bool :=
  s.flag (LE_TRIP_CFG.EN t) && bit (s.fld LE_TRIP_STAT.LATCH) t && bit (s.reg64 (LE_TRIP_MASK_LO t) (LE_TRIP_MASK_HI t)) n

/-- Slot `n` is tripped by a trip input. -/
def State.tripInput (s : State) (n : Nat) : Bool := (List.range 8).any fun t => s.tripHits t n

/-- Slot `n` is held as tripped: by a trip input or by its drive's overcurrent (R142, R170). -/
def State.tripNow (s : State) (n : Nat) : Bool :=
  s.tripInput n || (match s.slotDrive n with | some d => s.flag (PD_STAT.OC d) | none => false)

/-- PD_STAT.TRIP of the drive of slot `n`: a trip input holds the slot (R172). -/
def State.driveTrip (s : State) (n : Nat) : State :=
  match s.slotDrive n with
  | some d =>
    let hit := s.tripInput n
    let s := if hit && !s.flag (PD_STAT.TRIP d) then s.setFlag (PD_EVT.TRIP d) true else s
    s.setFlag (PD_STAT.TRIP d) hit
  | none => s

/-- Slot `n` enters its tripped state: safe value, drive off, no step until the trip is cleared (R143). -/
def State.enterTrip (s : State) (n : Nat) : State :=
  let s := s.driveTrip n
  if s.flag (LE_SLOT_STAT.TRIPPED n) then s
  else
    let s := (s.setFlag (LE_SLOT_STAT.TRIPPED n) true).setSlot n { s.slot n with auto := false }
    (s.slotSafe n true).injLoopEvent n

/-- Slot `n` leaves its tripped state; it resumes at its next sample instant (R144). -/
def State.leaveTrip (s : State) (n : Nat) : State :=
  if s.flag (LE_SLOT_STAT.TRIPPED n) then (s.setFlag (LE_SLOT_STAT.TRIPPED n) false).driveTrip n else s

/-- The trip latches act on every slot; from a brown stall's entry until the LE resumes, where the outputs hold (R34), and in
SLEEP
they wait (R143). -/
def State.applyTrips (s : State) : State :=
  if s.stalled || s.inSleep then s
  else forN (fun n s => if s.tripNow n then s.enterTrip n else s.leaveTrip n) 64 s

/-- Trip input `t` is at its active level (R142). -/
def State.tripActive (s : State) (t : Nat) : Bool := nth s.ana.dio t false != s.flag (LE_TRIP_CFG.POL t)

/-- LE_TRIP_STAT.LEVEL of a running loop engine brought up to date (R148). -/
def State.showLevels (s : State) : State :=
  if s.flag LE_CTL.EN then forN (fun t s => s.setBit LE_TRIP_STAT.LEVEL t (s.tripActive t)) 8 s else s

/-- The level of a DIO ball. -/
def State.dioSet (s : State) (n : Nat) (level : Bool) : State :=
  ({ s with ana := { s.ana with dio := putAt s.ana.dio n level } } : State).showLevels

/-- The fault action of slot `n` is taken (R159). -/
def State.faultAction (s : State) (n : Nat) : State :=
  let fact := bits (s.bankWord n 5) 17 16
  let s := ((s.setFlag (LE_SLOT_STAT.FAULT n) true).setFlag LE_EVT.FAULT true).traceEvent 0
  let s := s.injLoopEvent n
  if fact = 0 then s else
  let s := s.setSlot n { s.slot n with act := fact, auto := false }
  let s := if fact = 2 || (s.slotDrive n).isSome then s.slotSafe n false else s
  if fact = 3 then
    if s.seOwned n then s.setSlot n { s.slot n with seEn := false, seLock := true } else s.setFlag (LE_SLOT_CTL.EN n) false
  else s

/-- A step of slot `n` is not run and counted (R140). -/
def State.slotSkip (s : State) (n : Nat) : State :=
  (((s.countUp (LE_SKIP.COUNT n)).setFld (LE_SLOT_STAT.CODE n) Code.skipped).setFlag LE_EVT.SKIP true).traceEvent 2

/-- A step of slot `n` is abandoned at the end of its window (R138, R140). -/
def State.slotOverrun (s : State) (n : Nat) : State :=
  let s := (((s.countUp (LE_OVR.COUNT n)).setFld (LE_SLOT_STAT.CODE n) Code.overrun).setFlag LE_EVT.OVR true).traceEvent 1
  let k := s.fld (LE_SLOT_STAT.CONSEC n) + 1
  if 8 ≤ k then (s.setFld (LE_SLOT_STAT.CONSEC n) 0).faultAction n else s.setFld (LE_SLOT_STAT.CONSEC n) k

/-- LE_TICK set (R121, R148). -/
def State.setTick (s : State) (t : Nat) : State :=
  { s.setReg LE_TICK_LO (BitVec.ofNat 32 t) with le := { s.le with tick := t % 2 ^ 64 } }

/-- The admitted period and phase of slot `n`. -/
def State.slotPeriod (s : State) (n : Nat) : Nat := max 1 (s.fld (LE_SLOT_TIME.PERIOD n))
def State.slotPhase (s : State) (n : Nat) : Nat := s.fld (LE_SLOT_SCHED.PHASE n)

/-- Whether tick `t` is a sample instant of slot `n` (R121). -/
def State.isInstant (s : State) (n t : Nat) : Bool :=
  decide (s.slotPhase n ≤ t) && (t - s.slotPhase n) % s.slotPeriod n == 0

/-- How many sample instants of slot `n` lie at ticks below `t`. -/
def State.instantsBelow (s : State) (n t : Nat) : Nat :=
  if t ≤ s.slotPhase n then 0 else (t - s.slotPhase n - 1) / s.slotPeriod n + 1

/-- The source code of input `i` of slot `n` (R122). -/
def State.srcOf (s : State) (n i : Nat) : Nat :=
  if i % 2 = 0 then s.fld (LE_SLOT_IN.SRC_LO n (i / 2)) else s.fld (LE_SLOT_IN.SRC_HI n (i / 2))

/-- Whether a source code is of a kind and index in use (R122). (DESIGN CHOICE, log entry 26) -/
def srcOk (code : Nat) : Bool :=
  let k := code % 4096
  match code / 4096 with
  | 0 => true
  | 1 => decide (k ≤ 15)
  | 2 => decide (k ≤ 11)
  | 3 => decide (k ≤ 15)
  | 4 => decide (k ≤ 31)
  | 5 => decide (k ≤ 63)
  | 6 => decide (k ≤ 63)
  | 7 => decide (k ≤ 15)
  | 8 => true
  | 9 => true
  | 10 => decide (k ≤ 31)
  | _ => false

/-- A register that holds a binary32 value. -/
def State.reg32f (s : State) (a : Nat) : Dy := Dy.ofFloat b32 (s.reg a).toNat

/-- Item `i` of calculator `c` (R312). -/
def State.mhItem (s : State) (c i : Nat) : Nat :=
  match i with
  | 0 => (s.reg (MH_C_TS c)).toNat
  | 1 => (s.reg (MH_C_TR c)).toNat
  | 2 => (nth s.mh.calcs c {}).dt
  | 3 => (s.reg (MH_C_FLOW c)).toNat
  | 4 => (s.reg (MH_C_POWER c)).toNat
  | 5 => (nth s.mh.calcs c {}).dvL
  | _ => 0

/-- The value a source code reads, and whether it carries the invalid flag (R122, R123). DIO8 to DIO31 come through the scan
engine (R32). (DESIGN CHOICE, log entry 26) -/
def State.source (s : State) (code : Nat) : Dy × Bool :=
  let k := code % 4096
  let conv (i : Nat) : Dy × Bool := let c := nth s.le.conv i {}; (c.value, c.flagged)
  match code / 4096 with
  | 1 => conv (k % 16)
  | 2 => conv (16 + k % 12)
  | 3 => (s.reg32f (ANA_RTD_VAL (k % 16)), false)
  | 4 => (s.reg32f (ME_P_VAL (k / 16 % 2) (k % 16)), false)
  | 5 => (Dy.ofFloat b32 (s.mhItem (k / 8 % 8) (k % 8)), false)
  | 6 => ((s.slot (k % 64)).out.dy, false)
  | 7 => (Dy.ofFloat b32 (nth s.le.pg (k % 16) {}).setp, false)
  | 8 => (Dy.ofFloat b32 (sparseGet (fun _ => (0 : Word)) s.le.sePub k).toNat, false)
  | 9 => (Dy.ofInt (s.reg (WFL_IN k)).toInt, false)
  | 10 => (Dy.ofInt (b2n (nth (if k % 32 < 8 then s.ana.dio else s.se.dio) (k % 32) false)), false)
  | _ => ({}, false)

/-- The input stage of slot `n`: u = g·(c − o), renormalised (R134). (DESIGN CHOICE, log entry 24) -/
def State.inputStage (s : State) (n : Nat) : List Bf :=
  let g := (s.slot n).gains
  renorm ((List.range 16).map fun i =>
    let code := s.srcOf n i
    if code / 4096 = 0 then {} else
    let (gw, ow) := nth g i (0x40000001, 0)
    (Bf.ofWord gw.toNat).dy.mul ((s.source code).1.sub (Bf.ofWord ow.toNat).dy))

/-- Whether an input of slot `n` carries the invalid flag (R140). -/
def State.inputFlagged (s : State) (n : Nat) : Bool := (List.range 16).any fun i => (s.source (s.srcOf n i)).2

end Sys2Proof.Machine
end

