-- ==== Sys2Proof/Machine/Pg.lean ====
section
/-! DEFINITION. The profile generators (R160 to R166) and the plan bridge (R12 to R14, R145 to R147, R165). -/

namespace Sys2Proof.Machine

/-- Binary64 arithmetic of the planner. -/
def add64 (x y : Nat) : Nat := fadd b64 x y
def sub64 (x y : Nat) : Nat := fsub b64 x y
def mul64 (x y : Nat) : Nat := fmul b64 x y
def div64 (x y : Nat) : Nat := fdiv b64 x y
/-- A small integer in binary64. -/
def int64 (i : Int) : Nat := fofInt b64 i
/-- −1, 0 or 1 by sign; 0 for a value not comparable. -/
def sign64 (x : Nat) : Int := if flt b64 0 x then 1 else if flt b64 x 0 then -1 else 0

/-- Position, velocity and acceleration after `t` seconds at jerk `j` (R160). (DEDUCED, log entry 27) -/
def pgMove (p : Nat × Nat × Nat) (j t : Nat) : Nat × Nat × Nat :=
  let (x, v, a) := p
  let t2 := mul64 t t
  (add64 (add64 (add64 x (mul64 v t)) (div64 (mul64 a t2) (int64 2))) (div64 (mul64 j (mul64 t2 t)) (int64 6)),
   add64 (add64 v (mul64 a t)) (div64 (mul64 j t2) (int64 2)),
   add64 a (mul64 j t))

/-- The state at time `t` of a profile of segments (jerk, duration). (DEDUCED, log entry 27) -/
def pgAt (p : Nat × Nat × Nat) (t : Nat) : List (Nat × Nat) → Nat × Nat × Nat
  | [] => p
  | (j, d) :: rest => if fle b64 d t then pgAt (pgMove p j d) (sub64 t d) rest else pgMove p j t

/-- The length of a profile in seconds. -/
def pgTime (segs : List (Nat × Nat)) : Nat := segs.foldl (fun t q => add64 t q.2) 0

/-- The distance a profile covers from velocity `v` and acceleration `a` (R162). -/
def pgDist (v a : Nat) (segs : List (Nat × Nat)) : Nat := (segs.foldl (fun p q => pgMove p q.1 q.2) (0, v, a)).1

/-- Segments of a duration above zero. -/
def pgKeep (segs : List (Nat × Nat)) : List (Nat × Nat) := segs.filter fun q => flt b64 0 q.2

/-- vr = v + a·|a|/(2J) (R162). -/
def pgVr (v a jm : Nat) : Nat := add64 v (div64 (mul64 a (fabs b64 a)) (mul64 (int64 2) jm))

/-- transition(v0, a0, v1) of R162, with the limits A and J. (DESIGN CHOICE, log entry 69) -/
def pgTransition (am jm v0 a0 v1 : Nat) : List (Nat × Nat) :=
  let d0 := sign64 (sub64 v1 (pgVr v0 a0 jm))
  let d := if d0 = 0 then -sign64 a0 else d0
  if d = 0 then [] else
  let dj := mul64 (int64 d) jm
  let a2 := mul64 a0 a0
  let sq := div64 (add64 (mul64 (mul64 (int64 2) dj) (sub64 v1 v0)) a2) (int64 2)
  let aa := mul64 am am
  let (ap, t2) :=
    if fle b64 sq aa then (mul64 (int64 d) (fsqrt b64 (fmax b64 sq 0)), 0)
    else
      let ap := mul64 (int64 d) am
      (ap, div64 (sub64 (sub64 v1 v0) (div64 (sub64 (mul64 (int64 2) aa) a2) (mul64 (int64 2) dj))) ap)
  pgKeep [(dj, div64 (sub64 ap a0) dj), (0, t2), (fneg b64 dj, div64 ap dj)]

/-- The bisection of R162: 24 halvings of [lo, hi]. -/
def pgBisect (ok : Nat → Bool) : Nat → Nat → Nat → Nat
  | 0, lo, _ => lo
  | n + 1, lo, hi =>
    let w := div64 (add64 lo hi) (int64 2)
    if ok w then pgBisect ok n w hi else pgBisect ok n lo w

/-- plan(x, v, a, X) of R162, with the limits V, A and J. (DEDUCED, log entry 27) -/
def pgPlan (vm am jm x v a tgt : Nat) : List (Nat × Nat) :=
  let stop := pgTransition am jm v a 0
  let xs := add64 x (pgDist v a stop)
  let sg := sign64 (sub64 tgt xs)
  if sg = 0 then stop else
  let s := int64 sg
  let f (w : Nat) : Nat :=
    let sw := mul64 s w
    add64 (pgDist v a (pgTransition am jm v a sw)) (pgDist sw 0 (pgTransition am jm sw 0 0))
  let gap (w : Nat) : Nat := sub64 (sub64 tgt x) (f w)
  let sv := mul64 s vm
  if fle b64 0 (mul64 s (gap vm)) then
    pgTransition am jm v a sv ++ pgKeep [(0, div64 (gap vm) sv)] ++ pgTransition am jm sv 0 0
  else
    let lo := pgBisect (fun w => fle b64 0 (mul64 s (gap w))) 24 (fmax b64 0 (mul64 s (pgVr v a jm))) vm
    let sl := mul64 s lo
    pgTransition am jm v a sl ++ pgTransition am jm sl 0 0

/-- PG channel `c` beyond its registers. -/
def State.pgCh (s : State) (c : Nat) : PgCh := nth s.le.pg c {}
def State.setPg (s : State) (c : Nat) (x : PgCh) : State := { s with le := { s.le with pg := putAt s.le.pg c x } }

/-- The limits V, A and J of channel `c` in binary64. -/
def State.pgLimits (s : State) (c : Nat) : Nat × Nat × Nat :=
  let f (a : Nat) : Nat := fconv b32 b64 (s.reg a).toNat
  (f (PG_VMAX c), f (PG_AMAX c), f (PG_JMAX c))

/-- Channel `c` is fed by the plan bridge (R145). -/
def State.pgFed (s : State) (c : Nat) : Bool := s.flag LE_PB_CFG.EN && s.flag (LE_PB_MAP.EN c)

/-- Profile time is held (R164; in SLEEP the generators are stopped, R68). -/
def State.pgFrozen (s : State) : Bool := s.inHold || s.pwr.stall || s.inSleep

/-- The update period of channel `c` in ticks. -/
def State.pgPeriod (s : State) (c : Nat) : Nat := min 100000 (max 1 (s.fld (PG_CFG.PERIOD c)))

/-- MOVING and PEND of channel `c`. -/
def State.pgShow (s : State) (c : Nat) : State :=
  let x := s.pgCh c
  (s.setFlag (PG_STAT.MOVING c) (!x.segs.isEmpty)).setFlag (PG_STAT.PEND c) (x.ready.isSome || s.le.queue.any (fun q => q.2.1 == c))

/-- A request in its place in the planner's queue: by the tick it was latched in, and by channel within one tick (R163). -/
def pgInsert (e : Nat × Nat × PgReq) : List (Nat × Nat × PgReq) → List (Nat × Nat × PgReq)
  | [] => [e]
  | q :: rest => if e.1 < q.1 ∨ (e.1 = q.1 ∧ e.2.1 < q.2.1) then e :: q :: rest else q :: pgInsert e rest

/-- A request for channel `c` enters the planner's queue and replaces one not yet planned (R163). (DEDUCED, log entry 27) -/
def State.pgQueue (s : State) (c : Nat) (r : PgReq) : State :=
  let q := pgInsert (s.le.tick, c, r) (s.le.queue.filter fun e => e.2.1 != c)
  ({ s with le := { s.le with queue := q } }).pgShow c

/-- A target for a running channel (R161, R163, R164): at rest at the target it starts no profile.
(DEDUCED, log entry 27) -/
def State.pgRequest (s : State) (c : Nat) (t : Nat) : State :=
  let x := s.pgCh c
  if !(s.flag (PG_CTL.EN c)) || !(s.flag LE_CTL.EN) then s
  else
    let idle := x.ready.isNone && !(s.le.queue.any fun e => e.2.1 == c)
    if idle && feq b64 t (if x.segs.isEmpty then x.x else x.target) then s
    else s.pgQueue c (.go t)

/-- A target passed to channel `c`: PG_TARGET shows it (R161). -/
def State.pgGive (s : State) (c : Nat) (t : Dy) : State :=
  (s.setReg (PG_TARGET c) (BitVec.ofNat 32 (t.toFloat b32))).pgRequest c (t.toFloat b64)

/-- The registers that show the state at an update instant (R166). (DESIGN CHOICE, log entry 69) -/
def State.pgPublish (s : State) (c : Nat) : State :=
  let x := s.pgCh c
  let f (v : Nat) : Word := BitVec.ofNat 32 (fconv b64 b32 v)
  let left := sub64 (mul64 (pgTime x.segs) (int64 100000)) (int64 x.ticks)
  let rem : Int := if x.segs.isEmpty then 0 else (ffloor b64 (fneg b64 left)).getD 0
  let s := ((s.setReg (PG_POS c) (f x.x)).setReg (PG_VEL c) (f x.v)).setReg (PG_ACC c) (f x.a)
  let s := s.setReg (PG_REMAIN c) (BitVec.ofInt 32 (max 0 (-rem)))
  s.setPg c { x with setp := fconv b64 b32 x.x }

/-- A planned request takes effect at an update instant, from the position, velocity and acceleration there (R163); a move so
small that its profile has no segment ends there (R160). -/
def State.pgEffect (s : State) (c : Nat) (r : PgReq) : State :=
  let x := s.pgCh c
  let (vm, am, jm) := s.pgLimits c
  let stop := pgTransition am jm x.v x.a 0
  let tgt := match r with
    | .go t => t
    | .stop => add64 x.x (pgDist x.v x.a stop)
  let segs := match r with
    | .go t => pgPlan vm am jm x.x x.v x.a t
    | .stop => stop
  let s := match r with
    | .go _ => s
    | .stop => s.setReg (PG_TARGET c) (BitVec.ofNat 32 (fconv b64 b32 tgt))
  if segs.isEmpty then
    let s := s.setPg c { x with x := tgt, v := 0, a := 0, segs := [], ticks := 0, target := tgt, ready := none }
    if feq b64 tgt x.x then s else s.setBit PG_EVT.DONE c true
  else s.setPg c { x with x0 := x.x, v0 := x.v, a0 := x.a, segs := segs, ticks := 0, target := tgt, ready := none }

/-- The profile of channel `c` advanced by one update period (R160): at or after its end the channel is at its target. -/
def State.pgAdvance (s : State) (c : Nat) : State :=
  let x := s.pgCh c
  if x.segs.isEmpty then s else
  let ticks := x.ticks + s.pgPeriod c
  let t := div64 (int64 ticks) (int64 100000)
  if fle b64 (pgTime x.segs) t then
    (s.setPg c { x with x := x.target, v := 0, a := 0, segs := [], ticks := ticks }).setBit PG_EVT.DONE c true
  else
    let (px, pv, pa) := pgAt (x.x0, x.v0, x.a0) t x.segs
    s.setPg c { x with x := px, v := pv, a := pa, ticks := ticks }

/-- PG_UPDATE (R160, R163, R164): an update instant of a channel: its profile advances, a planned request takes effect, and
its set-point is published. (DEDUCED, log entry 27) -/
def execPgUpdate (chan : Fin 16) (s : State) : Out :=
  State.out <|
    let c : Nat := chan
    if !(s.flag LE_CTL.EN) || !(s.flag (PG_CTL.EN c)) || s.le.tick % s.pgPeriod c != 0 || s.pgFrozen then s else
    let s := s.pgAdvance c
    let s := match (s.pgCh c).ready with
      | some r => s.pgEffect c r
      | none => s
    (s.pgPublish c).pgShow c

/-- A write of PG_TARGET (R161). -/
def State.pgTargetWrite (s : State) (c : Nat) (v : Word) : State :=
  let code := if s.pgFed c then Code.refusedState else if !(fisFin b32 v.toNat) then Code.range else Code.ok
  let s := s.setFld (PG_STAT.CODE c) code
  if code ≠ 0 then s.setBit PG_EVT.REFUSED c true
  else (s.setReg (PG_TARGET c) v).pgRequest c (fconv b32 b64 v.toNat)

/-- PG_TARGET (R161). -/
def execPgTarget (chan : Fin 16) (v : Word) (s : State) : Out := s.cpDoes (fun s => s.pgTargetWrite chan v)

/-- PG_PLAN_COMPLETE (R163): the planner ends the first request of its queue, which waits for the channel's next update
instant. -/
def execPgPlanComplete (chan : Fin 16) (s : State) : Out :=
  State.out <|
    match s.le.queue with
    | [] => s
    | (_, c, r) :: rest =>
      if c ≠ chan then s else
      let s := ({ s with le := { s.le with queue := rest } }).setFlag (PG_CTL.STOP c) false
      (s.setPg c { s.pgCh c with ready := some r }).pgShow c

/-- A channel comes to rest where it is: no profile and no request (R164). (DEDUCED, log entry 27) -/
def State.pgRest (s : State) (c : Nat) (x : Nat) : State :=
  let s := { s with le := { s.le with queue := s.le.queue.filter fun e => e.2.1 != c } }
  ((s.setPg c { s.pgCh c with x := x, v := 0, a := 0, segs := [], ticks := 0, target := x, ready := none }).pgPublish c).pgShow c

/-- A write of PG_PRESET; it acts while the channel is not enabled (R164), at once and in a hold window too: the rule gives PRESET
no update instant. (DEDUCED, log entry 27) -/
def State.pgPresetWrite (s : State) (c : Nat) (v : Word) : State :=
  if s.flag (PG_CTL.EN c) then s else s.pgRest c (fconv b32 b64 v.toNat)

/-- PG_PRESET (R164). -/
def execPgPreset (chan : Fin 16) (v : Word) (s : State) : Out := s.cpDoes (fun s => s.pgPresetWrite chan v)

/-- A write of PG_CTL: STOP plans a stop; enabling plans from the preset position to the last target, disabling holds the
set-point (R164). (DEDUCED, log entry 27) -/
def State.pgCtlWrite (s : State) (c : Nat) (v : Word) : State :=
  let en := (PG_CTL.EN c).of v == 1
  let was := s.flag (PG_CTL.EN c)
  let s := s.setFlag (PG_CTL.EN c) en
  let s := if en && !was then s.pgRequest c (fconv b32 b64 (s.reg (PG_TARGET c)).toNat)
    else if !en && was then s.pgRest c (s.pgCh c).x
    else s
  if (PG_CTL.STOP c).of v = 1 && en && s.flag LE_CTL.EN then (s.setFlag (PG_CTL.STOP c) true).pgQueue c .stop
  else if !en then s.setFlag (PG_CTL.STOP c) false
  else s

/-- PG_STOP (R164): a write of PG_CTL with STOP = 1. -/
def execPgStop (chan : Fin 16) (v : Word) (s : State) : Out :=
  s.cpDoes (fun s => if (PG_CTL.STOP chan).of v = 1 then s.pgCtlWrite chan v else s)

/-- PG_ENABLE (R164): a write of PG_CTL that changes EN. -/
def execPgEnable (chan : Fin 16) (v : Word) (s : State) : Out := s.cpDoes (fun s => s.pgCtlWrite chan v)

/-- FROZEN of every channel of a running loop engine: a hold window, which a brown stall opens too, holds profile time (R164). -/
def State.pgFreeze (s : State) : State :=
  if s.flag LE_CTL.EN then forN (fun c s => s.setFlag (PG_STAT.FROZEN c) (s.inHold || s.pwr.stall)) 16 s else s

/-- FROZEN and BRIDGE of every channel brought up to date (R161, R164). -/
def State.pgFlags (s : State) : State := (forN (fun c s => s.setFlag (PG_STAT.BRIDGE c) (s.pgFed c)) 16 s).pgFreeze

/-- The plan step in s, the block length B and the stale limit (R145, R148). -/
def State.pbStep (s : State) : Nat := min 3600 (max 60 (s.fld LE_PB_CFG.STEP)) / 60 * 60
def State.pbBlock (s : State) : Nat := nth [1, 2, 4, 4] (s.fld LE_PB_CFG.BLK) 1
def State.pbLimit (s : State) : Nat := min 32 (max 1 (s.fld LE_PB_CFG.STALE_LIM))

/-- The channels the bridge feeds. -/
def State.pbChannels (s : State) : List Nat := (List.range 16).filter fun c => s.flag (LE_PB_MAP.EN c)

/-- The plan entry of channel `c` for plan block `b` (R145). -/
def State.pbEntry (s : State) (x : List Nat) (c b : Nat) : Option Nat :=
  (x[s.fld (LE_PB_MAP.OFF c) + s.fld (LE_PB_MAP.STRIDE c) * b]?).map fun v =>
    ffma b32 (s.reg (LE_PB_SCALE c)).toNat v (s.reg (LE_PB_BIAS c)).toNat

/-- The targets of plan block `b` in binary32, if every enabled channel has an entry (R145). -/
def State.pbTargets (s : State) (x : List Nat) (b : Nat) : Option (List (Nat × Nat)) :=
  s.pbChannels.mapM fun c => (s.pbEntry x c b).map fun v => (c, v)

/-- Whether every target of every step that has an entry is finite (R146). -/
def State.pbFinite (s : State) (x : List Nat) : Bool :=
  (List.range (x.length + 1)).all fun b =>
    match s.pbTargets x b with
    | some l => l.all fun p => fisFin b32 p.2
    | none => true

/-- Targets converted as one block floating stage, the other channels carrying 0 (R146). -/
def pbConvert (l : List (Nat × Nat)) : List (Nat × Dy) :=
  let st := renorm (l.map fun p => Dy.ofFloat b32 p.2)
  List.zipWith (fun p (b : Bf) => (p.1, b.dy)) l st

/-- The heating-curve targets (R165); a constant that is not finite leaves the channel's target. -/
def State.pbFallback (s : State) : List (Nat × Dy) :=
  s.pbChannels.filterMap fun c =>
    if s.flag (LE_PB_FB.KIND c) then some (c, (s.slot (s.fld (LE_PB_FB.SLOT c))).out.dy)
    else if fisFin b32 (s.reg (LE_PB_FBV c)).toNat then some (c, s.reg32f (LE_PB_FBV c))
    else none

/-- FALLBACK in LE_STAT and LE_PB_STAT. -/
def State.setFallback (s : State) (b : Bool) : State := (s.setFlag LE_STAT.FALLBACK b).setFlag LE_PB_STAT.FALLBACK b

/-- A change of fallback, reported (R14). -/
def State.reportFallback (s : State) (b : Bool) : State :=
  if s.flag LE_PB_STAT.FALLBACK == b then s
  else if b then ((s.setFallback true).setFlag LE_EVT.PB_FB_IN true).traceEvent 5
  else (s.setFallback false).setFlag LE_EVT.PB_FB_OUT true

/-- The stale count, in full and as LE_PB_STAT shows it (R13). -/
def State.setStale (s : State) (n : Nat) : State :=
  ({ s with le := { s.le with staleN := n } }).setFld LE_PB_STAT.STALE (min 63 n)

/-- A plan offered to the bridge at the end of a solver job (R12, R146, R244, R279): the newest, whatever its status, is kept for
the next boundary, and beside one of the present tick the newest of the ticks before (R147). -/
def State.pbOffer (s : State) (x : List Nat) (code : Nat) : State :=
  if !(s.flag LE_PB_CFG.EN) then s else
  let s := s.setFld LE_PB_STAT.CODE code
  let old := s.le.offers.filter fun o => o.2.2 != s.le.tick
  { s with le := { s.le with offers := (x, code, s.le.tick) :: old.take 1 } }

/-- The statuses of a plan that the bridge takes (R12). -/
def pbTakes (code : Nat) : Bool := code == Code.ok || code == Code.doneRegularised || code == Code.sketch || code == Code.delayed

/-- Whether the present tick is a plan step boundary not yet processed (R147). -/
def State.pbDue (s : State) : Bool :=
  if s.le.boundary == some s.le.tick then false
  else if s.flag SYS_NT_STAT.VALID then s.ntReaches (s.pbStep * 1000)
  else decide (s.le.tick ≠ 0) && s.le.tick % (s.pbStep * 100000) == 0

/-- The newest plan offered before the present tick (R147). -/
def State.pbNewest (s : State) : Option (List Nat × Nat) :=
  (s.le.offers.find? fun o => o.2.2 != s.le.tick).map fun o => (o.1, o.2.1)

/-- The newest plan offered is taken, not taken for its status, refused as not finite, or absent, and the stale count follows
(R12, R13, R146). -/
def State.pbTake (s : State) : State :=
  match s.pbNewest with
  | none => s.setStale (s.le.staleN + 1)
  | some (x, code) =>
    let s := { s with le := { s.le with offers := s.le.offers.filter fun o => o.2.2 == s.le.tick } }
    if !pbTakes code then (s.setFlag LE_PB_STAT.NONFINITE false).setStale (s.le.staleN + 1) else
    let ok := s.pbFinite x
    let s := s.setFlag LE_PB_STAT.NONFINITE (!ok)
    if ok then ({ s with le := { s.le with plan := some x } }).setStale 0
    else (s.setFlag LE_EVT.PB_NONFIN true).setStale (s.le.staleN + 1)

/-- The targets the plan in use gives at its stale count, if any (R13, R145). -/
def State.pbPlanned (s : State) : Option (List (Nat × Dy)) :=
  match s.le.plan with
  | some x => if s.le.staleN ≤ s.pbLimit then (s.pbTargets x (s.le.staleN / s.pbBlock)).map pbConvert else none
  | none => none

/-- PLAN_STEP_BOUNDARY (R12 to R14, R147): the bridge takes or shifts its plan and passes targets to the channels. -/
def execPlanStepBoundary (s : State) : Out :=
  State.out <|
    if !(s.flag LE_CTL.EN) || !(s.flag LE_PB_CFG.EN) || s.pwr.stall || !s.pbDue then s else
    let s := ({ s with le := { s.le with boundary := some s.le.tick } } : State).pbTake
    let t := s.pbPlanned
    let s := s.reportFallback t.isNone
    (t.getD s.pbFallback).foldl (fun s p => s.pgGive p.1 p.2) s

/-- The bridge at the start tick: in fallback, its stale count past its limit, without an event (R165).
(DESIGN CHOICE, log entry 69) -/
def State.pbStart (s : State) : State :=
  let s := s.setFlag LE_PB_STAT.NT_SYNC (s.flag SYS_NT_STAT.VALID)
  if s.flag LE_PB_CFG.EN then
    let s := (s.setStale (s.pbLimit + 1)).setFallback true
    s.pbFallback.foldl (fun s p => s.pgGive p.1 p.2) s
  else s

/-- The profile generators at the start tick: each enabled channel plans to its last target (R164). -/
def State.pgStart (s : State) : State :=
  let s := forN (fun c s =>
    if s.pgFed c then s else s.pgRequest c (fconv b32 b64 (s.reg (PG_TARGET c)).toNat)) 16 s
  s.pgFlags

end Sys2Proof.Machine
end

