-- ==== Sys2Proof/Machine/Pt.lean ====
section
/-! DEFINITION. The plug tracker (chapter 12): parcels carried along the pipes, predictions of arrival temperatures, and
changes of segments and outputs. Temperatures and times are binary64 unless said otherwise. -/

namespace Sys2Proof.Machine

/-- Segment `i`. -/
def State.ptSeg (s : State) (i : Nat) : PtSeg := nth s.pt.segs i {}
/-- Segment `i` replaced. -/
def State.setPtSeg (s : State) (i : Nat) (g : PtSeg) : State := { s with pt := { s.pt with segs := putAt s.pt.segs i g } }

/-- Word `k` of the configuration in effect. -/
def PtSeg.c (g : PtSeg) (k : Nat) : Nat := nth g.cfg k 0
def PtSeg.cap (g : PtSeg) : Nat := bits (g.c 0) 31 16
def PtSeg.base (g : PtSeg) : Nat := 4 * bits (g.c 0) 15 0
def PtSeg.akind (g : PtSeg) : Nat := bits (g.c 1) 31 30
def PtSeg.aidx (g : PtSeg) : Nat := bits (g.c 1) 29 26
def PtSeg.fkind (g : PtSeg) : Nat := bits (g.c 1) 25 24
def PtSeg.fidx (g : PtSeg) : Nat := bits (g.c 1) 23 21
def PtSeg.ikind (g : PtSeg) : Nat := bits (g.c 1) 20 18
def PtSeg.iidx (g : PtSeg) : Nat := bits (g.c 1) 7 0
def PtSeg.tau (g : PtSeg) : Nat := g.c 7
/-- The segment runs (PT_SEG_RING.CAP). -/
def PtSeg.on (g : PtSeg) : Bool := g.cap != 0

/-- A binary32 word as binary64. -/
def wide (x : Nat) : Nat := fconv b32 b64 x

/-- A volume in L as whole mL; what is not a finite positive number counts as 0. -/
def wholeMl (x : Nat) : Nat := ((ftoInt b64 (fmul b64 x (fofInt b64 1000))).getD 0).toNat

/-- VOL_SEG in mL. -/
def PtSeg.volMl (g : PtSeg) : Nat := wholeMl (wide (g.c 2))

/-- The largest VOL of a parcel (R249). -/
abbrev maxVol : Nat := 2 ^ 28 - 1

/-- A temperature in °C as 0.01 K steps, within the 16 bits of TEMP (R249, R254). -/
def tempOf (x : Nat) : Int := clampInt (-32768) 32767 ((ftoInt b64 (fmul b64 x (fofInt b64 100))).getD 0)

/-- 0.01 K steps in °C. -/
def degOf (t : Int) : Nat := fofRat b64 t 100

/-- exp(−1/32) in units of 2⁻⁶⁰. -/
def lossStep : Nat := 1117449839007427529

/-- Entry `i` of the loss table (R254, R255). (DESIGN CHOICE, log entry 36) -/
def lossEntry (i : Nat) : Nat :=
  let e := lossStep ^ i / 2 ^ (60 * i - 40)
  fofScaled b64 (clampInt 0 (2 ^ 40) ((if i = 0 then (2 : Int) ^ 40 else (e : Int)) + clampInt (-8000000) 8000000 (Config.lossError i))) (-40)

/-- f of R254. -/
def lossF (x : Nat) : Nat :=
  if fle b64 (fofInt b64 16) x then 0
  else
    let y := fmul b64 (fofInt b64 32) x
    let i := ((ffloor b64 y).getD 0).toNat
    fadd b64 (lossEntry i) (fmul b64 (fsub b64 y (fofInt b64 i)) (fsub b64 (lossEntry (i + 1)) (lossEntry i)))

/-- The ambient temperature of segment `i` (R252). -/
def State.ptAmb (s : State) (i : Nat) : Nat :=
  let g := s.ptSeg i
  match g.akind with
  | 0 => wide (g.c 3)
  | 1 => (s.rtd g.aidx).t64
  | k => Config.ptSource i 0 k

/-- exitT of R254: a temperature `t` that entered segment `i` `a` seconds ago. -/
def State.ptExit (s : State) (i t a : Nat) : Nat :=
  let g := s.ptSeg i
  if g.tau = 0 then t
  else
    let amb := s.ptAmb i
    fadd b64 amb (fmul b64 (fsub b64 t amb) (lossF (fdiv b64 a (fofInt b64 g.tau))))

/-- The outlet temperature of a segment at its last advance. -/
def State.ptTout (s : State) (i : Nat) : Nat := wide (s.reg (PT_SEG_TOUT i)).toNat

/-- The inlet temperature of segment `i` (R252): kinds 1 and 2 are the ts and tr that a calculator holds since its last step
(R312). (DESIGN CHOICE, log entry 36) -/
def State.ptInlet (s : State) (i : Nat) : Nat :=
  let g := s.ptSeg i
  match g.ikind with
  | 0 => s.ptTout g.iidx
  | 1 => wide (s.reg (MH_C_TS (g.iidx % 8))).toNat
  | 2 => wide (s.reg (MH_C_TR (g.iidx % 8))).toNat
  | 3 => (s.rtd (g.iidx % 16)).t64
  | 4 => wide (s.reg (PT_SEG_TW i)).toNat
  | k => Config.ptSource i 1 k

/-- The inflow of segment `i` in mL over `ticks`, before the carry (R252). -/
def State.ptInflow (s : State) (i ticks : Nat) : Nat :=
  let g := s.ptSeg i
  match g.fkind with
  | 0 =>
    let d : Nat := (nth (s.calculator g.fidx).acc 2 0 + 2 ^ 96 - nth s.pt.vols g.fidx 0) % 2 ^ 96
    fmul b64 (fofScaled b64 (d : Int) (-32)) (wide (g.c 4))
  | 1 => fmul b64 (fmul b64 (wide (s.reg (PT_SEG_QW i)).toNat) (fofRat b64 ticks 100000)) (fofInt b64 1000)
  | 2 => 0
  | k => Config.ptSource i 2 k

/-- A segment as R255 starts it: one parcel of volume VOL_SEG at INIT. -/
def ptFresh (g : PtSeg) : PtSeg :=
  { g with parcels := if g.on then [⟨min maxVol (max 1 g.volMl), 0, tempOf (wide (g.c 6))⟩] else []
           tail := 0, carry := 0, cum := 0 }

/-- A parcel record (R249). -/
def PtParcel.bytes (p : PtParcel) : List Byte :=
  toBytes 8 (p.vol % 2 ^ 28 + 2 ^ 28 * (p.age % 2 ^ 20) + 2 ^ 48 * unsigned 16 p.temp)

/-- The parcels of a segment shown in its ring in plug store, each at the place it took (R250; log entry 36).
(DESIGN CHOICE, log entry 36) -/
def State.ptShow (s : State) (i : Nat) : State :=
  let g := s.ptSeg i
  forN (fun k s => match g.parcels[k]? with
    | some p => s.wrBytes (0x33000000 + 8 * (g.base + (g.tail + k) % (g.cap + 1))) p.bytes
    | none => s) g.parcels.length s

/-- A segment restarted: COUNT, WARMUP, ACT and its one parcel in plug store (R250, R255). -/
def State.ptRestart (s : State) (i : Nat) : State :=
  let g := ptFresh (s.ptSeg i)
  let s := s.setPtSeg i g
  (((s.setFld (PT_SEG_STAT.COUNT i) g.parcels.length).setFlag (PT_SEG_STAT.WARMUP i) g.on).setFlag (PT_SEG_STAT.ACT i) g.on).ptShow i

/-- A parcel merged with an inflow (R254). -/
def PtParcel.merge (p : PtParcel) (dv : Nat) (tin : Int) : PtParcel :=
  let n : Int := (p.vol : Int) * p.temp + (dv : Int) * tin
  let d : Int := (p.vol + dv : Nat)
  let q : Int := n / d
  let r : Int := n % d
  { p with vol := min maxVol (p.vol + dv), temp := if d < 2 * r ∨ (2 * r = d ∧ q % 2 = 1) then q + 1 else q }

/-- The inflow taken in; the Bool says that the merge was forced (R254). -/
def State.ptTake (s : State) (g : PtSeg) (dv : Nat) (tin : Int) : PtSeg × Bool :=
  if dv = 0 then (g, false) else
  match g.parcels.getLast? with
  | none => ({ g with parcels := [⟨min maxVol dv, 0, tin⟩] }, false)
  | some p =>
    let merged := { g with parcels := g.parcels.dropLast ++ [p.merge dv tin] }
    if (tin - p.temp).natAbs ≤ s.fld PT_CFG.MTOL ∧ p.age ≤ 10 * s.fld PT_CFG.MAGE ∧ p.vol + dv < 2 ^ 28 then (merged, false)
    else if g.cap + 1 ≤ g.parcels.length then (merged, true)
    else ({ g with parcels := g.parcels ++ [⟨min maxVol dv, 0, tin⟩] }, false)

/-- What leaves at the outlet: the parcels left, how many were removed, the sum of v·exitT and the volume out (R254). -/
def State.ptPop (s : State) (i : Nat) : List PtParcel → Nat → Nat → Nat → Nat → List PtParcel × Nat × Nat × Nat
  | [], _, n, sum, out => ([], n, sum, out)
  | p :: t, excess, n, sum, out =>
    if excess = 0 then (p :: t, n, sum, out)
    else
      let v := min p.vol excess
      let sum := fadd b64 sum (fmul b64 (fofInt b64 v) (s.ptExit i (degOf p.temp) (fofInt b64 p.age)))
      if v = p.vol then s.ptPop i t (excess - v) (n + 1) sum (out + v)
      else ({ p with vol := p.vol - v } :: t, n, sum, out + v)

/-- Segment `i` advanced over `ticks` ticks in which `secs` whole seconds passed (R254). (DESIGN CHOICE, log entry 36) -/
def State.ptAdvance (s : State) (i ticks secs : Nat) : State :=
  let g := s.ptSeg i
  if !g.on then s else
  let raw := s.ptInflow i ticks
  let bad := !fisFin b64 raw || flt b64 raw 0
  let s := if bad then s.setFlag (PT_SEG_STAT.REV i) true else s
  let whole := fadd b64 (if bad then 0 else raw) g.carry
  let dv := ((ffloor b64 whole).getD 0).toNat
  let tin := tempOf (s.ptInlet i)
  let g := { g with
    parcels := g.parcels.map fun p => { p with age := min 1048575 (p.age + secs) }
    carry := fsub b64 whole (fofInt b64 dv)
    cum := g.cum + dv }
  let (g, forced) := s.ptTake g dv tin
  let s := if forced then (s.countUp (PT_SEG_STAT.FMERGE i)).setFlag PT_EVT.FMERGE true else s
  let (left, n, sum, out) := s.ptPop i g.parcels ((g.parcels.map (·.vol)).sum - g.volMl) 0 0 0
  let tout := if 0 < out then some (fdiv b64 sum (fofInt b64 out))
    else left.head?.map fun p => s.ptExit i (degOf p.temp) (fofInt b64 p.age)
  let s := s.setPtSeg i { g with parcels := left, tail := (g.tail + n) % (g.cap + 1) }
  let s := match tout with
    | some t => s.setReg (PT_SEG_TOUT i) (BitVec.ofNat 32 (fconv b64 b32 t))
    | none => s
  let s := if g.volMl ≤ g.cum then s.setFlag (PT_SEG_STAT.WARMUP i) false else s
  (s.setFld (PT_SEG_STAT.COUNT i) left.length).ptShow i

/-- The forecast of one prediction: the time to the next plan step boundary, the step length, flows and inlet temperatures
(R257). -/
structure PtFc where
  tB : Nat
  step : Nat
  q : List Nat
  t : List Nat
  deriving DecidableEq, Repr

/-- The time from now to the next plan step boundary, in s (R147, R257). -/
def State.ptToBoundary (s : State) : Nat :=
  if s.flag SYS_NT_STAT.VALID then
    let m := s.pbStep * 2 ^ 24
    fofRat b64 (m - s.nt % m : Nat) (2 ^ 24)
  else
    let m := s.pbStep * 100000
    fofRat b64 (m - s.le.tick % m : Nat) 100000

/-- The start of plan step `k`. -/
def PtFc.start (f : PtFc) (k : Nat) : Nat := fadd b64 f.tB (fofInt b64 (k * f.step))

/-- Wf(t) (R257): the volume of plan steps `k` upwards up to `t`, added to `acc`. -/
def PtFc.volFrom (f : PtFc) (t : Nat) : Nat → Nat → List Nat → Nat
  | acc, _, [] => acc
  | acc, k, q :: l =>
    if fle b64 t (f.start k) then acc
    else
      let d := fmin b64 (fsub b64 t (f.start k)) (fofInt b64 f.step)
      f.volFrom t (fadd b64 acc (fmul b64 q d)) (k + 1) l

/-- Wf(t) (R257). -/
def PtFc.vol (f : PtFc) (t : Nat) : Nat :=
  f.volFrom t (fmul b64 (f.q.headD 0) (fmin b64 t f.tB)) 0 f.q

/-- The first t' at which Wf(t') reaches `w`, from plan step `k` on, `acc` being Wf at its start (R257). -/
def PtFc.timeFrom (f : PtFc) (w : Nat) : Nat → Nat → List Nat → Nat
  | _, k, [] => f.start k
  | acc, k, q :: l =>
    let next := fadd b64 acc (fmul b64 q (fofInt b64 f.step))
    if fle b64 w next ∧ flt b64 0 q then fadd b64 (f.start k) (fdiv b64 (fsub b64 w acc) q)
    else f.timeFrom w next (k + 1) l

/-- The first t' at which Wf(t') reaches `w`. -/
def PtFc.time (f : PtFc) (w : Nat) : Nat :=
  let q := f.q.headD 0
  let first := fmul b64 q f.tB
  if fle b64 w first ∧ flt b64 0 q then fdiv b64 w q else f.timeFrom w first 0 f.q

/-- The inlet temperature of the head segment `i` at time `t` (R257). -/
def State.ptInletAt (s : State) (f : PtFc) (i t : Nat) : Nat :=
  if flt b64 t f.tB then s.ptInlet i
  else
    let k := ((ffloor b64 (fdiv b64 (fsub b64 t f.tB) (fofInt b64 f.step))).getD 0).toNat
    let v := nth f.t k b64.nanBits
    if fisNan b64 v then s.ptInlet i else v

/-- The parcel that holds volume position `w` in L, counted from the outlet, `ml` being the volume in mL before the list (R257).
-/
def parcelAt (w ml : Nat) : List PtParcel → Option PtParcel
  | [] => none
  | [p] => some p
  | p :: t => if fle b64 w (fofRat b64 (ml + p.vol : Nat) 1000) then some p else parcelAt w (ml + p.vol) t

/-- arrive of R257, along at most `fuel` segments. -/
def State.ptArrive (s : State) (f : PtFc) : Nat → Nat → Nat → Nat
  | 0, i, t => s.ptInletAt f i t
  | fuel + 1, i, t =>
    let g := s.ptSeg i
    let share := wide (g.c 5)
    let vol := wide (g.c 2)
    let w := fmul b64 share (f.vol t)
    if fle b64 w vol then
      match parcelAt w 0 g.parcels with
      | some p => s.ptExit i (degOf p.temp) (fadd b64 (fofInt b64 p.age) t)
      | none => s.ptTout i
    else
      let te := f.time (fsub b64 (f.vol t) (fdiv b64 vol share))
      let tin := if g.ikind = 0 then s.ptArrive f fuel g.iidx te else s.ptInletAt f i te
      s.ptExit i tin (fsub b64 t te)

/-- A segment on the path upstream of segment `i` still holds its INIT temperature (R257). -/
def State.ptWarm (s : State) : Nat → Nat → Bool
  | 0, _ => false
  | fuel + 1, i =>
    s.flag (PT_SEG_STAT.WARMUP i) || ((s.ptSeg i).ikind == 0 && s.ptWarm fuel (s.ptSeg i).iidx)

/-- Its horizon H. -/
def State.ptHorizon (s : State) (o : Nat) : Nat := nth [24, 48, 96, 96] (bits (s.ptOut o 0) 30 29) 96
/-- Its block length B. -/
def State.ptBlock (s : State) (o : Nat) : Nat := nth [1, 2, 4, 4] (bits (s.ptOut o 0) 1 0) 1

/-- A forecast flow read as 0 (R257). -/
def badFlow (q : Nat) : Bool := !fisFin b32 q || flt b32 q 0

/-- The forecast of output `o`. (DESIGN CHOICE, log entry 36) -/
def State.ptForecast (s : State) (o : Nat) : PtFc :=
  let h := s.ptHorizon o
  { tB := s.ptToBoundary, step := s.pbStep
    q := (List.range h).map fun k => if badFlow (s.reg (PT_FCQ o k)).toNat then 0 else wide (s.reg (PT_FCQ o k)).toNat
    t := (List.range h).map fun k => wide (s.reg (PT_FCT o k)).toNat }

/-- The means of blocks of `b` values (R258). -/
def blockMeans (b : Nat) : Nat → List Nat → List Nat
  | 0, _ => []
  | n + 1, l =>
    (if b = 1 then l.headD 0 else fdiv b64 (fsum b64 (l.headD 0) ((l.take b).drop 1)) (fofInt b64 b)) :: blockMeans b n (l.drop b)

/-- The prediction of output `o` computed and its packet written (R257, R258). -/
def State.ptPredict (s : State) (o : Nat) : State :=
  if !s.ptOutOn o then s else
  let f := s.ptForecast o
  let h := s.ptHorizon o
  let b := s.ptBlock o
  let cfg := s.ptOut o 0
  let seg := bits cfg 23 16
  let ts := (List.range h).map fun k => s.ptArrive f 16 seg (fadd b64 f.tB (fofRat b64 ((2 * k + 1) * f.step : Nat) 2))
  let body := (blockMeans b (h / b) ts).map fun t =>
    fenc sa32 (vadd (vmul (fdec b32 (s.ptOut o 2)) (fdec b64 t)) (fdec b32 (s.ptOut o 3)))
  let s := s.countWrap (PT_OUT_STAT.SEQ o)
  let s := s.setFlag (PT_OUT_STAT.FCBAD o) ((List.range h).any fun k => badFlow (s.reg (PT_FCQ o k)).toNat)
  let s := s.setFlag (PT_OUT_STAT.WARM o) (s.ptWarm 16 seg)
  let dst := s.ptOut o 1
  let words := [0x4854 + 65536 * bits cfg 15 13, 1, 24 + 4 * (h / b), s.fld (PT_OUT_STAT.SEQ o),
    bits dst 15 0 + 65536 * (bits cfg 27 24 + 64 * bits cfg 28 28), bits dst 31 16 + 65536 * (h / b)] ++ body
  s.wrBytes (0x3307F000 + 0x200 * o) (words.flatMap (toBytes 4))

/-- The shadow copy of a segment's configuration: its registers (R260). -/
def State.ptShadow (s : State) (i : Nat) : List Nat :=
  [PT_SEG_RING i, PT_SEG_SRC i, PT_SEG_VOL i, PT_SEG_AMB i, PT_SEG_GAIN i, PT_SEG_SHARE i, PT_SEG_INIT i, PT_SEG_TAU i].map
    fun a => (s.reg a).toNat

/-- The shadow copy of an output's configuration. -/
def State.ptOutShadow (s : State) (o : Nat) : List Nat :=
  [PT_OUT_CFG o, PT_OUT_DST o, PT_OUT_GAIN o, PT_OUT_OFS o].map fun a => (s.reg a).toNat

/-- The inlet chain of segment `i` ends within `fuel` segments; a segment that is not configured is none of them.
(DESIGN CHOICE, log entry 57) -/
def ptChainOk (segs : List PtSeg) : Nat → Nat → Bool
  | 0, i => !(nth segs i {}).on
  | fuel + 1, i => !(nth segs i {}).on || (nth segs i {}).ikind != 0 || ptChainOk segs fuel (nth segs i {}).iidx

/-- The checks of R251 on a list of segments, for segment `i`; its pool holds `size` parcels. -/
def ptSegCheck (segs : List PtSeg) (size i : Nat) : Nat :=
  let g := nth segs i {}
  if g.on ∧ (g.cap + 1 < 4 ∨ size < g.base + g.cap + 1
      ∨ (List.range 256).any (fun k => k != i && (nth segs k {}).on
          && decide ((nth segs k {}).base < g.base + g.cap + 1) && decide (g.base < (nth segs k {}).base + (nth segs k {}).cap + 1)))
  then Code.refusedCapacity
  else if (List.range 256).any fun k => (nth segs k {}).on && !ptChainOk segs 16 k then Code.range
  else Code.ok

/-- The segments as they would stand with every waiting commit in effect. -/
def State.ptPlanned (s : State) : List PtSeg :=
  s.pt.staged.foldl (fun l g => if g.key < 256 then putAt l g.key { nth l g.key {} with cfg := g.words } else l) s.pt.segs

/-- The registers of a segment or output return to the configuration in effect: the shadow is discarded (R260). -/
def State.ptDiscard (s : State) (key : Nat) : State :=
  if key < 256 then
    forN (fun k s => s.setReg ([PT_SEG_RING key, PT_SEG_SRC key, PT_SEG_VOL key, PT_SEG_AMB key, PT_SEG_GAIN key, PT_SEG_SHARE key,
      PT_SEG_INIT key, PT_SEG_TAU key].getD k 0) (BitVec.ofNat 32 ((s.ptSeg key).c k))) 8 s
  else
    let o := (key - 256) % 8
    forN (fun k s => s.setReg ([PT_OUT_CFG o, PT_OUT_DST o, PT_OUT_GAIN o, PT_OUT_OFS o].getD k 0)
      (BitVec.ofNat 32 (s.ptOut o k))) 4 s

/-- The key of a commit: the segment, or 256 plus the output. -/
def ptKey (v : Word) : Nat :=
  if PT_COMMIT.OUT.of v = 0 then PT_COMMIT.INDEX.of v else 256 + PT_COMMIT.INDEX.of v % 8

/-- The code of a commit (R251, R260). -/
def State.ptCheck (s : State) (key : Nat) : Nat :=
  if key < 256 then
    ptSegCheck (putAt s.ptPlanned key { s.ptSeg key with cfg := s.ptShadow key }) (s.fld PT_POOL.SIZE) key
  else if bits ((s.ptOutShadow (key - 256)).headD 0) 31 31 = 1 ∧ 65024 < s.fld PT_POOL.SIZE then Code.refusedCapacity
  else Code.ok

/-- PEND of a segment. -/
def State.ptPend (s : State) (key : Nat) (b : Bool) : State :=
  if key < 256 then s.setFlag (PT_SEG_STAT.PEND key) b else s

/-- A commit let go: it waits in place of an earlier one for the same target (R260, R512). -/
def State.ptArm (s : State) (key : Nat) : State :=
  let l := s.pt.staged.filter fun g => !(g.key == key && g.armed)
  ({ s with pt := { s.pt with staged := l.map fun (g : PtStage) => if g.key = key then { g with armed := true } else g } }).ptPend key true

/-- A held commit taken away (R513). -/
def State.ptDrop (s : State) (key : Nat) : State :=
  { s with pt := { s.pt with staged := s.pt.staged.filter fun g => g.armed || g.key != key } }

/-- A write of PT_COMMIT (R260, R512). (DESIGN CHOICE, log entry 36) -/
def State.ptCommitWrite (s : State) (v : Word) : State :=
  if PT_COMMIT.GO.of v ≠ 1 then s else
  let key := ptKey v
  let code := s.ptCheck key
  let s := s.setFld PT_STAT.CODE code
  if code ≠ Code.ok then (s.ptDiscard key).setFlag PT_EVT.COMMIT true
  else
    let words := if key < 256 then s.ptShadow key else s.ptOutShadow (key - 256)
    if s.holding && !s.heldRoom (.pt v) then s.request (.pt v) id
    else
      let s := s.ptDrop key
      let s := { s with pt := { s.pt with staged := s.pt.staged ++ [PtStage.mk key words false] } }
      s.request (.pt v) fun s => s.ptArm key

/-- A commit takes effect (R260). -/
def State.ptApply (s : State) (g : PtStage) : State :=
  let s := s.setFlag PT_EVT.COMMIT true
  if g.key < 256 then
    let old := s.ptSeg g.key
    let s := (s.setPtSeg g.key { old with cfg := g.words }).ptPend g.key false
    if old.c 0 = g.words.headD 0 then s else s.ptRestart g.key
  else { s with pt := { s.pt with outs := putAt s.pt.outs (g.key - 256) g.words } }

/-- The update period in ticks (PT_CFG.PERIOD). -/
def State.ptPeriod (s : State) : Nat := min 1000000 (max 10000 (s.fld PT_CFG.PERIOD))

/-- The volumes the MH calculators have counted, kept for the next update (R252). -/
def State.ptVols (s : State) : State :=
  { s with pt := { s.pt with vols := (List.range 8).map fun k => nth (s.calculator k).acc 2 0 } }

/-- An update (R253 to R258, R261). -/
def State.ptUpdate (s : State) : State :=
  let last := s.pt.last.getD 0
  let ticks := s.le.tick - last
  let secs := s.le.tick / 100000 - last / 100000
  let s := s.countWrap PT_STAT.UPD_SEQ
  let go := s.pt.staged.filter (·.armed)
  let s := { s with pt := { s.pt with staged := s.pt.staged.filter (!·.armed), last := some s.le.tick } }
  let s := go.foldl State.ptApply s
  let s := forN (fun i s => s.ptAdvance i ticks secs) 256 s
  let s := forN (fun o s => s.ptPredict o) 8 s
  let s := s.ptVols
  (s.countWrap PT_STAT.UPD_SEQ).setFlag PT_EVT.UPD true

/-- Every segment and output as the registers configure them, restarted: what the start tick does (R255, R261). -/
def State.ptStart (s : State) : State :=
  let s := State.ptVols { s with pt := {} }
  let s := forN (fun i s => (s.setPtSeg i { cfg := s.ptShadow i }).ptRestart i) 256 s
  let s := { s with pt := { s.pt with outs := (List.range 8).map s.ptOutShadow } }
  s.setFlag PT_CTL.EN true

/-- PT_UPDATE (R253): an update instant. -/
def execPtUpdate (s : State) : Out :=
  State.out <|
    if !s.flag PT_CTL.EN || s.inHoldup || s.inSleep || s.pwr.stall || s.le.tick % s.ptPeriod != 0 || s.pt.last == some s.le.tick
    then s else s.ptUpdate

/-- PT_COMMIT (R260). -/
def execPtCommit (v : Word) (s : State) : Out := s.cpDoes fun s => s.ptCommitWrite v

/-- Whether an offset of plug store lies in the pool or in the packet of an enabled output (R250). -/
def State.plugHeld (s : State) (off : Nat) : Bool :=
  decide (off < 8 * s.fld PT_POOL.SIZE)
    || (decide (0x7F000 ≤ off) && decide (off < 0x80000) && s.ptOutOn ((off - 0x7F000) / 0x200))

/-- A CP write of `n` bytes within one word of plug store (R250). -/
def State.plugCpWrite (s : State) (off n v : Nat) : State :=
  if s.flag PT_CTL.EN && s.plugHeld off then s.countUp PT_STAT.IGN_WR else s.wrBytes (0x33000000 + off) (toBytes n v)

/-- PLUG_STORE_WRITE (R250): a CP write of 1, 2 or 4 bytes at an offset of plug store. -/
def execPlugStoreWrite (off : BitVec 19) (size : Fin 3) (v : Word) (s : State) : Out :=
  s.cpAccess (BitVec.ofNat 32 (0x33000000 + off.toNat)) .write size fun s => s.plugCpWrite off.toNat (2 ^ size.val) v.toNat

end Sys2Proof.Machine
end

