-- ==== Sys2Proof/Machine/SaJobs.lean ====
section
/-! DEFINITION. Solver jobs: submission, admission, order, deadlines, completion records and canvas swaps (chapter 11). -/

namespace Sys2Proof.Machine

/-- Word `i` of the descriptor (R226). -/
def SaJob.w (j : SaJob) (i : Nat) : Nat := j.desc.getD i 0
def SaJob.op (j : SaJob) : Nat := bits (j.w 0) 7 0
def SaJob.slot (j : SaJob) : Nat := bits (j.w 0) 10 8
def SaJob.fk (j : SaJob) : Nat := bits (j.w 0) 13 12
def SaJob.refactor (j : SaJob) : Bool := bits (j.w 0) 14 14 == 1
def SaJob.warm (j : SaJob) : Bool := bits (j.w 0) 15 15 == 1
def SaJob.dst (j : SaJob) : Nat := bits (j.w 0) 17 16
def SaJob.pbZ (j : SaJob) : Bool := bits (j.w 0) 18 18 == 1
def SaJob.first (j : SaJob) : Nat := bits (j.w 1) 15 0
def SaJob.rawCount (j : SaJob) : Nat := bits (j.w 1) 31 16
def SaJob.deadline (j : SaJob) : Nat := j.w 2
def SaJob.release (j : SaJob) : Nat := j.w 3
def SaJob.tag (j : SaJob) : Nat := bits (j.w 4) 15 0
def SaJob.pbProb (j : SaJob) : Nat := bits (j.w 4) 31 16
/-- The number of retouch packets; 0xF means 8. -/
def SaJob.nrt (j : SaJob) : Nat := if bits (j.w 5) 3 0 = 15 then 8 else bits (j.w 5) 3 0
def SaJob.dstAddr (j : SaJob) : Nat := j.w 7
def SaJob.cmplAddr (j : SaJob) : Nat := j.w 8
/-- MAX_IT; 0x1FFF means 4,096. -/
def SaJob.maxIt (j : SaJob) : Nat := if bits (j.w 9) 12 0 = 0x1FFF then 4096 else bits (j.w 9) 12 0
/-- MIN_IT; 0x1FFF means MAX_IT. -/
def SaJob.minIt (j : SaJob) : Nat := if bits (j.w 9) 28 16 = 0x1FFF then j.maxIt else bits (j.w 9) 28 16
def SaJob.check (j : SaJob) : Nat := bits (j.w 10) 7 0

/-- The number of problems of a job on its canvas; 0xFFFF means every problem from FIRST on (R226). -/
def SaJob.countOn (j : SaJob) (c : Canvas) : Nat := if j.rawCount = 0xFFFF then c.count - j.first else j.rawCount

/-- The lanes that work on one problem of order `n` (R191). -/
def lanesOf (n : Nat) : Nat := if n ≤ 32 then 1 else 4
/-- The problems one wave holds with `g` groups (R191). -/
def perWave (n g : Nat) : Nat := if n ≤ 32 then 4 * g else g
/-- The load rate B (R192). -/
def loadRate (n : Nat) : Nat := if n ≤ 32 then 2 else 8

/-- The lane groups in service (R191). -/
def State.saGroups (s : State) : Nat :=
  ((List.range 8).filter fun g => (s.fld SA_GROUP.INSERV).testBit g).length

/-- SA cycles per engine tick (R228). -/
def State.saPerTick (s : State) : Nat := if s.profile = 1 ∨ s.profile = 2 then 2000 else 4000

/-- SA_STAT shows the queue and the jobs (R248). -/
def State.saShow (s : State) : State :=
  let s := s.setFld SA_STAT.QUEUED (min 32 (s.sa.queue.length + if s.sa.pre.isSome then 1 else 0))
  let s := s.setFlag SA_STAT.PRE s.sa.pre.isSome
  let s := s.setFlag SA_STAT.RUN s.sa.run.isSome
  let s := s.setFld SA_STAT.RPRIO (match s.sa.run with
    | some j => j.prio
    | none => 0)
  (s.setFld SA_STAT.GROUPS (s.fld SA_GROUP.INSERV)).saFreeze

/-- The SA's jobs changed. -/
def State.setSa (s : State) (a : SaSt) : State := { s with sa := a }

/-- Lane groups that wait to leave or rejoin do so (R191, R247, R503). -/
def State.saBoundary (s : State) : State :=
  let s := match s.sa.leaving with
    | none => s
    | some g => (s.setBit SA_GROUP.INSERV g false).setBit SA_GROUP.BIST g true
  let s := match s.sa.joining with
    | none => s
    | some g => (s.setBit SA_GROUP.INSERV g true).setBit SA_GROUP.BIST g false
  (s.setSa { s.sa with leaving := none, joining := none }).saShow

/-- FVALID of problem `p` of entry `i` (R196). -/
def State.fvalid (s : State) (i p : Nat) : Bool := bits (s.rd32 (s.problemAt i p + 4)) 2 2 == 1

/-- The packet addresses of a job. -/
def State.rtAddrs (s : State) (j : SaJob) : List Nat := s.words (j.w 6) j.nrt

/-- The job factorises K for problem `p` (R226, R241). -/
def State.formsK (s : State) (j : SaJob) (p : Nat) : Bool := j.op == 8 && (j.refactor || !s.fvalid j.half p)

/-- The kind of the factor that problem `p` of the job works with (R209, R241): the one it makes, or the one it holds. -/
def State.kindOf (s : State) (j : SaJob) (p : Nat) : Nat :=
  if s.formsK j p ∨ j.op = 6 then j.fk + 1 else s.rd32 (s.problemAt j.half p + 4) % 4

/-- C_K of a wave of the problems `ps` (R241). -/
def State.waveK (s : State) (j : SaJob) (ps : List Nat) : Nat :=
  let c := s.canvas j.half
  if ps.any (s.formsK j) then Sa.kCycles (j.fk + 1) c.n c.m (lanesOf c.n) else 0

/-- The cycles of a wave of the problems `ps`, with `iters` iterations: the larger of computing and transfers, and the words
in and out (R213, R214, R241). -/
def State.waveCycles (s : State) (j : SaJob) (ps : List Nat) (iters : Nat) : Nat × Nat × Nat :=
  let c := s.canvas j.half
  let compute := ps.map fun p =>
    Sa.cycles j.op (c.kind == 1) c.n c.m (lanesOf c.n) (s.kindOf j p) (s.waveK j ps) iters (max 1 j.check)
  let (i, o) := Sa.ioWords j.op (c.kind == 1) c.n c.m (j.dst == 1) (ps.any (s.formsK j))
  (max (compute.foldl max 0) (Sa.cdiv (i + o) (loadRate c.n)), i, o)

/-- The problems of a job from its `k`-th on. -/
def State.problemsFrom (s : State) (j : SaJob) (k : Nat) : List Nat :=
  (List.range (j.countOn (s.canvas j.half))).drop k |>.map (j.first + ·)

/-- The waves and the cycles for the problems of a job from its `k`-th on, without set-up (R214). -/
def State.restCycles (s : State) (j : SaJob) (k g iters : Nat) : Nat :=
  let c := s.canvas j.half
  let ps := s.problemsFrom j k
  let (w, i, o) := s.waveCycles j ps iters
  Sa.cdiv i (loadRate c.n) + Sa.cdiv ps.length (perWave c.n g) * w + Sa.cdiv o (loadRate c.n)

/-- A job on `slot` accepted before the swap that is pending there (R245): one that waited for an earlier, withdrawn swap too. -/
def SaJob.before (j : SaJob) (slot : Nat) : Bool := j.slot == slot && (!j.wait || j.dead)

/-- The entry that the packet at `a` of a waiting job will change: where a swap is pending on its slot, the READY half, unless the
job keeps the swap back (R216, R245). (DEDUCED, log entry 33) -/
def State.rtHalfThen (s : State) (j : SaJob) (a : Nat) : Option Nat :=
  let slot := bits (s.rd32 a) 23 16
  if 7 < slot then none
  else s.slotHalf slot (if (s.fld SA_SWAP_STAT.PEND).testBit slot && !j.before slot then 2 else 3)

/-- The time of a whole job that waits (R214, R223). -/
def State.jobCycles (s : State) (j : SaJob) (g iters : Nat) : Nat :=
  64 + s.rtCycles (s.rtAddrs j) (s.rtHalfThen j) + s.restCycles j 0 g iters

/-- The cycles left to a job's deadline (R228). -/
def State.cyclesLeft (s : State) (j : SaJob) : Nat := (j.accept + j.deadline - s.le.tick) * s.saPerTick

/-- The problems of the wave in flight. -/
def State.waveOf (s : State) (j : SaJob) : List Nat := (s.problemsFrom j j.next).take j.per

/-- The bound of the running job (R228): of its wave in flight, or of all that remains; `at_` is how far it came. -/
def State.runBound (s : State) (j : SaJob) (g : Nat) (whole : Bool) (at_ : Nat) : Nat :=
  let c := s.canvas j.half
  let ps := s.waveOf j
  let (w, _, o) := s.waveCycles j ps j.maxIt
  let rest := if whole then
      Sa.cdiv ((s.problemsFrom j (j.next + ps.length)).length) (perWave c.n g)
        * (s.waveCycles j (s.problemsFrom j j.next) j.maxIt).1
    else 0
  min (j.head + w + rest + Sa.cdiv o (loadRate c.n) - at_) (s.cyclesLeft j)

/-- What a job accepted now would wait for (R228); `at_` is how far the running job came since its last boundary. -/
def State.saWait (s : State) (prio g at_ : Nat) : Nat :=
  let run := match s.sa.run with
    | none => 0
    | some r => s.runBound r g (decide (0 < prio) || r.prio == 0) at_
  let pre := match s.sa.pre with
    | none => 0
    | some r => if prio = 0 then 0 else min (s.restCycles r r.next g r.maxIt) (s.cyclesLeft r)
  run + pre + ((s.sa.queue.filter fun q => decide (q.prio ≤ prio)).map fun q =>
    min (s.jobCycles q g q.maxIt) (s.cyclesLeft q)).sum

/-- The estimated completion and the estimated start with `g` groups in service, in ticks from acceptance; none with no
group (R228). -/
def State.saEstimate (s : State) (j : SaJob) (g at_ : Nat) : Option (Nat × Nat) :=
  if g = 0 then none else
  let wait := s.saWait j.prio g at_
  let per := s.saPerTick
  some (Sa.cdiv (max (j.release * per) wait + s.jobCycles j g j.minIt) per, max j.release (Sa.cdiv wait per))

/-- The same, or within plug store. (DEDUCED, log entry 34) -/
def inRamsOrPlug (a n : Nat) : Bool :=
  inRams a n || (a % 4 == 0 && decide (0x33000000 ≤ a) && decide (a + n ≤ 0x33080000))

/-- The operation is permitted for the canvas kind (R202). -/
def opPermitted (kind op : Nat) : Bool :=
  if kind = 0 then decide (1 ≤ op) && decide (op ≤ 7) else [1, 2, 4, 5, 7, 8].contains op

/-- The parameters of QP_ADMM lie in their ranges (R226). -/
def SaJob.qpRange (j : SaJob) : Bool :=
  let rawMax := bits (j.w 9) 12 0
  let rawMin := bits (j.w 9) 28 16
  (rawMax == 0x1FFF || (decide (1 ≤ rawMax) && decide (rawMax ≤ 4096)))
    && (rawMin == 0x1FFF || decide (rawMin ≤ j.maxIt)) && decide (1 ≤ j.check)
    && fisFin b32 (j.w 11) && fle b32 0 (j.w 11) && fisFin b32 (j.w 12) && fle b32 0 (j.w 12)
    && flt b32 0 (j.w 13) && flt b32 (j.w 13) 0x40000000

/-- Checks 1 to 6 of R227 on a job whose canvas, if there is one, is `c`. Without one, a check that needs its COUNT, kind or order
is made on what the descriptor alone says: an explicit COUNT, one row per problem. (DEDUCED, log entry 34) -/
def State.submitCheck (s : State) (j : SaJob) (c : Option Canvas) : Nat :=
  let count := match c with
    | some c => j.countOn c
    | none => if j.rawCount = 0xFFFF then 1 else j.rawCount
  let qp := j.op == 8
  let qpFields := j.refactor || j.warm || j.pbZ || [9, 10, 11, 12, 13].any fun i => j.w i != 0
  let reserved := [bits (j.w 0) 11 11, bits (j.w 0) 31 19, bits (j.w 5) 31 4, bits (j.w 9) 31 29, bits (j.w 9) 15 13,
    bits (j.w 10) 31 8, j.w 14, j.w 15].any (· != 0)
  if j.op < 1 ∨ 8 < j.op ∨ reserved ∨ j.dst = 3 ∨ (j.fk ≠ 0 ∧ j.op ≠ 6 ∧ j.op ≠ 8) ∨ (qpFields ∧ !qp) then Code.format
  else if 8 < j.nrt ∨ count < 1 ∨ (c.any fun c => decide (c.count < j.first + count)) then Code.length
  else if (c.any fun c => !opPermitted c.kind j.op) ∨ (j.op = 6 ∧ 2 < j.fk) ∨ (qp ∧ 1 < j.fk) ∨ (j.op = 7 ∧ j.dst ≠ 1)
      ∨ (j.dst = 2 ∧ j.op ≠ 6 ∧ j.op ≠ 8)
      ∨ (j.dst = 2 ∧ (j.pbProb < j.first ∨ ((c.isSome ∨ j.rawCount ≠ 0xFFFF) ∧ j.first + count ≤ j.pbProb)))
      ∨ j.deadline < 1 ∨ j.deadline ≤ j.release ∨ (qp ∧ !j.qpRange) then Code.range
  else if !inRams j.cmplAddr 32
      ∨ (j.dst = 1 ∧ (j.op = 7 ∨ qp)
          ∧ !inRams j.dstAddr (4 * (c.elim 1 fun c => if c.kind = 1 then c.m else c.n) * count))
      ∨ (j.nrt ≠ 0 ∧ (!inRams (j.w 6) (4 * j.nrt)
          ∨ (s.rtAddrs j).any fun a => !inRamsOrPlug a (max 16 (min 131072 (s.rd32 (a + 8)))))) then Code.range
  else if c.isNone ∨ s.inHoldup ∨ !s.flag SA_CTL.EN ∨ (j.dst = 2 ∧ !s.flag LE_PB_CFG.EN) then Code.refusedState
  else if 32 ≤ s.fld SA_STAT.QUEUED then Code.refusedCapacity
  else Code.ok

/-- What checking a descriptor answers: the code, and the job with its estimate where it is accepted.
(DEDUCED, log entry 34) -/
def State.submitOutcome (s : State) (prio : Nat) (addr at_ : Nat) : Nat × Nat × Option (SaJob × Nat) :=
  if addr % 8 ≠ 0 ∨ !inRams addr 64 then (Code.range, 0, none) else
  let j : SaJob := { id := s.sa.accepted, prio := prio, desc := s.words addr 16, accept := s.le.tick }
  let pend := (s.fld SA_SWAP_STAT.PEND).testBit j.slot
  let half := s.slotHalf j.slot (if pend then 2 else 3)
  let code := s.submitCheck j (half.map s.canvas)
  let j := { j with half := half.getD 0, wait := pend }
  if code ≠ Code.ok then (code, j.tag, none) else
  let meets (e : Option (Nat × Nat)) : Bool := e.any fun e => decide (e.1 ≤ j.deadline)
  let e := s.saEstimate j s.saGroups at_
  if meets e then (Code.ok, j.tag, some ({ j with est := (e.getD (0, 0)).2 }, (e.getD (0, 0)).1))
  else
    let back := ((List.range 8).filter fun g => (s.fld SA_GROUP.BIST).testBit g && !(s.fld SA_GROUP.INSERV).testBit g).length
    if 0 < back ∧ meets (s.saEstimate j (s.saGroups + back) at_) then (Code.refusedSelftest, j.tag, none)
    else (Code.refusedCapacity, j.tag, none)

/-- The packet of an enabled PT output lies at an address (R258). -/
def State.isPtPacket (s : State) (a : Nat) : Bool := (List.range 8).any fun o => s.ptOutOn o && a == 0x3307F000 + 0x200 * o

/-- A job that solves this round's QP, as R277 has it submitted: its deadline ends at or before SOLVE_END, its first packet is the
price packet, and at a SUBSTATION with an output its second that of a PT output (R276). (DESIGN CHOICE, log entry 38) -/
def State.isRoundJob (s : State) (w : List Nat) : Bool :=
  let j : SaJob := { id := 0, prio := 0, desc := w, accept := 0 }
  s.rnd.price.isSome && s.rnd.job.isNone && j.op == 8 && j.warm && j.dst == 2 && j.pbZ && j.pbProb == 0
    && decide ((s.sinceRound + j.deadline * (2 ^ 72 / 100)) * 64 ≤ s.fld SYS_RND_CFG.SOLVE_END * s.roundMs * 2 ^ 72)
    && j.nrt != 0 && s.words (s.rd32 (j.w 6)) s.rnd.prices.length == s.rnd.prices
    && (s.fld SYS_ROLE.ROLE != 0 || !(List.range 8).any s.ptOutOn || (decide (1 < j.nrt) && s.isPtPacket (s.rd32 (j.w 6 + 4))))

/-- The round's job noted, or the code it was refused with (R277, R278). -/
def State.noteRoundJob (s : State) (addr : Nat) (code id : Nat) : State :=
  if !s.isRoundJob (s.words addr 16) then s
  else if code = Code.ok then s.setRnd { s.rnd with job := some id, refused := none }
  else s.setRnd { s.rnd with refused := some code }

/-- A write of SA_SUBMIT(p); `busy` says that the check of an earlier submission was in progress (R225). -/
def State.submit (s : State) (prio addr : Nat) (busy : Bool) (at_ : Nat) : State :=
  if busy then s.setFlag SA_SUB_STAT.IGNORED true else
  let (code, tag, job) := s.submitOutcome prio addr at_
  let s := ((s.setFld SA_SUB_STAT.TAG tag).setFld SA_SUB_STAT.CODE code).noteRoundJob addr code s.sa.accepted
  match job with
  | none => s
  | some (j, e) =>
    let s := s.setReg SA_EST (BitVec.ofNat 32 e)
    (s.setSa { s.sa with queue := s.sa.queue ++ [j], accepted := s.sa.accepted + 1 }).saShow

/-- What the end of a problem writes: its status, the factor, flags to add to FFLAGS, whether its factorisation failed, x, y,
the destination, how QP_ADMM went (R207, R211, R235, R236), and whether the deadline stopped it unfinished (R232, R242). -/
structure SaRes where
  status : Nat
  factor : Option Sa.Factor := none
  fflags : Nat := 0
  failed : Bool := false
  x : Option Sa.Vec := none
  y : Option Sa.Vec := none
  out : Option Sa.Vec := none
  run : Option Sa.QpRun := none
  cut : Bool := false
  deriving DecidableEq, Repr

/-- An array of a problem as a vector, by its place in R195. -/
def State.saVec (s : State) (i p k : Nat) : Sa.Vec :=
  let c := s.canvas i
  let (off, size) := arrayAt c.kind c.n c.m k
  s.words (s.problemAt i p + 64 + 4 * off) size

/-- Rows of `c` words. -/
def rowsOf (c : Nat) : Nat → List Nat → List (List Nat)
  | 0, _ => []
  | r + 1, l => l.take c :: rowsOf c r (l.drop c)

/-- A matrix of a problem. -/
def State.saMat (s : State) (i p k : Nat) : Sa.Mat :=
  let c := s.canvas i
  if c.kind = 1 ∧ k = 2 then rowsOf c.n c.m (s.saVec i p k) else rowsOf c.n c.n (s.saVec i p k)

/-- The factor a problem holds, where it may be used (R209). (DEDUCED, log entry 32) -/
def State.heldFactor (s : State) (i p : Nat) : Option Sa.Factor :=
  let c := s.canvas i
  let h := s.rd32 (s.problemAt i p + 4)
  if bits h 2 2 = 0 ∨ h % 4 = 0 ∨ (c.kind = 0 ∧ bits h 3 3 = 0) then none
  else some { kind := h % 4, lu := s.saMat i p (if c.kind = 1 then 1 else 0),
              d := s.saVec i p (if c.kind = 1 then 5 else 3), p := if c.kind = 1 then [] else s.saVec i p 4,
              flags := if bits h 15 8 = Code.doneRegularised then 1 else 0 }

/-- A factorisation of a problem (R203 to R208). (DEDUCED, log entry 32) -/
def State.saFactorise (s : State) (i p kind : Nat) : Option Sa.Factor :=
  let c := s.canvas i
  let a := s.problemAt i p
  let tau := bits (s.rd32 (a + 0x14)) 5 0
  if c.kind = 1 then
    let k := Sa.formK c.n (s.saMat i p 0) (s.saMat i p 2) (s.rd32 (a + 0x0C)) (s.rd32 (a + 0x10))
    if Sa.finM k then Sa.factorise kind c.n tau k else none
  else Sa.factorise kind c.n tau (s.saMat i p 0)

/-- A problem that met a value that is not finite (R211). -/
def saOverflow (failed : Bool) (x : Option Sa.Vec) : SaRes :=
  { status := Code.invalid, fflags := 4, failed := failed, x := x }

/-- CHOL, LDLT or LU of a problem. (DEDUCED, log entry 32) -/
def State.saFactorRes (s : State) (j : SaJob) (p : Nat) : SaRes :=
  match s.saFactorise j.half p j.op with
  | none => saOverflow true none
  | some f => { status := f.status, factor := some f }

/-- TRSV_F or TRSV_B of a problem (R209). -/
def State.saTrsvRes (s : State) (j : SaJob) (p : Nat) : SaRes :=
  let c := s.canvas j.half
  let zero := List.replicate c.n 0
  match s.heldFactor j.half p with
  | none => { status := Code.invalid, x := some zero }
  | some f =>
    if j.op = 4 ∧ !Sa.permOk c.n f then { status := Code.invalid, x := some zero }
    else
      let x := if j.op = 4 then Sa.trsvF c.n f (s.saVec j.half p (if c.kind = 1 then 3 else 1))
        else Sa.trsvB c.n f (s.saVec j.half p (if c.kind = 1 then 4 else 2))
      if Sa.fin x then { status := Code.ok, x := some x } else saOverflow false (some zero)

/-- SOLVE of a problem (R209). -/
def State.saSolveRes (s : State) (j : SaJob) (p : Nat) : SaRes :=
  let c := s.canvas j.half
  let zero := List.replicate c.n 0
  match s.saFactorise j.half p (j.fk + 1) with
  | none => saOverflow true (some zero)
  | some f =>
    let y := Sa.trsvF c.n f (s.saVec j.half p 1)
    let x := Sa.trsvB c.n f y
    if Sa.fin y && Sa.fin x then { status := f.status, factor := some f, x := some x }
    else saOverflow false (some zero)

/-- GEMV of a problem (R210). -/
def State.saGemvRes (s : State) (j : SaJob) (p : Nat) : SaRes :=
  let c := s.canvas j.half
  let zero := List.replicate (if c.kind = 1 then c.m else c.n) 0
  if c.kind = 0 ∧ bits (s.rd32 (s.problemAt j.half p + 4)) 3 3 = 1 then { status := Code.invalid, out := some zero }
  else
    let y := if c.kind = 1 then Sa.gemv (s.saMat j.half p 2) (s.saVec j.half p 4)
      else Sa.gemv (s.saMat j.half p 0) (s.saVec j.half p 1)
    if Sa.fin y then { status := Code.ok, out := some y } else { saOverflow false none with out := some zero }

/-- QP_ADMM of a problem up to `budget` iterations, none where a deadline came before iterate 0 (R234 to R236). -/
def State.saQpRes (s : State) (j : SaJob) (p : Nat) (budget : Option Nat) (cut : Bool) : SaRes :=
  let i := j.half
  let c := s.canvas i
  let a := s.problemAt i p
  let zx := List.replicate c.n 0
  let zy := List.replicate c.m 0
  let refactor := j.refactor || !s.fvalid i p
  let fresh := if refactor then s.saFactorise i p (j.fk + 1) else none
  let f := if refactor then fresh
    else if bits (s.rd32 (a + 4)) 15 8 = Code.invalid then none else s.heldFactor i p
  match f.filter (Sa.permOk c.n) with
  | none => { saOverflow (refactor && fresh.isNone) (some zx) with
      y := some zy, out := some zy, run := some { stop := Sa.stopNonfinite } }
  | some f =>
    let q : Sa.Qp :=
      { n := c.n, p := s.saMat i p 0, q := s.saVec i p 3, a := s.saMat i p 2, l := s.saVec i p 7, u := s.saVec i p 8
        rho := s.rd32 (a + 0x0C), sigma := s.rd32 (a + 0x10)
        x0 := if j.warm then s.saVec i p 4 else zx, y0 := if j.warm then s.saVec i p 9 else zy
        alpha := j.w 13, epsAbs := j.w 11, epsRel := j.w 12, check := j.check, maxIt := j.maxIt }
    let r := Sa.qpAdmm q f budget cut
    if r.stop = Sa.stopNonfinite then
      { saOverflow false (some zx) with y := some zy, out := some zy, run := some r }
    else if r.stop = Sa.stopBounds then { status := Code.invalid, x := some zx, y := some zy, run := some r }
    else if r.stop = Sa.stopNotRun then { status := Code.stale, run := some r }
    else { status := if r.stop = Sa.stopConverged then f.status else Code.sketch
           factor := if refactor && r.stop == Sa.stopConverged then some f else none
           x := some r.x, y := some r.y, out := some r.z, run := some r }

/-- One problem of a job carried to its end. -/
def State.saProblem (s : State) (j : SaJob) (p : Nat) : SaRes :=
  match j.op with
  | 4 => s.saTrsvRes j p
  | 5 => s.saTrsvRes j p
  | 6 => s.saSolveRes j p
  | 7 => s.saGemvRes j p
  | 8 => s.saQpRes j p (some j.maxIt) false
  | _ => s.saFactorRes j p

/-- A problem that ends STALE (R232). -/
def saStale (j : SaJob) : SaRes :=
  { status := Code.stale, run := if j.op = 8 then some { stop := Sa.stopNotRun } else none, cut := true }

/-- A problem in which an uncorrectable ECC error was found (R212): its SEQUENCER words tell of the iterations and the checks
completed before it (R239). -/
def State.saEccRes (s : State) (j : SaJob) (e : EccFind) : SaRes :=
  let c := s.canvas j.half
  let zx := List.replicate c.n 0
  let zy := List.replicate c.m 0
  { status := Code.invalid, fflags := 8, failed := j.op ≤ 3 || j.op == 6
    x := if j.op = 4 ∨ j.op = 5 ∨ j.op = 6 ∨ j.op = 8 then some zx else none
    y := if j.op = 8 then some zy else none
    out := if j.op = 7 then some (if c.kind = 1 then zy else zx) else if j.op = 8 then some zy else none
    run := if j.op = 8 then (s.saQpRes j e.prob e.iters e.inCheck).run.map fun r => { r with stop := Sa.stopNonfinite }
      else none }

/-- The factor words of a problem written (R207). -/
def State.saPutFactor (s : State) (j : SaJob) (p : Nat) (f : Sa.Factor) : State :=
  let c := s.canvas j.half
  let a := s.problemAt j.half p
  let at_ (k : Nat) := a + 64 + 4 * (arrayAt c.kind c.n c.m k).1
  let s := s.wrWords (at_ (if c.kind = 1 then 1 else 0)) f.lu.flatten
  let s := s.wrWords (at_ (if c.kind = 1 then 5 else 3)) f.d
  let s := if f.kind = 3 then s.wrWords (at_ 4) f.p else s
  let s := s.wr32 (a + 4) (f.kind + 4 + (if c.kind = 0 then 8 else 0) + 256 * f.status + 65536 * f.flags + 2 ^ 24 * f.firstCol)
  (s.wr32 (a + 8) f.scale).wr32 (a + 0x18) c.gen

/-- An optional write. -/
def State.wrOpt (s : State) (a : Nat) (v : Option (List Nat)) : State :=
  match v with
  | none => s
  | some l => s.wrWords a l

/-- The results of a problem written within one SEQ update (R197, R233, R239), and its destination (R226, R243). -/
def State.saCommit (s : State) (j : SaJob) (p : Nat) (r : SaRes) : State :=
  let c := s.canvas j.half
  let a := s.problemAt j.half p
  let at_ (k : Nat) := a + 64 + 4 * (arrayAt c.kind c.n c.m k).1
  let s := s.bumpSeq a
  let s := match r.factor with
    | none => s
    | some f => s.saPutFactor j p f
  let s := if r.failed then s.wr8 (a + 5) (BitVec.ofNat 8 Code.invalid) else s
  let s := if r.fflags = 0 then s else s.wr8 (a + 6) (s.rd8 (a + 6) ||| BitVec.ofNat 8 r.fflags)
  let s := s.wrOpt (at_ (if c.kind = 1 then 4 else 2)) r.x
  let s := s.wrOpt (at_ 9) r.y
  let s := match r.run with
    | none => s
    | some q => s.wrWords (a + 0x20) [q.it + 65536 * q.stop, q.rprim, q.rdual, q.checkIt, j.tag, 0, 0, 0]
  let s := s.wr16 (a + 0x1C) (r.status + 256 * j.op)
  let s := s.bumpSeq a
  match r.out with
  | none => s
  | some v =>
    let d := j.dstAddr + 4 * v.length * (p - j.first)
    if j.dst ≠ 1 ∨ (s.cp.cprst ∧ d < 0x20300000) then s else s.wrWords d v

/-- A problem ended: written, noted in the job, its z kept for the plan bridge (R244). -/
def State.saEndProblem (s : State) (j : SaJob) (p : Nat) (r : SaRes) : State × SaJob :=
  let kept := r.status = Code.ok ∨ r.status = Code.doneRegularised ∨ r.status = Code.sketch
  (s.saCommit j p r,
    { j with
      done := j.done ++ [(r.status, (r.run.map (·.it)).getD 0)]
      z := if j.dst = 2 ∧ j.pbZ ∧ p = j.pbProb ∧ kept then r.out else j.z })

/-- Several problems ended, in index order. -/
def State.saEndAll (s : State) (j : SaJob) (res : State → Nat → SaRes) : List Nat → State × SaJob
  | [] => (s, j)
  | p :: t =>
    let (s', j') := s.saEndProblem j p (res s p)
    s'.saEndAll j' res t

/-- The job status of R233; `special` is a refusal or SKIPPED. -/
def SaJob.status (j : SaJob) (special : Option Nat) : Nat :=
  let l := j.done.map (·.1)
  match special with
  | some c => c
  | none =>
    if l.contains Code.stale then Code.stale
    else if l.contains Code.sketch then Code.sketch
    else if l.all (· == Code.invalid) then Code.invalid
    else if j.late then Code.delayed
    else if l.contains Code.doneRegularised then Code.doneRegularised
    else Code.ok

/-- The completion record (R242); `stopped` says that the deadline stopped the job. (DEDUCED, log entry 35) -/
def SaJob.record (j : SaJob) (special : Option Nat) (stopped : Bool) (now : Nat) : List Nat :=
  let l := j.done.map (·.1)
  let n (c : Nat) := (l.filter (· == c)).length
  let bad := (l.findIdx? (· != Code.ok)).map (j.first + ·)
  let sk := (j.done.filter fun d => d.1 == Code.sketch).map (·.2)
  [j.status special + 256 * j.op + 65536 * j.tag,
   n Code.ok + n Code.doneRegularised + 65536 * n Code.doneRegularised,
   n Code.sketch + 65536 * n Code.stale,
   n Code.invalid + 65536 * bad.getD 0xFFFF,
   j.accept % 2 ^ 32, (j.start.getD j.accept) % 2 ^ 32, now % 2 ^ 32,
   sk.foldl min (sk.headD 0) + 65536 * min 255 j.preempts + 2 ^ 24 * b2n j.late + 2 ^ 25 * b2n stopped + 2 ^ 26 * b2n j.reduced]

/-- The status a job offers: LAST_STATUS of PB_PROB at the offer, OK as DELAYED where the job started late (R244). -/
def State.offeredStatus (s : State) (j : SaJob) : Nat :=
  let st := s.rd8 (s.problemAt j.half j.pbProb + 0x1C) |>.toNat
  if st = Code.ok ∧ j.late then Code.delayed else st

/-- A job's vector and status offered to the plan bridge (R244). (DEDUCED, log entry 35) -/
def State.saOffer (s : State) (j : SaJob) : State :=
  let c := s.canvas j.half
  let v := if j.pbZ then j.z.getD (List.replicate c.m 0) else s.saVec j.half j.pbProb (if c.kind = 1 then 4 else 2)
  s.pbOffer v (s.offeredStatus j)

/-- A job ended: its record written, words 1 to 7 first, dropped where CP SRAM is in reset, counted and signalled; its plan
offered (R242 to R244). (DEDUCED, log entry 35) -/
def State.saFinish (s : State) (j : SaJob) (special : Option Nat) (stopped : Bool) : State :=
  let rec_ := j.record special stopped s.le.tick
  let s := if s.cp.cprst ∧ j.cmplAddr < 0x20300000 then s
    else (s.wrWords (j.cmplAddr + 4) (rec_.drop 1)).wr32 j.cmplAddr (rec_.headD 0)
  let s := s.countWrap (SA_DONE_CNT.COUNT j.prio)
  let s := forN (fun i s => s.setReg (SA_LAST i) (BitVec.ofNat 32 (rec_.getD i 0))) 8 s
  let s := s.setBit SA_EVT.DONE j.prio true
  let s := if j.dst = 2 ∧ special.isNone then s.saOffer j else s
  s.roundJobEnd j.id (special.getD (s.offeredStatus j)) ((j.done.map (·.2)).headD 0) j.z

/-- Canvas slots that a job's packets name, as they stand (R222). -/
def State.rtSlots (s : State) (j : SaJob) : List Nat := (s.rtAddrs j).map fun a => bits (s.rd32 a) 23 16

/-- The job may start: released, not waiting for a swap, not held back by R222. -/
def State.saEligible (s : State) (j : SaJob) : Bool :=
  decide (j.accept + j.release ≤ s.le.tick) && (!j.wait || j.dead)
    && !(s.sa.run.toList ++ s.sa.pre.toList).any fun r => (s.rtSlots j).contains r.slot

/-- The oldest eligible job of priority `p`. -/
def State.saOldest (s : State) (p : Nat) : Option SaJob := s.sa.queue.find? fun j => j.prio == p && s.saEligible j

/-- The lanes of the next wave (R191). -/
def State.saNextWave (s : State) (j : SaJob) : SaJob := { j with per := perWave (s.canvas j.half).n s.saGroups }

/-- A wave of the job ran with the groups in service (R247). -/
def State.saRan (s : State) (j : SaJob) : SaJob := { j with reduced := j.reduced || decide (s.saGroups < 8) }

/-- A job taken from the queue starts: set-up and retouches, or its refusal (R219, R231, R245). -/
def State.saBegin (s : State) (j : SaJob) : State :=
  let s := s.setSa { s.sa with queue := s.sa.queue.filter (·.id != j.id) }
  let j := { j with start := some s.le.tick, late := decide (j.accept + j.est < s.le.tick) }
  if j.dead then (s.saFinish { j with late := false } (some Code.refusedState) false).saShow else
  let addrs := s.rtAddrs j
  let pks := addrs.map s.rtPacket
  let code := rtCode pks
  if code ≠ Code.ok then (s.saFinish j (some code) false).saShow
  else
    let cyc := s.rtCycles addrs s.rtHalf
    let s := pks.foldl (fun s p => match p with
      | .good i l => s.rtApply i l
      | .bad _ _ => s) s
    let c := s.canvas j.half
    let (_, i, _) := s.waveCycles j [j.first] 0
    let j := s.saNextWave { j with head := 64 + cyc + Sa.cdiv i (loadRate c.n) }
    (s.setSa { s.sa with run := some j }).saShow

/-- The pre-empted job resumes with the load of its next wave (R230, R241). -/
def State.saResume (s : State) (j : SaJob) : State :=
  let c := s.canvas j.half
  let (_, i, _) := s.waveCycles j [j.first] 0
  let j := s.saNextWave { j with head := Sa.cdiv i (loadRate c.n) }
  (s.setSa { s.sa with run := some j, pre := none }).saShow

/-- The next job is chosen (R230). -/
def State.saChoose (s : State) : State :=
  if s.sa.run.isSome ∨ !s.saClock then s else
  match s.saOldest 0 with
  | some j => s.saBegin j
  | none =>
    match s.sa.pre with
    | some j => s.saResume j
    | none =>
      match (s.saOldest 1).orElse fun _ => (s.saOldest 2).orElse fun _ => s.saOldest 3 with
      | some j => s.saBegin j
      | none => s

/-- What one problem ends with where ECC errors were found in the words read for it (R212), else `r`. -/
def State.saEccOr (s : State) (j : SaJob) (bad : List EccFind) (p : Nat) (r : SaRes) : SaRes :=
  match bad.find? (·.prob == p) with
  | some e => s.saEccRes j e
  | none => r

/-- A wave ends: its problems end, then the job ends, is pre-empted or goes on (R191, R230). `bad` holds the uncorrectable errors,
`corrected` is the number of corrected errors (R212). -/
def State.saWaveEnd (s : State) (bad : List EccFind) (corrected : Nat) : State :=
  match s.sa.run with
  | none => s
  | some j =>
    if !s.saClock then s else
    let ps := s.waveOf j
    let s := s.canvasErrors (bad.filter (ps.contains ·.prob)).length corrected
    let (s, j) := s.saEndAll (s.saRan j) (fun s p => s.saEccOr j bad p (s.saProblem j p)) ps
    let j := { j with next := j.next + ps.length, head := 0 }
    let s := s.saBoundary
    if (s.problemsFrom j j.next).isEmpty then
      ((s.setSa { s.sa with run := none }).saFinish j none false).saShow
    else
      let t := s.setSa { s.sa with run := some j }
      if 0 < j.prio ∧ s.sa.pre.isNone ∧ (t.saOldest 0).isSome then
        (s.setSa { s.sa with run := none, pre := some { j with preempts := j.preempts + 1, late := true } }).saShow
      else (s.setSa { s.sa with run := some (s.saNextWave j) }).saShow

/-- How far QP_ADMM came when `t` cycles of a wave have run: iterations complete, none before iterate 0, and whether a
residual check was under way (R241). -/
def qpProgress (ck c0 cIt cChk check maxIt t : Nat) : Option Nat × Bool :=
  if t < ck + c0 then (none, false) else
  let u := t - ck - c0
  let period := check * cIt + cChk
  let q := u / period
  let it := q * check + min check (u % period / cIt)
  if maxIt ≤ it then (some maxIt, decide (maxIt % check = 0) && decide (u < maxIt * cIt + maxIt / check * cChk))
  else (some it, decide (0 < it) && it % check == 0 && decide (check ≤ u % period / cIt))

/-- The result of one problem of the wave in flight at a deadline, `t` cycles into the wave's computing (R232). -/
def State.saCutRes (s : State) (j : SaJob) (ps : List Nat) (t p : Nat) : SaRes :=
  let c := s.canvas j.half
  let lanes := lanesOf c.n
  let kind := s.kindOf j p
  if j.op ≠ 8 then
    if Sa.cycles j.op (c.kind == 1) c.n c.m lanes kind 0 0 1 ≤ t then s.saProblem j p else saStale j
  else
    let ck := s.waveK j ps
    if t < ck then saStale j
    else
      let (b, cut) := qpProgress ck (Sa.c0 c.n c.m lanes) (Sa.cIt kind c.n c.m lanes) (Sa.cChk c.n c.m lanes) j.check j.maxIt t
      let r := s.saQpRes j p b cut
      { r with cut := r.run.any fun q => q.stop == Sa.stopDeadline || q.stop == Sa.stopNotRun || (q.stop == Sa.stopLimit && cut) }

/-- The running job stopped at its deadline, at `w` (R232): each corrected error took 2 of the wave's cycles (R212). The record's
DEADLINE says whether work was unfinished (R242). (DEDUCED, log entry 35) -/
def State.saStop (s : State) (j : SaJob) (w : WaveCut) : State :=
  let s := s.setSa { s.sa with run := none }
  let ps := s.waveOf j
  let at_ := w.cycles - 2 * w.corrected
  let cutRes (s : State) (p : Nat) : SaRes :=
    s.saEccOr j w.bad p (if at_ < j.head then saStale j else s.saCutRes j ps (at_ - j.head) p)
  let s := s.canvasErrors (w.bad.filter (ps.contains ·.prob)).length w.corrected
  let base := s
  let j := if at_ < j.head then j else s.saRan j
  let (s, j') := s.saEndAll j (fun _ p => cutRes base p) ps
  let rest := s.problemsFrom j (j.next + ps.length)
  let (s, j'') := s.saEndAll j' (fun _ _ => saStale j) rest
  (s.saBoundary.saFinish j'' none (!rest.isEmpty || ps.any fun p => (cutRes base p).cut)).saShow

/-- The deadline of one job (R232). -/
def State.saDeadlineOf (s : State) (j : SaJob) (w : WaveCut) : State :=
  if s.sa.run.any (·.id == j.id) then s.saStop j w
  else if s.sa.pre.any (·.id == j.id) then
    let s := s.setSa { s.sa with pre := none }
    let (s, j') := s.saEndAll j (fun _ _ => saStale j) (s.problemsFrom j j.next)
    (s.saFinish j' none true).saShow
  else
    let s := s.setSa { s.sa with queue := s.sa.queue.filter (·.id != j.id) }
    (s.saFinish j (some Code.skipped) true).saShow

/-- A job put before the first job accepted after it. -/
def insertById (j : SaJob) : List SaJob → List SaJob
  | [] => [j]
  | k :: t => if j.id < k.id then j :: k :: t else k :: insertById j t

/-- The jobs whose deadline has come, in order of acceptance (R246). -/
def State.saDue (s : State) : List SaJob :=
  ((s.sa.run.toList ++ s.sa.pre.toList ++ s.sa.queue).filter fun j =>
    decide (j.accept + j.deadline ≤ s.le.tick)).foldl (fun l j => insertById j l) []

/-- Every deadline that has come is applied, unless the SA clock stands (R232, R246). -/
def State.saDeadlines (s : State) (w : WaveCut) : State :=
  if !s.saClock then s.saShow else s.saDue.foldl (fun s j => s.saDeadlineOf j w) s

/-- A swap takes effect (R245): the jobs that waited for it may start. -/
def State.saSwapTake (s : State) (slot : Nat) : State :=
  let s := s.canvasSwap slot
  let s := (s.setBit SA_SWAP_STAT.PEND slot false).setBit SA_SWAP_STAT.DONE slot true
  s.setSa { s.sa with queue := s.sa.queue.map fun j => if j.slot = slot ∧ !j.dead then { j with wait := false } else j }

/-- A swap request that acts (R245): at once where the slot has no ACTIVE half. -/
def State.saSwapAct (s : State) (slot : Nat) : State :=
  if (s.slotHalf slot 2).isNone ∨ (s.fld SA_SWAP_STAT.PEND).testBit slot then s.setFld SA_SWAP_STAT.CODE Code.refusedState
  else if (s.slotHalf slot 3).isNone then s.saSwapTake slot
  else s.setBit SA_SWAP_STAT.PEND slot true

/-- A write of SA_SWAP (R245, R512). -/
def State.saSwapWrite (s : State) (v : Word) : State :=
  let slot := SA_SWAP.SLOT.of v
  if SA_SWAP.GO.of v ≠ 1 then s
  else if (s.slotHalf slot 2).isNone ∨ (s.fld SA_SWAP_STAT.PEND).testBit slot then
    s.setFld SA_SWAP_STAT.CODE Code.refusedState
  else (s.setFld SA_SWAP_STAT.CODE Code.ok).request (.sa v) fun s => s.saSwapAct slot

/-- The pending swap of a slot takes effect once no earlier job remains on it (R245). -/
def State.saSwapNow (s : State) (slot : Nat) : State :=
  let jobs := s.sa.run.toList ++ s.sa.pre.toList ++ s.sa.queue
  if !(s.fld SA_SWAP_STAT.PEND).testBit slot ∨ jobs.any (·.before slot) then s else s.saSwapTake slot

/-- A cancelled READY half withdraws its pending swap (R245). -/
def State.saWithdraw (s : State) (slot : Nat) : State :=
  if !(s.fld SA_SWAP_STAT.PEND).testBit slot then s
  else
    (s.setBit SA_SWAP_STAT.PEND slot false).setSa
      { s.sa with queue := s.sa.queue.map fun j => if j.slot = slot ∧ j.wait then { j with dead := true } else j }

/-- The cancelling of a load: a 32-bit write with STATE 0 to a READY entry (R199). -/
def State.canvasCancel (s : State) (i : Nat) : State := (s.setCanvasState i 0).saWithdraw (i / 2)

/-- A 32-bit write with STATE 2 to a LOADING entry: its other fields are written, then the checks run (R199, R200). -/
def State.canvasRequest (s : State) (i : Nat) (v : Nat) : State :=
  ((s.wr32 (dirAt i) (v - v % 8 + 1)).readyEnd i)

/-- Any CP write of `n` bytes within one word of the canvas store (R199). -/
def State.canvasCpWrite (s : State) (off n v : Nat) : State :=
  let i := (off - 0x40) / 64
  let head := decide (0x40 ≤ off) && decide (off < 0x440) && (off - 0x40) % 64 == 0 && n == 4
  if head ∧ (s.canvas i).state = 2 ∧ v % 8 = 0 then s.canvasCancel i
  else if head ∧ (s.canvas i).state = 1 ∧ v % 8 = 2 then s.canvasRequest i v
  else s.canvasWrite off n v

/-- CANVAS_READY_REQUEST (R200). -/
def execCanvasReadyRequest (entry : Fin 16) (v : Word) (s : State) : Out :=
  s.cpDoes fun s => if (s.canvas entry).state = 1 ∧ v.toNat % 8 = 2 then s.canvasRequest entry v.toNat else s

/-- CANVAS_LOAD_CANCEL (R199, R245). -/
def execCanvasLoadCancel (entry : Fin 16) (v : Word) (s : State) : Out :=
  s.cpDoes fun s => if (s.canvas entry).state = 2 ∧ v.toNat % 8 = 0 then s.canvasCancel entry else s

/-- CANVAS_STORE_WRITE: a CP write of 1, 2 or 4 bytes at an offset of the store (R199, R201). -/
def execCanvasStoreWrite (off : BitVec 21) (size : Fin 3) (v : Word) (s : State) : Out :=
  s.cpAccess (BitVec.ofNat 32 (0x30000000 + off.toNat)) .write size fun s => s.canvasCpWrite off.toNat (2 ^ size.val) v.toNat

/-- JOB_SUBMIT (R225 to R229); `cycles` is how far the running job came since its last boundary.
(DESIGN CHOICE, log entry 29) -/
def execJobSubmit (prio : Fin 4) (v : Word) (busy : Bool) (cycles : Nat) (s : State) : Out :=
  s.cpDoes fun s => s.submit prio v.toNat busy cycles

/-- JOB_START (R230, R231). -/
def execJobStart (s : State) : Out := State.out s.saChoose

/-- WAVE_END (R191); `bad` holds the uncorrectable errors (R212).
(DESIGN CHOICE, log entry 5; DESIGN CHOICE, log entry 29) -/
def execWaveEnd (bad : List EccFind) (corrected : Nat) (s : State) : Out := State.out <| s.saWaveEnd bad corrected

/-- JOB_DEADLINE (R232); `cut` says where the running job stands and the ECC errors of its wave (R212).
(DESIGN CHOICE, log entry 29) -/
def execJobDeadline (cut : WaveCut) (s : State) : Out := State.out <| s.saDeadlines cut

/-- SA_SWAP (R245). -/
def execSaSwap (v : Word) (s : State) : Out := s.cpDoes fun s => s.saSwapWrite v

/-- CANVAS_SWAP (R245). -/
def execCanvasSwap (slot : Fin 8) (s : State) : Out := State.out <| s.saSwapNow slot

/-- SA_CLOCK_RESTART (R246): the deadlines that passed while the clock stood are applied. (DESIGN CHOICE, log entry 29) -/
def execSaClockRestart (cut : WaveCut) (s : State) : Out := State.out <| (s.saDeadlines cut).saShow

end Sys2Proof.Machine
end

