-- ==== Sys2Proof/Machine/Wfl.lean ====
section
/-! DEFINITION. The Weamen field links (chapter 19). -/

namespace Sys2Proof.Machine

/-- Link `l`. -/
def State.link (s : State) (l : Nat) : WflLink := nth s.wfl l {}
def State.setLink (s : State) (l : Nat) (x : WflLink) : State := { s with wfl := putAt s.wfl l x }
/-- Module `m` of link `l`. -/
def State.wmod (s : State) (l m : Nat) : WflMod := nth (s.link l).mods m {}
def State.setWmod (s : State) (l m : Nat) (x : WflMod) : State :=
  s.setLink l { s.link l with mods := putAt (s.link l).mods m x }

/-- Word `i` of a record: CFG, BASE, EXP, EXP_SN_LO, EXP_SN_HI. -/
def recAt (r : List Nat) (i : Nat) : Nat := nth r i 0
def recEn (r : List Nat) : Bool := bit (recAt r 0) 31
def recIn (r : List Nat) : Nat := bits (recAt r 0) 6 0
def recOut (r : List Nat) : Nat := bits (recAt r 0) 13 7
def recIbase (r : List Nat) : Nat := bits (recAt r 1) 11 0
def recObase (r : List Nat) : Nat := bits (recAt r 1) 27 16
/-- The output words belong to the CP (R408). -/
def recCp (r : List Nat) : Bool := bit (recAt r 0) 29

/-- The record in effect. -/
def State.wrec (s : State) (l m : Nat) : List Nat := (s.wmod l m).rec_
/-- The shadow registers of a module (R410). -/
def State.wshadow (s : State) (l m : Nat) : List Nat :=
  [(s.reg (WFL_M_CFG l m)).toNat, (s.reg (WFL_M_BASE l m)).toNat, (s.reg (WFL_M_EXP l m)).toNat,
    (s.reg (WFL_M_EXP_SN_LO l m)).toNat, (s.reg (WFL_M_EXP_SN_HI l m)).toNat]
/-- The shadow registers set to a record. -/
def State.setShadow (s : State) (l m : Nat) (r : List Nat) : State :=
  let w (i : Nat) : Word := BitVec.ofNat 32 (recAt r i)
  ((((s.setReg (WFL_M_CFG l m) (w 0)).setReg (WFL_M_BASE l m) (w 1)).setReg (WFL_M_EXP l m) (w 2)).setReg
    (WFL_M_EXP_SN_LO l m) (w 3)).setReg (WFL_M_EXP_SN_HI l m) (w 4)

/-- CRC-16 of R402, one bit. -/
def crc16Bit (c : Nat) : Nat := if bit c 15 then (2 * c % 65536) ^^^ 0x1021 else 2 * c % 65536
/-- CRC-16 of R402. -/
def crc16 (l : List Byte) : Nat :=
  l.foldl (fun c b => crc16Bit (crc16Bit (crc16Bit (crc16Bit (crc16Bit (crc16Bit (crc16Bit (crc16Bit
    (c ^^^ (b.toNat * 256)))))))))) 0xFFFF

/-- A state of R406: 0 EMPTY, 1 SEEK, 2 ONLINE, 3 LOST, 4 STALE. -/
def State.wstate (s : State) (l m : Nat) : Nat := s.fld (WFL_M_STAT.STATE l m)

/-- A module enters a state (R406); ONLINE, LOST and STALE are signalled. -/
def State.setWstate (s : State) (l m st : Nat) : State :=
  let old := s.wstate l m
  let s := (s.setFld (WFL_M_STAT.STATE l m) st).setBit (WFL_L_STAT.ONLINE l) m (st == 2)
  if st = 2 ∧ old ≠ 2 then s.setFlag (WFL_L_EVT.ONLINE l) true
  else if st = 3 then s.setFlag (WFL_L_EVT.LOST l) true
  else if st = 4 then s.setFlag (WFL_L_EVT.FOUND l) true
  else s

/-- An identity record matches a module record (R406). -/
def identMatches (r : List Nat) (i : List Byte) : Bool :=
  let w (off n : Nat) := ofBytes ((i.drop off).take n)
  w 0 4 == recAt r 2 && (bit (recAt r 0) 30 || w 4 8 == recAt r 3 + 2 ^ 32 * recAt r 4)
    && decide (recIn r ≤ w 12 1) && decide (recOut r ≤ w 13 1)

/-- An identity latched, its module STALE (R406). (DESIGN CHOICE, log entry 47) -/
def State.wstale (s : State) (l m : Nat) (i : List Byte) : State :=
  let w (off n : Nat) := ofBytes ((i.drop off).take n)
  let s := (s.setReg (WFL_M_SEEN l m) (BitVec.ofNat 32 (w 0 4))).setReg (WFL_M_SEEN_SN_LO l m) (BitVec.ofNat 32 (w 4 4))
  let s := s.setReg (WFL_M_SEEN_SN_HI l m) (BitVec.ofNat 32 (w 8 4))
  let s := (s.setFld (WFL_M_SEEN_SZ.IN_MAX l m) (w 12 1)).setFld (WFL_M_SEEN_SZ.OUT_MAX l m) (w 13 1)
  s.setWstate l m 4

/-- An identity answered (R406). -/
def State.wident (s : State) (l m : Nat) (i : List Byte) : State :=
  let s := (s.setWmod l m { s.wmod l m with ident := some i, again := false }).setFld (WFL_M_STAT.MISS l m) 0
  let r := s.wrec l m
  if recEn r && identMatches r i then s.setWstate l m 2 else s.wstale l m i

/-- The input words of a record set to the words of `l`. -/
def State.setInputs (s : State) (r : List Nat) (ws : List Nat) : State :=
  forN (fun k s => s.setReg (WFL_IN (recIbase r + k)) (BitVec.ofNat 32 (nth ws k 0))) (recIn r) s

/-- A commit takes effect at the start of a cycle (R410). -/
def State.wapply (s : State) (l m : Nat) : State :=
  match (s.wmod l m).stage with
  | some r =>
    let s := (s.setWmod l m { s.wmod l m with rec_ := r, stage := none }).setFlag (WFL_M_STAT.PEND l m) false
    if !recEn r then s.setWstate l m 0
    else
      let s := s.setInputs r []
      match s.wstate l m with
      | 0 => s.setWstate l m 1
      | 2 =>
        match (s.wmod l m).ident with
        | some i => if identMatches r i then s else s.wstale l m i
        | none => s
      | _ => s
  | _ => s

/-- PCLK cycles of a bit (R401). -/
def State.bitCycles (s : State) (l : Nat) : Nat := nth [200, 100, 50, 25, 16, 10] (s.fld (WFL_L_CFG.RATE l)) 10
/-- PCLK cycles of a character. -/
def State.charCycles (s : State) (l : Nat) : Nat := 11 * s.bitCycles l
/-- The response timeout in PCLK cycles. -/
def State.respCycles (s : State) (l : Nat) : Nat := max 2 (s.fld (WFL_L_CFG.RESP_TO l)) * 100
/-- The cycle period in ticks. -/
def State.linkCycle (s : State) (l : Nat) : Nat := min 100000 (max 10 (s.fld (WFL_L_CFG.CYCLE l)))

/-- The first cycle instant after a time in PCLK cycles. -/
def State.instantAfter (s : State) (l t : Nat) : Nat :=
  let p := s.linkCycle l * 1000
  (t / p + 1) * p

/-- The links run (R411). -/
def State.wflRuns (s : State) (l : Nat) : Bool :=
  s.flag WFL_CTL.EN && s.flag (WFL_L_CFG.EN l) && !s.inSleep && !s.stalled

/-- The frame of a request (R402): the header with DIR 0, the data, the CRC. -/
def requestFrame (addr cmd seq : Nat) (data : List Byte) : List Byte :=
  let body := toBytes 1 (addr + 2 ^ 6 * cmd) ++ toBytes 1 seq ++ toBytes 2 data.length ++ data
  body ++ toBytesBE 2 (crc16 body)

/-- A request sent from a time on: an EXCHANGE carries the output words read now (R402, R407). -/
def State.wsend (s : State) (l m cmd : Nat) (probe : Bool) (t : Nat) : State :=
  let k := s.link l
  let r := s.wrec l m
  let out := if cmd = 0 then (List.range (recOut r)).flatMap fun i => toBytes 4 (s.reg (WFL_OUT (recObase r + i))).toNat else []
  let f := requestFrame m cmd k.seq out
  s.setLink l { k with req := some ⟨m, cmd, k.seq, probe, f, t, t + f.length * s.charCycles l⟩, seq := (k.seq + 1) % 256 }

/-- The next address at or after `a`, in round-robin order, that no enabled record names. -/
def State.probeFrom (s : State) (l a : Nat) : Nat → Option Nat
  | 0 => none
  | n + 1 => if recEn (s.wrec l (a % 16)) then s.probeFrom l (a + 1) n else some (a % 16)

/-- The poll of a module: EXCHANGE where it is ONLINE, IDENT where it must be identified (R406). -/
def State.wpoll (s : State) (l m t : Nat) : State := s.wsend l m (if s.wstate l m = 2 ∧ !(s.wmod l m).again then 0 else 1) false t

/-- A cycle starts at a time: pending commits act, then the first module is polled (R404, R410); with no module to poll the
probe follows (R405). (DESIGN CHOICE, log entry 47) -/
def State.wcycle (s : State) (l t : Nat) : State :=
  let s := forN (fun m s => s.wapply l m) 16 s
  let todo := (List.range 16).filter fun m => recEn (s.wrec l m)
  s.setLink l { s.link l with start := some t, todo := todo, req := none }

/-- The cycle goes on at a time `t`: the next module, or the probe if time allows, or its end (R404, R405). -/
def State.wnext (s : State) (l t : Nat) (probed : Bool) : State × Bool :=
  let k := s.link l
  let due := s.instantAfter l (k.start.getD 0)
  match k.todo with
  | m :: rest => ((s.setLink l { k with todo := rest, req := none }).wpoll l m t, false)
  | [] =>
    let probe := if probed ∨ due < t + 30 * s.charCycles l + s.respCycles l then none else s.probeFrom l k.probe 16
    match probe with
    | some a => ((s.setLink l { k with probe := (a + 1) % 16, req := none }).wsend l a 1 true t, false)
    | none =>
      let s := (s.setLink l { k with start := none, req := none }).countWrap (WFL_L_STAT.CYCLES l)
      if t ≤ due then (s, false)
      else
        let us := min 0xFFFF ((t - due) / 100)
        let s := (s.countUp (WFL_L_STRETCH.COUNT l)).setFlag (WFL_L_EVT.STRETCH l) true
        (s.setFld (WFL_L_STRETCH.MAX l) (max us (s.fld (WFL_L_STRETCH.MAX l))), true)

/-- The cycle goes on, and where it ended past an instant the next starts at once (R404). -/
def State.wgo (s : State) (l t : Nat) (probed : Bool) : State :=
  let (s, again) := s.wnext l t probed
  if again then ((s.wcycle l t).wnext l t false).1 else s

/-- WFn_DE `n` PCLK cycles after the present tick (R401): high from one bit time before a request's first start bit to the end of
its last stop bit. The first request of a cycle that begins at the next tick is the one its instant would send now. -/
def State.linkDrive (s : State) (l n : Nat) : Bool :=
  let t := s.le.tick * 1000 + n
  let t1 := (s.le.tick + 1) * 1000
  let first := if s.wflRuns l && (s.le.tick + 1) % s.linkCycle l == 0 && (s.link l).start.isNone then
      (((s.wcycle l t1).wgo l t1 false).link l).req else none
  ((s.link l).req.toList ++ first.toList).any fun q => decide (q.starts ≤ t + s.bitCycles l) && decide (t < q.ends)

/-- A miss of a module (R404, R406). (DESIGN CHOICE, log entry 47) -/
def State.wmiss (s : State) (l m : Nat) : State :=
  let n := min 3 (s.fld (WFL_M_STAT.MISS l m) + 1)
  let s := s.setFld (WFL_M_STAT.MISS l m) n
  if n = 3 ∧ s.wstate l m = 2 then s.setWstate l m 3 else s

/-- A half of WFL_L_MISS counted: both halves clear together (R412). -/
def State.missCount (s : State) (f : Field) : State := s.countUp f

/-- How a response is judged (R402, R404). -/
inductive WflVerdict where
  | crc
  | wrong
  | good (isNew : Bool) (data : List Byte)
  deriving DecidableEq, Repr

/-- A received frame judged against the request. (DESIGN CHOICE, log entry 47) -/
def State.wjudge (s : State) (l : Nat) (q : WflReq) (f : List Byte) (parity : Bool) : WflVerdict :=
  let body := f.take (f.length - 2)
  let crc := ofBytesBE (f.drop (f.length - 2))
  let h := ofBytes (f.take 4)
  let want := if q.cmd = 0 then 4 * recIn (s.wrec l q.addr) else 16
  if parity ∨ f.length < 6 ∨ crc16 body ≠ crc then .crc
  else if bits h 3 0 ≠ q.addr ∨ !bit h 4 ∨ bits h 7 6 ≠ q.cmd ∨ bits h 15 8 ≠ q.seq ∨ h / 2 ^ 16 ≠ want
      ∨ body.length ≠ 4 + want then .wrong
  else .good (bit h 5) (body.drop 4)

/-- A response acted on (R406, R407). (DESIGN CHOICE, log entry 47) -/
def State.wanswer (s : State) (l : Nat) (q : WflReq) (f : List Byte) (parity : Bool) : State :=
  match s.wjudge l q f parity with
  | .crc => (s.missCount (WFL_L_MISS.CRC l)).wmiss l q.addr
  | .wrong => s.wmiss l q.addr
  | .good isNew d =>
    if q.cmd = 1 then s.wident l q.addr d
    else if isNew then (s.setWmod l q.addr { s.wmod l q.addr with again := true }).wmiss l q.addr
    else
      let r := s.wrec l q.addr
      let s := s.setInputs r ((List.range (recIn r)).map fun i => ofBytes ((d.drop (4 * i)).take 4))
      (s.countWrap (WFL_M_STAT.SEQ l q.addr)).setFld (WFL_M_STAT.MISS l q.addr) 0

/-- The window ranges of two records overlap, or one passes the end of its window (R410). -/
def rangesClash (a na b nb : Nat) : Bool := decide (0 < na) && decide (0 < nb) && decide (a < b + nb) && decide (b < a + na)

/-- The record another module holds or has committed. -/
def WflMod.claims (x : WflMod) : List Nat := (x.held.or x.stage).getD x.rec_

/-- The check of a commit (R410). (DESIGN CHOICE, log entry 47) -/
def State.wcheck (s : State) (l m : Nat) (r : List Nat) : Nat :=
  let others := (List.range 24).any fun l' => (List.range 16).any fun m' =>
    let o := (s.wmod l' m').claims
    !(l' == l && m' == m) && recEn o
      && (rangesClash (recIbase r) (recIn r) (recIbase o) (recIn o) || rangesClash (recObase r) (recOut r) (recObase o) (recOut o))
  if 64 < recIn r ∨ 64 < recOut r then Code.length
  else if 4096 < recIbase r + recIn r ∨ 4096 < recObase r + recOut r ∨ others then Code.refusedCapacity
  else Code.ok

/-- An accepted commit reaches its link (R410, R512). (DESIGN CHOICE, log entry 47) -/
def State.wflArm (s : State) (v : Word) : State :=
  let l := WFL_COMMIT.LINK.of v
  let m := WFL_COMMIT.MOD.of v
  match (s.wmod l m).held with
  | some r => (s.setWmod l m { s.wmod l m with stage := some r, held := none }).setFlag (WFL_M_STAT.PEND l m) true
  | none => s

/-- A held commit discarded (R513). -/
def State.wflDrop (s : State) (v : Word) : State :=
  let l := WFL_COMMIT.LINK.of v
  let m := WFL_COMMIT.MOD.of v
  s.setWmod l m { s.wmod l m with held := none }

/-- A write of WFL_COMMIT (R410). -/
def State.wflCommitWrite (s : State) (v : Word) : State :=
  let l := WFL_COMMIT.LINK.of v
  let m := WFL_COMMIT.MOD.of v
  if WFL_COMMIT.GO.of v ≠ 1 ∨ 24 ≤ l then s
  else
    let r := s.wshadow l m
    let code := s.wcheck l m r
    let t := s.setFld WFL_CMT_STAT.CODE code
    if code ≠ Code.ok then t.setShadow l m (s.wrec l m)
    else if s.holding && !s.heldRoom (.wfl v) then t.request (.wfl v) id
    else (t.setWmod l m { s.wmod l m with held := some r }).request (.wfl v) fun s => s.wflArm v

/-- The module whose output words take in window entry `e`, with its record. -/
def State.outOwner (s : State) (e : Nat) : Option (List Nat) :=
  ((s.wfl.flatMap (·.mods)).map (·.rec_)).find? fun r => recEn r && decide (recObase r ≤ e) && decide (e < recObase r + recOut r)

/-- A CP write of an output window word (R408). -/
def State.wflOutCpWrite (s : State) (e : Nat) (v : Word) : State :=
  match s.outOwner e with
  | some r => if recCp r then s.setReg (WFL_OUT e) v else s
  | none => s.setReg (WFL_OUT e) v

/-- The links stop, their cycles cut (R411). -/
def State.wflCut (s : State) : State :=
  { s with wfl := s.wfl.map fun k => { k with req := none, todo := [], start := none } }

/-- Miss counts restart at 0 (R411). -/
def State.wflMissClear (s : State) : State := forN (fun l s => forN (fun m s => s.setFld (WFL_M_STAT.MISS l m) 0) 16 s) 24 s

/-- The records of the palette image come into effect: every configured address in SEEK (R411). -/
def State.wflStart (s : State) : State :=
  forN (fun l s => forN (fun m s =>
    let r := s.wshadow l m
    let s := s.setWmod l m { rec_ := r }
    s.setWstate l m (if recEn r then 1 else 0)) 16 s) 24 s

/-- The present time in PCLK cycles, `n` cycles after the tick. -/
def State.clk (s : State) (n : Nat) : Nat := s.le.tick * 1000 + n

/-- WFL_CYCLE_INSTANT (R404): a cycle in progress goes on; the instant it passes is skipped when it ends. -/
def execWflCycleInstant (link : Fin 24) (s : State) : Out :=
  State.out <|
    if s.wflRuns link ∧ s.le.tick % s.linkCycle link = 0 ∧ (s.link link).start.isNone then
      (s.wcycle link (s.clk 0)).wgo link (s.clk 0) false
    else s

/-- The latest time at which the response to a request may start (R404). -/
def State.respDue (s : State) (l : Nat) (q : WflReq) : Nat := q.ends + s.respCycles l

/-- The response timeout of a request: a miss, a probe's too; after the guard the cycle goes on (R404). -/
def State.wtimeout (s : State) (l : Nat) (q : WflReq) : State :=
  ((s.missCount (WFL_L_MISS.TIMEOUT l)).wmiss l q.addr).wgo l (s.respDue l q + 2 * s.charCycles l) q.probe

/-- WFL_RESPONSE (R406): the response ends `cycles` PCLK cycles after the tick; the guard follows it. One that starts after the
response timeout is none (R404). -/
def execWflResponse (link : Fin 24) (frame : List Byte) (parity : Bool) (cycles : Nat) (s : State) : Out :=
  State.out <|
    match (s.link link).req with
    | none => s
    | some q =>
      if !s.wflRuns link then s
      else if s.respDue link q + frame.length * s.charCycles link < s.clk cycles then s.wtimeout link q
      else (s.wanswer link q frame parity).wgo link (s.clk cycles + 2 * s.charCycles link) q.probe

/-- RESPONSE_TIMEOUT (R404), `cycles` PCLK cycles after the tick. -/
def execResponseTimeout (link : Fin 24) (cycles : Nat) (s : State) : Out :=
  State.out <|
    match (s.link link).req with
    | none => s
    | some q =>
      if !s.wflRuns link || decide (s.clk cycles < s.respDue link q) then s else s.wtimeout link q

/-- WFL_COMMIT (R410). -/
def execWflCommit (v : Word) (s : State) : Out := s.cpDoes fun s => s.wflCommitWrite v

/-- WFL_OUT_WRITE (R408). -/
def execWflOutWrite (entry : BitVec 12) (v : Word) (s : State) : Out := s.cpDoes fun s => s.wflOutCpWrite entry.toNat v

end Sys2Proof.Machine
end

