-- ==== Sys2Proof/Machine/SeOps.lean ====
section
/-! DEFINITION. The scan engine's area, forces, instances and instructions (R413 to R428, R433). -/

namespace Sys2Proof.Machine

/-- The scan engine beyond its registers changed. -/
def State.setSe (s : State) (x : SeSt) : State := { s with se := x }

/-- Image word `i` of the program area (R107, R430). -/
abbrev seProg (i : Nat) : Nat := 0x34000000 + 8 * i
/-- Variable word `w` (R418). -/
abbrev seVar (w : Nat) : Nat := 0x34040000 + 4 * w

/-- Variable word `w`. -/
def State.sv (s : State) (w : Nat) : Nat := s.rd32 (seVar (w % 65536))
/-- A variable word written without the force rule: an instance word. -/
def State.svRaw (s : State) (w v : Nat) : State := s.wr32 (seVar (w % 65536)) v

/-- A word under the forces bound to it, the one set later winning (R433). -/
def forced (l : List SeForce) (w v : Nat) : Nat :=
  l.foldl (fun v f => if f.word = w then (v &&& (0xFFFFFFFF - f.mask)) ||| (f.value &&& f.mask) else v) v

/-- A write of a variable word (R433). -/
def State.svSet (s : State) (w v : Nat) : State := s.svRaw w (forced s.se.forces (w % 65536) (v % 2 ^ 32))

/-- The header of a program image (R422), its first word at `base`. -/
structure SeHdr where
  base : Nat
  ninstr : Nat
  ntim : Nat
  nctr : Nat
  nedge : Nat
  nvtag : Nat
  nimg : Nat
  ncmd : Nat
  ninit : Nat
  len : Nat
  deriving DecidableEq, Repr

/-- A header as it stands. -/
def State.seHdr (s : State) (base : Nat) : SeHdr :=
  let w (off : Nat) := s.rd32 (seProg base + off)
  { base := base, ninstr := w 4 % 2 ^ 16, ntim := w 8 % 2 ^ 16, nctr := w 8 / 2 ^ 16, nedge := w 12 % 2 ^ 16
    nvtag := w 12 / 2 ^ 16, nimg := w 16 % 2 ^ 16, ncmd := w 16 / 2 ^ 16, ninit := w 20 % 2 ^ 16, len := w 24 }

/-- The places of the parts, in image words from the header (R422). -/
def SeHdr.imgAt (h : SeHdr) : Nat := 8 + h.ninstr
def SeHdr.cmdAt (h : SeHdr) : Nat := h.imgAt + h.nimg
def SeHdr.tagAt (h : SeHdr) : Nat := h.cmdAt + h.ncmd
def SeHdr.tags (h : SeHdr) : Nat := h.ntim + h.nctr + h.nedge + h.nvtag
def SeHdr.initAt (h : SeHdr) : Nat := h.tagAt + (h.tags + 1) / 2
def SeHdr.size (h : SeHdr) : Nat := h.initAt + h.ninit

/-- The two halves of image word `i` of an image. -/
def State.seLo (s : State) (h : SeHdr) (i : Nat) : Nat := s.rd32 (seProg (h.base + i))
def State.seHi (s : State) (h : SeHdr) (i : Nat) : Nat := s.rd32 (seProg (h.base + i) + 4)
/-- Entry `k` of the tag tables: timers, counters, edge detectors, variables. -/
def State.seTag (s : State) (h : SeHdr) (k : Nat) : Nat := s.rd32 (seProg (h.base + h.tagAt) + 4 * k)

/-- The header of the running program. -/
def State.seRunning (s : State) : SeHdr := s.seHdr (s.fld SE_PROG.BASE)

/-- The variable table of a program: tag and word. -/
def State.seVars (s : State) (h : SeHdr) : List (Nat × Nat) :=
  (List.range h.nvtag).map fun k => let t := s.seTag h (h.ntim + h.nctr + h.nedge + k); (t % 2 ^ 16, t / 2 ^ 16)

/-- The word that a program's variable table gives for a tag. -/
def State.seWordOf (s : State) (h : SeHdr) (tag : Nat) : Option Nat :=
  ((s.seVars h).find? fun v => v.1 == tag).map (·.2)

/-- The word that image entries and check codes read from source `code` (R419). -/
def State.seSource (s : State) (code : Nat) : Nat :=
  let k := code % 4096
  match code / 4096 with
  | 3 => (s.reg (ANA_RTD_VAL (k % 16))).toNat
  | 4 => (s.reg (ME_P_VAL (k / 16 % 2) (k % 16))).toNat
  | 5 => s.mhItem (k / 8 % 8) (k % 8)
  | 6 => (s.reg (LE_SLOT_OUT (k % 64))).toNat
  | 7 => (nth s.le.pg (k % 16) {}).setp
  | 9 => (s.reg (WFL_IN k)).toNat
  | 10 => b2n (nth s.ana.dio (k % 32) false)
  | _ => 0

/-- An image list entry copied (R419). -/
def State.seImage (s : State) (lo hi : Nat) : State :=
  forN (fun i s => s.svSet (lo / 2 ^ 16 + i) (s.seSource (lo % 2 ^ 16 + i))) (hi % 2 ^ 8) s

/-- A binary32 fraction of an analogue output's span as a code (R151); an infinity saturates. -/
def aoCode (w : Nat) : Nat :=
  if fisInf b32 w then (if bit w 31 then 0 else 65535)
  else
    let x := Dy.ofFloat b32 w
    (clampInt 0 65535 (rneShift (x.m * 65535) x.e)).toNat

/-- A word of the command list written to its destination (R420), an output word of a module to one that is the scan engine's
(R408). -/
def State.seCommand (s : State) (kind idx w : Nat) : State :=
  match kind with
  | 0 => if bit w 0 then s.setSlot idx { s.slot idx with cmd := some w, cmdHeld := s.inHold } else s
  | 1 => if (s.outOwner idx).any fun r => !recCp r then s.setReg (WFL_OUT idx) (BitVec.ofNat 32 w) else s
  | 2 => s.aoWrite idx (aoCode w) false
  | _ => s.dioSet idx (bit w 0)

/-- A command list entry written. -/
def State.seCmdEntry (s : State) (lo hi : Nat) : State :=
  forN (fun i s => s.seCommand (bits lo 17 16) (hi % 2 ^ 16 + i) (s.sv (lo % 2 ^ 16 + i))) (bits hi 23 16) s

/-- The engine while it executes: the machine, RLO, the bit stack with its newest entry first, and the events met. -/
structure SeRun where
  s : State
  rlo : Bool := false
  stack : List Bool := []
  math : Bool := false
  stackBad : Bool := false
  deriving DecidableEq, Repr

/-- An instruction (R423). -/
structure SeIns where
  op : Nat
  bit : Nat
  imm : Bool
  flt : Bool
  cond : Bool
  a : Nat
  b : Nat
  c : Nat
  deriving DecidableEq, Repr

/-- Instruction `i` of a program. -/
def State.seIns (s : State) (h : SeHdr) (i : Nat) : SeIns :=
  let lo := s.seLo h (8 + i)
  let hi := s.seHi h (8 + i)
  { op := lo % 256, bit := bits lo 12 8, imm := bit lo 13, flt := bit lo 14, cond := bit lo 15, a := lo / 2 ^ 16
    b := hi % 2 ^ 16, c := hi / 2 ^ 16 }

/-- Saturation to a signed 32-bit integer (R425), as a word. -/
def sat32 (x : Int) : Nat := unsigned 32 (clampInt (-(2 ^ 31)) (2 ^ 31 - 1) x)

/-- B′: a variable word, or the immediate (R424). An immediate of a binary32 operation is the number it stands for. -/
def SeRun.opB (r : SeRun) (i : SeIns) : Nat :=
  if i.imm then (if i.flt then fofInt sa32 (signed 16 i.b) else unsigned 32 (signed 16 i.b)) else r.s.sv i.b

/-- A word stored in w[C]. -/
def SeRun.put (r : SeRun) (i : SeIns) (v : Nat) : SeRun := { r with s := r.s.svSet i.c v }

/-- A binary32 result stored, with MATH where it is not finite (R425). -/
def SeRun.putF (r : SeRun) (i : SeIns) (v : Nat) : SeRun := { r.put i v with math := r.math || !fisFin sa32 v }

/-- An integer result stored. -/
def SeRun.putI (r : SeRun) (i : SeIns) (v : Int) : SeRun := r.put i (sat32 v)

/-- A subnormal read as a zero of the same sign (R425). (DEDUCED, log entry 13) -/
def ftz (x : Nat) : Nat := if x / 2 ^ 23 % 256 = 0 then x / 2 ^ 31 * 2 ^ 31 else x

/-- An arithmetic word operation in binary32 (R424, R425). -/
def SeRun.floatOp (r : SeRun) (i : SeIns) (x y : Nat) : SeRun :=
  match i.op with
  | 0x21 => r.putF i (fadd sa32 x y)
  | 0x22 => r.putF i (fsub sa32 x y)
  | 0x23 => r.putF i (fmul sa32 x y)
  | 0x24 => if ftz y % 2 ^ 31 = 0 then { r.put i 0 with math := true } else r.putF i (fdiv sa32 x y)
  | 0x25 => r.putF i (if fisNan sa32 y then y else ftz (fmin sa32 x y))
  | 0x26 => r.putF i (if fisNan sa32 y then y else ftz (fmax sa32 x y))
  | _ => r.putF i (ftz (fabs sa32 x))

/-- An arithmetic word operation on signed integers (R424, R425). -/
def SeRun.intOp (r : SeRun) (i : SeIns) (x y : Int) : SeRun :=
  match i.op with
  | 0x21 => r.putI i (x + y)
  | 0x22 => r.putI i (x - y)
  | 0x23 => r.putI i (x * y)
  | 0x24 => if y = 0 then { r.putI i 0 with math := true } else r.putI i (Int.tdiv x y)
  | 0x25 => r.putI i (min x y)
  | 0x26 => r.putI i (max x y)
  | _ => r.putI i x.natAbs

/-- The integer of a binary32 number, to nearest, ties to even, saturating; a NaN gives 0 with MATH (R425). -/
def SeRun.toInt (r : SeRun) (i : SeIns) (x : Nat) : SeRun :=
  if fisNan sa32 x then { r.putI i 0 with math := true }
  else
    match ftoInt sa32 x with
    | some n => r.putI i n
    | none => r.putI i (if x / 2 ^ 31 % 2 = 1 then -(2 ^ 31) else 2 ^ 31 - 1)

/-- A word operation (R424). -/
def SeRun.word (r : SeRun) (i : SeIns) : SeRun :=
  let x := r.s.sv i.a
  let y := r.opB i
  match i.op with
  | 0x20 => if i.flt then r.putF i (ftz x) else r.put i x
  | 0x28 => r.put i (x &&& y)
  | 0x29 => r.put i (x ||| y)
  | 0x2A => r.put i (x ^^^ y)
  | 0x2B => r.put i (x * 2 ^ (y % 32) % 2 ^ 32)
  | 0x2C => r.put i (unsigned 32 (signed 32 x / 2 ^ (y % 32)))
  | 0x2D => r.putF i (fofInt sa32 (signed 32 x))
  | 0x2E => r.toInt i x
  | _ => if i.flt then r.floatOp i x y else r.intOp i (signed 32 x) (signed 32 y)

/-- A compare (R424, R425). -/
def SeRun.compare (r : SeRun) (i : SeIns) : SeRun :=
  let x := r.s.sv i.a
  let y := r.opB i
  let lt := if i.flt then flt sa32 x y else decide (signed 32 x < signed 32 y)
  let gt := if i.flt then flt sa32 y x else decide (signed 32 y < signed 32 x)
  let eq := if i.flt then feq sa32 x y else x == y
  { r with rlo := match i.op with
    | 0x30 => eq
    | 0x31 => !eq
    | 0x32 => gt
    | 0x33 => gt || eq
    | 0x34 => lt
    | _ => lt || eq }

/-- A bit operation (R424). -/
def SeRun.bitOp (r : SeRun) (i : SeIns) : SeRun :=
  let w := r.s.sv i.a
  let x := Sys2Proof.bit w i.bit
  let st (b : Bool) : SeRun := { r with s := r.s.svSet i.a (putBit w i.bit b) }
  match i.op with
  | 0x10 => { r with rlo := x }
  | 0x11 => { r with rlo := !x }
  | 0x12 => { r with rlo := r.rlo && x }
  | 0x13 => { r with rlo := r.rlo && !x }
  | 0x14 => { r with rlo := r.rlo || x }
  | 0x15 => { r with rlo := r.rlo || !x }
  | 0x16 => { r with rlo := r.rlo != x }
  | 0x17 => st r.rlo
  | 0x18 => st (!r.rlo)
  | 0x19 => if r.rlo then st true else r
  | _ => if r.rlo then st false else r

/-- An operation of the bit stack (R426). -/
def SeRun.stackOp (r : SeRun) (i : SeIns) : SeRun :=
  if i.op = 0x1B then { r with stack := (r.rlo :: r.stack).take 8, stackBad := r.stackBad || decide (8 ≤ r.stack.length) }
  else
    let top := r.stack.headD false
    { r with rlo := if i.op = 0x1C then r.rlo && top else r.rlo || top, stack := r.stack.drop 1
             stackBad := r.stackBad || r.stack.isEmpty }

/-- ET (R428): milliseconds since START, limited to PT. -/
def seEt (now start pt : Nat) : Nat := min ((now + 2 ^ 32 - start) % 2 ^ 32) pt

/-- A timer instance's word 0 with its state bits (R427). -/
def timWord (w : Nat) (inp q run done : Bool) : Nat :=
  putBit (putBit (putBit (putBit w 18 inp) 19 q) 20 run) 21 done

/-- A timer instruction (R428). -/
def SeRun.timer (r : SeRun) (i : SeIns) : SeRun :=
  let w := 0xA000 + 2 * i.a
  let st := r.s.sv w
  let start := r.s.sv (w + 1)
  let pt := (max 0 (signed 32 (r.opB { i with flt := false }))).toNat
  let now := (r.s.reg SE_MS).toNat
  let inp := r.rlo
  let q := bit st 19
  let run := bit st 20
  let done := bit st 21
  let fin (q run done : Bool) (start et : Nat) : SeRun :=
    let s := (r.s.svRaw w (timWord st inp q run done)).svRaw (w + 1) start
    ({ r with s := s, rlo := q }).put i et
  match i.op with
  | 0x50 =>
    if inp then
      let start := if run then start else now
      let et := seEt now start pt
      fin (decide (pt ≤ et)) true done start et
    else fin false false done start 0
  | 0x51 =>
    if inp then fin true false false start 0
    else if q then
      let start := if run then start else now
      let et := seEt now start pt
      if pt ≤ et then fin false false true start et else fin true true done start et
    else fin q run done start (if done then pt else 0)
  | _ =>
    if run then
      let et := seEt now start pt
      if pt ≤ et then fin false false done start et else fin q run done start et
    else if inp && !bit st 18 then fin true true done now 0
    else fin q run done start (if inp then pt else 0)

/-- A counter instruction (R428). -/
def SeRun.counter (r : SeRun) (i : SeIns) : SeRun :=
  let w := 0xC000 + 2 * i.a
  let st := r.s.sv w
  let cv := signed 32 (r.s.sv (w + 1))
  let pv := max 0 (signed 32 (r.opB { i with flt := false }))
  let x := r.rlo
  let set := Sys2Proof.bit (r.s.sv i.c) i.bit
  let prev := if bit st 19 then x else bit st 17
  let edge := x && !prev
  let (cv, q) := if i.op = 0x53 then
      let cv := if set then 0 else if edge && decide (cv < 2 ^ 31 - 1) then cv + 1 else cv
      (cv, decide (pv ≤ cv))
    else
      let cv := if set then pv else if edge && decide (-(2 ^ 31) < cv) then cv - 1 else cv
      (cv, decide (cv ≤ 0))
  let s := (r.s.svRaw w (putBit (putBit (putBit st 17 x) 18 q) 19 false)).svRaw (w + 1) (unsigned 32 cv)
  { r with s := s, rlo := q }

/-- An edge detector instruction (R428). -/
def SeRun.edge (r : SeRun) (i : SeIns) : SeRun :=
  let w := 0xE000 + i.a
  let st := r.s.sv w
  let x := r.rlo
  let prev := if bit st 18 then x else bit st 16
  { r with s := r.s.svRaw w (putBit (putBit (putBit st 16 prev) 17 x) 18 false)
           rlo := if i.op = 0x58 then x && !prev else !x && prev }

/-- One instruction other than END and JMP. (DESIGN CHOICE, log entry 48) -/
def SeRun.exec (r : SeRun) (i : SeIns) : SeRun :=
  if i.op = 0 then r
  else if i.op ≤ 0x1A then r.bitOp i
  else if i.op ≤ 0x1D then r.stackOp i
  else if i.op ≤ 0x2E then r.word i
  else if i.op ≤ 0x35 then r.compare i
  else if i.op ≤ 0x52 then r.timer i
  else if i.op ≤ 0x54 then r.counter i
  else r.edge i

/-- Execution from instruction `pc` to END (R414); at most `n` instructions. -/
def SeRun.run (h : SeHdr) (r : SeRun) (pc : Nat) : Nat → SeRun
  | 0 => r
  | n + 1 =>
    let i := r.s.seIns h pc
    if i.op = 1 then r
    else if i.cond && !r.rlo then r.run h (pc + 1) n
    else if i.op = 0x40 then r.run h i.a n
    else (r.exec i).run h (pc + 1) n

/-- Variable words 0x0000 to 0x0FFF published (R421). -/
def State.sePublish (s : State) : State :=
  { s with le := { s.le with sePub := (List.range 4096).filterMap fun k =>
      let v : Word := BitVec.ofNat 32 (s.sv k)
      if v = 0 then none else some (k, v) } }

/-- Every edge detector that is not FRESH takes CUR as PREV (R414). -/
def State.seEdges (s : State) (n : Nat) : State :=
  forN (fun k s =>
    let st := s.sv (0xE000 + k)
    if bit st 18 then s else s.svRaw (0xE000 + k) (putBit st 16 (bit st 17))) n s

end Sys2Proof.Machine
end

