-- ==== Sys2Proof/Machine/Se.lean ====
section
/-! DEFINITION. The scan engine's cycle, its program checks and exchanges, and forces (R414 to R435). -/

namespace Sys2Proof.Machine

/-- An offset among `n` positions at which a check fails: the first, through `f`. -/
def firstBad (n : Nat) (f : Nat → Option Nat) : Option Nat := ((List.range n).filterMap f).head?

/-- A failure at a place. -/
def badIf (c : Bool) (at_ : Nat) : Option Nat := if c then some at_ else none

/-- The bytes of an image, its CRC word taken as 0 (R422). -/
def State.seBytes (s : State) (h : SeHdr) : List Byte :=
  let l := s.rdBytes (seProg h.base) (8 * h.len)
  l.take 0x3C ++ [0, 0, 0, 0] ++ l.drop 0x40

/-- The image lies in the program area. -/
def SeHdr.inArea (h : SeHdr) : Bool := decide (8 ≤ h.len) && decide (h.base + h.len ≤ 32768)

/-- The first of several checks that fails. -/
def firstOf (l : List (Option Nat)) : Option Nat := l.findSome? id

/-- The reserved bits of the lists and tag tables, checked where the parts lie in the area. (DESIGN CHOICE, log entry 48) -/
def State.seReserved (s : State) (h : SeHdr) : Option Nat :=
  if 32768 < h.base + h.size then none
  else
    firstOf [firstBad h.nimg (fun k => badIf (s.seHi h (h.imgAt + k) / 2 ^ 8 != 0) (h.imgAt + k)),
      firstBad h.ncmd (fun k =>
        badIf (s.seLo h (h.cmdAt + k) / 2 ^ 18 != 0 || s.seHi h (h.cmdAt + k) / 2 ^ 24 != 0) (h.cmdAt + k)),
      firstBad (h.tags - h.nvtag) (fun k => badIf (s.seTag h k / 2 ^ 18 != 0) (h.tagAt + k / 2)),
      firstBad h.ninit (fun k => badIf (s.seLo h (h.initAt + k) / 2 ^ 16 != 0) (h.initAt + k))]

/-- Check 1 of R429: MAGIC, VER, reserved fields, CRC. The CRC is checked where the image lies in the area. -/
def State.seCheck1 (s : State) (h : SeHdr) : Option Nat :=
  let w (off : Nat) := s.rd32 (seProg h.base + off)
  firstOf [badIf (w 0 != 0x14553 || decide (0x10000 ≤ w 4)) 0, badIf (decide (0x10000 ≤ w 20)) 2,
    firstBad 8 (fun k => badIf (w (0x1C + 4 * k) != 0) ((0x1C + 4 * k) / 8)), s.seReserved h,
    badIf (h.inArea && crc32 (s.seBytes h) != w 0x3C) 7]

/-- The regions that an image must keep clear of: the running program's, an exchange's (R430). -/
def State.seTaken (s : State) : List (Nat × Nat) :=
  (if s.flag SE_STAT.RUN then [(s.fld SE_PROG.BASE, s.fld SE_PROG.LEN)] else [])
    ++ ((s.se.next.toList ++ s.se.held.toList).map fun b => (b, (s.seHdr b).len))

/-- Check 2: counts and length. A region that an exchange holds back counts as free for the exchange that replaces it. -/
def State.seCheck2 (s : State) (h : SeHdr) : Option Nat :=
  let taken := ({ s with se := { s.se with held := none } } : State).seTaken
  firstOf [badIf (h.ninstr == 0 || decide (32760 < h.ninstr)) 0,
    badIf (decide (4096 < h.ntim) || decide (4096 < h.nctr) || decide (8192 < h.nedge) || decide (4096 < h.nvtag)) 1,
    badIf (decide (1024 < h.nimg) || decide (1024 < h.ncmd) || decide (8192 < h.ninit)) 2,
    badIf (h.len != h.size || decide (32768 < h.base + h.len)
      || taken.any fun r => decide (h.base < r.1 + r.2) && decide (r.1 < h.base + h.len)) 3]

/-- A defined opcode (R424). -/
def seOpOk (op : Nat) : Bool :=
  decide (op ≤ 1) || (decide (0x10 ≤ op) && decide (op ≤ 0x1D)) || (decide (0x20 ≤ op) && decide (op ≤ 0x2E))
    || (decide (0x30 ≤ op) && decide (op ≤ 0x35)) || op == 0x40 || (decide (0x50 ≤ op) && decide (op ≤ 0x54))
    || op == 0x58 || op == 0x59

/-- The flags an opcode permits: COND on word operations, compares among them, and JMP; FLT on ADD to ABS, compares and MOV
(R424). -/
def SeIns.flagsOk (i : SeIns) : Bool :=
  (!i.cond || (decide (0x20 ≤ i.op) && decide (i.op ≤ 0x40)))
    && (!i.flt || (decide (0x20 ≤ i.op) && decide (i.op ≤ 0x27)) || (decide (0x30 ≤ i.op) && decide (i.op ≤ 0x35)))

/-- The table a tag entry stands in: 0 timers, 1 counters, 2 edge detectors, 3 variables. -/
def SeHdr.table (h : SeHdr) (k : Nat) : Nat :=
  if k < h.ntim then 0 else if k < h.ntim + h.nctr then 1 else if k < h.ntim + h.nctr + h.nedge then 2 else 3

/-- Check 3: opcodes, END, tag types, no tag twice. -/
def State.seCheck3 (s : State) (h : SeHdr) : Option Nat :=
  firstOf [firstBad h.ninstr (fun k => let i := s.seIns h k; badIf (!seOpOk i.op || !i.flagsOk) (8 + k)),
    badIf ((s.seIns h (h.ninstr - 1)).op != 1) (8 + h.ninstr - 1),
    firstBad h.tags fun k =>
    let t := s.seTag h k
    let ty := t / 2 ^ 16
    let typeBad := match h.table k with
      | 0 => !(ty == 1 || ty == 2 || ty == 3)
      | 1 => decide (1 < ty)
      | 2 => ty != 0
      | _ => false
    let twice := (List.range k).any fun j => h.table j == h.table k && s.seTag h j % 2 ^ 16 == t % 2 ^ 16
    badIf (typeBad || twice) (h.tagAt + k / 2)]

/-- TYPE of the instance that entry `k` of the tag tables declares. -/
def State.seType (s : State) (h : SeHdr) (k : Nat) : Nat := s.seTag h k / 2 ^ 16 % 4

/-- The operands of instruction `k` lie in their ranges (check 4). -/
def State.seInsRange (s : State) (h : SeHdr) (k : Nat) : Bool :=
  let i := s.seIns h k
  let writesA := decide (0x17 ≤ i.op) && decide (i.op ≤ 0x1A)
  let writesC := (decide (0x20 ≤ i.op) && decide (i.op ≤ 0x2E)) || (decide (0x50 ≤ i.op) && decide (i.op ≤ 0x52))
  let tim := decide (0x50 ≤ i.op) && decide (i.op ≤ 0x52)
  let ctr := i.op == 0x53 || i.op == 0x54
  let edg := i.op == 0x58 || i.op == 0x59
  (!writesA || decide (i.a < 0xA000)) && (!writesC || decide (i.c < 0xA000))
    && (!tim || (decide (i.a < h.ntim) && s.seType h i.a == i.op - 0x4F))
    && (!ctr || (decide (i.a < h.nctr) && s.seType h (h.ntim + i.a) == i.op - 0x53))
    && (!edg || decide (i.a < h.nedge))
    && (i.op != 0x40 || (decide (k < i.a) && decide (i.a < h.ninstr)))

/-- An image list entry lies in its range (check 4). -/
def seImgOk (lo hi : Nat) : Bool :=
  let n := hi % 2 ^ 8
  let kind := lo % 2 ^ 16 / 4096
  decide (1 ≤ n) && decide (n ≤ 64) && decide (lo / 2 ^ 16 + n ≤ 0xA000)
    && [3, 4, 5, 6, 7, 9, 10].contains kind && srcOk (lo % 2 ^ 16) && (lo % 2 ^ 16 + n - 1) / 4096 == kind
    && srcOk (lo % 2 ^ 16 + n - 1)

/-- The destinations of a command kind. -/
def seDests (kind : Nat) : Nat := nth [64, 4096, 8, 32] kind 0

/-- A command list entry lies in its range (check 4). -/
def seCmdOk (lo hi : Nat) : Bool :=
  let n := bits hi 23 16
  decide (1 ≤ n) && decide (n ≤ 64) && decide (lo % 2 ^ 16 + n ≤ 65536)
    && decide (hi % 2 ^ 16 + n ≤ seDests (bits lo 17 16))

/-- Check 4: ranges. -/
def State.seCheck4 (s : State) (h : SeHdr) : Option Nat :=
  firstOf [firstBad h.ninstr (fun k => badIf (!s.seInsRange h k) (8 + k)),
    firstBad h.nimg (fun k => badIf (!seImgOk (s.seLo h (h.imgAt + k)) (s.seHi h (h.imgAt + k))) (h.imgAt + k)),
    firstBad h.ncmd (fun k => badIf (!seCmdOk (s.seLo h (h.cmdAt + k)) (s.seHi h (h.cmdAt + k))) (h.cmdAt + k)),
    firstBad h.nvtag (fun k =>
      let j := h.ntim + h.nctr + h.nedge + k
      badIf (decide (0xA000 ≤ s.seTag h j / 2 ^ 16)) (h.tagAt + j / 2)),
    firstBad h.ninit (fun k => badIf (decide (0xA000 ≤ s.seLo h (h.initAt + k))) (h.initAt + k))]

/-- A destination may be written by the scan engine (check 5). -/
def State.seDestOk (s : State) (kind idx : Nat) : Bool :=
  match kind with
  | 0 => s.seOwned idx
  | 1 => (s.outOwner idx).any fun r => !recCp r
  | 2 => (List.range 64).all fun n => !(s.admitted n && s.dstKind n == 1 && s.dstIndex n == idx)
  | _ => nth s.ana.dioOut idx false

/-- Check 5: destinations. -/
def State.seCheck5 (s : State) (h : SeHdr) : Option Nat :=
  firstBad h.ncmd fun k =>
    let lo := s.seLo h (h.cmdAt + k)
    let hi := s.seHi h (h.cmdAt + k)
    badIf (!(List.range (bits hi 23 16)).all fun i => s.seDestOk (bits lo 17 16) (hi % 2 ^ 16 + i)) (h.cmdAt + k)

/-- The checks of R429 on the image at `base`: the code, and the place of the first failure.
(DESIGN CHOICE, log entry 48) -/
def State.seCheck (s : State) (base : Nat) : Nat × Nat :=
  let h := s.seHdr base
  match s.seCheck1 h, s.seCheck2 h with
  | some b, _ => (Code.format, b)
  | none, some b => (Code.length, b)
  | none, none =>
    match s.seCheck3 h, s.seCheck4 h, s.seCheck5 h with
    | some b, _, _ => (Code.format, b)
    | none, some b, _ => (Code.range, b)
    | none, none, some b => (Code.refusedState, b)
    | none, none, none => if s.flag SE_STAT.XPEND then (Code.refusedState, 0xFFFF) else (Code.ok, 0xFFFF)

/-- The forces as SE_FORCE_ENT and SE_FORCE_STAT show them (R436). -/
def State.setForces (s : State) (l : List SeForce) : State :=
  let s := (s.setSe { s.se with forces := l }).setFld SE_FORCE_STAT.COUNT l.length
  forN (fun k s =>
    let f := nth l k { tag := 0, mask := 0, value := 0, word := 0 }
    ((s.setReg (SE_FORCE_ENT k 0) (BitVec.ofNat 32 (f.tag + 2 ^ 16 * f.word))).setReg (SE_FORCE_ENT k 1)
      (BitVec.ofNat 32 f.mask)).setReg (SE_FORCE_ENT k 2) (BitVec.ofNat 32 f.value)) 64 s

/-- A dropped force logged (R435). -/
def State.forceLog (s : State) (tag cause : Nat) : State :=
  let n := s.fld SE_FLOG_IDX.NEXT
  let s := s.setReg (SE_FLOG n) (BitVec.ofNat 32 (tag + 2 ^ 16 * cause))
  ((s.setFld SE_FLOG_IDX.NEXT ((n + 1) % 16)).countUp SE_FLOG_IDX.TOTAL).setFlag SE_EVT.FDROP true

/-- Every force dropped when the node leaves SERVICE (R435). -/
def State.forcesDrop (s : State) : State :=
  let l := s.se.forces
  l.foldl (fun s f => s.forceLog f.tag 2) (s.setForces [])

/-- Words rewritten under the forces bound to them (R433). -/
def State.forceApply (s : State) : State := s.se.forces.foldl (fun s f => s.svSet f.word (s.sv f.word)) s

/-- Forces rebound to a program's words; those whose tag it lacks are dropped (R435). -/
def State.forcesRebind (s : State) (h : SeHdr) : State :=
  let keep := s.se.forces.filterMap fun f => (s.seWordOf h f.tag).map fun w => { f with word := w }
  let gone := s.se.forces.filter fun f => (s.seWordOf h f.tag).isNone
  gone.foldl (fun s f => s.forceLog f.tag 1) (s.setForces keep)

/-- The words of an instance of `n` words a tag and type had in the old area, among `count` places from `at_` (R431); `used` is
the bit that marks it, `mask` the bits of TAG and TYPE. -/
def State.oldInst (s : State) (at_ n used mask want : Nat) : Nat → Option (List Nat)
  | 0 => none
  | k + 1 =>
    let w := s.sv (at_ + n * k)
    if bit w used && w % mask == want then some ((List.range n).map fun i => s.sv (at_ + n * k + i))
    else s.oldInst at_ n used mask want k

/-- The instance words of a program: kept under a tag and type present before, else fresh (R431). `old` is the machine whose
area the old instances stand in. -/
def State.newInsts (old : State) (h : SeHdr) : List (Nat × List Nat) :=
  ((List.range h.ntim).map fun k =>
      let t := old.seTag h k % 2 ^ 18
      (0xA000 + 2 * k, (old.oldInst 0xA000 2 22 (2 ^ 18) t 4096).getD [t + 2 ^ 22, 0]))
    ++ ((List.range h.nctr).map fun k =>
      let t := old.seTag h (h.ntim + k) % 2 ^ 17
      (0xC000 + 2 * k, (old.oldInst 0xC000 2 20 (2 ^ 17) t 4096).getD [t + 2 ^ 19 + 2 ^ 20, 0]))
    ++ (List.range h.nedge).map fun k =>
      let t := old.seTag h (h.ntim + h.nctr + k) % 2 ^ 16
      (0xE000 + k, (old.oldInst 0xE000 1 19 (2 ^ 16) t 8192).getD [t + 2 ^ 18 + 2 ^ 19])

/-- The instance area holds exactly a program's instances (R431). -/
def State.seInstances (s : State) (l : List (Nat × List Nat)) : State :=
  let s := s.clearMem fun a => decide (seVar 0xA000 ≤ a) && decide (a < 0x34080000)
  l.foldl (fun s e => forN (fun i s => s.svRaw (e.1 + i) (nth e.2 i 0)) e.2.length s) s

/-- Init list entries written where `p` holds of the word (R432). (DESIGN CHOICE, log entry 48) -/
def State.seInit (s : State) (h : SeHdr) (p : Nat → Bool) : State :=
  forN (fun k s =>
    let w := s.seLo h (h.initAt + k) % 2 ^ 16
    if p w then s.svSet w (s.seHi h (h.initAt + k)) else s) h.ninit s

/-- The program at `base` becomes the running one. -/
def State.seRunAt (s : State) (base : Nat) : State :=
  ((s.setFld SE_PROG.BASE base).setFld SE_PROG.LEN (s.seHdr base).len).setFlag SE_STAT.RUN true

/-- The exchange (R431, R432, R435). (DESIGN CHOICE, log entry 48) -/
def State.seExchange (s : State) (base : Nat) : State :=
  let h := s.seHdr base
  let oldTags := (s.seVars s.seRunning).map (·.1)
  let fresh := ((s.seVars h).filter fun v => !oldTags.contains v.1).map (·.2)
  let insts := s.newInsts h
  let s := (s.seInstances insts).forcesRebind h
  let s := (s.seInit h fresh.contains).forceApply
  let s := (s.setSe { s.se with next := none }).setFlag SE_STAT.XPEND false
  (s.seRunAt base).setFlag SE_EVT.XCHG true

/-- The program the steward loads at `base` starts: every init entry, fresh instances (R431, R432). -/
def State.seStart (s : State) (base : Nat) : State :=
  let h := s.seHdr base
  let s := s.seInstances []
  ((s.seInstances (s.newInsts h)).seInit h fun _ => true).seRunAt base

/-- The cycle period in ticks (R413). -/
def State.seCycleTicks (s : State) : Nat := min 100000 (max 100 (s.fld SE_CFG.CYCLE))

/-- The scan engine runs (R417). -/
def State.seRuns (s : State) : Bool :=
  s.flag SE_CTL.EN && s.flag SE_STAT.RUN && (!s.inSleep || decide (10000 ≤ s.seCycleTicks))

/-- SE_STAT.BUSY and SE_XCHG_STAT.BUSY as the present tick finds the last cycle and the last check (R429, R436).
(DESIGN CHOICE, log entry 48) -/
def State.seShow (s : State) : State :=
  (s.setFlag SE_STAT.BUSY (decide (s.le.tick * 1000 < s.se.ends))).setFlag SE_XCHG_STAT.BUSY (decide (s.le.tick * 1000 < s.se.checks))

/-- A cycle: image copy, execution, end phase, and the exchange that waits for its completion (R414, R430). It lasts `n` PCLK
cycles and the exchange `x`. (DESIGN CHOICE, log entry 26) -/
def State.seCycle (s : State) (n x : Nat) : State :=
  let h := s.seRunning
  let s := (s.setReg SE_MS (BitVec.ofNat 32 (s.le.tick / 100))).setFld SE_STAT.CODE Code.ok
  let s := s.setSe { s.se with dio := s.ana.dio }
  let s := forN (fun k s => s.seImage (s.seLo h (h.imgAt + k)) (s.seHi h (h.imgAt + k))) h.nimg s
  let r := ({ s := s } : SeRun).run h 0 h.ninstr
  let s := r.s
  let s := if r.math then s.setFlag SE_EVT.MATH true else s
  let s := if r.stackBad then s.setFlag SE_EVT.STACK true else s
  let s := s.sePublish.seEdges h.nedge
  let s := forN (fun k s => s.seCmdEntry (s.seLo h (h.cmdAt + k)) (s.seHi h (h.cmdAt + k))) h.ncmd s
  let s := s.setFlag SE_EVT.CYCLE true
  let (s, m) := match s.se.next with
    | some b => (s.seExchange b, n + x)
    | none => (s, n)
  let s := s.setFld SE_TIME.LAST (min 0xFFFF (n / 100))
  let s := s.setFld SE_TIME.MAX (max (min 0xFFFF (m / 100)) (s.fld SE_TIME.MAX))
  (s.setSe { s.se with ends := s.le.tick * 1000 + m }).seShow

/-- A cycle instant skipped (R416). -/
def State.seSkip (s : State) : State :=
  ((s.countUp SE_SKIP.VALUE).setFlag SE_EVT.SKIP true).setFld SE_STAT.CODE Code.skipped

/-- An exchange request reaches the scan engine (R430, R512). -/
def State.seArm (s : State) (v : Word) : State :=
  (s.setSe { s.se with next := some (SE_XCHG.BASE.of v), held := none }).setFlag SE_STAT.XPEND true

/-- A held exchange discarded, its region freed (R513). -/
def State.seDrop (s : State) : State :=
  s.setSe { s.se with held := none }

/-- A write of SE_XCHG (R429, R430, R512): its check is shown busy for the longest time R429 gives it.
(DESIGN CHOICE, log entry 48) -/
def State.seXchgWrite (s : State) (v : Word) : State :=
  if SE_XCHG.GO.of v ≠ 1 then s
  else
    let base := SE_XCHG.BASE.of v
    let (code, at_) := s.seCheck base
    let t := (s.setFld SE_XCHG_STAT.CODE code).setFld SE_XCHG_STAT.BAD at_
    let t := (t.setSe { t.se with checks := t.le.tick * 1000 + 200 + min 32768 (s.seHdr base).len }).seShow
    if code ≠ Code.ok then t.setFlag SE_EVT.XCHG true
    else if s.holding && !s.heldRoom (.se v) then t.request (.se v) id
    else (t.setSe { t.se with held := some base }).request (.se v) fun s => s.seArm v

/-- Whether a force command is admitted: the life-cycle state and AUTH (R434). -/
def State.forceAdmit (s : State) : Nat :=
  match s.fld LCS_STAT.STATE with
  | 2 => Code.refusedAuth
  | 3 => if s.flag TUNE_STAT.AUTH then Code.ok else Code.refusedAuth
  | 4 => Code.refusedState
  | _ => Code.ok

/-- SET of a force (R433, R434). (DESIGN CHOICE, log entry 48) -/
def State.forceSet (s : State) : State :=
  let tag := bits (s.reg SE_FORCE_TAG).toNat 15 0
  let word := if s.flag SE_STAT.RUN then s.seWordOf s.seRunning tag else none
  let rest := s.se.forces.filter (·.tag != tag)
  let code := if s.forceAdmit ≠ Code.ok then s.forceAdmit
    else if word.isNone then Code.unknownRecord
    else if 64 ≤ rest.length then Code.refusedCapacity
    else Code.ok
  let s := s.setFld SE_FORCE_STAT.CODE code
  match word with
  | some w =>
    if code ≠ Code.ok then s
    else
      let s := s.setForces (rest ++
        [{ tag := tag, mask := (s.reg SE_FORCE_MASK).toNat, value := (s.reg SE_FORCE_VAL).toNat, word := w }])
      s.svSet w (s.sv w)
  | none => s

/-- CLR of a force (R434). (DESIGN CHOICE, log entry 48) -/
def State.forceClr (s : State) : State :=
  let s := s.setFld SE_FORCE_STAT.CODE s.forceAdmit
  if s.forceAdmit ≠ Code.ok then s
  else s.setForces (s.se.forces.filter (·.tag != bits (s.reg SE_FORCE_TAG).toNat 15 0))

/-- A write of SE_FORCE_CMD: SET, then CLR (R434). -/
def State.forceCmdWrite (s : State) (v : Word) : State :=
  let s := if SE_FORCE_CMD.SET.of v = 1 then s.forceSet else s
  if SE_FORCE_CMD.CLR.of v = 1 then s.forceClr else s

/-- A CP write of `n` bytes within one word of the SE area (R418, R430, R433). -/
def State.seCpWrite (s : State) (off n v : Nat) : State :=
  if off < 0x40000 then
    let w := off / 8
    if s.seTaken.any fun r => decide (r.1 ≤ w) && decide (w < r.1 + r.2) then s
    else s.wrBytes (0x34000000 + off) (toBytes n v)
  else
    let w := (off - 0x40000) / 4
    if 0xA000 ≤ w then s
    else
      let sh := 8 * (off % 4)
      let old := s.sv w
      let new := old - bits old (sh + 8 * n - 1) sh * 2 ^ sh + v % 2 ^ (8 * n) * 2 ^ sh
      s.svSet w new

/-- The present tick is a cycle instant that has been neither run nor skipped (R414, R416). -/
def State.seInstant (s : State) : Bool :=
  s.seRuns && s.le.tick % s.seCycleTicks == 0 && s.se.had != some s.le.tick

/-- A cycle instant (R414): at a cycle instant after the last cycle has completed; the cycle lasts `cycles` PCLK cycles and an
exchange at its completion `exchange`. -/
def State.seCycleDue (s : State) (cycles exchange : Nat) : State :=
  if s.seInstant && s.ticks && decide (s.se.ends ≤ s.le.tick * 1000) then
    (s.setSe { s.se with had := some s.le.tick }).seCycle cycles exchange
  else s

/-- SE_CYCLE (R414). (DESIGN CHOICE, log entry 48) -/
def execSeCycle (cycles exchange : Nat) (s : State) : Out := State.out <| s.seCycleDue cycles exchange

/-- SE_SKIP (R416, R417): a cycle instant before the last cycle has completed, or within a brown stall. -/
def execSeSkip (s : State) : Out :=
  State.out <|
    if s.seInstant && !s.inSleep && (s.stalled || decide (s.le.tick * 1000 < s.se.ends)) then
      (s.setSe { s.se with had := some s.le.tick }).seSkip
    else s

/-- SE_XCHG (R429, R430). -/
def execSeXchg (v : Word) (s : State) : Out := s.cpDoes fun s => s.seXchgWrite v

/-- SE_FORCE_SET (R434): a write of SE_FORCE_CMD with SET = 1. -/
def execSeForceSet (v : Word) (s : State) : Out :=
  s.cpDoes fun s => if SE_FORCE_CMD.SET.of v = 1 then s.forceCmdWrite v else s

/-- SE_FORCE_CLR (R434): a write of SE_FORCE_CMD with CLR = 1. -/
def execSeForceClr (v : Word) (s : State) : Out :=
  s.cpDoes fun s => if SE_FORCE_CMD.CLR.of v = 1 then s.forceCmdWrite v else s

/-- SE_AREA_WRITE (R430): a CP write of 1, 2 or 4 bytes at an offset of the SE area. -/
def execSeAreaWrite (off : BitVec 19) (size : Fin 3) (v : Word) (s : State) : Out :=
  s.cpAccess (BitVec.ofNat 32 (0x34000000 + off.toNat)) .write size fun s => s.seCpWrite off.toNat (2 ^ size.val) v.toNat

end Sys2Proof.Machine
end

