-- ==== Sys2Proof/Machine/Live.lean ====
section
/-! DEFINITION. Live change: holding requests together (R512, R513, R517). -/

namespace Sys2Proof.Machine

/-- A live-change hold starts (R512). -/
def State.holdStart (s : State) : State :=
  let s := { s with live := { s.live with held := [], since := s.le.tick } }
  ((s.setFld SYS_LIVE_STAT.CODE Code.ok).setFld SYS_LIVE_STAT.HELD 0).setFlag SYS_LIVE_STAT.HOLD true

/-- One held request reaches its block, which treats it as written now (R513). -/
def HeldReq.release (s : State) : HeldReq → State
  | .swap n => s.setFlag (LE_SLOT_CTL.SWAP n) true
  | .pt v => (s.ptDrop (ptKey v)).ptCommitWrite v
  | .wfl v => (s.wflDrop v).wflCommitWrite v
  | .sa v => s.saSwapAct (SA_SWAP.SLOT.of v)
  | .se v => s.seArm v

/-- One held request discarded (R513). -/
def HeldReq.discard (s : State) : HeldReq → State
  | .pt v => s.ptDrop (ptKey v)
  | .wfl v => s.wflDrop v
  | .se _ => s.seDrop
  | .swap _ => s
  | .sa _ => s

/-- A hold ends. -/
def State.holdEnd (s : State) : State := (s.setHeld []).setFlag SYS_LIVE_STAT.HOLD false

/-- GO: every held request is released, the hold ends (R513). -/
def State.holdGo (s : State) : State :=
  if s.holding then (s.live.held.foldl HeldReq.release (s.setFlag SYS_LIVE_STAT.HOLD false)).holdEnd else s

/-- DROP: every held request is discarded, the hold ends (R513). -/
def State.holdDrop (s : State) : State := if s.holding then (s.live.held.foldl HeldReq.discard s).holdEnd else s

/-- A write of SYS_LIVE_CTL (R512, R513): one with HOLD = 1 is ignored while a hold lasts. -/
def State.liveCtlWrite (s : State) (v : Word) : State :=
  if SYS_LIVE_CTL.KEY.of v ≠ 0x71CE ∨ (SYS_LIVE_CTL.HOLD.of v = 1 ∧ s.holding) then s
  else
    let s := if SYS_LIVE_CTL.HOLD.of v = 1 then s.holdStart else s
    let s := if SYS_LIVE_CTL.GO.of v = 1 then s.holdGo else s
    if SYS_LIVE_CTL.DROP.of v = 1 then s.holdDrop else s

/-- LIVE_HOLD (R512): a write of SYS_LIVE_CTL with HOLD = 1. -/
def execLiveHold (v : Word) (s : State) : Out := s.cpDoes fun s => if SYS_LIVE_CTL.HOLD.of v = 1 then s.liveCtlWrite v else s

/-- LIVE_GO (R513): a write of SYS_LIVE_CTL with GO = 1. -/
def execLiveGo (v : Word) (s : State) : Out := s.cpDoes fun s => if SYS_LIVE_CTL.GO.of v = 1 then s.liveCtlWrite v else s

/-- LIVE_DROP (R513): a write of SYS_LIVE_CTL with DROP = 1. -/
def execLiveDrop (v : Word) (s : State) : Out := s.cpDoes fun s => if SYS_LIVE_CTL.DROP.of v = 1 then s.liveCtlWrite v else s

/-- HOLD_TIMEOUT (R513): a hold that has lasted 100 ms is dropped. -/
def execHoldTimeout (s : State) : Out :=
  State.out <|
    if s.holding && decide (s.live.since + 10000 ≤ s.le.tick) then s.holdDrop.setFld SYS_LIVE_STAT.CODE Code.skipped else s

end Sys2Proof.Machine
end

