-- ==== Sys2Proof/Machine/Totals.lean ====
section
/-! DEFINITION. Totals across power cuts (chapter 16): save records, saves in progress and waiting, and what a return does
with the totals it finds. -/

namespace Sys2Proof.Machine

/-- The KIND code of a save (R326). -/
def SaveKind.code : SaveKind → Nat
  | .periodic => 0
  | .warning => 1
  | .sleep => 2
  | .reset => 3
  | .merge => 4

/-- The window offset of save area `a` (16, "The save areas"). -/
def areaAt (a : Nat) : Nat := 0x8000 + 0x400 * a

/-- The part of a save record for calculator `c`: 0x60 bytes (R326). -/
def State.calcRecord (s : State) (c : Nat) : List Byte :=
  let m := s.calculator c
  ((List.range 6).flatMap fun q => toBytes 8 (accUnits (nth m.acc q 0)))
    ++ ((List.range 6).flatMap fun q => toBytes 4 (nth m.acc q 0))
    ++ toBytes 4 m.nPrev ++ toBytes 4 (s.fld (MH_C_FTIME.VALUE c))
    ++ toBytes 4 m.tsV ++ toBytes 4 m.trV
    ++ toBytes 8 (s.fld (MH_C_STAT.CAUSE c) + 2 ^ 6 * s.fld (MH_C_STAT.FAULT c) + 2 ^ 7 * b2n m.valid
        + 2 ^ 8 * s.fld (MH_C_STAT.SEEN c) + 2 ^ 14 * b2n m.npv)

/-- The part of a save record for port `p`: 0x58 bytes (R326). -/
def State.portRecord (s : State) (p : Nat) : List Byte :=
  let m := s.port p
  padTo 0x58 (((List.range 7).flatMap fun q => toBytes 8 (accUnits (nth m.acc q 0)))
    ++ ((List.range 7).flatMap fun q => toBytes 4 (nth m.acc q 0)))

/-- The 1,024 bytes of a save of `kind` that completes with totals counter `seq` and requires ledger counter `lreq`. -/
def State.saveRecord (s : State) (kind : SaveKind) (seq lreq : Nat) : List Byte :=
  let body := padTo 0x3F8 (toBytes 4 seq ++ toBytes 4 lreq ++ toBytes 6 s.tickCount ++ toBytes 2 kind.code ++ toBytes 8 s.ntBooked
    ++ ((List.range 8).flatMap s.calcRecord) ++ ((List.range 2).flatMap s.portRecord))
  body ++ toBytes 4 (crc32 body) ++ toBytes 4 0

/-- The CRC of an area matches. -/
def State.areaCrc (s : State) (a : Nat) : Bool := s.pmSound (areaAt a) 0x400 && crc32 (s.pmBytes (areaAt a) 0x3F8) == s.rd32 (pmAddr (areaAt a + 0x3F8))
/-- SEQ of an area. -/
def State.areaSeq (s : State) (a : Nat) : Nat := s.rd32 (pmAddr (areaAt a))
/-- LREQ of an area. -/
def State.areaLreq (s : State) (a : Nat) : Nat := s.rd32 (pmAddr (areaAt a + 4))
/-- TICK of an area. -/
def State.areaTick (s : State) (a : Nat) : Nat := s.pmWord (areaAt a + 8) % 2 ^ 48
/-- KIND of an area. -/
def State.areaKind (s : State) (a : Nat) : Nat := s.pmWord (areaAt a + 8) / 2 ^ 48 % 256

/-- An area is complete (R327). -/
def State.areaComplete (s : State) (a : Nat) : Bool :=
  s.areaCrc a && (s.areaSeq a == s.scValue 1
    || (s.areaSeq a == s.scValue 1 + 1 && s.areaLreq a != 0 && decide (s.areaLreq a ≤ s.scValue 2)))

/-- The area of the current save (R327). -/
def State.currentArea (s : State) : Option Nat :=
  match s.areaComplete 0, s.areaComplete 1 with
  | true, true => if s.areaSeq 0 < s.areaSeq 1 then some 1 else some 0
  | true, false => some 0
  | false, true => some 1
  | false, false => none

/-- A save started: its snapshot is taken now, for the area that does not hold the current save (R327, R330). -/
def State.startSave (s : State) (kind : SaveKind) (lreq : Nat) : State :=
  let area := match s.currentArea with
    | some 0 => 1
    | _ => 0
  let bytes := s.saveRecord kind (s.scValue 1 + 1) lreq
  ({ s.setFlag SYS_TOT_STAT.BUSY true with
    tot := { s.tot with save := some { kind := kind, area := area, bytes := bytes, lreq := lreq } } } : State).showHeld

/-- An occasion of R328: it starts a save, or waits for the save in progress; none runs while saves are barred (R333). -/
def State.saveOccasion (s : State) (kind : SaveKind) : State :=
  if s.tot.barred then s
  else match s.tot.save with
    | none => s.startSave kind 0
    | some _ =>
      if s.tot.waiting.contains kind then s
      else { s with tot := { s.tot with waiting := kind :: s.tot.waiting } }

/-- The order in which waiting occasions are served (R328). -/
def nextKind (l : List SaveKind) : Option SaveKind :=
  [SaveKind.reset, .warning, .sleep, .periodic].find? l.contains

/-- The ledger counter advanced to `n`, one increment at a time. -/
def State.advanceLedger (s : State) (n : Nat) : State := forN (fun _ s => s.scIncrement 2) (n - s.scValue 2) s

/-- The three steps of R327 for a save: pages in ascending order, the ledger counter to LREQ, the totals counter. -/
def State.commitSave (s : State) (v : SaveSt) : State :=
  let s := s.pmProgramAll (wordsOf (areaAt v.area) 128 v.bytes)
  let s := if v.lreq = 0 then s else s.advanceLedger v.lreq
  s.scIncrement 1

/-- The registers that show the current save (R337). -/
def State.showSave (s : State) : State :=
  match s.currentArea with
  | none => s
  | some a => ((s.setFld SYS_TOT_STAT.AREA a).setFld SYS_TOT_STAT.KIND (s.areaKind a)).setFld SYS_TOT_SEQ.SEQ (s.areaSeq a)

/-- A save cut after `n` of its words, its ledger advances and its counter increment (R327).
(DESIGN CHOICE, log entry 15) -/
def State.saveCut (s : State) (n : Nat) : State :=
  match s.tot.save with
  | none => { s with tot := { s.tot with waiting := [] } }
  | some v =>
    let s : State := { s with tot := { s.tot with save := none, waiting := [] } }
    let s := s.pmProgramAll ((wordsOf (areaAt v.area) 128 v.bytes).take n)
    if n ≤ 128 then s
    else
      let s := if v.lreq = 0 then s else s.advanceLedger (min v.lreq (s.scValue 2 + (n - 128)))
      if 128 + v.lreq < n then s.scIncrement 1 else s


/-- The interval of PERIODIC occasions in ticks (R337): PERIOD outside 10 to 3,600 acts as the nearer limit. -/
def State.savePeriod (s : State) : Nat := 100000 * min 3600 (max 10 (s.fld SYS_TOT_CFG.PERIOD))

/-- The whole intervals of `p` ticks since the start tick or the last exit from SLEEP (R328, R332).
(DEDUCED, log entry 55) -/
def State.intervals (s : State) (p : Nat) : Nat := (s.le.tick - s.tot.origin) / p

/-- PERIODIC_SAVE (R328): every PERIOD seconds from the start tick or the exit from SLEEP; no PERIODIC occasion arises in SLEEP.
-/
def execPeriodicSave (s : State) : Out :=
  State.out <|
    if s.inSleep || s.pwr.stall || !s.tot.merged || decide (s.intervals s.savePeriod ≤ s.tot.periods) then s
    else ({ s with tot := { s.tot with periods := s.intervals s.savePeriod } } : State).saveOccasion .periodic

/-- TOTALS_SAVE_END (R327, R328, R331): the pages are committed and the counters advance; then the next occasion is served,
WARNING saves following one another until PF_WARN deasserts or a brown stall is entered; none follows a RESET save, at whose end
the SYSRST comes. A run mark that waits goes before the next save unless an occasion waited before it; the writers that waited
follow the last save (R445). -/
def execTotalsSaveEnd (s : State) : Out :=
  State.out <|
    match s.tot.save with
    | none => s
    | some v =>
      if s.pwr.stall then s else
      let s := { (s.commitSave v).setFlag SYS_TOT_STAT.BUSY false with tot := { s.tot with save := none } }
      let s := s.showSave
      let s : State := if v.kind = .merge then { s with tot := { s.tot with merged := true } } else s
      let again := v.kind = .warning ∧ s.flag PWR_STAT.PFW = true ∧ s.inSleep = false ∧ s.tot.stalled = false
      let waiting := s.tot.waiting.filter fun k => !(v.kind == .warning && k == .periodic)
      let waiting := if again then .warning :: waiting else waiting
      match if v.kind = .reset then none else nextKind waiting with
      | none => ({ s with tot := { s.tot with waiting := [] } } : State).pmServe
      | some k =>
        let s := if waiting.any s.tot.ahead.contains then s else s.laterServe 1
        { s with tot := { s.tot with waiting := waiting.filter (· != k), ahead := s.tot.ahead.filter (· != k) } }.startSave k 0

/-- The run mark written, with the claim of totals saves (R332, R445). -/
def State.writeRunMark (s : State) : State :=
  if s.tot.barred then s
  else { s with tot := { s.tot with ahead := s.tot.waiting } }.pmLater 1 0x8800 (s.tickCount % 2 ^ 48)

/-- RUN_MARK (R332): once per second from the start tick or the exit from SLEEP, while the node runs in any profile but SLEEP. -/
def execRunMark (s : State) : Out :=
  State.out <|
    if s.inSleep || s.pwr.stall || s.boot.step != 10 || decide (s.intervals 100000 ≤ s.tot.marks) then s
    else ({ s with tot := { s.tot with marks := s.intervals 100000 } } : State).writeRunMark

/-- The node leaves SLEEP: the run mark is written, and the periods of saves and marks begin again (R328, R332). -/
def State.marksRestart (s : State) : State :=
  ({ s with tot := { s.tot with origin := s.le.tick, periods := 0, marks := 0 } } : State).writeRunMark

/-- Accumulators read back from a save record: `n` of them, 64-bit units at `a` and 32-bit fractions at `f`. -/
def State.readAccs (s : State) (a f n : Nat) : List Nat :=
  (List.range n).map fun q => s.rd64 (pmAddr (a + 8 * q)) * 2 ^ 32 + s.rd32 (pmAddr (f + 4 * q))

/-- Calculator `c` loaded from save area `a` (R333); in OFF it has no N_prev of its own (R298). -/
def State.loadCalc (s : State) (a c : Nat) : State :=
  let o := areaAt a + 0x60 * c
  let st := s.rd32 (pmAddr (o + 0x70))
  let s := s.setCalc c { s.calculator c with
    acc := s.readAccs (o + 0x18) (o + 0x48) 6, nPrev := s.rd32 (pmAddr (o + 0x60)), npv := bit st 14 && s.mhField c 0 != 0,
    tsV := s.rd32 (pmAddr (o + 0x68)), trV := s.rd32 (pmAddr (o + 0x6C)), valid := bit st 7 }
  let s := s.setReg (MH_C_FTIME c) (BitVec.ofNat 32 (s.rd32 (pmAddr (o + 0x64))))
  let s := (s.setFld (MH_C_STAT.CAUSE c) (bits st 5 0)).setFld (MH_C_STAT.FAULT c) (bits st 6 6)
  (s.setFld (MH_C_STAT.SEEN c) (bits st 13 8)).mhShow c

/-- Port `p` loaded from save area `a` (R333). -/
def State.loadPort (s : State) (a p : Nat) : State :=
  let o := areaAt a + 0x58 * p
  (s.setPort p { s.port p with acc := s.readAccs (o + 0x318) (o + 0x350) 7 }).meShow p

/-- Every total loaded from the current save (R333). -/
def State.loadTotals (s : State) (a : Nat) : State :=
  forN (fun p s => s.loadPort a p) 2 (forN (fun c s => s.loadCalc a c) 8 s)

/-- The state of a merge: the machine, the entries to write, and whether one is of an outage. -/
structure Merge where
  st : State
  entries : List LedgerEntry
  outage : Bool

/-- One entry added to a merge; a full ledger takes none (R309). -/
def Merge.book (m : Merge) (e : LedgerEntry) (outage : Bool) : Merge :=
  if 4096 ≤ m.st.ledgerHeld + m.entries.length then { m with st := m.st.countUp MH_LEDGER_HELD.LOST }
  else { m with entries := m.entries ++ [e], outage := m.outage || outage }

/-- The entries of a merge written, all under COMMIT `l`, so that none counts before the MERGE save does (R329, R334).
(DESIGN CHOICE, log entry 18) -/
def State.mergeWrite (s : State) (l : Nat) (es : List LedgerEntry) : State :=
  let next := s.fld MH_LEDGER_NEXT.ENTRY_NO
  (s.pmProgramAll ((List.range es.length).flatMap fun i =>
    s.ledgerWords (next + i) l (nth es i { type := 0, block := 0, inst := 0 }))).ledgerGrow es.length

/-- Hours from the snapshot tick to now, rounded up, stopping at 0xFFF; 0xFFF after a VAULT-UP (R336). -/
def State.outageHours (s : State) (t0 : Nat) : Nat :=
  if s.flag SYS_RST_CAUSE.VAULTUP then 0xFFF
  else min 0xFFF ((s.tickCount - t0 + 117964799) / 117964800)

/-- A binary64 amount rounded down, stopping at 0xFFFF_FFFF. -/
def floor32 (x : Nat) : Nat := min 0xFFFFFFFF ((ffloor b64 x).getD 0).toNat

/-- Calculator `c` merged over the interval from the snapshot at tick `t0` (R334, R336). -/
def Merge.calc (t0 : Nat) (m : Merge) (c : Nat) : Merge :=
  let s := m.st
  let k := s.calculator c
  if s.mhField c 0 = 0 ∨ s.mhField c 3 ≠ 0 ∨ k.npv = false then m else
  let now := (s.reg (AON_PLS_CNT (s.mhField c 4))).toNat
  let hours := s.outageHours t0
  if s.flag SYS_RST_CAUSE.VAULTUP then
    { m with st := s.setCalc c { k with nPrev := now } }.book
      { type := 5, block := 8, inst := c, field := 0xFFF + 2 ^ 14, before := 0xFFFFFFFF, after := 0 } true
  else
    let n : Nat := ((now + 2 ^ 32 - k.nPrev) % 2 ^ 32) * s.mhField c 6
    let s := s.setCalc c { k with nPrev := now }
    if n = 0 then { m with st := s } else
    let dv := f64 n
    let s := s.mhAdd c 2 dv
    let litres : Nat := min 0xFFFFFFFF (n / 1000)
    if s.flag (MH_C_STAT.FAULT c) || !k.valid then
      { m with st := s.mhAdd c 5 dv }.book
        { type := 5, block := 8, inst := c, field := hours + 2 ^ 14, before := litres, after := 0 } true
    else match s.mhEnergy c dv (fconv b32 b64 k.tsV) (fconv b32 b64 k.trV) with
      | some (q, e) =>
        { m with st := s.mhAdd c (3 + q) e }.book
          { type := 5, block := 8, inst := c, field := hours + 2 ^ (12 + q), before := litres,
            after := floor32 (fdiv b64 e (f64 3600)) } true
      | none =>
        { m with st := s }.book
          { type := 5, block := 8, inst := c, field := hours + 2 ^ 14, before := litres, after := 0 } true

/-- The run mark as the steward reads it (R332): 0, no mark, where it has an uncorrectable error (R438).
(DESIGN CHOICE, log entry 10) -/
def State.runMark (s : State) : Nat := if s.pmBad 0x8800 then 0 else s.pmWord 0x8800

/-- The bounds of an unsaved interval, lower and upper in AON ticks (R335), from the current area `a` and the run mark. -/
def State.unsavedBounds (s : State) (a : Nat) : Nat × Nat :=
  let t0 := s.areaTick a
  let mark := s.runMark
  let other := 1 - a
  let otherTick := s.areaTick other
  let partialSave := s.pmSound (areaAt other) 16 && s.areaSeq other == s.scValue 1 + 1 && decide (t0 < otherTick)
  let warning := s.areaKind a == 1
  let lo := max t0 mark
  let hi := mark + 32768
  let lo' := if partialSave then max lo otherTick else lo
  let hi' := if partialSave then min hi (otherTick + 9) else if warning then min hi (t0 + 18) else hi
  let upper :=
    if lo' ≤ hi' then hi' - t0
    else if partialSave then otherTick + 9 - t0
    else if warning then 18
    else 0xFFFFFFFF
  (lo' - t0, upper)

/-- A cut is unsaved unless a completed RESET save, or a SLEEP save not left, precedes it (R335). -/
def State.cutUnsaved (s : State) (a : Nat) : Bool :=
  !(s.areaKind a == 3 || (s.areaKind a == 2 && decide (s.runMark < s.areaTick a)))

/-- UNSAVED_INTERVAL entries for each enabled port and each analogue-flow calculator (R335, R336). -/
def Merge.unsaved (m : Merge) (a : Nat) : Merge :=
  let (lower, upper) := m.st.unsavedBounds a
  let m := (List.range 8).foldl (fun m c =>
    if m.st.mhField c 0 ≠ 0 ∧ m.st.mhField c 3 = 1 then
      m.book { type := 6, block := 8, inst := c, before := lower, after := upper } false
    else m) m
  (List.range 2).foldl (fun m p =>
    if m.st.meField p 0 ≠ 0 then
      m.book { type := 6, block := 9, inst := p, before := lower, after := upper } false
    else m) m

/-- Seconds from the snapshot to this merge, rounded up (R337). -/
def State.outageSeconds (s : State) (t0 : Nat) : Nat :=
  if s.flag SYS_RST_CAUSE.VAULTUP then 0xFFFFFFFF else min 0xFFFFFFFF ((s.tickCount - t0 + 32767) / 32768)

/-- What the steward does with the totals at a return (R327, R333 to R336): loads them, merges, bounds an unsaved cut, and
starts the MERGE save. -/
def State.returnTotals (s : State) : State :=
  match s.currentArea with
  | none =>
    let s := if s.flag SYS_RST_CAUSE.VAULTUP then s.setFld SYS_TOT_OUT.SEC 0xFFFFFFFF else s
    if 0 < s.scValue 1 then
      { s.setFld SYS_TOT_STAT.CODE 0x33 with tot := { s.tot with barred := true } }
    else { s with tot := { s.tot with barred := false } }.startSave .merge 0
  | some a =>
    let s := if s.areaSeq a = s.scValue 1 then s else s.scIncrement 1
    let s : State := { (s.loadTotals a).setFld SYS_TOT_STAT.CODE 0 with tot := { s.tot with barred := false } }
    let t0 := s.areaTick a
    let unsaved := s.cutUnsaved a
    let m := (List.range 8).foldl (Merge.calc t0) { st := s, entries := [], outage := false }
    let m := if unsaved then m.unsaved a else m
    let lreq := if m.entries.isEmpty then 0 else s.scValue 2 + m.entries.length
    let s := m.st.mergeWrite lreq m.entries
    let s := (s.setFlag SYS_TOT_STAT.UNSAVED unsaved).setFlag SYS_TOT_STAT.MERGED m.outage
    let s := (s.setFld SYS_TOT_OUT.SEC (s.outageSeconds t0)).showSave
    let s := forN (fun c s => s.mhShow c) 8 s
    s.startSave .merge lreq

end Sys2Proof.Machine
end

