-- ==== Sys2Proof/Machine/Session.lean ====
section
/-! DEFINITION. The waystation session: its rights and its end (R369, R372). -/

namespace Sys2Proof.Machine

/-- The waystation's state set. -/
def State.setWay (s : State) (w : WaySt) : State := { s with way := w }

/-- Whether the open session holds right `r` (0 CHANGE, 1 IMAGE, 2 METROLOGY, 3 COMMISSION, 4 SERVICE, 5 LIFECYCLE). -/
def State.hasRight (s : State) (r : Nat) : Bool :=
  match s.way.sess with
  | some x => bit x.rights r
  | none => false

/-- TUNE_STAT.AUTH set or cleared; its loss is an event (R174, R188). -/
def State.setAuth (s : State) (b : Bool) : State :=
  let lost := s.flag TUNE_STAT.AUTH && !b
  let s := s.setFlag TUNE_STAT.AUTH b
  if lost then s.setFlag TUNE_EVT.AUTH_LOST true else s

/-- MH_STAT.MAUTH set or cleared; its loss is an event (R306, R313). -/
def State.setMauth (s : State) (b : Bool) : State :=
  let lost := s.flag MH_STAT.MAUTH && !b
  let s := s.setFlag MH_STAT.MAUTH b
  if lost then s.setFlag MH_EVT.MAUTH_LOST true else s

/-- The status bits that the session's rights set (R174, R306, R370, R493). -/
def State.showRights (s : State) : State :=
  let s := (s.setAuth (s.hasRight 3)).setMauth (s.hasRight 2)
  (s.setFlag LCS_STAT.SRV (s.hasRight 4)).setFlag LCS_STAT.LCR (s.hasRight 5)

/-- The session closes (R372): its rights clear, an injection it authorised is aborted (R183), its change set is discarded
(R514), and a session that OPEN has begun ends as well. -/
def State.sessionClose (s : State) : State :=
  let auth := s.flag TUNE_STAT.AUTH
  let s := (s.setWay { s.way with sess := none, hand := none }).showRights
  let s := if auth then s.injAbort 2 else s
  { s with live := { s.live with setNo := 0, set := [] } }

/-- AUTH clears while the session may stay open: the node leaves SERVICE (R174, R495). -/
def State.clearAuth (s : State) : State :=
  let auth := s.flag TUNE_STAT.AUTH
  let s := s.setAuth false
  if auth then s.injAbort 2 else s

end Sys2Proof.Machine
end

