-- ==== Sys2Proof/Machine/VltOps.lean ====
section
/-! DEFINITION. The vault: its SRAM, its key slots and their updates, zeroisation, the status it shows (R461 to R473, R480). -/

namespace Sys2Proof.Machine

/-- The vault's state set. -/
def State.setVlt (s : State) (v : VltSt) : State := { s with vlt := v }

/-- `n` bytes of the vault SRAM. -/
def State.vaultBytes (s : State) (a : Nat) : Nat → List Byte
  | 0 => []
  | n + 1 => sparseGet zeroDefault s.vlt.sram a :: s.vaultBytes (a + 1) n

/-- A word of the vault SRAM. -/
def State.vaultWord (s : State) (a : Nat) : Nat := ofBytes (s.vaultBytes a 4)

/-- Bytes written into a sparse memory of zeros. -/
def sparseBytes (m : List Host.Cell) (a : Nat) : List Byte → List Host.Cell
  | [] => m
  | b :: t => sparseBytes (sparseSet zeroDefault m a b) (a + 1) t

/-- A word of the vault SRAM written; each write is atomic (R468). -/
def State.vaultWrite (s : State) (a v : Nat) : State :=
  s.setVlt { s.vlt with sram := sparseBytes s.vlt.sram a (toBytes 4 v) }

/-- Words written in order. -/
def State.vaultWriteAll (s : State) : List (Nat × Nat) → State
  | [] => s
  | (a, v) :: t => (s.vaultWrite a v).vaultWriteAll t

/-- Where copy `c` of slot `k` lies (R468). -/
def copyAt (k c : Nat) : Nat := 0x200 + 0x70 * k + 0x38 * c

/-- A copy whose CRC matches (R470). (DEDUCED, log entry 65) -/
def State.copyValid (s : State) (k c : Nat) : Bool :=
  crc32 (s.vaultBytes (copyAt k c) 0x34) == s.vaultWord (copyAt k c + 0x34)

/-- GEN of a copy. -/
def State.copyGen (s : State) (k c : Nat) : Nat := s.vaultWord (copyAt k c + 0x30)

/-- The current copy of a slot (R470). (DEDUCED, log entry 65) -/
def State.currentCopy (s : State) (k : Nat) : Option Nat :=
  match s.copyValid k 0, s.copyValid k 1 with
  | true, true => if s.copyGen k 0 < s.copyGen k 1 then some 1 else some 0
  | true, false => some 0
  | false, true => some 1
  | false, false => none

/-- A word of a slot's current copy, 0 where there is none. -/
def State.slotWord (s : State) (k off : Nat) : Nat :=
  match s.currentCopy k with
  | some c => s.vaultWord (copyAt k c + off)
  | none => 0

/-- Policy word, TYPE, rights, uses and use limit of a slot (R469). -/
def State.slotPol (s : State) (k : Nat) : Nat := s.slotWord k 0
/-- TYPE of a slot; 0 is EMPTY. -/
def State.slotType (s : State) (k : Nat) : Nat := s.slotPol k % 16
/-- USE_LIMIT of a slot. -/
def State.slotLimit (s : State) (k : Nat) : Nat := s.slotWord k 4 % 2 ^ 16
/-- The wrapped material of a slot. -/
def State.slotWrapped (s : State) (k : Nat) : List Byte :=
  match s.currentCopy k with
  | some c => s.vaultBytes (copyAt k c + 8) 40
  | none => []

/-- The writes of an update of slot `k` to a policy word, limit and wrapped material: words 0x00 to 0x2F and the CRC, GEN last
(R470). -/
def State.updateWords (s : State) (k pol limit : Nat) (wrapped : List Byte) : List (Nat × Nat) :=
  let (c, gen) := match s.currentCopy k with
    | some c => (1 - c, (s.copyGen k c + 1) % 2 ^ 32)
    | none => (0, 1)
  let body := toBytes 4 pol ++ toBytes 4 (limit % 2 ^ 16) ++ (wrapped ++ List.replicate 40 0).take 40
  let a := copyAt k c
  ((List.range 12).map fun i => (a + 4 * i, ofBytes ((body.drop (4 * i)).take 4)))
    ++ [(a + 0x34, crc32 (body ++ toBytes 4 gen)), (a + 0x30, gen)]

/-- The writes of an erase: an update to TYPE 0, then zeros over the former copy (R470). -/
def State.eraseWords (s : State) (k : Nat) : List (Nat × Nat) :=
  s.updateWords k 0 0 [] ++ (match s.currentCopy k with
    | some c => (List.range 14).map fun i => (copyAt k c + 4 * i, 0)
    | none => [])

/-- The life-cycle class of R462. -/
def State.lcClass (s : State) : Nat :=
  match s.fld LCS_STAT.STATE with
  | 0 => 0
  | 4 => 2
  | _ => 1

/-- The vault is zeroed (R467). -/
def State.zeroed (s : State) : Bool := s.lcClass != 0 && !s.vlt.root

/-- The approved mode (R480). -/
def State.approved (s : State) : Bool :=
  s.lcClass == 1 && !s.flag VLT_STAT.DBGSEEN && s.vlt.root && s.flag VLT_STAT.ST_DONE && !s.flag VLT_STAT.ST_FAIL
    && !s.flag VLT_STAT.TRNG_FAIL

/-- The registers that show the vault (R467, R480, R489), and the ZEROED cause (R507). -/
def State.vltShow (s : State) : State :=
  let s := s.setFlag VLT_STAT.ROOT s.vlt.root
  let s := s.setFlag VLT_STAT.ZEROED s.zeroed
  let s := s.setFlag VLT_STAT.APPROVED s.approved
  let s := s.setFld VLT_STAT.LCCLASS s.lcClass
  let s := forN (fun k s =>
    let s := s.setReg (VLT_SLOT_POL k) (BitVec.ofNat 32 (s.slotPol k))
    (s.setFld (VLT_SLOT_LIM.GEN k) (s.slotWord k 0x30 % 2 ^ 16)).setFld (VLT_SLOT_LIM.USE_LIMIT k) (s.slotLimit k)) 32 s
  if s.zeroed && s.lcClass == 1 then s.setCause 6 true else s

/-- A vault command ends (R475, R480). -/
def State.vltEnd (s : State) (code out : Nat) : State :=
  let s := s.setVlt { s.vlt with cmd := none, dropSram := false }
  let s := (s.setFld VLT_CMD_STAT.CODE code).setFld VLT_CMD_STAT.OUT out
  let s := (s.setFlag VLT_CMD_STAT.APPR s.approved).setFlag VLT_CMD_STAT.BUSY false
  s.setFlag VLT_EVT.DONE true

/-- Zeroisation, items 1 to 3 of R466: the root, its check value, the DRBG state and every slot copy become 0, the session
closes, a command in progress ends with TAMPER. -/
def State.zeroise (s : State) : State :=
  let keep (a : Nat) : Bool := decide (0x100 ≤ a) && decide (a < 0x200)
  let s := s.setVlt { s.vlt with sram := sparseClear (fun a => !keep a) s.vlt.sram, root := false }
  let s := s.sessionClose
  let s := if s.vlt.cmd.isSome then s.vltEnd Code.tamper 0 else s
  s.vltShow

/-- A tamper detection of source `src` (R466). -/
def State.tamper (s : State) (src : Nat) : State :=
  let s := s.zeroise
  let s := (s.setBit VLT_TAMP.SRC src true).countUp VLT_TAMP.COUNT
  let t := s.tickCount % 2 ^ 48
  let s := s.setReg64 VLT_TAMP_TICK0 VLT_TAMP_TICK1 t
  let s := s.vaultWriteAll [(0x100, (s.reg VLT_TAMP).toNat), (0x108, t % 2 ^ 32), (0x10C, t / 2 ^ 32)]
  s.setFlag VLT_EVT.TAMPER true

/-- The debug port is open: the test root applies and authorisations end (R463). -/
def State.dbgSeen (s : State) : State :=
  if s.flag VLT_STAT.DBGSEEN then s
  else
    let s := s.setFlag VLT_STAT.DBGSEEN true
    let s := if s.vlt.cmd.isSome then s.vltEnd Code.refusedState 0 else s
    s.sessionClose.vltShow

/-- Every slot whose current copy has EXPIRE is erased (R472). -/
def State.expireSlots (s : State) : State :=
  forN (fun k s => if bit (s.slotPol k) 6 then s.vaultWriteAll (s.eraseWords k) else s) 32 s

/-- The device ID as 8 bytes, most significant first. -/
def State.devId (s : State) : List Byte := toBytesBE 8 (s.reg64 VLT_DEVID_LO VLT_DEVID_HI)

/-- An ASCII string as bytes. -/
def ascii (t : String) : List Byte := t.toList.map fun c => BitVec.ofNat 8 c.toNat

/-- SP 800-108r1 in counter mode with HMAC-SHA-256: `bits` bits from a key, label and context (R462). -/
def kdf (key label ctx : List Byte) (nbits : Nat) : List Byte :=
  ((List.range ((nbits + 255) / 256)).flatMap fun i =>
    Config.hmac key (toBytesBE 4 (i + 1) ++ label ++ [0] ++ ctx ++ toBytesBE 4 nbits)).take (nbits / 8)

/-- The root as stored. -/
def State.root (s : State) : List Byte := s.vaultBytes 0 32

/-- The test root (R463). -/
def State.testRoot (s : State) : List Byte := Config.hmac (Config.sha256 (ascii "HALDIQUE OCTIDE TEST ROOT")) s.devId

/-- The effective root (R463). -/
def State.effRoot (s : State) : List Byte := if s.flag VLT_STAT.DBGSEEN then s.testRoot else s.root

/-- The order n of P-256. (PRESUMED, log entry 12) -/
def p256N : Nat := 0xFFFFFFFF00000000FFFFFFFFFFFFFFFFBCE6FAADA7179E84F3B9CAC2FC632551
/-- The order n of P-384. (PRESUMED, log entry 12) -/
def p384N : Nat :=
  0xFFFFFFFFFFFFFFFFFFFFFFFFFFFFFFFFFFFFFFFFFFFFFFFFC7634D81F4372DDF581A0DB248B0A77AECEC196ACCC52973

/-- The attestation private key under a root, class byte and debug byte (R462). -/
def attestKey (root : List Byte) (cls dbg : Nat) : Nat :=
  ofBytesBE (kdf root (ascii "ATTEST") (toBytes 1 cls ++ toBytes 1 dbg) 320) % (p256N - 1) + 1

/-- The attestation key that signs (R462, R463). -/
def State.attestPriv (s : State) : Nat := attestKey s.effRoot s.lcClass (b2n (s.flag VLT_STAT.DBGSEEN))

/-- The attestation public key of PROVISION and CERT (R464). -/
def State.attestPub (s : State) : List Byte := Config.ecPub false (attestKey s.root 1 0)

/-- The key that wraps the material of slot `k` (R462). -/
def State.slotKek (s : State) (k : Nat) : List Byte :=
  kdf s.effRoot (ascii "SLOTWRAP") (toBytes 1 k ++ toBytes 1 s.lcClass ++ toBytes 1 (b2n (s.flag VLT_STAT.DBGSEEN))) 256

/-- The material of a slot; under the test root it does not unwrap (R463). -/
def State.slotKey (s : State) (k : Nat) : Option (List Byte) :=
  if s.flag VLT_STAT.DBGSEEN then none else Config.kwUnwrap (s.slotKek k) (s.slotWrapped k)

/-- The public credential x ‖ y of a TYPE 4 slot. -/
def State.credKey (s : State) (k : Nat) : Option (List Byte) :=
  match s.slotKey k with
  | none => none
  | some x => (Config.pointY x (bit (s.slotPol k) 4)).map (x ++ ·)

/-- One use of a limited slot: an update with USE_LIMIT − 1 (R471). -/
def State.useWords (s : State) (k : Nat) : List (Nat × Nat) :=
  if bit (s.slotPol k) 5 then s.updateWords k (s.slotPol k) (s.slotLimit k - 1) (s.slotWrapped k) else []

/-- Whether a slot has spent its uses (R471). -/
def State.spent (s : State) (k : Nat) : Bool := bit (s.slotPol k) 5 && s.slotLimit k == 0

/-- The start-up self-tests have not ended, or have failed: every command is refused (R477, R479). -/
def State.untested (s : State) : Bool := !s.flag VLT_STAT.ST_DONE || s.flag VLT_STAT.ST_FAIL

/-- Commands that need random values are refused (R479). -/
def State.noRandom (s : State) : Bool := s.flag VLT_STAT.TRNG_FAIL

/-- The stored check value is that of the stored root (R461). (DESIGN CHOICE, log entry 15) -/
def State.rootMatches (s : State) : Bool := s.vaultBytes 0x20 32 == Config.sha256 (s.root ++ s.devId)

end Sys2Proof.Machine
end

