-- ==== Sys2Proof/Machine/LcsOps.lean ====
section
/-! DEFINITION. Life cycle: fuses and states (R490 to R496), the health record (R501), replacement causes (R507). -/

namespace Sys2Proof.Machine

/-- The life-cycle block's state set. -/
def State.setLcs (s : State) (l : LcsSt) : State := { s with lcs := l }

/-- A state bit by majority of its three fuses (R491): 0 PROVISIONED, 1 DEPLOYED, 2 and 3 DECOMMISSIONED.
(DEDUCED, log entry 50) -/
def State.fuseBit (s : State) (i : Nat) : Bool := decide (2 ≤ nth s.lcs.fuses i 0)

/-- The life-cycle state's code (R490). (DEDUCED, log entry 50) -/
def State.lcState (s : State) : Nat :=
  if s.fuseBit 2 || s.fuseBit 3 then 4
  else if s.fuseBit 1 then (if s.lcs.service then 3 else 2)
  else if s.fuseBit 0 then 1
  else 0

/-- The debug port is open (R490). -/
def State.debugOpen (s : State) : Bool := s.lcState == 0 || (s.lcs.debug && (s.lcState == 1 || s.lcState == 3))

/-- Word 0 of the health record as its last writer has it: 0 where a read finds it bad (R438, R501).
(DESIGN CHOICE, log entry 10) -/
def State.healthWord (s : State) : Nat :=
  if s.pmBad 0x2800 && !(s.pm.later.any fun x => x.2.1 == 0x2800) then 0 else s.pmSeen 0x2800

/-- The registers that show fuses, state and health (R492, R501, R510). -/
def State.lcsShow (s : State) : State :=
  let s := s.setFld LCS_STAT.FUSE (b2n (s.fuseBit 0) + 2 * b2n (s.fuseBit 1) + 4 * b2n (s.fuseBit 2) + 8 * b2n (s.fuseBit 3))
  let s := s.setFld LCS_STAT.STATE s.lcState
  let own := s.lcs.owner.any (· != 0)
  let s := s.setFlag LCS_STAT.OWNER own
  let s := forN (fun i s => s.setReg (LCS_OWNER i) (BitVec.ofNat 32 (nth (if own then s.lcs.owner else s.lcs.staged) i 0))) 8 s
  let s := (s.setFlag LCS_STAT.DEBUG s.debugOpen).setFlag VLT_STAT.DEBUG s.debugOpen
  s.setReg LCS_HEALTH (BitVec.ofNat 32 (s.healthWord % 2 ^ 21 + 2 ^ 21 * b2n (s.flag LCS_HEALTH.CPBOOT)))

/-- A write of an owner word: it stages the hash (R492, R494). (DEDUCED, log entry 50) -/
def State.ownerWrite (s : State) (i : Nat) (v : Word) : State :=
  if !s.lcs.owner.any (· != 0) || decide (s.lcState < 2) then (s.setLcs { s.lcs with staged := putAt s.lcs.staged i v.toNat }).lcsShow else s

/-- The RESET save of R328 where R329 requires one. -/
def State.resetSave (s : State) : State :=
  if s.tot.merged && s.flag SYS_CLK_STAT.HFXO_ON && s.flag SYS_CLK_STAT.PLL_LOCK && !s.inSleep && !s.pwr.stall then
    s.saveOccasion .reset
  else s

/-- A RESET save runs or waits. -/
def State.resetSaving (s : State) : Bool :=
  s.tot.save.any (fun v => v.kind == .reset) || s.tot.waiting.contains .reset

/-- A SYSRST is asked for with its cause, bit `b` of SYS_RST_CAUSE (R22, R23); one that is already coming absorbs it.
(DEDUCED, log entry 51) -/
def State.askSysrst (s : State) (b : Nat) (save : Bool) : State :=
  if s.rst.sys then s
  else
    let s := s.setReg SYS_RST_CAUSE (BitVec.ofNat 32 (putBit (s.reg SYS_RST_CAUSE).toNat b true))
    let s := { s with rst := { s.rst with sys := true } }
    if save then s.resetSave else s

/-- A CPRST is asked for; a SYSRST that is coming absorbs it (R18, R23). (DEDUCED, log entry 51) -/
def State.askCprst (s : State) (b : Nat) : State :=
  if s.rst.sys ∨ s.rst.cp then s
  else
    let s := s.setReg SYS_RST_CAUSE (BitVec.ofNat 32 (putBit (s.reg SYS_RST_CAUSE).toNat b true))
    { s with rst := { s.rst with cp := true } }

/-- A self-test in progress is cut short (R500). -/
def State.bistCut (s : State) : State :=
  match s.lcs.bist with
  | none => s
  | some b => s.setLcs { s.lcs with bist := some { b with cut := true } }

/-- What leaving SERVICE does (R495). -/
def State.serviceLeft (s : State) : State :=
  let s := s.forcesDrop.clearAuth
  let s := if s.hasRight 3 then s.sessionClose else s
  (s.bistCut).setLcs { s.bistCut.lcs with service := false, debug := false }

/-- The health word changed: bit `b` set or cleared in PM and in LCS_HEALTH (R501), and the causes it decides (R507). -/
def State.setHealth (s : State) (b : Nat) (v : Bool) : State :=
  let s := (s.pmLater 4 0x2800 (putBit s.healthWord b v)).lcsShow
  let s := s.setCause 2 (s.fld LCS_HEALTH.SA != 0)
  let s := s.setCause 3 (s.fld LCS_HEALTH.LE != 0)
  let s := s.setCause 7 (s.fld LCS_HEALTH.CAN != 0)
  s.setCause 8 (s.flag LCS_HEALTH.MESPARE)

/-- The replacement causes that are kept across a start: those whose condition still holds are set again (R508). -/
def State.healthCauses (s : State) : State :=
  let s := if s.fld LCS_HEALTH.SA != 0 then s.setCause 2 true else s
  let s := if s.fld LCS_HEALTH.LE != 0 then s.setCause 3 true else s
  let s := if s.fld LCS_HEALTH.CAN != 0 then s.setCause 7 true else s
  let s := if s.flag LCS_HEALTH.MESPARE then s.setCause 8 true else s
  if s.pwr.fired.any id then s.setCause 0 true else s

/-- One step of a fused operation: the vault zeroised, a bit of the owner key hash, a fuse of a state bit (R491, R496). -/
inductive FuseStep where
  | zeroise
  | owner (i : Nat)
  | state (b : Nat)
  deriving DecidableEq, Repr

/-- The steps of a fused operation in order (R493, R496). (DEDUCED, log entry 50) -/
def State.fuseSteps (s : State) : List FuseStep :=
  let left (b : Nat) : List FuseStep := List.replicate (3 - nth s.lcs.fuses b 0) (.state b)
  match s.lcs.op with
  | some 1 => left 0
  | some 2 => ((List.range 256).filter fun i => bit (nth s.lcs.staged (i / 32) 0) (i % 32)
      && !bit (nth s.lcs.owner (i / 32) 0) (i % 32)).map .owner ++ left 1
  | some 5 => .zeroise :: (left 2 ++ left 3)
  | _ => []

/-- One step done. -/
def State.fuseStep (s : State) : FuseStep → State
  | .zeroise => s.zeroise
  | .owner i => s.setLcs { s.lcs with owner := putAt s.lcs.owner (i / 32) (putBit (nth s.lcs.owner (i / 32) 0) (i % 32) true) }
  | .state b => s.setLcs { s.lcs with fuses := putAt s.lcs.fuses b (nth s.lcs.fuses b 0 + 1) }

/-- The code of an LCS command, or what it may do (R493). (DEDUCED, log entry 50) -/
def State.lcsCheck (s : State) (op : Nat) : Nat :=
  let st := s.lcState
  let from_ := nth [[], [0], [1], [2], [3], [0, 1, 2, 3], [1, 3]] op []
  let needs := if op = 3 then some 4 else if op = 6 ∨ (op = 5 ∧ 2 ≤ st) then some 5 else none
  if op < 1 ∨ 6 < op then Code.format
  else if !from_.contains st then Code.refusedState
  else if op = 1 ∧ !(s.vlt.root && s.flag VLT_STAT.CERT) then Code.refusedState
  else if op = 2 ∧ s.debugOpen then Code.refusedState
  else if op = 2 ∧ s.lcs.staged.all (· == 0) then Code.range
  else if op = 2 ∧ (List.range 8).any fun i => nth s.lcs.owner i 0 &&& (2 ^ 32 - 1 - nth s.lcs.staged i 0) != 0 then
    Code.refusedLocked
  else if needs.any fun r => !s.hasRight r then Code.refusedAuth
  else if s.flag PWR_STAT.PFW ∨ ((op = 1 ∨ op = 2 ∨ op = 5) ∧ s.lcs.bist.isSome) then Code.refusedState
  else Code.ok

/-- An LCS command ends. -/
def State.lcsEnd (s : State) (code : Nat) : State :=
  ((s.setFld LCS_CMD_STAT.CODE code).setFlag LCS_CMD_STAT.BUSY false).setFlag LCS_EVT.CMD true

/-- A write of LCS_CMD (R493). -/
def State.lcsCmdWrite (s : State) (v : Word) : State :=
  let op := LCS_CMD.OP.of v
  if LCS_CMD.KEY.of v ≠ 0x1C5A ∨ s.flag LCS_CMD_STAT.BUSY then s
  else
    let code := s.lcsCheck op
    if code ≠ Code.ok then s.lcsEnd code
    else if op = 3 then ((s.setLcs { s.lcs with service := true }).lcsShow.setFlag LCS_EVT.STATE true).lcsEnd Code.ok
    else if op = 4 then (s.serviceLeft.lcsShow.setFlag LCS_EVT.STATE true).lcsEnd Code.ok
    else if op = 6 then ((s.setLcs { s.lcs with debug := true }).lcsShow.dbgSeen).lcsEnd Code.ok
    else ((s.setLcs { s.lcs with op := some op }).setFlag LCS_CMD_STAT.BUSY true).resetSave

end Sys2Proof.Machine
end

