-- ==== Sys2Proof/Machine/LeAdmit.lean ====
section
/-! DEFINITION. Admission of loop slots and the two cell timetables (R124 to R129, R157). -/

namespace Sys2Proof.Machine

/-- What a slot asks for: period and phase in ticks, reserved counts, ready offset in the timetable's cycles, and the inner
slot of its cascade link. -/
structure SlotReq where
  slot : Nat
  k : Nat
  p : Nat
  w : Nat
  r : Nat
  inner : Option Nat
  deriving DecidableEq, Repr

/-- A slot placed: its cell, offset, period, phase and window length. -/
structure Placed where
  slot : Nat
  cell : Nat
  ofs : Nat
  k : Nat
  p : Nat
  w : Nat
  deriving DecidableEq, Repr

/-- Admission in progress: the slots placed, and those refused with their codes. -/
structure Admission where
  placed : List Placed := []
  refused : List (Nat × Nat) := []
  deriving DecidableEq, Repr

/-- The timetable admission works for: cycles in a tick, the cells in service, the cell each slot must keep, and whether
periods may be raised (R127, R128). -/
structure AdmitCfg where
  cycles : Nat
  cells : List Nat
  pin : Nat → Option Nat
  raise : Bool

/-- Window length W of R125. -/
def windowLen (m s : Nat) : Nat := 76 + m + 6 * s

/-- The load of a cell as a fraction (R125). (DESIGN CHOICE, log entry 25) -/
def cellLoad (cycles c : Nat) : List Placed → Nat × Nat
  | [] => (0, 1)
  | a :: t =>
    let (n, d) := cellLoad cycles c t
    if a.cell = c then (n * (cycles * a.k) + a.w * d, d * (cycles * a.k)) else (n, d)

/-- Whether a window at `ofs` conflicts with a placed slot on its cell (R126, condition 4). -/
def conflicts (cell ofs w k p : Nat) (b : Placed) : Bool :=
  b.cell == cell && decide (b.ofs < ofs + w ∧ ofs < b.ofs + b.w)
    && (max p b.p - min p b.p) % Nat.gcd k b.k == 0

/-- The smallest admissible offset from `ofs` on, among `n` offsets (R126). -/
def firstOfs (l : List Placed) (cycles cell w k p : Nat) : Nat → Nat → Option Nat
  | 0, _ => none
  | n + 1, ofs =>
    if cycles < ofs + w then none
    else if l.any (conflicts cell ofs w k p) then firstOfs l cycles cell w k p n (ofs + 1)
    else some ofs

/-- A cell put in order of load ascending, then number ascending (R127). -/
def putCell (load : Nat → Nat × Nat) (c : Nat) : List Nat → List Nat
  | [] => [c]
  | d :: t =>
    let (n, q) := load c
    let (n', q') := load d
    if n * q' < n' * q ∨ (n * q' = n' * q ∧ c < d) then c :: d :: t else d :: putCell load c t

/-- The place a slot finds at period `k` (R126, R127). -/
def tryPlace (g : AdmitCfg) (l : List Placed) (q : SlotReq) (k p : Nat) : Option (Nat × Nat) :=
  let cells := match g.pin q.slot with
    | some c => [c]
    | none => g.cells.foldr (putCell fun c => cellLoad g.cycles c l) []
  cells.findSome? fun c =>
    let (n, d) := cellLoad g.cycles c l
    if 9 * (d * (g.cycles * k)) < 10 * (n * (g.cycles * k) + q.w * d) then none
    else (firstOfs l g.cycles c q.w k p 101 q.r).map fun o => (c, o)

/-- Periods tried in steps from `k` on until the slot finds a place (R127, R157). -/
def raisePeriod (g : AdmitCfg) (l : List Placed) (q : SlotReq) (p step : Nat) : Nat → Nat → Option Placed
  | 0, _ => none
  | n + 1, k =>
    if 100000 < k then none else
    match tryPlace g l q k p with
    | some (c, o) => some { slot := q.slot, cell := c, ofs := o, k := k, p := p, w := q.w }
    | none => if g.raise then raisePeriod g l q p step n (k + step) else none

/-- One slot admitted, its inner slot before it (R127, R157). -/
def admitSlot (g : AdmitCfg) (reqs : List SlotReq) : Nat → SlotReq → Admission → Admission
  | 0, _, a => a
  | fuel + 1, q, a =>
    if a.placed.any (fun (x : Placed) => x.slot == q.slot) || a.refused.any (fun x => x.1 == q.slot) then a else
    let a := match q.inner with
      | none => a
      | some j => match reqs.find? (fun (x : SlotReq) => x.slot == j) with
        | some qi => admitSlot g reqs fuel qi a
        | none => a
    let link : Option (Option Placed) := q.inner.map fun j => a.placed.find? fun (x : Placed) => x.slot == j
    match link with
    | some none => { a with refused := (q.slot, 0x12) :: a.refused }
    | _ =>
      let (k, p, step) := match link with
        | some (some i) =>
          ((q.k + i.k - 1) / i.k * i.k, if q.p < i.p then i.p else i.p + (q.p - i.p) / i.k * i.k, i.k)
        | _ => (q.k, q.p, 1)
      if g.cycles < q.r + q.w then { a with refused := (q.slot, 0x10) :: a.refused } else
      match raisePeriod g a.placed q p step 100000 k with
      | some pl => { a with placed := pl :: a.placed }
      | none => { a with refused := (q.slot, 0x10) :: a.refused }

/-- A request put in order of period ascending, then slot number ascending (R127). -/
def putReq (q : SlotReq) : List SlotReq → List SlotReq
  | [] => [q]
  | x :: t => if q.k < x.k ∨ (q.k = x.k ∧ q.slot < x.slot) then q :: x :: t else x :: putReq q t

/-- Admission of a set of slots (R127). -/
def admitSlots (g : AdmitCfg) (reqs : List SlotReq) : Admission :=
  (reqs.foldr putReq []).foldl (fun a q => admitSlot g reqs 65 q a) {}

/-- Whether a slot's cascade links lead from `n` back to `top` (R157). -/
def linkBack (reqs : List SlotReq) (top : Nat) : Nat → Nat → Bool
  | 0, _ => true
  | fuel + 1, n =>
    match reqs.find? (fun (x : SlotReq) => x.slot == n) with
    | none => false
    | some q => match q.inner with
      | none => false
      | some j => j == top || linkBack reqs top fuel j

/-- Whether a slot's link is invalid: it names a slot not configured, itself, or one whose links lead back to it (R157). -/
def badLink (reqs : List SlotReq) (q : SlotReq) : Bool :=
  match q.inner with
  | none => false
  | some j => j == q.slot || !(reqs.any fun (x : SlotReq) => x.slot == j) || linkBack reqs q.slot 64 j

/-- The ready offset of slot `n` in 400 MHz cycles (R124). -/
def State.readyOfs (s : State) (n : Nat) : Nat :=
  (List.range 16).foldl (fun r i =>
    let code := s.srcOf n i
    let k := code % 4096
    match code / 4096 with
    | 1 => max r (nth s.le.aiStart (k % 16) 0 + 800 + 60)
    | 2 => max r (nth s.le.pdStart (k / 3 % 4) 0 + 200 * (k % 3 + 1) + 60)
    | _ => r) 60

/-- The cascade link of slot `n` (R150). -/
def State.linkOf (s : State) (n : Nat) : Option Nat :=
  let w := s.bankWord n 5
  if bit w 24 then some (bits w 23 18) else none

/-- What slot `n` asks for at period `k` and phase `p`. -/
def State.slotReq (s : State) (n k p : Nat) : SlotReq :=
  { slot := n, k := k, p := p, w := windowLen (s.fld (LE_SLOT_CFG.MACS_RES n)) (s.fld (LE_SLOT_CFG.STAGES_RES n) + 1)
    r := s.readyOfs n, inner := s.linkOf n }

/-- The cells in service (R148). -/
def State.cellsIn (s : State) : List Nat := (List.range 4).filter fun c => bit (s.fld LE_STAT.CELL_EN) c

/-- A fraction in units of 0.1 %, rounded. (DESIGN CHOICE, log entry 25) -/
def permille (x : Nat × Nat) : Nat := (rneDiv (x.1 * 1000 : Nat) (x.2 : Nat)).toNat

/-- The slots as placed. -/
def State.placedSlots (s : State) : List Placed :=
  (List.range 64).filterMap fun n =>
    if s.admitted n then
      some { slot := n, cell := s.fld (LE_SLOT_CFG.CELL n), ofs := (s.slot n).ofs, k := s.slotPeriod n, p := s.slotPhase n
             w := windowLen (s.fld (LE_SLOT_CFG.MACS_RES n)) (s.fld (LE_SLOT_CFG.STAGES_RES n) + 1) }
    else none

/-- The THRIFT timetable (R128), with the loads of both timetables and the slots bound, as LE_CELL_STAT shows them. -/
def State.thriftTable (s : State) : State :=
  let pl := s.placedSlots
  let reqs := pl.map fun a => { s.slotReq a.slot a.k a.p with r := (s.readyOfs a.slot + 3) / 4 }
  let g : AdmitCfg :=
    { cycles := 1000, cells := s.cellsIn, pin := fun n => (pl.find? (fun (x : Placed) => x.slot == n)).map Placed.cell, raise := false }
  let t := admitSlots g reqs
  let ok := pl.all (fun a => decide (50 ≤ a.k)) && t.refused.isEmpty
  let s := s.setFlag LE_STAT.THRIFT_OK ok
  let s := forN (fun n s => s.setSlot n { s.slot n with
    thriftOfs := if ok then (t.placed.find? (fun (x : Placed) => x.slot == n)).map Placed.ofs else none }) 64 s
  forN (fun c s =>
    let s := s.setFld (LE_CELL_STAT.LOAD c) (permille (cellLoad 4000 c pl))
    let s := s.setFld (LE_CELL_STAT.LOAD_T c) (if ok then permille (cellLoad 1000 c t.placed) else 1023)
    s.setFld (LE_CELL_STAT.SLOTS c) (pl.filter fun (x : Placed) => x.cell == c).length) 4 s

/-- OFS of every slot in the timetable in effect (R128, R148). -/
def State.showOfs (s : State) : State :=
  forN (fun n s =>
    if s.admitted n then
      let x := s.slot n
      s.setFld (LE_SLOT_SCHED.OFS n) (if s.profile = 2 then x.thriftOfs.getD x.ofs else x.ofs)
    else s) 64 s

/-- The place in the image of the field an entry names, else of its record, else after them all (R97). -/
def State.place (s : State) (e : RptEntry) : Nat :=
  let find (f : Nat) : Option Nat :=
    (s.boot.result.places.find? fun p => p.1 == e.type && p.2.1 == e.inst && p.2.2.1 == f).map (·.2.2.2)
  if e.type = 0 then 0 else ((find e.field).or (find 0xFFFF)).getD (2 ^ 32)

/-- An entry of the condition report (R96). -/
def State.report (s : State) (e : RptEntry) : State :=
  { s with boot := { s.boot with report := s.boot.report ++ [(s.place e, e)] } }

/-- The values of the image that go to a field. -/
def State.palEffects (s : State) (f : Field) : List PalEffect :=
  s.boot.result.effects.filter fun e => e.target == .reg f.addr f.hi f.lo

/-- An entry of the condition report on field `f`: record-level or of that field. `type` and `inst` stand in where the image does
not give the field. (DESIGN CHOICE, log entry 57) -/
def State.reportReg (s : State) (f : Field) (type inst : Nat) (record : Bool) (code given applied : Nat) : State :=
  let (type, inst, id) := match (s.palEffects f).head? with
    | some e => (e.type, e.inst, e.id)
    | none => (type, inst, Config.fieldId type f.lo)
  s.report ⟨type, inst, if record then 0xFFFF else id, code, given, applied⟩

/-- Field entries that are not applied after all (R96), by their image offsets. -/
def State.unapply (s : State) (l : List Nat) : State :=
  { s with boot := { s.boot with result := { s.boot.result with
    applied := s.boot.result.applied.filter fun o => !l.contains o } } }

/-- A field that the image gave set to `v` instead. -/
def State.refuseFld (s : State) (f : Field) (v : Nat) : State :=
  (s.unapply ((s.palEffects f).map PalEffect.off)).setFld f v

/-- The field entries of the record of `type` and `inst` are not applied (R96). -/
def State.unapplyRecord (s : State) (type inst : Nat) : State :=
  s.unapply ((s.boot.result.places.filter fun p => p.1 == type && p.2.1 == inst).map (·.2.2.2))

/-- The checks of R149 on a configured slot: the refusal's code, if any. (DESIGN CHOICE, log entry 69) -/
def State.slotCheck (s : State) (n : Nat) : Option Nat :=
  let t := s.template n
  if 4 ≤ t ∨ dstOk t (s.dstKind n) = false ∨ (s.dstKind n = 1 ∧ 8 ≤ s.dstIndex n) ∨ (s.dstKind n = 2 ∧ 4 ≤ s.dstIndex n) then some 0x22
  else
    let c := bankCode t (s.fld (LE_SLOT_CFG.MACS_RES n)) (s.fld (LE_SLOT_CFG.STAGES_RES n) + 1) (s.bankWord n)
    if c = 0 then none else some c

/-- What the configured slots ask for. -/
def State.slotReqs (s : State) : List SlotReq :=
  (List.range 64).filterMap fun n =>
    if (s.slot n).named then some (s.slotReq n (s.fld (LE_SLOT_TIME.PERIOD n)) (s.fld (LE_SLOT_SCHED.PHASE n))) else none

/-- Slot `n` left disabled, with its record-level entry (R149, R157). -/
def State.slotRefuse (s : State) (n code : Nat) : State :=
  (s.setSlot n { s.slot n with named := false }).report { type := 0x0301, inst := n, code := code }

/-- Configured slots whose registers or active bank a check of R149 refuses left disabled. -/
def State.slotChecks (s : State) : State :=
  forN (fun n s => if !(s.slot n).named then s else match s.slotCheck n with
    | some c => s.slotRefuse n c
    | none => s) 64 s

/-- The outer slots of invalid links cleared of them and left disabled (R157). -/
def State.dropLinks (s : State) : State :=
  let reqs := s.slotReqs
  (reqs.filter (badLink reqs)).foldl (fun s q =>
    let off := (s.boot.result.effects.filter fun e => e.target == .bank q.slot 5).map PalEffect.off
    let w := s.bankWord q.slot 5
    ((s.unapply off).setBankWord q.slot 5 (BitVec.ofNat 32 (w - bits w 24 18 * 2 ^ 18))).slotRefuse q.slot 0x12) s

/-- The value the image asks for a field of, whole (R90), or the field's value. -/
def State.asked (s : State) (f : Field) : Nat :=
  match (s.palEffects f).getLast? with
  | some e => e.vals.headD 0
  | none => s.fld f

/-- LOOP_ADMISSION (R127, R128, R157): every configured slot is clamped and admitted, or reported and left disabled; then the
THRIFT timetable is built. (DEDUCED, log entry 42) -/
def State.loopAdmission (s : State) : State :=
  let entry (n code : Nat) : RptEntry := { type := 0x0301, inst := n, code := code }
  let s := forN (fun n s =>
    if !(s.slot n).named then s else
      let k := s.asked (LE_SLOT_TIME.PERIOD n)
      let p := s.asked (LE_SLOT_SCHED.PHASE n)
      let k' := min 100000 (max 2 k)
      let p' := min (k' - 1) p
      let s := if k' = k then s else
        (s.setFld (LE_SLOT_TIME.PERIOD n) k').report { entry n 0x01 with field := Config.fieldId 0x0301 0, given := k, applied := k' }
      if p' = p then s else
        (s.setFld (LE_SLOT_SCHED.PHASE n) p').report { entry n 0x01 with field := Config.fieldId 0x0301 1, given := p, applied := p' })
    64 s
  let a := admitSlots { cycles := 4000, cells := s.cellsIn, pin := fun _ => none, raise := true } s.slotReqs
  let s := a.refused.foldl (fun s r => s.slotRefuse r.1 r.2) s
  let s := a.placed.foldl (fun s pl =>
    let n := pl.slot
    let k := s.fld (LE_SLOT_TIME.PERIOD n)
    let p := s.fld (LE_SLOT_SCHED.PHASE n)
    let s := if pl.k = k then s else
      s.report { entry n 0x01 with field := Config.fieldId 0x0301 0, given := k, applied := pl.k }
    let s := if pl.p = p then s else
      s.report { entry n 0x01 with field := Config.fieldId 0x0301 1, given := p, applied := pl.p }
    let s := s.setFlag (LE_SLOT_STAT.CLAMPED n) (decide (k < pl.k))
    let s := ((s.setFld (LE_SLOT_TIME.PERIOD n) pl.k).setFld (LE_SLOT_SCHED.PHASE n) pl.p).setFld (LE_SLOT_CFG.CELL n) pl.cell
    let tmpl := s.template n
    let x := s.slot n
    let cnt := lawStates tmpl (s.bankWord n)
    let s := (s.setFlag (LE_SLOT_CFG.ADM n) true).setSlot n { x with ofs := pl.ofs, st := List.replicate cnt {} }
    (s.setFld (LE_STATE.COUNT n) cnt).setFld (LE_STATE.EXP n) 0x80) s
  s.thriftTable.showOfs

/-- The places the slots would take with cell `c` out of service (R129); periods are raised only for a failed cell. -/
def State.replan (s : State) (c : Nat) (raise : Bool) : Admission :=
  let reqs := s.placedSlots.map fun a => s.slotReq a.slot a.k a.p
  admitSlots { cycles := 4000, cells := s.cellsIn.filter (· != c), pin := fun _ => none, raise := raise } reqs

/-- CELL_RESCHEDULE (R129, R502): at a tick boundary the slots of the cell that leaves service are placed on the others, and
each moves at its next sample instant. A self-test whose slots cannot all be placed moves none; after a failure a slot with no
place is admitted no longer, and a drive it had is off. (DESIGN CHOICE, log entry 25) -/
def execCellReschedule (cell : Fin 4) (s : State) : Out :=
  State.out <|
    let bist := s.flag (LE_CELL_STAT.BIST cell)
    if (!bist && !(s.flag (LE_CELL_STAT.DIS cell))) || !bit (s.fld LE_STAT.CELL_EN) cell then s else
    let a := s.replan cell (!bist)
    if bist && !a.refused.isEmpty then s else
    let s := s.setFld LE_STAT.CELL_EN (putBit (s.fld LE_STAT.CELL_EN) cell false)
    let s := a.refused.foldl (fun s r =>
      let s := match s.slotDrive r.1 with | some d => s.driveOff d | none => s
      (s.setFlag (LE_SLOT_CFG.ADM r.1) false).setSlot r.1 { s.slot r.1 with named := false, move := none }) s
    a.placed.foldl (fun s pl =>
      let x := s.slot pl.slot
      let home := if bist then some (s.fld (LE_SLOT_CFG.CELL pl.slot), x.ofs) else x.home
      s.setSlot pl.slot { x with move := some (pl.cell, pl.ofs, pl.k, pl.p), home := home }) s

/-- A slot's move takes effect at its sample instant, its state intact (R129). (DEDUCED, log entry 42) -/
def State.takeMove (s : State) (n : Nat) : State :=
  match (s.slot n).move with
  | none => s
  | some (c, o, k, p) =>
    let s := if s.slotPeriod n < k then (s.setFld (LE_SLOT_TIME.PERIOD n) k).setFlag (LE_SLOT_STAT.CLAMPED n) true else s
    let s := s.setFld (LE_SLOT_SCHED.PHASE n) p
    (((s.setFld (LE_SLOT_CFG.CELL n) c).setSlot n { s.slot n with ofs := o, move := none }).thriftTable).showOfs

/-- After a self-test each slot returns, at its next sample instant, to where it was before the request (R502). -/
def State.goHome (s : State) : State :=
  forN (fun n s =>
    let x := s.slot n
    match x.home with
    | some (c, o) => s.setSlot n { x with move := some (c, o, s.slotPeriod n, s.slotPhase n), home := none }
    | none => s) 64 s

end Sys2Proof.Machine
end

