-- ==== Sys2Proof/Machine/VltPlan.lean ====
section
/-! DEFINITION. What a vault command does (R475 to R477): its checks, its output, its writes. -/

namespace Sys2Proof.Machine

/-- The fields of a command block (R475). -/
structure VltCmd where
  w : List Nat
  deriving DecidableEq, Repr

/-- Word `i` of the block. -/
def VltCmd.word (c : VltCmd) (i : Nat) : Nat := nth c.w i 0
/-- OP. -/
def VltCmd.op (c : VltCmd) : Nat := c.word 0 % 256
/-- SLOT. -/
def VltCmd.slot (c : VltCmd) : Nat := bits (c.word 0) 12 8
/-- KSRC. -/
def VltCmd.ksrc (c : VltCmd) : Bool := bit (c.word 0) 13
/-- ALG. -/
def VltCmd.alg (c : VltCmd) : Bool := bit (c.word 0) 14
/-- TSLOT. -/
def VltCmd.tslot (c : VltCmd) : Nat := bits (c.word 0) 20 16
/-- IN_LEN. -/
def VltCmd.inLen (c : VltCmd) : Nat := c.word 2
/-- AUX_LEN. -/
def VltCmd.auxLen (c : VltCmd) : Nat := c.word 4
/-- OUT_LEN. -/
def VltCmd.outLen (c : VltCmd) : Nat := c.word 6
/-- TPOL. -/
def VltCmd.tpol (c : VltCmd) : Nat := c.word 7
/-- TYPE of TPOL. -/
def VltCmd.ttype (c : VltCmd) : Nat := c.tpol % 16
/-- TLIMIT. -/
def VltCmd.tlimit (c : VltCmd) : Nat := c.word 8 % 2 ^ 16
/-- The bytes of a point of the command's curve. -/
def VltCmd.pt (c : VltCmd) : Nat := if c.alg then 96 else 64

/-- The input of a command. -/
def State.vltIn (s : State) (c : VltCmd) : List Byte := s.rdBytes (c.word 1) c.inLen
/-- The auxiliary input of a command. -/
def State.vltAux (s : State) (c : VltCmd) : List Byte := s.rdBytes (c.word 3) c.auxLen

/-- A command that gives TSLOT a new policy. -/
def VltCmd.newPolicy (c : VltCmd) : Bool := [0x08, 0x09, 0x0A, 0x0B, 0x0E].contains c.op
/-- A command that writes TSLOT. -/
def VltCmd.writesSlot (c : VltCmd) : Bool := c.newPolicy || c.op == 0x0D
/-- A command that uses the key in SLOT. -/
def VltCmd.usesSlot (c : VltCmd) : Bool :=
  [0x02, 0x03, 0x04, 0x05, 0x06, 0x0B, 0x0C, 0x10].contains c.op || ((c.op == 0x07 || c.op == 0x08) && !c.ksrc)
/-- A command that needs random values (R479). -/
def VltCmd.random (c : VltCmd) : Bool := [0x06, 0x09, 0x0F, 0x11, 0x12].contains c.op || (c.op == 0x08 && c.ksrc)

/-- Check 1 of R477: FORMAT. (DESIGN CHOICE, log entry 46) -/
def VltCmd.formOk (c : VltCmd) : Bool :=
  decide (1 ≤ c.op) && decide (c.op ≤ 0x13) && !bit (c.word 0) 15 && bits (c.word 0) 31 21 == 0 && bits (c.word 8) 31 16 == 0
    && c.word 9 == 0
    && (!c.ksrc || c.op == 0x07 || c.op == 0x08)
    && (!c.alg || c.op == 0x01 || ((c.op == 0x07 || c.op == 0x08) && c.ksrc))
    && (match c.op with
      | 0x08 => c.ttype == 1 || c.ttype == 2
      | 0x09 | 0x0B => decide (1 ≤ c.ttype) && decide (c.ttype ≤ 3)
      | 0x0A => c.ttype == 4
      | 0x0E => decide (c.ttype ≤ 4)
      | _ => true)
    && (!c.newPolicy || (!bit c.tpol 7 && bits c.tpol 31 24 == 0))

/-- Bytes of the certificate in PM (R475; log entry 10). (DESIGN CHOICE, log entry 10) -/
def State.certLen (s : State) : Nat := if s.pmBad 0x2000 then 0 else s.pmSeen 0x2000 % 2 ^ 32

/-- The bytes a command writes to its output area. -/
def State.vltOutLen (s : State) (c : VltCmd) : Nat :=
  match c.op with
  | 0x01 => if c.alg then 48 else 32
  | 0x02 => 32
  | 0x03 => 16
  | 0x04 => c.inLen + 16
  | 0x05 => c.inLen - 16
  | 0x06 => 64
  | 0x08 => if c.ksrc then c.pt else 0
  | 0x09 => if c.ttype = 3 then 64 else 0
  | 0x0C => 40
  | 0x0F => c.outLen
  | 0x10 => 64
  | 0x11 => 0x144 + s.certLen
  | 0x12 => 64
  | _ => 0

/-- Check 2 of R477: LENGTH. -/
def State.vltLenOk (s : State) (c : VltCmd) : Bool :=
  decide (s.vltOutLen c ≤ c.outLen)
    && (match c.op with
      | 0x04 => decide (12 ≤ c.auxLen)
      | 0x05 => decide (12 ≤ c.auxLen) && decide (16 ≤ c.inLen)
      | 0x06 | 0x11 => c.inLen == 32
      | 0x07 => c.inLen == (if c.alg then 48 else 32) && c.auxLen == (if c.ksrc then 2 * c.pt else c.pt)
      | 0x08 => c.auxLen == c.pt
      | 0x0A => c.inLen == 64
      | 0x0B => c.inLen == 104
      | 0x0F => decide (c.outLen ≤ 4096)
      | 0x13 => decide (c.inLen ≤ 2044) && c.auxLen == 4
      | _ => true)

/-- An area 4-byte aligned and wholly inside CP SRAM or bus RAM; an empty one needs no place. -/
def areaOk (a n : Nat) : Bool :=
  n == 0 || (a % 4 == 0 && ((decide (0x20000000 ≤ a) && decide (a + n ≤ 0x20300000))
    || (decide (0x31000000 ≤ a) && decide (a + n ≤ 0x31100000))))

/-- Check 3 of R477: RANGE. (DESIGN CHOICE, log entry 46) -/
def State.vltAreasOk (s : State) (c : VltCmd) : Bool :=
  let usesIn := [0x01, 0x02, 0x03, 0x04, 0x05, 0x06, 0x07, 0x08, 0x0A, 0x0B, 0x11, 0x13].contains c.op
  let usesAux := [0x04, 0x05, 0x07, 0x08, 0x13].contains c.op
  (!usesIn || areaOk (c.word 1) c.inLen) && (!usesAux || areaOk (c.word 3) c.auxLen)
    && (s.vltOutLen c == 0 || areaOk (c.word 5) c.outLen)
    && (match c.op with
      | 0x07 => !c.ksrc || Config.onCurve c.alg ((s.vltAux c).drop c.pt)
      | 0x08 => Config.onCurve c.alg (s.vltAux c)
      | 0x0A => Config.onCurve false (s.vltIn c)
      | 0x0B => Config.onCurve false ((s.vltIn c).take 64)
      | _ => true)

/-- Check 4 of R477: TAMPER. -/
def State.vltZeroedOk (s : State) (c : VltCmd) : Bool :=
  !s.zeroed || c.op == 0x01 || (c.op == 0x07 && c.ksrc) || c.op == 0x0F

/-- The key types that SLOT may have. -/
def VltCmd.types (c : VltCmd) : List Nat :=
  match c.op with
  | 0x02 => [2]
  | 0x03 | 0x04 | 0x05 | 0x0C => [1]
  | 0x06 | 0x08 | 0x0B => [3]
  | 0x07 => [4]
  | _ => [3, 4]

/-- Check 6 of R477: REFUSED_STATE. Under the test root every command on a slot ends so (R463). -/
def State.vltStateOk (s : State) (c : VltCmd) : Bool :=
  (!c.usesSlot || (c.types.contains (s.slotType c.slot) && (s.slotKey c.slot).isSome))
    && (!c.writesSlot || !s.flag VLT_STAT.DBGSEEN)
    && (c.op != 0x0C || (((s.slotType c.tslot == 1) || (s.slotType c.tslot == 2)) && (s.slotKey c.tslot).isSome))
    && (c.op != 0x0E || s.slotType c.tslot != 0)
    && (c.op != 0x12 || s.lcState == 0)
    && (c.op != 0x13 || decide (s.lcState ≤ 1))

/-- The USES bit a command needs (R469, R476). -/
def VltCmd.use (c : VltCmd) : Option Nat :=
  match c.op with
  | 0x02 => some 10
  | 0x03 => some 8
  | 0x04 | 0x05 => some 9
  | 0x06 => some 11
  | 0x07 => if c.ksrc then none else some 15
  | 0x08 => if c.ksrc then none else some 12
  | 0x0B => some 13
  | 0x0C => some 14
  | _ => none

/-- POLICY may only remove USES, lower USE_LIMIT or set EXPIRE (R476). (DESIGN CHOICE, log entry 46) -/
def State.policyOk (s : State) (c : VltCmd) : Bool :=
  let old := s.slotPol c.tslot
  let free := 0xFF40
  old - (old &&& free) == c.tpol - (c.tpol &&& free) && (bits c.tpol 15 8 &&& (255 - bits old 15 8)) == 0
    && (bit c.tpol 6 || !bit old 6) && decide (c.tlimit ≤ s.slotLimit c.tslot)

/-- Check 8 of R477: REFUSED_LOCKED. (DESIGN CHOICE, log entry 46) -/
def State.vltLockOk (s : State) (c : VltCmd) : Bool :=
  (!c.usesSlot || !s.spent c.slot)
    && (!c.writesSlot || bits (s.slotPol c.tslot) 23 16 == 0)
    && (!c.newPolicy || bits c.tpol 23 16 == 0)
    && (c.op != 0x0E || s.policyOk c)
    && (c.op != 0x13 || s.certLen == 0)

/-- The code of the checks of R477. (DESIGN CHOICE, log entry 46) -/
def State.vltCheck (s : State) (c : VltCmd) : Nat :=
  if !c.formOk then Code.format
  else if !s.vltLenOk c then Code.length
  else if !s.vltAreasOk c then Code.range
  else if !s.vltZeroedOk c then Code.tamper
  else if s.untested || (c.random && s.noRandom) then Code.refusedSelftest
  else if !s.vltStateOk c then Code.refusedState
  else if c.use.any fun b => !bit (s.slotPol c.slot) b then Code.refusedAuth
  else if !s.vltLockOk c then Code.refusedLocked
  else Code.ok

/-- What a command that passed its checks does: its code, its output, the words it writes to the vault SRAM in order, the open
values it takes, whether those words hold a new root, and the certificate it stores. -/
structure VltPlan where
  code : Nat := Code.ok
  out : List Byte := []
  writes : List (Nat × Nat) := []
  frees : Nat := 0
  root : Bool := false
  cert : Option (List Byte) := none
  deriving DecidableEq, Repr

/-- Material of a slot, padded to 32 bytes and wrapped under its key (R469). -/
def State.wrapFor (s : State) (k : Nat) (m : List Byte) : List Byte :=
  Config.kwWrap (s.slotKek k) ((m ++ List.replicate 32 0).take 32)

/-- SHA-256, or 32 zero bytes for what is absent (R486). -/
def measured (m : Option (List Byte)) : List Byte := m.getD (List.replicate 32 0)

/-- M_SE (R486). -/
def State.mSe (s : State) : Option (List Byte) :=
  if s.flag SE_STAT.RUN then some (Config.sha256 (s.rdBytes (seProg (s.fld SE_PROG.BASE)) (8 * s.fld SE_PROG.LEN))) else none

/-- M_CANVAS (R486). -/
def State.mCanvas (s : State) : List Byte :=
  Config.sha256 ((List.range 8).flatMap fun k =>
    match s.slotHalf k 3 with
    | some i => s.rdBytes (dirAt i) 16
    | none => List.replicate 16 0)

/-- The body of the attestation statement (R485), bytes 0x000 to 0x0FF. -/
def State.attestBody (s : State) (nonce : List Byte) : List Byte :=
  let flags := b2n s.debugOpen + 2 * b2n (s.flag VLT_STAT.DBGSEEN) + 4 * b2n s.approved + 8 * b2n (s.flag SYS_PAL_STAT.UNOWNED)
    + 16 * b2n (s.cp.fw && s.flag VLT_BOOT.UNOWNED) + 32 * b2n (s.flag SYS_ROLE.GROUND)
  toBytes 4 0x54535441 ++ toBytes 4 1 ++ toBytes 8 (s.reg64 VLT_DEVID_LO VLT_DEVID_HI)
    ++ toBytes 4 (s.lcState + 2 ^ 8 * flags) ++ toBytes 4 (s.scValue 3) ++ toBytes 4 (s.reg LCS_CAUSE).toNat
    ++ toBytes 4 (s.reg VLT_ROM_VER).toNat ++ toBytes 4 (s.reg SYS_PAL_VER).toNat ++ toBytes 4 (if s.cp.fw then (s.reg VLT_FW_VER).toNat else 0)
    ++ toBytes 4 (s.scValue 0) ++ toBytes 4 (s.scValue 4) ++ toBytes 8 (if s.flag SYS_NT_STAT.VALID then s.nt else 0)
    ++ toBytes 4 (s.fld SYS_PAL_STAT.SLOT + 4 * (if s.cp.fw then s.fld VLT_BOOT.SLOT else 2)) ++ toBytes 4 0
    ++ measured s.vlt.mRom ++ measured (if s.cp.fw then s.vlt.mFw else none) ++ measured s.vlt.mPal ++ measured s.mSe ++ s.mCanvas
    ++ (nonce ++ List.replicate 32 0).take 32

/-- The attestation statement (R485, R487), signed with the per-message secret `k`. -/
def State.attestation (s : State) (nonce : List Byte) (k : Nat) : List Byte :=
  let body := s.attestBody nonce
  body ++ Config.ecdsaSign s.attestPriv k (Config.sha256 body) ++ toBytes 4 s.certLen ++ s.rdBytes (pmAddr 0x2004) s.certLen

/-- A private key on P-256 from an open value. -/
def privOf (x : Nat) : Nat := x % (p256N - 1) + 1
/-- An ephemeral private key from an open value, on P-384 where `alg` says so (R476). -/
def ephemeral (alg : Bool) (x : Nat) : Nat := if alg then x % (p384N - 1) + 1 else privOf x

/-- The update that gives TSLOT its new policy and material. -/
def State.newSlot (s : State) (c : VltCmd) (pol : Nat) (m : List Byte) : List (Nat × Nat) :=
  s.updateWords c.tslot pol c.tlimit (s.wrapFor c.tslot m)

/-- The plan of a command whose use of SLOT is already spent (R476). (DESIGN CHOICE, log entry 46) -/
def State.vltOp (s : State) (c : VltCmd) : VltPlan :=
  let inp := s.vltIn c
  let aux := s.vltAux c
  let key := (s.slotKey c.slot).getD []
  let r := s.freeValue
  match c.op with
  | 0x01 => { out := if c.alg then Config.sha384 inp else Config.sha256 inp }
  | 0x02 => { out := Config.hmac key inp }
  | 0x03 => { out := Config.cmac key inp }
  | 0x04 => { out := Config.gcmSeal key (aux.take 12) (aux.drop 12) inp }
  | 0x05 =>
    match Config.gcmOpen key (aux.take 12) (aux.drop 12) inp with
    | some p => { out := p }
    | none => { code := Code.signatureMismatch }
  | 0x06 => { out := Config.ecdsaSign (ofBytesBE key) (privOf r) inp, frees := 1 }
  | 0x07 =>
    let pub := if c.ksrc then aux.drop c.pt else (s.credKey c.slot).getD []
    if Config.ecdsaVerify c.alg pub inp (aux.take c.pt) then {} else { code := Code.signatureMismatch }
  | 0x08 =>
    let d := if c.ksrc then ephemeral c.alg r else ofBytesBE key
    let x := Config.ecdhX c.alg d aux
    let k := (Config.hmac x (toBytesBE 4 1 ++ inp ++ toBytesBE 4 256)).take 32
    { out := if c.ksrc then Config.ecPub c.alg d else [], writes := s.newSlot c c.tpol k, frees := b2n c.ksrc }
  | 0x09 =>
    let d := privOf r
    let m := if c.ttype = 3 then toBytesBE 32 d else toBytes 32 r
    { out := if c.ttype = 3 then Config.ecPub false d else [], writes := s.newSlot c c.tpol m, frees := 1 }
  | 0x0A =>
    let pol := putBit c.tpol 4 (bit (nth inp 63 0).toNat 0)
    { writes := s.newSlot c pol (inp.take 32) }
  | 0x0B =>
    let x := Config.ecdhX false (ofBytesBE key) (inp.take 64)
    let kek := kdf x (ascii "IMPORT") (toBytesBE 4 c.tpol ++ toBytes 1 c.tslot) 256
    match Config.kwUnwrap kek (inp.drop 64) with
    | some m => { writes := s.newSlot c c.tpol m }
    | none => { code := Code.signatureMismatch }
  | 0x0C => { out := Config.kwWrap key ((s.slotKey c.tslot).getD []) }
  | 0x0D => { writes := s.eraseWords c.tslot }
  | 0x0E => { writes := s.updateWords c.tslot c.tpol c.tlimit (s.slotWrapped c.tslot) }
  | 0x0F => { out := toBytes c.outLen r, frees := 1 }
  | 0x10 => { out := if s.slotType c.slot = 3 then Config.ecPub false (ofBytesBE key) else (s.credKey c.slot).getD [] }
  | 0x11 => { out := s.attestation inp (privOf r), frees := 1 }
  | 0x12 =>
    let root := toBytes 32 r
    let all := root ++ Config.sha256 (root ++ s.devId)
    { out := Config.ecPub false (attestKey root 1 0), frees := 1, root := true
      writes := (List.range 16).map fun i => (4 * i, ofBytes ((all.drop (4 * i)).take 4)) }
  | _ =>
    if (inp.drop (ofBytes (aux.take 4))).take 64 = s.attestPub then { cert := some inp } else { code := Code.range }

/-- The plan of the command in progress: the use of a limited slot first (R471), then the operation. -/
def State.vltPlan (s : State) (c : VltCmd) : VltPlan :=
  let code := s.vltCheck c
  if code ≠ Code.ok then { code := code }
  else
    let use := if c.use.isSome then s.useWords c.slot else []
    let p := (s.vaultWriteAll use).vltOp c
    { p with writes := use ++ p.writes }

/-- The certificate stored: its bytes, then its length (R476; log entry 10). (DESIGN CHOICE, log entry 10) -/
def State.storeCert (s : State) (l : List Byte) : State :=
  let all := toBytes 4 l.length ++ l
  let words := wordsOf 0x2000 ((all.length + 7) / 8) all
  (words.drop 1 ++ words.take 1).foldl (fun s w => s.pmLater 4 w.1 w.2) s

/-- The words a command has written to the vault when it is cut after `n` of them (R470, R478); a root cut short is valid where
the check value that stands there is its own (R461). (DESIGN CHOICE, log entry 15) -/
def State.vltCut (s : State) (n : Nat) : State :=
  match s.vlt.cmd with
  | none => s
  | some w =>
    let p := s.vltPlan ⟨w⟩
    let s := s.vaultWriteAll (p.writes.take n)
    let root := if p.root && n != 0 then decide (16 ≤ n) || s.rootMatches else s.vlt.root
    s.setVlt { s.vlt with cmd := none, dropSram := false, root := root }

/-- The command in progress ends (R475, R478). -/
def State.vltFinish (s : State) : State :=
  match s.vlt.cmd with
  | none => s
  | some w =>
    let c : VltCmd := ⟨w⟩
    let p := s.vltPlan c
    let s := s.vaultWriteAll p.writes
    let s : State := { s.setVlt { s.vlt with root := s.vlt.root || p.root } with free := s.free + p.frees }
    let s := match p.cert with
      | some l => (s.storeCert l).setFlag VLT_STAT.CERT true
      | none => s
    let s := if p.code ≠ Code.ok ∨ ((s.vlt.dropSram ∨ s.cp.cprst) ∧ c.word 5 < 0x20300000) then s else s.wrBytes (c.word 5) p.out
    (s.vltShow).vltEnd p.code (if p.code = Code.ok then p.out.length else 0)

/-- A write of VLT_CMD (R475): the command block at `a` is copied and its command begins. -/
def State.vltStart (s : State) (a : Nat) : State :=
  if s.flag VLT_CMD_STAT.BUSY then s.setFlag VLT_CMD_STAT.IGNORED true
  else if !areaOk a 40 then s.vltEnd Code.range 0
  else (s.setVlt { s.vlt with cmd := some (s.words a 10) }).setFlag VLT_CMD_STAT.BUSY true

/-- A write of VLT_CMD that starts the command of code `op`; while BUSY, or where the block lies elsewhere, its OP is not looked
at. (DESIGN CHOICE, log entry 46) -/
def State.vltStartOp (s : State) (op : Nat) (a : Word) : State :=
  if s.flag VLT_CMD_STAT.BUSY ∨ !areaOk a.toNat 40 ∨ s.rd8 a.toNat = BitVec.ofNat 8 op then s.vltStart a.toNat else s

end Sys2Proof.Machine
end

