-- ==== Sys2Proof/Machine/Palette.lean ====
section
/-! DEFINITION. The palette image and the firmware image (R83 to R97, R474, R481, R482): layout, checks, and what the steward
takes from an image's records. -/

namespace Sys2Proof.Machine

/-- A byte of flash slot `k`. (DESIGN CHOICE, log entry 2) -/
def State.flashByte (s : State) (k off : Nat) : Byte := sparseGet flashDefault s.flash (2 ^ 32 * k + off % 2 ^ 32)

/-- `n` bytes of flash slot `k` from `off`. -/
def State.flashBytes (s : State) (k off : Nat) : Nat → List Byte
  | 0 => []
  | n + 1 => s.flashByte k off :: s.flashBytes k (off + 1) n

/-- A number of `n` bytes in flash slot `k`. -/
def State.flashNum (s : State) (k off n : Nat) : Nat := ofBytes (s.flashBytes k off n)

/-- IMAGE_LEN of the palette image in slot `k` (R84). -/
def State.palLen (s : State) (k : Nat) : Nat := s.flashNum k 8 4
/-- SHA-256 of the image that starts at `off` in slot `k` and is `n` bytes long. -/
def State.imageHash (s : State) (k off n : Nat) : List Byte := Config.sha256 (s.flashBytes k off n)

/-- The trailer's checks, 3 and 4, of an image (R85, R482): the owner key hash where `owned`, then the signature. -/
def State.trailerOk (s : State) (k off n : Nat) (owned : Bool) : Bool :=
  let pub := s.flashBytes k (off + n) 64
  let sig := s.flashBytes k (off + n + 64) 64
  (!owned || Config.sha256 pub == (s.lcs.owner.flatMap fun w => toBytesBE 4 w))
    && !s.flag VLT_STAT.ST_FAIL && Config.ecdsaVerify false pub (s.imageHash k off n) sig

/-- An owner key hash is required (R86): in DEPLOYED and SERVICE. -/
def State.owned (s : State) : Bool := s.lcState == 2 || s.lcState == 3

/-- The bytes from `a` up to `b` of slot `k` are 0. -/
def State.flashZero (s : State) (k a b : Nat) : Bool := (s.flashBytes k a (b - a)).all (· == 0)

/-- Checks 1 to 5 of R85 on the palette image in slot `k`: the code of the first that fails. -/
def State.palCheck5 (s : State) (k : Nat) : Nat :=
  let n := s.palLen k
  let fw := s.flashNum k 0x1C 4
  if s.flashNum k 0 4 ≠ 0x4C415047 ∨ s.flashNum k 6 2 ≠ 64 ∨ s.flashNum k 5 1 ≠ 1 then Code.format
  else if n % 4 ≠ 0 ∨ n < 64 ∨ 4194304 < n then Code.length
  else if !s.trailerOk k 0 n s.owned then Code.signatureMismatch
  else if 3 < s.flashNum k 0x0C 1 ∨ 2 < s.flashNum k 0x0D 1 ∨ 0x1FFF < s.flashNum k 0x0E 2 ∨ !s.flashZero k 0x1A 0x1C
      ∨ !s.flashZero k 0x28 0x40 ∨ fw % 4096 ≠ 0 ∨ fw < n + 128 then Code.format
  else Code.ok

/-- The checks of R85. -/
def State.palCheck (s : State) (k : Nat) : Nat :=
  let c := s.palCheck5 k
  if c ≠ Code.ok then c else if s.flashNum k 0x10 4 < s.scValue 0 then Code.refusedAuth else Code.ok

/-- A record-level entry (R96). -/
def recEntry (type inst code : Nat) : RptEntry := { type := type, inst := inst, code := code }

/-- The block a value belongs to, by the high byte of its record type (R89); none where the manual does not tie it to one. -/
def targetBlock : Config.PalTarget → Option Nat
  | .reg a _ _ =>
    if 0x4003C000 ≤ a ∧ a < 0x40040000 then some 4
    else some (nth [1, 2, 0x11, 3, 5, 0x13, 6, 7, 8, 9, 0x0A, 0x0B, 0x0C, 0x0D, 0x0E, 0x0F, 0, 0x10] (a / 0x10000 - 0x4000) 0)
  | .mem a =>
    if 0x30000000 ≤ a ∧ a < 0x31000000 then some 6
    else if 0x33000000 ≤ a ∧ a < 0x34000000 then some 7
    else if 0x34000000 ≤ a ∧ a < 0x35000000 then some 0x0D
    else none
  | .bank _ _ | .gain _ _ | .offset _ _ => some 3
  | .round _ | .watchdog => some 1
  | .timeout => some 0x12
  | .current _ | .output _ | .aiStart _ => some 0x10
  | .pdStart _ | .deadTime _ => some 5
  | .part _ => some 0x0E
  | .canvas => some 6
  | .cpArea | .nowhere => none

/-- A value may be given by a record of the type (R89). -/
def targetFits (type : Nat) (t : Config.PalTarget) : Bool := (targetBlock t).all (· == type / 256)

/-- The fields whose identifiers the manual gives: a slot's TEMPLATE and a drive's dead time (R97, R149, R168). -/
def manualField (type id : Nat) : Option Config.DictField :=
  if type = 0x0301 ∧ id = 0x0302 then
    some ⟨.enumerated, 0, 3, [0, 1, 2, 3], 0, true, fun n => .reg (LE_SLOT_CFG n) 7 4⟩
  else if type = 0x0501 ∧ id = 0x0514 then some ⟨.unsigned, 100, 5000, [], 100, false, .deadTime⟩
  else none

/-- A field of the dictionary with what the manual fixes of it: TEMPLATE is structural with the codes 0 to 3 (R149), and the
ranges and defaults of PG limits (R166), the plan step (R148), the round period and the reference period (R266, R379), module
words and link rates (R409), start offsets (R123), the watchdog (R115), the session timeout (R372), the CP area and the queues of
bus RAM (R340), the parcel pool (R250), bit timing, reassembly timeouts and heartbeats (R373), and the PLCA node count (R374). A
slot's period has the limits of R127, whose clamp of the phase takes the whole value given. -/
def ownLimits (t : Config.PalTarget) (f : Config.DictField) : Config.DictField :=
  let range (lo hi : Int) : Config.DictField := { f with kind := .unsigned, lo := lo, hi := hi }
  match t with
  | .aiStart _ | .pdStart _ => range 0 3999
  | .watchdog => { f with dflt := 2048 }
  | .timeout => { range 10 3600 with dflt := 300 }
  | .cpArea => { range 0 1024 with dflt := 64 }
  | .reg a hi lo =>
    let is (g : Field) : Bool := g == ⟨a, hi, lo⟩
    if (List.range 64).any fun n => is (LE_SLOT_CFG.TEMPLATE n) then { f with kind := .enumerated, codes := [0, 1, 2, 3], structural := true }
    else if (List.range 16).any fun c => a == PG_VMAX c || a == PG_AMAX c || a == PG_JMAX c then
      { f with kind := .float, lo := 0x358637BD, hi := 0x4E6E6B28, dflt := 0x3F800000 }
    else if is LE_PB_CFG.STEP then range 60 3600
    else if is SYS_RND_CFG.PERIOD then range 20 10000
    else if is SYS_NT_REF.PERIOD then { range 1 1000 with dflt := 100 }
    else if (List.range 64).any fun n => is (LE_SLOT_TIME.PERIOD n) then range 2 100000
    else if (List.range 64).any fun n => is (LE_SLOT_SCHED.PHASE n) then range 0 (2 ^ 32 - 1)
    else if (List.range 8).any fun c => is ⟨CAN_NBT c, 31, 25⟩ then range 0 127
    else if (List.range 8).any fun c => is ⟨CAN_NBT c, 24, 17⟩ then range 1 255
    else if (List.range 8).any fun c => is ⟨CAN_NBT c, 16, 10⟩ then range 1 127
    else if (List.range 8).any fun c => is ⟨CAN_DBT c, 31, 25⟩ || is ⟨CAN_DBT c, 16, 10⟩ then range 0 15
    else if (List.range 8).any fun c => is ⟨CAN_DBT c, 24, 17⟩ then range 0 31
    else if (List.range 10).any fun c => is (busField c 0x44 9 0) then range 1 1000
    else if (List.range 8).any fun c => is (CAN_HB_CFG.PERIOD c) then range 1 600
    else if (List.range 2).any fun p => is (ETH_PLCA.COUNT p) then range 1 8
    else if (List.range 24).any fun l => is (WFL_L_CFG.RATE l) then range 0 5
    else if (List.range 384).any fun k => is (WFL_M_CFG.IN_WORDS (k / 16) (k % 16)) || is (WFL_M_CFG.OUT_WORDS (k / 16) (k % 16)) then
      range 0 64
    else if is PT_POOL.SIZE then range f.lo 65536
    else if (List.range 10).any fun c => is (busField c 0x1C 12 0) then
      if a < busBase 8 then range 16 4096 else range 4 256
    else if (List.range 10).any fun c => is (busField c 0x1C 22 18) then range 0 16
    else if (List.range 10).any fun c => is (busField c 0x1C 31 23) then range 16 256
    else f
  | _ => f

/-- A field of the dictionary for an instance (R89, R90). -/
def palDict (type inst id : Nat) : Option Config.DictField :=
  match manualField type id with
  | some f => some f
  | none =>
    match Config.dictField type id with
    | some f => if targetFits type (f.target inst) then some (ownLimits (f.target inst) f) else none
    | none => none

/-- The least divisor of `n` at or above `v`. -/
def divisorUp (n v : Nat) : Nat := ((List.range (n + 1)).find? fun d => decide (v ≤ d) && decide (0 < d) && n % d == 0).getD n

/-- What the steward makes of a value within its limits: a plan step is lowered to whole minutes, a round period and a reference
period are raised to a divisor of one minute and of one second (R148, R266, R379). -/
def palSnap (t : Config.PalTarget) (v : Nat) : Nat :=
  match t with
  | .reg a hi lo =>
    if (⟨a, hi, lo⟩ : Field) = LE_PB_CFG.STEP then v / 60 * 60
    else if (⟨a, hi, lo⟩ : Field) = SYS_RND_CFG.PERIOD then divisorUp 60000 v
    else if (⟨a, hi, lo⟩ : Field) = SYS_NT_REF.PERIOD then divisorUp 1000 v
    else v
  | _ => v

/-- The record types that the manual describes itself: slots, drives, metrology and credentials (R149, R97, R294, R316, R474); of
the others those whose high byte names a block (R89). -/
def ownType (type : Nat) : Option Config.DictType :=
  if type = 0x0301 then some ⟨false, 64, 0, 0, fun _ => .nowhere⟩
  else if type = 0x0501 then some ⟨false, 4, 0, 0, fun _ => .nowhere⟩
  else if type = 0x0801 then some ⟨false, 8, 0, 0, fun _ => .nowhere⟩
  else if type = 0x0901 then some ⟨false, 2, 0, 0, fun _ => .nowhere⟩
  else if type = 0x0F01 then some ⟨false, 32, 0, 0, fun _ => .nowhere⟩
  else if 1 ≤ type / 256 ∧ type / 256 ≤ 0x13 then Config.dictType type
  else none

/-- The field entry in hand applied as given or by default. -/
def PalResult.accept (r : PalResult) : PalResult := { r with applied := r.off :: r.applied }
/-- A report entry made at the offset in hand. -/
def PalResult.entry (r : PalResult) (e : RptEntry) : PalResult := { r with entries := r.entries ++ [(r.off, e)] }
/-- A value to programme. -/
def PalResult.effect (r : PalResult) (e : PalEffect) : PalResult := { r with effects := r.effects ++ [e] }
/-- The record or field entry at `off` comes next: `f` is its field, or 0xFFFF. -/
def PalResult.at_ (r : PalResult) (type inst f off : Nat) : PalResult :=
  { r with off := off, places := r.places ++ [(type, inst, f, off)] }
/-- A value taken is not applied after all: its entry takes the place of any it had (R90, R268, R295). -/
def PalResult.refuse (r : PalResult) (e : PalEffect) (code applied : Nat) : PalResult :=
  { r with
    effects := r.effects.filter fun x => x.off != e.off
    applied := r.applied.filter (· != e.off)
    entries := r.entries.filter (fun x => x.1 != e.off) ++ [(e.off, ⟨e.type, e.inst, e.id, code, e.given, applied⟩)] }

/-- The default of a sealed field. -/
def sealDefault (block k : Nat) : Nat := if block = 8 then mhDefault k else meDefault k

/-- The sealed record of a calculator or port: its current copy, or the defaults. -/
def State.sealedValues (s : State) (block inst : Nat) : List Nat :=
  match s.recordCurrent block inst with
  | some i => s.recordFields block inst i
  | none => (List.range (if block = 8 then 22 else 47)).map (sealDefault block)

/-- The steward writes the sealed records of the image (R95): in BLANK and PROVISIONED, with no valid partition. -/
def State.sealInits (s : State) : Bool := (s.lcState == 0 || s.lcState == 1) && !s.sealedValid

/-- A metrology field of the image (R95): where the sealed record rules, a value that differs is not applied; otherwise a value
out of range gives way to the default. -/
def State.palMetrology (s : State) (e : SealEntry) (given : Nat) (r : PalResult) : PalResult :=
  let type := if e.block = 8 then 0x0801 else 0x0901
  let rpt (code applied : Nat) : RptEntry := ⟨type, e.inst, e.id, code, given, applied⟩
  if !e.known then r.entry (rpt Code.unknownRecord 0)
  else if s.sealInits ∧ (s.recordCurrent e.block e.inst).isNone then
    if e.inRange then { r.accept with metrology := r.metrology ++ [e] }
    else
      let d := sealDefault e.block e.index
      { r.entry (rpt Code.range d) with metrology := r.metrology ++ [{ e with value := d }] }
  else
    let v := nth (s.sealedValues e.block e.inst) e.index 0
    if e.value = v then r.accept else r.entry (rpt Code.refusedLocked v)

/-- Credential records are applied (R474): in PROVISIONED, DEPLOYED and SERVICE, with a valid root. -/
def State.credState (s : State) : Bool := (s.lcState == 1 || s.lcState == 2 || s.lcState == 3) && s.vlt.root

/-- The range and default of a credential field (R474); none where it is no field. -/
def credField (id : Nat) : Option (Nat × Nat × Nat) :=
  if 0x0F10 ≤ id ∧ id ≤ 0x0F17 then some (0, 2 ^ 32 - 1, 0)
  else match id with
    | 0x0F01 => some (0, 4, 4)
    | 0x0F02 => some (0, 255, 0x80)
    | 0x0F03 => some (0, 63, 0)
    | 0x0F04 => some (0, 1, 0)
    | 0x0F05 => some (1, 65535, 65535)
    | 0x0F06 => some (0, 1, 0)
    | 0x0F07 => some (0, 1, 0)
    | _ => none

/-- A credential field of the image (R90, R474); TYPE has the codes 0 and 4 alone. -/
def palCred (e : SealEntry) (dflt : Bool) (r : PalResult) : PalResult :=
  let put (v : Nat) (r : PalResult) : PalResult := { r with creds := r.creds ++ [{ e with value := v }] }
  let rpt (code applied : Nat) : RptEntry := ⟨0x0F01, e.inst, e.id, code, e.value, applied⟩
  match credField e.id with
  | none => r.entry (rpt Code.unknownRecord 0)
  | some (lo, hi, d) =>
    if dflt then put d r.accept
    else if e.id = 0x0F01 ∧ e.value ≠ 0 ∧ e.value ≠ 4 then put d (r.entry (rpt Code.range d))
    else if e.value < lo then put lo (r.entry (rpt Code.okClamped lo))
    else if hi < e.value then put hi (r.entry (rpt Code.okClamped hi))
    else put e.value r.accept

/-- A numeric value within the field's limits, as they read it (R90). -/
def dictLimit (f : Config.DictField) (v : Nat) : Nat :=
  let clampTo (x : Int) : Nat := (x % 2 ^ 32).toNat
  match f.kind with
  | .unsigned => if (v : Int) < f.lo then clampTo f.lo else if f.hi < (v : Int) then clampTo f.hi else v
  | .signed => if signed 32 v < f.lo then clampTo f.lo else if f.hi < signed 32 v then clampTo f.hi else v
  | .float => if flt b32 v (clampTo f.lo) then clampTo f.lo else if flt b32 (clampTo f.hi) v then clampTo f.hi else v
  | .enumerated => v

/-- A field entry of the image (R90): `type` and `inst` of its record. (DESIGN CHOICE, log entry 56) -/
def State.palField (s : State) (type inst id flags v : Nat) (r : PalResult) : PalResult :=
  let rpt (code applied : Nat) : RptEntry := ⟨type, inst, id, code, v, applied⟩
  let dflt := bit flags 0
  if 1 < flags then r.entry (rpt Code.format 0)
  else if type = 0x0801 ∨ type = 0x0901 then
    let block := if type = 0x0801 then 8 else 9
    let e : SealEntry := ⟨block, inst, id, v⟩
    s.palMetrology (if dflt then { e with value := sealDefault block e.index } else e) v r
  else if type = 0x0F01 then palCred ⟨0x0F, inst, id, v⟩ dflt r
  else match palDict type inst id with
    | none => r.entry (rpt Code.unknownRecord 0)
    | some f =>
      let put (x : Nat) (r : PalResult) : PalResult :=
        r.effect { inst := inst, target := f.target inst, vals := [x], type := type, id := id, off := r.off, given := v }
      let x := palSnap (f.target inst) (dictLimit f v)
      if dflt then put f.dflt r.accept
      else match f.kind with
        | .enumerated =>
          if f.codes.contains v then put v r.accept
          else if f.structural then
            { r.entry (rpt Code.format 0) with
              disabled := (type, inst) :: r.disabled, loops := if type = 0x0301 then r.loops.filter (· != inst) else r.loops }
          else put f.dflt (r.entry (rpt Code.range f.dflt))
        | .float =>
          if !fisFin b32 v then put f.dflt (r.entry (rpt Code.range f.dflt))
          else if x = v then put v r.accept else put x (r.entry (rpt Code.okClamped x))
        | _ => if x = v then put v r.accept else put x (r.entry (rpt Code.okClamped x))

/-- The `n` field entries from `off` of slot `k`, in order. -/
def State.palFields (s : State) (k type inst : Nat) : Nat → Nat → PalResult → PalResult
  | 0, _, r => r
  | n + 1, off, r =>
    let id := s.flashNum k off 2
    let r := s.palField type inst id (s.flashNum k (off + 2) 2) (s.flashNum k (off + 4) 4) (r.at_ type inst id off)
    s.palFields k type inst n (off + 8) r

/-- A bulk record's elements (R93): the count is cut to the room of its buffer and to what the record holds. The manual does not
say whether a count above both gives one entry or two: one is made, and COUNT = 0xFFFF_FFFF that ends at the room is a clamp like
any other. (DESIGN CHOICE, log entry 57) -/
def State.palBulk (s : State) (k type inst off len : Nat) (d : Config.DictType) (r : PalResult) : PalResult :=
  let given := s.flashNum k (off + 8) 4
  let whole := if d.elem = 0 then 0 else (len - 8) / d.elem
  let n := min given (min d.room whole)
  let vals := (List.range n).map fun i => s.flashNum k (off + 12 + d.elem * i) d.elem
  let r := if targetFits type (d.target inst) then
      r.effect { inst := inst, target := d.target inst, vals := vals, size := d.elem, type := type, off := off, given := given }
    else r
  if n = given then r else r.entry ⟨type, inst, 0xFFFF, Code.okClamped, given, n⟩

/-- One record at `off` of slot `k` (R91): its payload starts at off + 4. (DESIGN CHOICE, log entry 57) -/
def State.palRecord (s : State) (k type len off : Nat) (r : PalResult) : PalResult :=
  let inst := if len < 4 then 0 else s.flashNum k (off + 4) 2
  let r := { r with off := off }
  let rpt (code : Nat) : PalResult := r.entry (recEntry type inst code)
  match ownType type with
  | none => rpt Code.unknownRecord
  | some d =>
    if len < 4 ∨ (d.bulk ∧ len < 8) then rpt Code.length
    else if s.flashNum k (off + 6) 1 ≠ b2n d.bulk ∨ d.instances ≤ inst ∨ s.flashNum k (off + 7) 1 ≠ 0
        ∨ r.seen.contains (type, inst) then rpt Code.format
    else if type = 0x0F01 ∧ !s.credState then rpt Code.refusedState
    else
      let r := r.at_ type inst 0xFFFF off
      let r := { r with seen := (type, inst) :: r.seen, loops := if type = 0x0301 then inst :: r.loops else r.loops }
      if d.bulk then s.palBulk k type inst off len d r
      else
        let r := s.palFields k type inst ((len - 4) / 8) (off + 8) r
        if (len - 4) % 8 = 0 then r else r.entry (recEntry type inst Code.length)

/-- The records from `off` of the image in slot `k`, `n` bytes long (R89, R92). (DESIGN CHOICE, log entry 57) -/
def State.palRecords (s : State) (k n : Nat) : Nat → Nat → PalResult → PalResult
  | 0, _, r => r
  | fuel + 1, off, r =>
    if n ≤ off then r
    else
      let type := s.flashNum k off 2
      let len := s.flashNum k (off + 2) 2
      if n < off + 4 + len then
        { ({ r with off := off }).entry
            (recEntry type (if len < 4 ∨ n < off + 6 then 0 else s.flashNum k (off + 4) 2) Code.length) with
          stop := some off }
      else s.palRecords k n fuel (off + (4 + len + 3) / 4 * 4) (s.palRecord k type len off r)

/-- The value that a field of a register will have: the image's last, or its reset value. -/
def PalResult.regValue (r : PalResult) (f : Field) : Nat :=
  match r.effects.reverse.find? fun e => e.target == .reg f.addr f.hi f.lo with
  | some e => e.vals.headD 0
  | none => f.of (regReset f.addr)

/-- The phase offsets of a round, in the order they must have (R268). -/
def roundOffsets : List Field := [SYS_RND_CFG.SOLVE_END, SYS_RND_CFG.REPLY_END, SYS_RND_CFG.COLLECT, SYS_RND_CFG2.PUBLISH]

/-- A set of phase offsets out of order is refused for the defaults (R268). -/
def PalResult.offsets (r : PalResult) : PalResult :=
  match roundOffsets.map r.regValue with
  | [a, b, c, d] =>
    if a < b ∧ b < c ∧ c < d ∧ d ≤ 63 then r
    else roundOffsets.foldl (fun r f =>
      (r.effects.filter fun e => e.target == .reg f.addr f.hi f.lo).foldl
        (fun r e => r.refuse e Code.range (f.of (regReset f.addr))) r) r
  | _ => r

/-- The fields that put an instance in use where they are not 0. -/
def enableFields : List Field :=
  (List.range 4).map PD_CFG.EN ++ (List.range 16).map PG_CTL.EN ++ (List.range 10).map (busField · 0 0 0)
    ++ (List.range 24).map WFL_L_CFG.EN ++ (List.range 384).map (fun k => WFL_M_CFG.EN (k / 16) (k % 16))
    ++ (List.range 256).map PT_SEG_RING.CAP ++ (List.range 8).map PT_OUT_CFG.EN ++ (List.range 16).map LE_PB_MAP.EN
    ++ (List.range 16).map ANA_RTD_CFG.EN ++ (List.range 8).map LE_TRIP_CFG.EN ++ [LE_PB_CFG.EN]
    ++ (List.range 16).map AON_PLS_CFG.EN ++ (List.range 2).map AON_ALM_CFG.EN ++ (List.range 2).map ETH_PLCA.EN
    ++ (List.range 8).map CAN_HB_CFG.EN

/-- A value that puts its instance in use. (DESIGN CHOICE, log entry 57) -/
def PalEffect.enables (e : PalEffect) : Bool :=
  e.vals.headD 0 != 0 && match e.target with
    | .reg a hi lo => enableFields.contains ⟨a, hi, lo⟩
    | .part k => k == 1
    | _ => false

/-- What the steward takes from the image in slot `k`: an instance left disabled for a structural field keeps its other values,
but none that puts it in use (R90). (DESIGN CHOICE, log entry 57) -/
def State.palParse (s : State) (k : Nat) : PalResult :=
  let n := s.palLen k
  let r := (s.palRecords k n (n / 4) 64 {}).offsets
  (r.effects.filter fun e => r.disabled.contains (e.type, e.inst) && e.enables).foldl (fun r e => r.refuse e Code.format 0) r

/-- The checks of R482 on the firmware image of slot `k`; a slot whose palette image fails has none (R481). -/
def State.fwCheck (s : State) (k : Nat) : Nat :=
  let p := s.palCheck5 k
  let o := s.flashNum k 0x1C 4
  let n := s.flashNum k (o + 8) 4
  let entry := s.flashNum k (o + 0x0C) 4
  if p ≠ Code.ok then p
  else if s.flashNum k o 4 ≠ 0x57465047 ∨ s.flashNum k (o + 6) 2 ≠ 64 ∨ s.flashNum k (o + 5) 1 ≠ 1 then Code.format
  else if n % 4 ≠ 0 ∨ n < 64 ∨ 2097152 < n then Code.length
  else if !s.trailerOk k o n s.owned then Code.signatureMismatch
  else if entry % 2 ≠ 0 ∨ entry < 0x40 ∨ n < entry + 2 ∨ !s.flashZero k (o + 0x18) (o + 0x40) then Code.format
  else if s.flashNum k (o + 0x10) 4 < s.scValue 4 then Code.refusedAuth
  else Code.ok

/-- An entry of the condition report as it stands in PM (R96). -/
def RptEntry.bytes (e : RptEntry) : List Byte :=
  toBytes 2 e.type ++ toBytes 2 e.inst ++ toBytes 2 e.field ++ toBytes 1 e.code ++ toBytes 1 0 ++ toBytes 4 e.given ++ toBytes 4 e.applied

end Sys2Proof.Machine
end

