-- ==== Sys2Proof/Machine/Pm.lean ====
section
/-! DEFINITION. The parameter memory's commands (chapter 21): page loads and commits, passwords, firmware spread counters,
ECC counting, and the journal's completion at a start. -/

namespace Sys2Proof.Machine

/-- The 64-bit word `i` of the page buffer. -/
def State.bufWord (s : State) (i : Nat) : Nat := s.reg64 (PM_BUF (2 * i)) (PM_BUF (2 * i + 1))

/-- The window offset of copy `k` of the stored partition table (R441). -/
def partTableAt (k : Nat) : Nat := 0x400 + 0x400 * k

/-- The mark of a stored table's generation word. (DESIGN CHOICE, log entry 10) -/
def tableMark : Nat := 0x50415254

/-- Partition `i` of a stored table as its five words. (DESIGN CHOICE, log entry 10) -/
def PmPart.words (off i : Nat) (p : PmPart) : List (Nat × Nat) :=
  let hash (l : Option (List Byte)) : List Nat := [ofBytes ((l.getD []).take 8), ofBytes ((l.getD []).drop 8)]
  let head := b2n p.defined + 2 * b2n p.journal + 4 * b2n p.rpw.isSome + 8 * b2n p.wpw.isSome
    + 2 ^ 16 * (p.base % 2 ^ 12) + 2 ^ 32 * (p.size % 2 ^ 12)
  (head :: hash p.rpw ++ hash p.wpw).mapIdx fun j w => (off + 40 * i + 8 * j, w)

/-- Partition `i` of the stored table whose copy stands at `off`. -/
def State.partAt (s : State) (off i : Nat) : PmPart :=
  let w (j : Nat) : Nat := s.pmWord (off + 40 * i + 8 * j)
  let hash (b j : Nat) : Option (List Byte) := if bit (w 0) b then some (toBytes 8 (w j) ++ toBytes 8 (w (j + 1))) else none
  { defined := bit (w 0) 0, journal := bit (w 0) 1, base := bits (w 0) 27 16, size := bits (w 0) 43 32, rpw := hash 2 1, wpw := hash 3 3 }

/-- The generation of copy `k` of the stored table, where its generation word stands and no word of it has an uncorrectable error
(R438, R448). (DESIGN CHOICE, log entry 10) -/
def State.tableGen (s : State) (k : Nat) : Option Nat :=
  let w := s.pmWord (partTableAt k + 0x280)
  if s.pmSound (partTableAt k) 0x288 && w / 2 ^ 32 == tableMark then some (w % 2 ^ 32) else none

/-- The copy of the stored partition table in use: that of the later generation (R448). -/
def State.tableCopy (s : State) : Option Nat :=
  match s.tableGen 0, s.tableGen 1 with
  | some a, some b => if (b + 2 ^ 32 - a) % 2 ^ 32 < 2 ^ 31 then some 1 else some 0
  | some _, none => some 0
  | none, some _ => some 1
  | none, none => none

/-- The stored partition table (R448): no partition where no copy stands. -/
def State.storedParts (s : State) : List PmPart :=
  match s.tableCopy with
  | some k => (List.range 16).map (s.partAt (partTableAt k))
  | none => List.replicate 16 {}

/-- The copy of the partition table that is not in use (R448). -/
def State.tableSpare (s : State) : Nat := if s.tableCopy = some 0 then 1 else 0

/-- The words that store the table `l`: none where it is the stored one; else those of the copy not in use that differ, with its
generation word last (R448). -/
def State.tableWords (s : State) (l : List PmPart) : List (Nat × Nat) :=
  if l = s.storedParts then []
  else
    let k := s.tableSpare
    let gen := ((s.tableCopy.bind s.tableGen).getD 0 + 1) % 2 ^ 32
    s.pmToProgram ((l.mapIdx fun i p => p.words (partTableAt k) i).flatten) ++ [(partTableAt k + 0x280, gen + 2 ^ 32 * tableMark)]

/-- The partition that holds page `g`, with its number (R447). (DESIGN CHOICE, log entry 11) -/
def partOf (g : Nat) : Nat → List PmPart → Option (Nat × PmPart)
  | _, [] => none
  | i, p :: t => if p.defined && decide (p.base ≤ g) && decide (g < p.base + p.size) then some (i, p) else partOf g (i + 1) t

/-- The words of page `g` that differ from the page buffer, in ascending order, each with its new value (R444). -/
def State.diffWords (s : State) (g : Nat) : List (Nat × Nat) :=
  s.pmToProgram ((List.range 32).map fun i => (0x100 * g + 8 * i, s.bufWord i))

/-- The bytes of the page buffer. -/
def State.bufBytes (s : State) : List Byte := (List.range 64).flatMap fun i => toBytes 4 (s.reg (PM_BUF i)).toNat

/-- The words a commit of page `g` programs, in order: R444 in native mode, the five steps of R453 in journal mode. -/
def State.commitSteps (s : State) (g : Nat) (p : PmPart) : List (Nat × Nat) :=
  if p.journal then
    let ctl := 0x100 * (p.base + 1)
    let seq := (s.rd32 (pmAddr (ctl + 8)) + 1) % 2 ^ 32
    s.diffWords p.base
      ++ [(ctl, g + 2 ^ 32 * crc32 s.bufBytes), (ctl + 8, seq), (ctl + 0xF8, 0x4A524E4C + 2 ^ 32 * seq)]
      ++ s.diffWords g ++ [(ctl + 0xF8, 0)]
  else s.diffWords g

/-- The corrected reads of the comparison that a commit of page `g` makes (R438, R444): of the page, and in journal mode of the
journal data page too (R453). (DESIGN CHOICE, log entry 15) -/
def State.commitSoft (s : State) (g : Nat) (p : PmPart) : Nat :=
  s.pmSoft (0x100 * g) 0x100 + if p.journal then s.pmSoft (0x100 * p.base) 0x100 else 0

/-- The customer area of R441. -/
def customerPage (g : Nat) : Bool := decide (1024 ≤ g) && decide (g < 2048)

/-- The refusals of R443 for a page command on page `g`, in table order. -/
def State.pageRefusal (s : State) (g : Nat) (commit : Bool) : Option Nat :=
  if !(s.flag PM_STAT.READY) || s.flag PM_STAT.BUSY || (commit && s.pm.loaded.isNone) then some 0x12
  else if !(customerPage g) then some 0x14
  else match partOf g 0 s.pm.parts with
    | none => some 0x21
    | some (i, p) =>
      if p.journal && decide (g < p.base + 2) then some 0x21
      else if s.flag (PM_PART_STAT.LOCKED i) then some 0x14
      else if !commit && p.rpw.isSome && !(s.flag (PM_PART_STAT.RUNL i)) then some 0x13
      else if commit && p.wpw.isSome && !(s.flag (PM_PART_STAT.WUNL i)) then some 0x13
      else none

/-- The page buffer filled with page `g`; what a word with an uncorrectable error leaves there is open (R438).
(DESIGN CHOICE, log entry 15) -/
def State.fillBuf (s : State) (g : Nat) : State :=
  let t := forN (fun i t => t.setReg (PM_BUF i) (BitVec.ofNat 32
    (if s.pmBad (0x100 * g + 8 * (i / 2)) then Config.freeNat (s.free + i) else s.rd32 (pmAddr (0x100 * g + 4 * i))))) 64 s
  let t := t.ceCount (s.pmSoft (0x100 * g) 0x100)
  if s.pmSound (0x100 * g) 0x100 then t else { t with free := s.free + 64 }

/-- The buffer dropped (R443). -/
def State.dropBuf (s : State) : State :=
  { s.setFlag PM_STAT.BUF false with pm := { s.pm with loaded := none } }

/-- A PM_CMD write that acts: its key and its operation (R443). -/
def pmCmdIs (v : Word) (op : Nat) : Bool := PM_CMD.KEY.of v == 0x9A3E && PM_CMD.OP.of v == op

/-- A write of PM_CMD, taken as LOAD (R443). -/
def State.pmLoadWrite (s : State) (v : Word) : State :=
  if !(pmCmdIs v 1) then s else
  let g := PM_CMD.PAGE.of v
  match s.pageRefusal g false with
  | some c => s.setFld PM_STAT.CODE c
  | none =>
    let s := ((s.fillBuf g).setFlag PM_STAT.BUF true).setFld PM_STAT.CODE 0
    { s with pm := { s.pm with loaded := some g } }

/-- PM_CMD LOAD (R443). -/
def execPmLoad (v : Word) (s : State) : Out := s.cpDoes fun s => s.pmLoadWrite v

/-- A write of PM_CMD, taken as COMMIT (R443, R444, R453). -/
def State.pmCommitWrite (s : State) (v : Word) : State :=
  if !(pmCmdIs v 2) then s else
  let g := s.pm.loaded.getD 0
  match s.pageRefusal g true with
  | some c => s.setFld PM_STAT.CODE c
  | none =>
    match partOf g 0 s.pm.parts with
    | none => s
    | some (_, p) =>
      let l := s.commitSteps g p
      let s := ((s.ceCount (s.commitSoft g p)).setFlag PM_STAT.BUSY true).setFld PM_STAT.CODE 0
      { s with pm := { s.pm with steps := l } }

/-- PM_CMD COMMIT (R443): the commit of the loaded page starts (R444, R453). -/
def execPmCommit (v : Word) (s : State) : Out := s.cpDoes fun s => s.pmCommitWrite v

/-- A write of PM_CMD, taken as DISCARD (R443). (DEDUCED, log entry 7) -/
def State.pmDiscardWrite (s : State) (v : Word) : State :=
  if !(pmCmdIs v 3) then s
  else if !(s.flag PM_STAT.READY) || s.flag PM_STAT.BUSY then s.setFld PM_STAT.CODE 0x12
  else s.dropBuf.setFld PM_STAT.CODE 0

/-- PM_CMD DISCARD (R443). (DEDUCED, log entry 7) -/
def execPmDiscard (v : Word) (s : State) : Out := s.cpDoes fun s => s.pmDiscardWrite v

/-- The first `n` words that a CP commit has still to program reach the array (R444, R446). -/
def State.pmAdvance (s : State) (n : Nat) : State :=
  { s.pmProgramAll (s.pm.steps.take n) with pm := { s.pm with steps := s.pm.steps.drop n } }

/-- A CP commit cut after `n` more words (R22, R444): the rest never reaches the array, and the buffer is lost.
(DESIGN CHOICE, log entry 15) -/
def State.pmCut (s : State) (n : Nat) : State :=
  if s.flag PM_STAT.BUSY then
    let s := s.pmAdvance n
    { s.dropBuf.setFlag PM_STAT.BUSY false with pm := { s.pm with steps := [], loaded := none } }
  else s.dropBuf

/-- A CP commit goes on: no writer of higher claim, brown stall or coming SYSRST keeps the array from it (R22, R445, R446). -/
def State.pmGoesOn (s : State) : Bool := s.flag PM_STAT.BUSY && !s.pmBlocked 6 && !s.rst.sys

/-- A CP commit ends: every word has its new value, the buffer is dropped and DONE is raised (R443, R444).
(DESIGN CHOICE, log entry 5) -/
def execPmCommitEnd (s : State) : Out :=
  State.out <|
    if s.pmGoesOn then
      (((s.pmAdvance s.pm.steps.length).dropBuf).setFlag PM_STAT.BUSY false).setFlag PM_EVT.DONE true
    else s

/-- The 8 password bytes staged in PM_PW0 and PM_PW1. -/
def State.stagedPw (s : State) : List Byte := toBytes 4 (s.reg PM_PW0).toNat ++ toBytes 4 (s.reg PM_PW1).toNat

/-- PM_PW0 and PM_PW1 cleared after an attempt (R449). -/
def State.clearPw (s : State) : State := (s.setReg PM_PW0 0).setReg PM_PW1 0

/-- A mismatch of partition `p` (R450): FAILS, the wait of 10 ms × 2^(FAILS − 1), and at the eighth LOCKED. -/
def State.pwMismatch (s : State) (p : Nat) : State :=
  let n := s.fld (PM_PART_STAT.FAILS p) + 1
  let ends := s.time.mtime + 10000 * 2 ^ (n - 1)
  let s : State := { s with pm := { s.pm with waits := (p, ends) :: s.pm.waits.filter (·.1 != p) } }
  let s := (s.setFld (PM_PART_STAT.FAILS p) n).setFld (PM_PART_STAT.WAIT p) (2 ^ (n - 1))
  let s := s.setFld PM_STAT.CODE 0x13
  if n = 8 then (s.setFlag (PM_PART_STAT.LOCKED p) true).setFlag PM_EVT.LOCKOUT true else s

/-- A write of PM_UNLOCK, taken as an unlock (R449, R450). (DEDUCED, log entry 7; DESIGN CHOICE, log entry 11) -/
def State.pmUnlockWrite (s : State) (v : Word) : State :=
  if PM_UNLOCK.GO.of v = 0 ∨ PM_UNLOCK.LOCK.of v = 1 then s else
  let p := PM_UNLOCK.PART.of v
  let write := PM_UNLOCK.KIND.of v == 1
  let part := nth s.pm.parts p {}
  let stored := if write then part.wpw else part.rpw
  let flag := if write then PM_PART_STAT.WUNL p else PM_PART_STAT.RUNL p
  let digest := (Config.sha256 (s.stagedPw ++ [BitVec.ofNat 8 p])).take 16
  let s1 := s.clearPw
  if s.flag (PM_PART_STAT.LOCKED p) then s1.setFld PM_STAT.CODE 0x14
  else match stored with
    | none => (s1.setFlag flag true).setFld PM_STAT.CODE 0
    | some h =>
      if 0 < s.fld (PM_PART_STAT.WAIT p) then s1.setFld PM_STAT.CODE 0x12
      else if digest = h then ((s1.setFlag flag true).setFld (PM_PART_STAT.FAILS p) 0).setFld PM_STAT.CODE 0
      else s1.pwMismatch p

/-- PM_UNLOCK with GO (R449, R450). (DEDUCED, log entry 7; DESIGN CHOICE, log entry 11) -/
def execPmUnlock (v : Word) (s : State) : Out := s.cpDoes fun s => s.pmUnlockWrite v

/-- A write of PM_UNLOCK, taken as a lock (R449). -/
def State.pmLockWrite (s : State) (v : Word) : State :=
  if PM_UNLOCK.LOCK.of v = 1 then
    (s.setFlag (PM_PART_STAT.RUNL (PM_UNLOCK.PART.of v)) false).setFlag (PM_PART_STAT.WUNL (PM_UNLOCK.PART.of v)) false
  else s

/-- PM_UNLOCK with LOCK (R449). -/
def execPmLock (v : Word) (s : State) : Out := s.cpDoes fun s => s.pmLockWrite v

/-- The wait after a mismatch has passed (R450). -/
def execUnlockWaitEnd (part : Fin 16) (s : State) : Out :=
  State.out { s.setFld (PM_PART_STAT.WAIT part) 0 with pm := { s.pm with waits := s.pm.waits.filter (·.1 != part.val) } }

/-- A write of PM_SC_CMD (R445, R458): an increment waits while a writer of higher claim holds the array. -/
def State.scCmdWrite (s : State) (v : Word) : State :=
  if PM_SC_CMD.KEY.of v ≠ 0x5C01 ∨ PM_SC_CMD.GO.of v = 0 then s
  else if s.flag PM_SC_STAT.BUSY then s.setFlag PM_SC_STAT.IGNORED true
  else
    let k := PM_SC_CMD.INDEX.of v
    if k < 8 then s.setFld PM_SC_STAT.CODE 0x14
    else if s.pmBlocked 5 then { s.setFlag PM_SC_STAT.BUSY true with pm := { s.pm with sc := some (Fin.ofNat 32 k) } }
    else s.scServe k

/-- PM_SC_CMD (R458). -/
def execPmScCmd (v : Word) (s : State) : Out := s.cpDoes fun s => s.scCmdWrite v

/-- An hour of LFXO time ends (R440). -/
def execCeHour (s : State) : Out :=
  State.out <|
    let hours := (s.pm.ceNow :: s.pm.ceHours).take 24
    let sum := hours.sum
    let s := { s with pm := { s.pm with ceNow := 0, ceHours := hours } }
    let s := s.setFld PM_CE_DAY.SUM sum
    if s.fld PM_CFG.CE_LIM < sum then (s.setFlag PM_EVT.CE_LIM true).setCause 4 true
    else s.setCause 4 false

/-- Whether a read through the PM window at `off` is denied (R450). -/
def State.pmDenied (s : State) (off : Nat) : Bool :=
  match partOf (off / 0x100) 0 s.pm.parts with
  | none => false
  | some (i, p) => s.flag (PM_PART_STAT.LOCKED i) || (p.rpw.isSome && !(s.flag (PM_PART_STAT.RUNL i)))

/-- The pages that read 0 through the window (R441). -/
def pmHidden (off : Nat) : Bool := decide (0x100 ≤ off) && decide (off < 0x4000)

/-- The array offset that a window read at `off` returns: the journal data page from step 3 of a journal commit of that home page,
the marker, until step 5 ends (R453). -/
def State.pmShown (s : State) (off : Nat) : Nat :=
  match partOf (off / 0x100) 0 s.pm.parts with
  | some (_, p) =>
    let ctl := 0x100 * (p.base + 1)
    if p.journal && s.flag PM_STAT.BUSY && s.pm.loaded == some (off / 0x100) && !s.pm.steps.isEmpty
        && !s.pm.steps.any fun w => w.1 == ctl + 0xF8 && w.2 != 0
    then 0x100 * p.base + off % 0x100 else off
  | none => off

/-- What reading the word at array offset `w` meets: `ecc`, or the error that it was found with and that nothing has written over
(R438). (DESIGN CHOICE, log entry 15) -/
def State.eccOf (s : State) (w : Nat) (ecc : EccKind) : EccKind :=
  if ecc == .uncorrectable || s.pmBad w then .uncorrectable
  else if ecc == .corrected || s.ecc.contains (w, false) then .corrected else .good

/-- The word at array offset `w` was found with an error that stays until it is programmed. (DESIGN CHOICE, log entry 15) -/
def State.eccMark (s : State) (w : Nat) (bad : Bool) : State :=
  { s with ecc := (w, bad) :: s.ecc.filter fun x => x.1 != w }

/-- A CP read of the word at PM window offset `off` (R438, R441, R450, R453). -/
def State.pmRead (s : State) (off : Nat) (ecc : EccKind) : State :=
  if pmHidden off then { s with readback := 0 }
  else if s.pmDenied off then { s.countUp PM_STAT.DENIED with readback := 0 }
  else
    let at_ := s.pmShown off
    let data := BitVec.ofNat 32 (s.rd32 (pmAddr at_))
    let w := at_ / 8 * 8
    match s.eccOf w ecc with
    | .good => { s with readback := data }
    | .corrected => { (s.ceCount 1).eccMark w false with readback := data }
    | .uncorrectable =>
      { (((s.countUp PM_ECC.UE).setFld PM_ECC_ADDR.ADDR (off / 8 * 8)).setFlag PM_EVT.UE true).eccMark w true with
        readback := 0xFFFFFFFF }

/-- The marker of a journal-mode partition is valid (R452). -/
def State.markerValid (s : State) (p : PmPart) : Bool :=
  let ctl := 0x100 * (p.base + 1)
  let home := s.rd32 (pmAddr ctl) % 2 ^ 11
  s.pmSound (0x100 * p.base) 0x200 && s.rd32 (pmAddr (ctl + 0xF8)) == 0x4A524E4C
    && s.rd32 (pmAddr (ctl + 0xFC)) == s.rd32 (pmAddr (ctl + 8))
    && decide (p.base + 2 ≤ home) && decide (home < p.base + p.size)
    && s.rd32 (pmAddr (ctl + 4)) == crc32 (s.pmBytes (0x100 * p.base) 0x100)

/-- The completion or roll-back of one journal-mode partition at a start (R454): its journal pages are read, and the home page
compared (R444), which counts their corrected reads (R438). (DEDUCED, log entry 19) -/
def State.journalPart (s : State) (p : PmPart) : State :=
  if !(p.defined && p.journal) then s else
  let ctl := 0x100 * (p.base + 1)
  if s.markerValid p then
    let home := s.rd32 (pmAddr ctl) % 2 ^ 11
    let words := s.pmToProgram (wordsOf (0x100 * home) 32 (s.pmBytes (0x100 * p.base) 0x100))
    let s := (s.ceCount (s.pmSoft (0x100 * p.base) 0x200 + s.pmSoft (0x100 * home) 0x100)).pmProgramAll words
    (s.pmProgram (ctl + 0xF8) 0).setFld PM_JRNL.DONE (s.fld PM_JRNL.DONE + 1)
  else
    let s := s.ceCount (s.pmSoft (0x100 * p.base) 0x200)
    (s.pmProgram (ctl + 0xF8) 0).setFld PM_JRNL.ROLLED (s.fld PM_JRNL.ROLLED + 1)

/-- Every journal-mode partition of the stored table completed or rolled back, before the PM answers (R454).
(DEDUCED, log entry 19) -/
def State.journalCompletion (s : State) : State :=
  s.storedParts.foldl State.journalPart ((s.setFld PM_JRNL.DONE 0).setFld PM_JRNL.ROLLED 0)

/-- What CPRST does to the PM (R446, R451): a buffer with no commit in progress is discarded, RUNL and WUNL clear. -/
def State.pmCprst (s : State) : State :=
  let s := if s.flag PM_STAT.BUSY then s else s.dropBuf
  forN (fun p s => (s.setFlag (PM_PART_STAT.RUNL p) false).setFlag (PM_PART_STAT.WUNL p) false) 16 s

/-- The partition table shown in PM_PART_STAT and PM_PART_MAP. -/
def State.showParts (s : State) : State :=
  forN (fun i s =>
    let p := nth s.pm.parts i {}
    let s := (s.setFlag (PM_PART_STAT.DEF i) p.defined).setFlag (PM_PART_STAT.JRNL i) p.journal
    let s := (s.setFlag (PM_PART_STAT.RPW i) p.rpw.isSome).setFlag (PM_PART_STAT.WPW i) p.wpw.isSome
    (s.setFld (PM_PART_MAP.SIZE i) p.size).setFld (PM_PART_MAP.BASE i) p.base) 16 s

end Sys2Proof.Machine
end

