-- ==== Sys2Proof/Machine/Tune.lean ====
section
/-! DEFINITION. Injection, capture and trace (chapter 9). -/

namespace Sys2Proof.Machine

/-- The value of a node in binary32 (R176, R178). -/
def State.node (s : State) (code : Nat) : Nat :=
  let n := code / 64 % 64
  let i := code % 64
  let bf (b : Bf) : Nat := b.dy.toFloat b32
  match code / 4096 with
  | 1 => bf (nth (s.slot n).u i {})
  | 2 => bf (nth (s.slot n).st i {})
  | 3 => bf (s.slot n).out
  | 4 => bf (s.slot n).injW
  | 5 => (nth s.le.pg (n % 16) {}).setp
  | 6 => bf (nth (s.slot n).inter i {})
  | _ => 0

/-- Whether a node code names a node that exists (R176). -/
def State.nodeOk (s : State) (code : Nat) : Bool :=
  let n := code / 64 % 64
  let i := code % 64
  match code / 4096 with
  | 0 => true
  | 1 => decide (i < lawInputs (s.template n) (s.bankWord n))
  | 2 => decide (i < lawStates (s.template n) (s.bankWord n))
  | 3 | 4 => i == 0
  | 5 => i == 0 && decide (n ≤ 15)
  | 6 => decide (i < nth [4, 1, 6, 2] (s.template n) 0)
  | _ => false

/-- The node code of capture channel `i`, and of trace channel `i`. -/
def State.capNode (s : State) (i : Nat) : Nat :=
  if i % 2 = 0 then s.fld (TUNE_CAP_SRC.SRC_LO (i / 2)) else s.fld (TUNE_CAP_SRC.SRC_HI (i / 2))
def State.trcNode (s : State) (i : Nat) : Nat :=
  if i % 2 = 0 then s.fld (TUNE_TRC_SRC.SRC_LO (i / 2)) else s.fld (TUNE_TRC_SRC.SRC_HI (i / 2))

/-- The number of frames an area holds with `n` channels (R178). -/
def frameDepth (n : Nat) : Nat := 524288 / (4 * (n + 1))

/-- A frame's header word (R178). -/
def frameHeader (skip inj sat trig : Bool) (index : Nat) : Nat :=
  2 ^ 31 * b2n skip + 2 ^ 30 * b2n inj + 2 ^ 29 * b2n sat + 2 ^ 28 * b2n trig + index % 2 ^ 24

/-- A frame written at `a`: the header and the values of its nodes (R178). -/
def State.putFrame (s : State) (a hdr : Nat) (vals : List Nat) : State :=
  s.wrBytes a ((hdr :: vals).map (toBytes 4)).flatten

/-- The frames a capture is to write; all ones means the full depth (R182). -/
def State.capFrames (s : State) : Nat :=
  let f := (s.reg TUNE_CAP_FRAMES).toNat
  if f = 0xFFFFFFFF then frameDepth (s.fld TUNE_CAP_CFG.NCH + 1) else f

/-- The capture at a sample instant of its timing slot (R177, R184). -/
def State.captureInstant (s : State) (skip inj sat : Bool) : State :=
  if !(s.flag TUNE_STAT.CAP_RUN) then s else
  let i := s.tune.capInst
  let s := { s with tune := { s.tune with capInst := i + 1 } }
  if i % max 1 (s.fld TUNE_CAP_CFG.DEC) ≠ 0 then s else
  let n := s.fld TUNE_CAP_CFG.NCH + 1
  let c := (s.reg TUNE_CAP_COUNT).toNat
  let s := if c < s.capFrames then
      (s.putFrame (0x32000000 + 4 * (n + 1) * c) (frameHeader skip inj sat false c) ((List.range n).map fun k => s.node (s.capNode k))).setReg
        TUNE_CAP_COUNT (BitVec.ofNat 32 (c + 1))
    else s
  if s.capFrames ≤ c + 1 then (s.setFlag TUNE_STAT.CAP_RUN false).setFlag TUNE_EVT.CAP_DONE true else s

/-- PRE and POST of the trace in frames (R185); all ones stands for the largest legal value beside the other, and beside another
all ones PRE takes the whole ring (R188). (DEDUCED, log entry 42) -/
def State.trcLens (s : State) : Nat × Nat :=
  let d := frameDepth (s.fld TUNE_TRC_NCH.NCH + 1) - 1
  let pre := (s.reg TUNE_TRC_PRE).toNat
  let post := (s.reg TUNE_TRC_POST).toNat
  if pre = 0xFFFFFFFF then (if post = 0xFFFFFFFF then (d, 0) else (d - post, post))
  else (pre, if post = 0xFFFFFFFF then d - pre else post)

/-- Whether the trigger of the trace is met by value `v` of its channel (R186). (DEDUCED, log entry 42) -/
def State.traceHit (s : State) (v : Nat) : Bool :=
  let thr := (s.reg TUNE_TRC_THR).toNat
  match s.fld TUNE_TRC_CFG.TRIG with
  | 0 => if s.flag TUNE_TRC_CFG.ABOVE then flt b32 thr v else flt b32 v thr
  | 1 =>
    match s.tune.trcPrev with
    | none => false
    | some p =>
      let up := fle b32 p thr && flt b32 thr v
      let down := fle b32 thr p && flt b32 v thr
      match s.fld TUNE_TRC_CFG.EDGE with
      | 0 => up
      | 1 => down
      | 2 => up || down
      | _ => false
  | 2 => (s.tune.events &&& s.fld TUNE_TRC_FMASK.EVENTS) != 0
  | _ => false

/-- The trace stops, writing no more frames (R185, R187). -/
def State.traceEnd (s : State) : State := (s.setFlag TUNE_TRC_CTL.ARMED false).setFlag TUNE_STAT.TRC_ARMED false

/-- The trace at a sample instant of its timing slot (R177, R185, R186); in HOLDUP the block is stopped (R68). -/
def State.traceInstant (s : State) (skip inj sat : Bool) : State :=
  if !(s.flag TUNE_TRC_CTL.ARMED) || s.inHoldup then s else
  let i := s.tune.trcInst
  let s := { s with tune := { s.tune with trcInst := i + 1 } }
  if i % max 1 (s.fld TUNE_TRC_CFG.DEC) ≠ 0 then s else
  let n := s.fld TUNE_TRC_NCH.NCH + 1
  let c := s.tune.trcCount
  let vals := (List.range n).map fun k => s.node (s.trcNode k)
  let v := nth vals (s.fld TUNE_TRC_CFG.TCH) 0
  let hit := s.tune.trcPost.isNone && decide (s.trcLens.1 ≤ c) && s.traceHit v
  let pos := c % frameDepth n
  let s := s.putFrame (0x32080000 + 4 * (n + 1) * pos) (frameHeader skip inj sat hit c) vals
  let s := if hit then (s.setFld TUNE_TRC_STAT.TPOS pos).setFlag TUNE_EVT.TRC_TRIG true else s
  let post := if hit then some 0 else s.tune.trcPost.map (· + 1)
  let s := { s with tune := { s.tune with trcCount := c + 1, trcPrev := some v, events := 0, trcPost := post } }
  match post with
  | none => s
  | some k =>
    if s.trcLens.2 ≤ k then (s.traceEnd.setFlag TUNE_TRC_STAT.DONE true).setFlag TUNE_EVT.TRC_DONE true else s

/-- The trace stops when HOLDUP takes effect (R187). -/
def State.traceFreeze (s : State) : State :=
  if s.flag TUNE_TRC_CTL.ARMED then (s.traceEnd.setFlag TUNE_TRC_STAT.FROZEN true).setFlag TUNE_EVT.TRC_DONE true else s

/-- The taps of a PRBS of order `n` (R180). -/
def prbsTaps (n : Nat) : List Nat :=
  nth [[7, 6], [8, 6, 5, 4], [9, 5], [10, 7], [11, 9], [12, 6, 4, 1], [13, 4, 3, 1], [14, 5, 3, 1], [15, 14]] (n - 7) []

/-- The PRBS state after a shift; bit t − 1 stands for s[t]. -/
def prbsNext (n p : Nat) : Nat :=
  let fb := (prbsTaps n).foldl (fun b t => b != bit p (t - 1)) false
  (p * 2 + b2n fb) % 2 ^ n

/-- −x, rounded. -/
def Bf.neg (x : Bf) : Bf := (⟨-x.m, x.e - 23⟩ : Dy).bf

/-- A running injection at its normal end (R181). -/
def State.injEnd (s : State) : State :=
  let s := (((s.setFlag TUNE_STAT.INJ_RUN false).setFld TUNE_INJ_STAT.CODE Code.ok).setFld TUNE_INJ_STAT.ABORT 0).setFlag TUNE_EVT.INJ_END true
  { s with tune := { s.tune with w := {} } }

/-- The scale of the fixed-point numbers of a sweep. -/
def fxOne : Nat := 2 ^ 160

/-- Σ z^(2k+1)/(2k+1) from the term `t` = z^i on; z² is `z2`. -/
def fxAtanh (z2 : Nat) : Nat → Nat → Nat → Nat
  | 0, _, _ => 0
  | n + 1, i, t => t / i + fxAtanh z2 n (i + 2) (t * z2 / fxOne)

/-- ln m for m in [1, 2), both in units of 2⁻¹⁶⁰. -/
def fxLn (m : Nat) : Nat :=
  let z := (m - fxOne) * fxOne / (m + fxOne)
  2 * fxAtanh (z * z / fxOne) 52 1 z

/-- e^x for x in [0, 1), both in units of 2⁻¹⁶⁰: the series from the term `t` at index `i`. -/
def fxExp (x : Nat) : Nat → Nat → Nat → Nat
  | 0, _, t => t
  | n + 1, i, t => t + fxExp x n (i + 1) (t * x / (fxOne * i))

/-- r^(i/len) for a binary64 r ≥ 1: the power of the binary64 quotient i/len, rounded to nearest from 160 binary places (R180).
(DESIGN CHOICE, log entry 28) -/
def sweepPow (r i len : Nat) : Nat :=
  let d := Dy.ofFloat b64 r
  let q := Dy.ofFloat b64 (fdiv b64 (fofInt b64 i) (fofInt b64 len))
  let k := Nat.log2 d.m.natAbs
  let ln2 := 2 * fxAtanh (fxOne / 9) 52 1 (fxOne / 3)
  let ln := (((d.e + k) * ln2).toNat + fxLn (d.m.natAbs * fxOne / 2 ^ k))
  let y := (q.m.natAbs * ln : Nat)
  let y := if 0 ≤ q.e then y * 2 ^ q.e.toNat else y / 2 ^ (-q.e).toNat
  let n := y / ln2
  (⟨(fxExp (y - n * ln2) 42 1 fxOne : Nat), (n : Int) - 160⟩ : Dy).toFloat b64

/-- The generator at a sample instant of the injected slot `n`: the value w of this instant, or the normal end (R180,
R181). (DESIGN CHOICE, log entry 28) -/
def State.injInstant (s : State) (n : Nat) : State :=
  if !(s.flag TUNE_STAT.INJ_RUN && s.fld TUNE_INJ_CFG.SLOT == n) then s else
  let t := s.tune
  let delay := (s.reg TUNE_INJ_DELAY).toNat
  let len := (s.reg TUNE_INJ_LEN).toNat
  let amp := Bf.ofWord (s.reg TUNE_INJ_AMP).toNat
  let s := { s with tune := { t with j := t.j + 1, w := {} } }
  if t.j < delay then s else
  let i := t.j - delay
  match s.fld TUNE_INJ_CFG.SIG with
  | 1 => if len ≠ 0 ∧ len ≤ i then s.injEnd else { s with tune := { s.tune with w := amp } }
  | 2 =>
    if len ≠ 0 ∧ len ≤ i then s.injEnd else
    let ord := s.fld TUNE_INJ_CFG.ORDER
    let p := if i = 0 then 2 ^ ord - 1 else t.prbs
    let w := if bit p (ord - 1) then amp else amp.neg
    let p' := if (i + 1) % (s.fld TUNE_INJ_CFG.HOLD + 1) = 0 then prbsNext ord p else p
    { s with tune := { s.tune with w := w, prbs := p' } }
  | _ =>
    let phi := if i = 0 then 0 else t.phi
    let turn := ((ffloor b64 phi).getD 0).toNat
    if len ≤ i ∧ t.turn < turn ∧ i ≠ 0 then s.injEnd else
    let w := mul1 amp (sinBf (Dy.ofFloat b64 phi))
    let f (a : Nat) : Nat := fconv b32 b64 (s.reg a).toNat
    let rate := fmul b64 (f TUNE_INJ_F0) (sweepPow (fdiv b64 (f TUNE_INJ_F1) (f TUNE_INJ_F0)) i len)
    let phi' := fadd b64 phi (fmul b64 rate (fofRat b64 (s.slotPeriod n) 100000))
    { s with tune := { s.tune with w := w, phi := phi', turn := turn } }

/-- The injected value that the law of slot `n` takes, with its point (R179). -/
def State.injFor (s : State) (n : Nat) : Option (Nat × Bf) :=
  if s.flag TUNE_STAT.INJ_RUN && s.fld TUNE_INJ_CFG.SLOT == n && s.tune.w.m != 0 then
    some (s.fld TUNE_INJ_CFG.POINT, s.tune.w) else none

/-- What the header of a frame says of its instant (R178): the step did not run, an injection is active, the step set SAT. -/
structure FrameBits where
  skip : Bool
  inj : Bool
  sat : Bool
  deriving DecidableEq, Repr

/-- The header of an instant as the machine now stands. -/
def State.frameBits (s : State) (skip sat : Bool) : FrameBits := ⟨skip, s.flag TUNE_STAT.INJ_RUN, sat⟩

/-- Slot `n` is the timing slot of the capture or of the trace (R177, R184). -/
def State.isTiming (s : State) (n : Nat) : Bool := s.fld TUNE_INJ_CFG.SLOT == n || s.fld TUNE_TRC_CFG.TSLOT == n

/-- The frames that an instant of slot `n` writes (R177); an instant whose step does not run carries SKIP. -/
def State.frames (s : State) (n : Nat) (b : FrameBits) : State :=
  let s := if s.fld TUNE_INJ_CFG.SLOT = n then s.captureInstant b.skip b.inj b.sat else s
  if s.fld TUNE_TRC_CFG.TSLOT = n then s.traceInstant b.skip b.inj b.sat else s

/-- Whether an injection point exists in a template (R179). -/
def injPointOk (tmpl p : Nat) : Bool :=
  match tmpl, p with
  | 0, 0 | 0, 1 | 0, 2 | 1, 0 | 1, 2 | 2, 0 | 2, 1 | 2, 2 | 3, 2 => true
  | _, _ => false

/-- The checks of R182 in order: the refusal's code, or OK. (DEDUCED, log entry 42; DESIGN CHOICE, log entry 69) -/
def State.injCheck (s : State) : Nat :=
  let n := s.fld TUNE_INJ_CFG.SLOT
  let cap := s.flag TUNE_CAP_CFG.EN
  let nch := s.fld TUNE_CAP_CFG.NCH + 1
  let f (a : Nat) : Dy := s.reg32f a
  let bad32 (a : Nat) : Bool := !fisFin b32 (s.reg a).toNat
  if !(s.flag TUNE_STAT.AUTH) || s.fld LCS_STAT.STATE != 3 then Code.refusedAuth
  else if s.flag TUNE_STAT.INJ_RUN || !(s.admitted n) || s.slotMode n != 0 || !(s.slotEn n) || s.tripNow n
      || s.inHoldup || s.inSleep then Code.refusedState
  else if !(injPointOk (s.template n) (s.fld TUNE_INJ_CFG.POINT)) || decide (s.fld TUNE_INJ_CFG.ORDER < 7)
      || (s.fld TUNE_INJ_CFG.SIG == 3 &&
        ((s.reg TUNE_INJ_LEN).toNat == 0 || bad32 TUNE_INJ_F0 || bad32 TUNE_INJ_F1
          || ((Dy.ofInt 100).mul (f TUNE_INJ_F0)).lt (Dy.ofInt 1) || (Dy.ofInt 5000).lt (f TUNE_INJ_F1)
          || (f TUNE_INJ_F1).lt (f TUNE_INJ_F0) || (Dy.ofInt 25000).lt ((Dy.ofInt (s.slotPeriod n)).mul (f TUNE_INJ_F1))))
      || (cap && (List.range nch).any fun k => !(s.nodeOk (s.capNode k))) then Code.range
  else if cap && decide (frameDepth nch < s.capFrames) then Code.length
  else Code.ok

/-- GO: injection and, if enabled, capture start, or the request is refused (R182, R184). -/
def State.injStart (s : State) : State :=
  let c := s.injCheck
  if c ≠ 0 then s.setFld TUNE_INJ_STAT.CODE c
  else
    let s := (s.setFld TUNE_INJ_STAT.CODE Code.ok).setFld TUNE_INJ_STAT.ABORT 0
    let s := s.setFlag TUNE_STAT.INJ_RUN (s.fld TUNE_INJ_CFG.SIG != 0)
    let s := if s.flag TUNE_CAP_CFG.EN then (s.setFlag TUNE_STAT.CAP_RUN true).setReg TUNE_CAP_COUNT 0 else s
    { s with tune := { s.tune with j := 0, phi := 0, turn := 0, prbs := 0, w := {}, capInst := 0 } }

/-- A write of TUNE_INJ_CTL; while AUTH = 0 it is ignored, GO apart, which is then refused (R174, R182). Of
STOP and GO in one write STOP comes first. (DEDUCED, log entry 42) -/
def State.tuneInjCtl (s : State) (v : Word) : State :=
  let s := if TUNE_INJ_CTL.STOP.of v = 1 && s.flag TUNE_STAT.AUTH then s.injAbort 4 else s
  if TUNE_INJ_CTL.GO.of v = 1 then s.injStart else s

/-- INJECTION_GO (R182): a write of TUNE_INJ_CTL with GO = 1. -/
def execInjectionGo (v : Word) (s : State) : Out := s.cpDoes (fun s => if TUNE_INJ_CTL.GO.of v = 1 then s.tuneInjCtl v else s)

/-- INJECTION_STOP (R183): a write of TUNE_INJ_CTL with STOP = 1. -/
def execInjectionStop (v : Word) (s : State) : Out := s.cpDoes (fun s => if TUNE_INJ_CTL.STOP.of v = 1 then s.tuneInjCtl v else s)

/-- Whether ARM is accepted: the life-cycle state, the ring's depth, the node codes (R173, R176, R185). -/
def State.armOk (s : State) : Bool :=
  let n := s.fld TUNE_TRC_NCH.NCH + 1
  decide (s.fld LCS_STAT.STATE ≤ 3) && (List.range n).all (fun k => s.nodeOk (s.trcNode k))
    && decide (s.trcLens.1 + s.trcLens.2 + 1 ≤ frameDepth n)

/-- The trace armed: frames start at the start of the area (R185). -/
def State.traceStart (s : State) : State :=
  if s.flag TUNE_TRC_CTL.ARMED || !s.armOk then s else
  let s := (s.setFlag TUNE_TRC_CTL.ARMED true).setFlag TUNE_STAT.TRC_ARMED true
  let s := ((s.setFlag TUNE_TRC_STAT.FROZEN false).setFlag TUNE_TRC_STAT.DONE false).setFld TUNE_TRC_STAT.TPOS 0
  { s with tune := { s.tune with trcInst := 0, trcCount := 0, trcPost := none, trcPrev := none, events := 0 } }

/-- A write of TUNE_TRC_CTL: STOP stops and disarms at once, ARMED arms (R185); with both it stops.
(DEDUCED, log entry 42) -/
def State.tuneTrcCtl (s : State) (v : Word) : State :=
  if TUNE_TRC_CTL.STOP.of v = 1 then s.traceEnd else if TUNE_TRC_CTL.ARMED.of v = 1 then s.traceStart else s

/-- TRACE_ARM (R185): a write of TUNE_TRC_CTL with ARMED = 1. -/
def execTraceArm (v : Word) (s : State) : Out := s.cpDoes (fun s => if TUNE_TRC_CTL.ARMED.of v = 1 then s.tuneTrcCtl v else s)

/-- TRACE_STOP (R185): a write of TUNE_TRC_CTL with STOP = 1. -/
def execTraceStop (v : Word) (s : State) : Out := s.cpDoes (fun s => if TUNE_TRC_CTL.STOP.of v = 1 then s.tuneTrcCtl v else s)

end Sys2Proof.Machine
end

