-- ==== Sys2Proof/Machine/Le.lean ====
section
/-! DEFINITION. The loop engine's commands: conversions, windows, overruns, trips and the writes of its registers
(chapters 7 and 8). -/

namespace Sys2Proof.Machine

/-- A bank swap at the start of a window: the shadow bank is checked, and accepted or refused (R141).
(DESIGN CHOICE, log entry 24) -/
def State.bankSwap (s : State) (n : Nat) : State :=
  let shadow (k : Nat) : Nat := (s.reg (LE_PARAM n k)).toNat
  let c := bankCode (s.template n) (s.fld (LE_SLOT_CFG.MACS_RES n)) (s.fld (LE_SLOT_CFG.STAGES_RES n) + 1) shadow
  let s := (s.setFlag (LE_SLOT_CTL.SWAP n) false).setFld (LE_SLOT_STAT.SWAP_CODE n) c
  if c ≠ 0 then s.setFlag LE_EVT.SWAP_REF true
  else
    let s := forN (fun k s =>
      let a := s.bankWord n k
      (s.setBankWord n k (s.reg (LE_PARAM n k))).setReg (LE_PARAM n k) (BitVec.ofNat 32 (if k = 0 then a % 2 ^ 13 else a))) 128 s
    let x := s.slot n
    (s.setSlot n { x with gains := x.gainsShadow, gainsShadow := x.gains }).setFld (LE_SLOT_CTL.BANK n)
      (1 - s.fld (LE_SLOT_CTL.BANK n))

/-- The SE command word written since the previous sample instant, applied; a word written in a hold window waits for the
first sample instant after it (R49, R141, R420). (DESIGN CHOICE, log entry 70) -/
def State.takeCommand (s : State) (n : Nat) : State :=
  let x := s.slot n
  if x.cmdHeld && s.inHold then s else
  match x.cmd with
  | none => s
  | some w =>
    if !s.seOwned n then s.setSlot n { x with cmd := none } else
    let en := bit w 1
    let lock := x.seLock && !(en && x.act == 0)
    s.setSlot n { x with cmd := none, seEn := en && !lock, seMode := bits w 3 2, seLock := lock }

/-- The start of a window: command words, then a pending bank swap (R141, items 2 to 4). -/
def State.windowStart (s : State) (n : Nat) : State :=
  let s := s.takeCommand n
  if s.flag (LE_SLOT_CTL.SWAP n) then s.bankSwap n else s

/-- Whether the steps of slot `n` run: enabled, no fault action, a mode in which its law runs, no completed coast (R153,
R159, R171). -/
def State.slotRuns (s : State) (n : Nat) : Bool :=
  let m := s.slotMode n
  s.slotEn n && (s.slot n).act == 0 && (m == 0 || (m == 1 && s.template n == 0))
    && (match s.slotDrive n with | some d => !(s.flag (PD_STAT.HU d)) | none => true)

/-- An instant at which slot `n` does not run in AUTO: re-entry follows, the following-error monitor restarts (R154, R158),
and SAFE or a drive's off state applies (R153). -/
def State.notAuto (s : State) (n : Nat) : State :=
  let s := s.setSlot n { s.slot n with auto := false, feAcc := 0, feArmed := true }
  let s := s.injLoopEvent n
  if (s.slotDrive n).isSome && s.slotMode n != 0 then s.slotSafe n false
  else if s.slotEn n && (s.slot n).act == 0 && s.slotMode n == 3 then s.slotSafe n false
  else s

/-- The q-axis reference of a coasting drive: the last one moved toward 0 by PD_HU_RAMP × TS, exactly (R171).
(DESIGN CHOICE, log entry 69) -/
def State.coastRef (s : State) (n d : Nat) : Dy :=
  let q := (s.slot n).refQ
  let step := (s.reg32f (PD_HU_RAMP d)).abs.mul (Bf.ofWord (s.bankWord n 14)).dy.abs
  let r := q.abs.sub step
  if r.m ≤ 0 then {} else if q.m < 0 then ⟨-r.m, r.e⟩ else r

/-- Whether slot `n` drives a drive that coasts in HOLDUP (R171). -/
def State.coasts (s : State) (n : Nat) : Option Nat :=
  match s.slotDrive n with
  | some d => if s.inHoldup && !(s.flag (PD_CFG.HU d)) then some d else none
  | none => none

/-- The end of a drive's coast: the value reached 0 (R171). -/
def State.coastDone (s : State) (d : Nat) : State :=
  ((s.driveOff d).setFlag (PD_STAT.HU d) true).setFlag (PD_EVT.HU_DONE d) true

/-- The output value converted to its destination (R134, R151): register word, value as read through input kind 6, and
whether it saturated. R134 fixes the value and not the pair that holds it: a BF destination takes the output element
renormalised by itself. (DESIGN CHOICE, log entry 24) -/
def convertOut (kind : Nat) (y : Bf) : Nat × Bf × Bool :=
  if kind = 1 then
    let c := rneShift (y.m * 65535) (y.e - 23)
    let v := clampInt 0 65535 c
    (v.toNat, (Dy.ofInt v).bf, v != c)
  else
    let b := y.dy.bf
    (b.toWord, b, b.sat)

/-- The following-error monitor after a completed AUTO step (R158). -/
def State.feMonitor (s : State) (n : Nat) (e : Dy) : State :=
  let lim := (Bf.ofWord (s.bankWord n 4)).dy
  let x := s.slot n
  if lim.m < 0 then s
  else if lim.lt e.abs then
    if !x.feArmed then s else
    let acc := x.feAcc + s.slotPeriod n
    if 100 * bits (s.bankWord n 5) 15 0 ≤ acc then (s.setSlot n { x with feArmed := false, feAcc := 0 }).faultAction n
    else s.setSlot n { x with feAcc := acc }
  else s.setSlot n { x with feAcc := 0, feArmed := true }

/-- The live state stage shown in word 0 of LE_STATE (R148). -/
def State.showState (s : State) (n : Nat) : State :=
  let st := (s.slot n).st
  (s.setFld (LE_STATE.COUNT n) st.length).setFld (LE_STATE.EXP n) (unsigned 8 (st.headD {}).e)

/-- A step of slot `n` from its inputs to its output (R135, R137): answers the state, and whether it saturated. -/
def State.runStep (s : State) (n : Nat) : State × Bool :=
  let x := s.slot n
  let tmpl := s.template n
  let track := s.slotMode n == 1
  let u := s.inputStage n
  let inner := match s.linkOf n with | some j => (s.slot j).atLimit | none => false
  let coast := (s.coasts n).map fun d => (d, s.coastRef n d)
  let i : LawIn :=
    { word := s.bankWord n, st := fun k => nth x.st k {}, u := fun k => nth u k {}, track := track, inner := inner
      reenter := !track && !x.auto, inj := s.injFor n, coast := coast.map fun c => c.2.bf }
  let o := law tmpl i (s.srcOf n 2 / 4096 != 0)
  let full := stage (o.st ++ o.outs)
  let st := (full.take o.st.length).map fun b => { b with sat := false }
  let (w, view, csat) := convertOut (s.dstKind n) (nth full o.y {})
  let sat := anySat u || o.sat || anySat full || csat
  let x := { x with
    u := u, st := st, inter := o.inter, atLimit := o.atLimit, auto := !track, injW := (i.inj.map (·.2)).getD {}
    duty := (full.drop (o.st.length + 4)).take 3
    refQ := match coast with | some (_, q) => q | none => (nth u 4 {}).dy
    feAcc := if track then 0 else x.feAcc
    feArmed := if track then true else x.feArmed }
  let s := ((s.setSlot n x).setOut n (BitVec.ofNat 32 w) { view with sat := false } false).showState n
  let s := (s.setFld (LE_SLOT_STAT.CODE n) Code.ok).setFld (LE_SLOT_STAT.CONSEC n) 0
  let s := if sat then ((s.setFlag (LE_SLOT_STAT.SAT n) true).setFlag LE_EVT.SAT true).traceEvent 3 else s
  let s := match s.slotDrive n with
    | some d => (s.setDrive d { s.drive d with stepped := true }).setFlag (PD_STAT.FIRST d) false
    | none => s
  let s := match coast with
    | some (d, q) => if q.m = 0 then (s.coastDone d).setSlot n { s.slot n with auto := false } else s
    | none => s
  let s := match o.fe with
    | some e => if track then s else s.feMonitor n e
    | none => s
  (s, sat)

/-- Whether slot `n` has its window in the present tick and has not had it; the LE stands in SLEEP and from a brown stall's entry
until it resumes (R52, R68, R121, R135). -/
def State.windowDue (s : State) (n : Nat) : Bool :=
  s.flag LE_CTL.EN && s.admitted n && s.ticks && s.isInstant n s.le.tick && (s.slot n).ranAt != some s.le.tick

/-- The instant of slot `n` taken: the window is marked as had, and a waiting move takes effect (R129). -/
def State.openWindow (s : State) (n : Nat) : State :=
  let s := s.takeMove n
  s.setSlot n { s.slot n with ranAt := some s.le.tick }

/-- A loop window to its output write (R135, R137, R141): trips, commands and a swap are applied, and the step runs, unless the
slot
is tripped, does not run, or has an input that carries the invalid flag. With it, what a frame at the window's end says of this
instant. (DEDUCED, log entry 42) -/
def State.loopStep (s : State) (n : Nat) : State × FrameBits :=
  let skipped (s : State) : State × FrameBits := (s, s.frameBits true false)
  let s := s.openWindow n
  if s.tripNow n then skipped (s.enterTrip n)
  else
    let s := s.windowStart n
    if !(s.slotRuns n) then skipped ((s.notAuto n).injInstant n)
    else
      let s := if s.slotMode n = 0 then s else s.injLoopEvent n
      let s := s.injInstant n
      if s.inputFlagged n then (s.slotSkip n, s.frameBits true false)
      else
        let (t, sat) := s.runStep n
        (t, s.frameBits false sat)

/-- A loop window with the frames at its end (R135, R177). (DEDUCED, log entry 42) -/
def State.loopWindow (s : State) (n : Nat) : State :=
  if s.windowDue n then (s.loopStep n).1.frames n (s.loopStep n).2 else s

/-- LOOP_WINDOW (R135). -/
def execLoopWindow (slot : Fin 64) (s : State) : Out := State.out <| s.loopWindow slot

/-- OVERRUN (R138 to R140): the step that its window began is abandoned at the window's end; its output and state stay. A slot
that is tripped, does not run or is skipped for its inputs begins no step, and its instant stays for its LOOP_WINDOW. A frame of
such an instant shows it as one whose step did not run (R177). (DEDUCED, log entry 42) -/
def execOverrun (slot : Fin 64) (s : State) : Out :=
  State.out <|
    let n : Nat := slot
    if !(s.windowDue n) || s.tripNow n then s else
    let t := (s.openWindow n).windowStart n
    if !(t.slotRuns n) || t.inputFlagged n then s else
    let t := if t.slotMode n = 0 then t else t.injLoopEvent n
    let t := t.injInstant n
    (t.slotOverrun n).frames n (t.frameBits true false)

/-- A sample instant of slot `n` that passed unrun, in a brown stall or a suspension (R121, R140); one in SLEEP writes no
frame (R187). (DEDUCED, log entry 42) -/
def State.missInstant (s : State) (n : Nat) (asleep : Bool) : State :=
  let s := s.injInstant n
  let b := s.frameBits true false
  let s := if s.slotRuns n && !(s.tripNow n) then s.slotSkip n else s
  if asleep then s else s.frames n b

/-- The sample instants at ticks from `a` up to but not at `b`, of every admitted slot, passed unrun. -/
def State.missBetween (s : State) (a b : Nat) (asleep : Bool) : State :=
  forN (fun n s =>
    if s.admitted n then forN (fun _ s => s.missInstant n asleep) (s.instantsBelow n b - s.instantsBelow n a) s else s) 64 s

/-- A phase-current conversion above the limit: the drive goes to its off state and its slot is held tripped (R170). -/
def State.overcurrent (s : State) (d : Nat) : State :=
  let old := s.flag (PD_STAT.OC d)
  let s := ((s.driveOff d).setFlag (PD_STAT.OC d) true).setFlag (PD_EVT.OC d) true
  let s := if old then s else s.traceEvent 6
  match s.driveSlot d 64 with
  | some n => s.enterTrip n
  | none => s

/-- A conversion ends (R7, R123, R170): the result and its invalid flag reach the consumers of the channel; a phase current
above PD_OCL.LIMIT trips the drive. -/
def State.conversionEnd (s : State) (c : Conversion) (overlap : Bool) : State :=
  let flagged := overlap || s.inHold
  let put (k : Nat) (v : Dy) (s : State) : State := { s with le := { s.le with conv := putAt s.le.conv k ⟨v, flagged⟩ } }
  match c with
  | .ai chan level => put chan (Dy.ofFloat b64 (aiResult (nth s.ana.aiCurrent chan false) level)) s
  | .phase drive q level =>
    let d : Nat := drive
    let code := phaseCode level
    let s := put (16 + 3 * d + q) (Dy.ofInt code) s
    let x := s.drive d
    let s := s.setDrive d { x with codes := putAt x.codes q code }
    let lim := s.fld (PD_OCL.LIMIT d)
    if lim ≠ 0 ∧ lim < code.natAbs then s.overcurrent d else s

/-- CONVERSION_END (R7): converters stand in reset until the start tick, and in SLEEP and a brown stall (R52, R68).
(DESIGN CHOICE, log entry 17; DESIGN CHOICE, log entry 63) -/
def execConversionEnd (c : Conversion) (overlap : Bool) (s : State) : Out :=
  State.out <| if !s.started || s.pwr.stall || s.inSleep then s else s.conversionEnd c overlap

/-- TRIP (R142, R143): a trip input has held its active level for its filter time. -/
def execTrip (input : Fin 8) (s : State) : Out :=
  State.out <|
    let t : Nat := input
    if !(s.flag (LE_TRIP_CFG.EN t)) || !(bit (s.fld LE_TRIP_STAT.LEVEL) t) || bit (s.fld LE_TRIP_STAT.LATCH) t then s else
    let s := ((s.setBit LE_TRIP_STAT.LATCH t true).setFlag LE_STAT.TRIP_ANY true).setFlag LE_EVT.TRIP true
    (s.traceEvent 4).applyTrips

/-- A write of LE_TRIP_STAT: latches of inputs that are inactive now clear (R144). -/
def State.tripClear (s : State) (v : Word) : State :=
  let clr (t : Nat) : Bool := bit v.toNat t && !(bit (s.fld LE_TRIP_STAT.LEVEL) t)
  let latch := (List.range 8).foldl (fun l t => if clr t then putBit l t false else l) (s.fld LE_TRIP_STAT.LATCH)
  ((s.setFld LE_TRIP_STAT.LATCH latch).setFlag LE_STAT.TRIP_ANY (latch != 0)).applyTrips

/-- TRIP_LATCH_CLEAR (R144). -/
def execTripLatchClear (v : Word) (s : State) : Out := s.cpDoes (fun s => s.tripClear v)

/-- A write of LE_SLOT_CTL: enable and mode unless the scan engine owns the slot, and a swap request (R141, R511). -/
def State.slotCtlWrite (s : State) (n : Nat) (v : Word) : State :=
  let s := if s.seOwned n then s
    else (s.setFld (LE_SLOT_CTL.EN n) ((LE_SLOT_CTL.EN n).of v)).setFld (LE_SLOT_CTL.MODE n) ((LE_SLOT_CTL.MODE n).of v)
  if (LE_SLOT_CTL.SWAP n).of v = 1 then s.request (.swap n) fun s => s.setFlag (LE_SLOT_CTL.SWAP n) true else s

/-- SWAP_REQUEST (R141): a write of LE_SLOT_CTL with SWAP = 1. -/
def execSwapRequest (slot : Fin 64) (v : Word) (s : State) : Out :=
  s.cpDoes (fun s => if (LE_SLOT_CTL.SWAP slot).of v = 1 then s.slotCtlWrite slot v else s)

/-- A write of a word of LE_STATE; it acts while the slot is disabled and not owned by the scan engine (R148). -/
def State.leStateWrite (s : State) (n k : Nat) (v : Word) : State :=
  if s.flag (LE_SLOT_CTL.EN n) || s.seOwned n then s else
  let x := s.slot n
  if k = 0 then
    let e := signed 8 v.toNat
    (s.setSlot n { x with st := x.st.map fun b => { b with e := e } }).setFld (LE_STATE.EXP n) (v.toNat % 256)
  else
    let m := signed 24 v.toNat
    let s := s.setReg (LE_STATE n k) (BitVec.ofInt 32 m)
    s.setSlot n { x with st := putAt x.st (k - 1) { nth x.st (k - 1) {} with m := m } }

/-- LE_STATE_WRITE (R148). -/
def execLeStateWrite (slot : Fin 64) (k : Fin 17) (v : Word) (s : State) : Out := s.cpDoes (fun s => s.leStateWrite slot k v)

/-- A write of a word of the shadow bank; while a swap is pending it is ignored (R141). -/
def State.leParamWrite (s : State) (n k : Nat) (v : Word) : State :=
  if s.flag (LE_SLOT_CTL.SWAP n) then s else s.setReg (LE_PARAM n k) (if k = 0 then v &&& 0x1FFF else v)

/-- LE_PARAM_WRITE (R141). -/
def execLeParamWrite (slot : Fin 64) (k : Fin 128) (v : Word) (s : State) : Out := s.cpDoes (fun s => s.leParamWrite slot k v)

/-- The waiting command of a slot after its fault is cleared: an enable the SE wrote before is no new enable (R159). -/
def LeSlot.staleEnable (x : LeSlot) : Option Nat := if x.seLock then x.cmd.map fun w => putBit w 1 false else x.cmd

/-- A write of LE_SLOT_STAT: SAT clears, and FAULT clears with the fault action in force (R159). -/
def State.slotStatWrite (s : State) (n : Nat) (v : Word) : State :=
  let s := if (LE_SLOT_STAT.SAT n).of v = 1 then s.setFlag (LE_SLOT_STAT.SAT n) false else s
  if (LE_SLOT_STAT.FAULT n).of v = 1 then
    (s.setFlag (LE_SLOT_STAT.FAULT n) false).setSlot n { s.slot n with act := 0, cmd := (s.slot n).staleEnable }
  else s

/-- FAULT_CLEAR (R159): a write of LE_SLOT_STAT with FAULT = 1. -/
def execFaultClear (slot : Fin 64) (v : Word) (s : State) : Out :=
  s.cpDoes (fun s => if (LE_SLOT_STAT.FAULT slot).of v = 1 then s.slotStatWrite slot v else s)

/-- The half-period of a drive's carrier in ticks (R167, R172). -/
def State.halfPeriod (s : State) (d : Nat) : Nat := min 100 (max 1 (s.fld (PD_CFG.HALF d)))

/-- A drive's dead time in 10 ns units (R168, R172). -/
def State.deadTime (s : State) (d : Nat) : Nat := min 500 (max 10 (s.fld (PD_CFG.DT d)))

/-- A compare value after the minimum pulse rule (R168): the value, and whether it was substituted.
(DEDUCED, log entry 42) -/
def minPulse (h dt minp c : Nat) : Nat × Bool :=
  if (2 * c : Int) - dt < minp then (0, true)
  else if (2 * (h - c) : Int) - dt < minp then (h, true)
  else (c, false)

/-- The compare values of drive `d` in force, none in its off state (R168, R169). -/
def State.duties (s : State) (d : Nat) : Option (List Nat) :=
  if s.flag (PD_STAT.OFF d) then none else some ((List.range 3).map fun q => s.fld (PD_DUTY.CMP d q))

/-- COMPARE_POINT (R167 to R169): the carrier of a drive reaches 0 or H and loads its compare values from the latest
completed output; a drive leaves its off state here. In a hold window it keeps its values (R49). -/
def execComparePoint (drive : Fin 4) (s : State) : Out :=
  State.out <|
    let d : Nat := drive
    if !(s.flag LE_CTL.EN) || !(s.flag (PD_CFG.EN d)) || s.pwr.stall || s.inSleep || s.le.tick % s.halfPeriod d != 0 then s else
    let s := s.setDrive d { s.drive d with before := s.duties d }
    if s.inHold then s else
    match s.driveSlot d 64 with
    | none => s
    | some n =>
      if s.flag (PD_STAT.FIRST d) || s.flag (PD_STAT.OC d) || s.flag (PD_STAT.HU d) || s.flag (LE_SLOT_STAT.TRIPPED n)
          || !(s.drive d).stepped then s
      else
        let h := 1000 * s.halfPeriod d
        let dt := s.deadTime d
        let minp := s.fld (PD_CFG.MINP d)
        let s := (s.setFlag (PD_STAT.OFF d) false).setFlag (PD_STAT.RUN d) true
        forN (fun q s =>
          let y := nth (s.slot n).duty q {}
          let c := (clampInt 0 h (rneShift (y.m * h) (y.e - 23))).toNat
          let (c, sub) := minPulse h dt minp c
          let s := s.setFld (PD_DUTY.CMP d q) c
          if sub then s.setFlag (PD_EVT.MINP d) true else s) 3 s

/-- A write of PD_CLR: OC ends an overcurrent if every phase is within the limit, HU ends a coast (R170, R171). -/
def State.pdClear (s : State) (d : Nat) (v : Word) : State :=
  let lim := s.fld (PD_OCL.LIMIT d)
  let ok := (s.drive d).codes.all fun c => lim == 0 || decide (c.natAbs ≤ lim)
  let s := if (PD_CLR.OC d).of v = 1 && ok then (s.setFlag (PD_STAT.OC d) false).applyTrips else s
  if (PD_CLR.HU d).of v = 1 then s.setFlag (PD_STAT.HU d) false else s

/-- PD_CLR_OC (R170): a write of PD_CLR with OC = 1. -/
def execPdClrOc (drive : Fin 4) (v : Word) (s : State) : Out := s.cpDoes (fun s => if (PD_CLR.OC drive).of v = 1 then s.pdClear drive v else s)

/-- PD_CLR_HU (R171): a write of PD_CLR with HU = 1. -/
def execPdClrHu (drive : Fin 4) (v : Word) (s : State) : Out := s.cpDoes (fun s => if (PD_CLR.HU drive).of v = 1 then s.pdClear drive v else s)

end Sys2Proof.Machine
end

