-- ==== Sys2Proof/Machine/Prof.lean ====
section
/-! DEFINITION. The cadence profiles, HOLDUP and SLEEP (R64 to R80). -/

namespace Sys2Proof.Machine

/-- The profiles' state set. -/
def State.setProf (s : State) (p : ProfSt) : State := { s with prof := p }

/-- The profile in effect changes (R74), with the timetable it uses (R128). -/
def State.setProfile (s : State) (p : Nat) : State :=
  (((s.setFld SYS_PROF_STAT.CUR p).setFlag SYS_PROF_EVT.CHANGED true).showOfs).saFreeze

/-- An ME port is enabled, or a calculator takes its flow from an analogue input (R76). -/
def State.meterAwake (s : State) : Bool :=
  (s.flag ME_CTL.EN && (s.meField 0 0 != 0 || s.meField 1 0 != 0))
    || (s.flag MH_CTL.EN && (List.range 8).any fun c => s.mhField c 0 != 0 && s.mhField c 3 == 1)

/-- What makes SYS refuse SLEEP (R76). -/
def State.sleepBarred (s : State) : Bool :=
  ((List.range 64).any fun n => s.admitted n && decide (s.slotPeriod n < 10000))
    || (s.flag SE_CTL.EN && s.flag SE_STAT.RUN && decide (s.seCycleTicks < 10000))
    || s.meterAwake || !s.sa.queue.isEmpty || s.sa.run.isSome || s.sa.pre.isSome
    || s.flag PM_STAT.BUSY || s.mh.sealing.isSome || !s.boot.rpt.isEmpty || s.holding || s.flag TUNE_STAT.CAP_RUN || s.way.sess.isSome

/-- The code a request for a profile gets (R72). -/
def State.profCheck (s : State) (p : Nat) : Nat :=
  if p = 3 ∨ 5 ≤ p then Code.range
  else if s.flag SYS_PROF_STAT.FORCED ∨ (p = 2 ∧ !s.flag LE_STAT.THRIFT_OK) ∨ (p = 4 ∧ s.sleepBarred)
      ∨ s.flag SYS_PROF_STAT.PEND then Code.refusedState
  else Code.ok

/-- A request for profile `p` (R72). -/
def State.profRequest (s : State) (p : Nat) : State :=
  let code := s.profCheck p
  let s := (s.setFld SYS_PROF_STAT.CODE code).setFld SYS_PROF_STAT.REQ p
  if code = Code.ok then (s.setProf { s.prof with req := p }).setFlag SYS_PROF_STAT.PEND true
  else s.setFlag SYS_PROF_EVT.REFUSED true

/-- The clocks of SLEEP come into effect: the origin of R77 is taken, NT becomes invalid (R377), the links stop (R411), the
buses too (R352), a self-test is cut short (R500). -/
def State.sleepEnter (s : State) : State :=
  let s := (s.wflCut.bistCut.busCut).setValid false
  let s := (s.setFlag SYS_CLK_STAT.PLL_LOCK false).setFlag SYS_CLK_STAT.HFXO_ON (s.flag SYS_SLEEP_CFG.HFXO_KEEP)
  (s.setProf { sleep := true, prev := s.prof.prev, tickE := s.le.tick, edgeE := s.aon.edges, lastEdge := s.aon.edges }).saFreeze

/-- An accepted request takes effect at a tick boundary (R72, R78). -/
def State.profileTake (s : State) : State :=
  let old := s.profile
  let new := s.prof.req
  let s := s.setFlag SYS_PROF_STAT.PEND false
  if new = old then s
  else
    let s := s.setProfile new
    if new = 4 then ((s.setProf { s.prof with prev := old }).sleepEnter).saveOccasion .sleep else s

/-- The time the LFXO counted since the last wake or entry comes on NT, and on a SYS_MTIME that the HFXO did not drive (R106,
R375); a difference of LFXO edges taken to the nearest tick or microsecond. (DESIGN CHOICE, log entry 54) -/
def State.sleepTime (s : State) : State :=
  let e := s.aon.edges - s.prof.lastEdge
  let s := if s.flag SYS_CLK_STAT.HFXO_ON then s else s.setMtime (s.time.mtime + (2 * e * 1000000 + 32768) / 65536)
  let s := (s.ntAdvance (e * 2 ^ 57) true).leasePass ((2 * e * 100000 + 32768) / 65536)
  s.setProf { s.prof with lastEdge := s.aon.edges }

/-- HOLDUP takes effect: injection and self-test end, the trace freezes (R183, R187, R500). -/
def State.holdupTakes (s : State) : State := (((s.setProfile 3).traceFreeze).injAbort 3).bistCut

/-- The node leaves SLEEP (R77, R79): the profile before SLEEP takes effect; LE_TICK advances by the LFXO ticks since the last
wake, the clocks run, the run mark is written (R332), miss counts restart (R411). -/
def State.sleepLeave (s : State) : State :=
  let e := s.aon.edges - s.prof.lastEdge
  let tick := s.le.tick + (2 * e * 100000 + 32768) / 65536
  let s := (((s.missBetween (s.le.tick + 1) tick true).setTick tick).sleepTime).setProf { prev := s.prof.prev }
  let s := (s.setFlag SYS_CLK_STAT.HFXO_ON true).setFlag SYS_CLK_STAT.PLL_LOCK true
  let s := (s.setProfile s.prof.prev).setFlag SYS_PROF_EVT.WAKE true
  s.applyTrips.marksRestart.wflMissClear

/-- The HFXO is lost (R67): a SYSRST at once, without a RESET save, also where one is coming already. -/
def State.hfxoLost (s : State) : State :=
  let s := s.setFlag SYS_CLK_STAT.HFXO_LOST true
  let s := s.setReg SYS_RST_CAUSE (BitVec.ofNat 32 (putBit (s.reg SYS_RST_CAUSE).toNat 6 true))
  { s with rst := { s.rst with sys := true, now := true } }

/-- The calculators' totals, fault times among them (R302, R326), by which a step that changes a total is known (R78). -/
def State.totalsNow (s : State) : List (List Nat) :=
  (List.range 8).map fun c => s.fld (MH_C_FTIME.VALUE c) :: (s.calculator c).acc

/-- The offset of a slot's window in the THRIFT clocks of a wake (R77, R128). -/
def State.wakeOfs (s : State) (n : Nat) : Nat := (s.slot n).thriftOfs.getD (s.slot n).ofs

/-- A slot put in order of its window's offset. -/
def State.wakePut (s : State) (n : Nat) : List Nat → List Nat
  | [] => [n]
  | m :: t => if s.wakeOfs n ≤ s.wakeOfs m then n :: m :: t else m :: s.wakePut n t

/-- One window of a wake: its slot, the cycles at which its output is written and at which it ends, what the slot held before, the
trace events of its step, and what its frame says. -/
structure WakeRun where
  slot : Nat
  done : Nat
  stop : Nat
  old : LeSlot
  events : Nat
  frame : FrameBits

/-- The windows of a wake in the order of their offsets. A step reads of another slot's output what was complete when its window
began (R123): it is written at the end of its cost, 8 cycles before the window's end (R125, R135). `runs` are the windows already
run. (DESIGN CHOICE, log entry 54) -/
def State.wakeWindows : List Nat → List WakeRun → State → State × List WakeRun
  | [], runs, s => (s, runs)
  | n :: t, runs, s =>
    if !s.windowDue n then State.wakeWindows t runs s
    else
      let late := runs.filter fun r => decide (s.wakeOfs n ≤ r.done)
      let put (l : List (Nat × LeSlot)) (s : State) : State :=
        l.foldl (fun s r => s.setSlot r.1 { s.slot r.1 with out := r.2.out, atLimit := r.2.atLimit }) s
      let news := late.map fun r => (r.slot, s.slot r.slot)
      let stop := s.wakeOfs n + windowLen (s.fld (LE_SLOT_CFG.MACS_RES n)) (s.fld (LE_SLOT_CFG.STAGES_RES n) + 1)
      let old := s.slot n
      let events := s.tune.events
      let (s, f) := (put (late.map fun r => (r.slot, r.old)) { s with tune := { s.tune with events := 0 } }).loopStep n
      let run : WakeRun := ⟨n, stop - 8, stop, old, s.tune.events, f⟩
      State.wakeWindows t (run :: runs) (put news { s with tune := { s.tune with events := events } })

/-- A window's frame: the nodes of another slot show what it had completed by then (R123, R177), and the trigger events are those
of
the steps completed by then (R186). -/
def State.wakeFrame (runs : List WakeRun) (s : State) (r : WakeRun) : State :=
  let put (l : List (Nat × LeSlot)) (s : State) : State := l.foldl (fun s r => s.setSlot r.1 r.2) s
  let late := runs.filter fun q => q.slot != r.slot && decide (r.stop ≤ q.done)
  let news := late.map fun q => (q.slot, s.slot q.slot)
  put news ((put (late.map fun q => (q.slot, q.old)) s).frames r.slot r.frame)

/-- The frames of a wake in the order of the windows' ends; the steps in `left` have not counted for the trigger yet. -/
def State.wakeFrames (runs : List WakeRun) : List WakeRun → List WakeRun → State → State
  | [], left, s => { s with tune := { s.tune with events := left.foldl (fun e (q : WakeRun) => e ||| q.events) s.tune.events } }
  | r :: t, left, s =>
    let done := left.filter fun q => decide (q.done < r.stop)
    let s := { s with tune := { s.tune with events := done.foldl (fun e (q : WakeRun) => e ||| q.events) s.tune.events } }
    State.wakeFrames runs t (left.filter fun q => decide (r.stop ≤ q.done)) (s.wakeFrame runs r)

/-- A window put in order of its end. -/
def WakeRun.put (r : WakeRun) : List WakeRun → List WakeRun
  | [] => [r]
  | q :: t => if r.stop ≤ q.stop then r :: q :: t else q :: WakeRun.put r t

/-- The windows of a wake, and then their frames (R77, R123, R177). -/
def State.wakeLoops (s : State) : State :=
  let (s, runs) := State.wakeWindows (((List.range 64).filter s.admitted).foldr s.wakePut []) [] s
  State.wakeFrames runs ((runs.filter fun r => s.isTiming r.slot).foldr WakeRun.put []) runs s

/-- Channel `n` converts in a wake as an unpaired one: at a multiple of its period, or as an input of a step or scan of the
instant
(R77, R296). (DESIGN CHOICE, log entry 54) -/
def State.wakeRtd (s : State) (n : Nat) : Bool :=
  s.flag (ANA_RTD_CFG.EN n) && !s.flag (ANA_RTD_STAT.PAIRED n)
    && (s.le.tick % s.rtdPeriod n == 0
      || ((List.range 64).any fun k => s.admitted k && s.isInstant k s.le.tick
          && (List.range 16).any fun i => s.srcOf k i == 0x3000 + n)
      || (s.seRuns && s.le.tick % s.seCycleTicks == 0 && (List.range s.seRunning.nimg).any fun e =>
          let lo := s.seLo s.seRunning (s.seRunning.imgAt + e)
          let hi := s.seHi s.seRunning (s.seRunning.imgAt + e)
          decide (lo % 2 ^ 16 ≤ 0x3000 + n) && decide (0x3000 + n < lo % 2 ^ 16 + hi % 2 ^ 8)))

/-- The work of a wake for a sample (R77): the conversions, the loop steps, the scan cycle, the calculators' steps. -/
def State.wakeWork (s : State) (w : WakeInput) : State :=
  let s := w.convs.foldl (fun s c => s.conversionEnd c false) s.applyTrips
  let due := (List.range 8).filter fun c => s.mhRuns c && w.tick % max 1 (s.mhField c 13) == 0
  let s := due.foldl State.integrate s
  let s := forN (fun n s => if s.wakeRtd n then s.setRtd n { s.rtd n with conv := true } else s) 16 s
  let s := w.rtds.foldl (fun s r => s.rtdConversion r.1 r.2 false) s
  let s := s.wakeLoops.seCycleDue w.cycles w.exchange
  due.foldl State.calculatorStep s

/-- SYS_PROF_REQ (R72). (DESIGN CHOICE, log entry 54) -/
def State.profReqWrite (s : State) (v : Word) : State := s.profRequest (SYS_PROF_REQ.PROF.of v)
def execSysProfReq (v : Word) (s : State) : Out := s.cpDoes fun s => s.profReqWrite v

/-- PROFILE_CHANGE (R72). -/
def execProfileChange (s : State) : Out :=
  State.out <| if s.flag SYS_PROF_STAT.PEND && !s.inSleep && !s.pwr.stall then s.profileTake else s

/-- HOLDUP_EFFECT (R74): the forced profile takes effect, in a brown stall when its clocks run again (R75). -/
def execHoldupEffect (s : State) : Out :=
  State.out <|
    if !s.flag SYS_PROF_STAT.FORCED || s.inHoldup || s.pwr.stall then s
    else (s.setProf { s.prof with prev := s.profile }).holdupTakes

/-- HOLDUP_RETURN (R74, R78): at the first tick boundary after the deassertion. From the clocks of SLEEP the return is to the
profile before SLEEP where a wake source fired meanwhile, else to SLEEP. (DESIGN CHOICE, log entry 54) -/
def execHoldupReturn (s : State) : Out :=
  State.out <|
    if s.flag PWR_STAT.PFW || !s.flag SYS_PROF_STAT.FORCED || !s.inHoldup || s.pwr.stall then s
    else
      let s := s.setFlag SYS_PROF_STAT.FORCED false
      if !s.inSleep then s.setProfile s.prof.prev
      else if s.prof.woke then s.sleepLeave
      else s.setProfile 4

/-- `t` is an instant of wake-per-sample work after the last one (R76, R77): of an admitted slot, of the SE cycle, or an
integration instant of a calculator. -/
def State.wakeInstant (s : State) (t : Nat) : Bool :=
  decide (s.le.tick < t) &&
    (((List.range 64).any fun n => s.admitted n && s.isInstant n t)
      || (s.seRuns && t % s.seCycleTicks == 0)
      || (List.range 8).any fun c => s.mhRuns c && t % max 1 (s.mhField c 13) == 0)

/-- The present LFXO edge is the one at or before the nominal instant of tick `t`, (t − T_e) × 10 µs after the origin (R77). The
phase of the edges against the origin is not fixed, so of the edges counted since the origin either of two numbers can be that
place. (DESIGN CHOICE, log entry 54) -/
def State.wakePlace (s : State) (t : Nat) : Bool :=
  let place := (t - s.prof.tickE) * 32768 / 100000
  let edges := s.aon.edges - s.prof.edgeE
  edges == place || edges == place + 1

/-- WAKE_PER_SAMPLE (R67, R77, R78): at the LFXO tick of an instant, suspended while PF_WARN is asserted; instants that passed in
a suspension are missed (R140). The HFXO runs in the wake, and its loss there ends it in a SYSRST.
(DESIGN CHOICE, log entry 54) -/
def execWakePerSample (w : WakeInput) (s : State) : Out :=
  State.out <|
    if !s.inSleep || s.stalled || s.flag PWR_STAT.PFW || !s.wakeInstant w.tick || !s.wakePlace w.tick then s
    else
      let on := s.flag SYS_CLK_STAT.HFXO_ON
      let s := ((s.missBetween (s.le.tick + 1) w.tick true).setTick w.tick).sleepTime
      let before := s.totalsNow
      let s := ((s.setProf { s.prof with sleep := false }).setFlag SYS_CLK_STAT.HFXO_ON true).wakeWork w
      let s := if w.lost then s.hfxoLost else if s.totalsNow = before then s else s.saveOccasion .sleep
      (s.setProf { s.prof with sleep := true }).setFlag SYS_CLK_STAT.HFXO_ON on

/-- WAKE_SOURCE (R78, R79): sources in the bit order of SYS_SLEEP_CFG. (DESIGN CHOICE, log entry 54) -/
def execWakeSource (src : Fin 5) (dio : Fin 32) (s : State) : Out :=
  State.out <|
    let on := bit (s.reg SYS_SLEEP_CFG).toNat src && (src != 3 || bit (s.reg SYS_WAKE_DIO).toNat dio)
    if on then s.wakeBy src else s

/-- SLEEP_EXIT (R75, R79): the wake latency after a wake source fired, at an engine tick boundary. -/
def execSleepExit (s : State) : Out :=
  State.out <| if !s.inSleep || s.pwr.stall || !s.prof.woke || s.flag PWR_STAT.PFW || s.flag SYS_PROF_STAT.FORCED then s else s.sleepLeave

/-- HFXO_LOSS (R67): what the armed detector finds. -/
def execHfxoLoss (s : State) : Out := State.out <| if s.flag SYS_CLK_STAT.HFXO_ON then s.hfxoLost else s

end Sys2Proof.Machine
end

