-- ==== Sys2Proof/Machine/Boot.lean ====
section
/-! DEFINITION. The steward: the start sequence, the ground configuration, programming, hand-over (R81 to R103, R340, R482,
R483). -/

namespace Sys2Proof.Machine

/-- The steward's state set. -/
def State.setBoot (s : State) (b : BootSt) : State := { s with boot := b }

/-- The boot record names something: its marker is there (R442). -/
def State.bootRecord (s : State) : Nat :=
  let w := if s.pmBad 0 then 0 else s.pmSeen 0
  if w / 2 ^ 32 = 0x424F4F54 then w % 2 ^ 16 else 0

/-- The boot record programmed with new low bits (R442). -/
def State.setBootRecord (s : State) (v : Nat) : State := s.pmLater 4 0 (v + 0x424F4F54 * 2 ^ 32)

/-- The steward turns to the preferred slot, or in DECOMMISSIONED to the ground configuration (R83, R86); while PF_WARN is
asserted it waits (R82). -/
def State.readStart (s : State) : State :=
  let r := s.bootRecord
  let s := s.setReg SYS_BOOT_SEL (BitVec.ofNat 32 (r % 4))
  if s.flag PWR_STAT.PFW then s.setBoot { s.boot with step := 5 }
  else if s.lcState = 4 then s.setBoot { s.boot with step := 9, slotUsed := none, result := {} }
  else s.setBoot { s.boot with step := 6, slot := r % 2, second := false, slotUsed := none, result := {} }

/-- PF_WARN before the start tick (R82): the results of steps 6 to 9 are discarded. -/
def State.startAbort (s : State) : State :=
  if s.boot.step < 6 ∨ s.started then s
  else
    let s := (s.setFld SYS_PAL_STAT.A_CODE 0xFF).setFld SYS_PAL_STAT.B_CODE 0xFF
    s.setBoot { s.boot with step := 5, result := {}, report := [] }

/-- PF_WARN has deasserted: a waiting steward restarts at step 5 (R82). -/
def State.startAgain (s : State) : State := if s.boot.step = 5 then s.readStart else s

/-- The sealed values of every calculator and port in use from the start (R294, R316, R536). -/
def State.sealedLoad (s : State) : State :=
  let s := forN (fun c s =>
    match s.recordCurrent 8 c with
    | some i => s.mhApply c (s.recordFields 8 c i)
    | none => s) 8 s
  let s := forN (fun p s =>
    match s.recordCurrent 9 p with
    | some i => s.meApply p (s.recordFields 9 p i)
    | none => s) 2 s
  s.setFlag MH_STAT.SEALV s.sealedValid

/-- Step 5 of R81: the boot counter advances, spread counters, health, ledger, partitions and totals are taken up, then the
palette read starts. -/
def State.pmAnswers (s : State) : State :=
  let s := (s.ceCount (s.pmSoft 0 0x40000)).scIncrement 3
  let s := forN (fun k s => (s.scShow k).counterCause k) 32 s
  let s := s.lcsShow.healthCauses
  let s : State := { s with pm := { s.pm with parts := s.storedParts } }
  let s := s.showParts.ledgerStart.sealedLoad
  let s := s.returnTotals
  (s.setBoot { s.boot with read := true }).readStart

/-- HFXO_STABLE (R65). -/
def execHfxoStable (s : State) : Out :=
  State.out <| if s.boot.step = 1 then (s.setFlag SYS_CLK_STAT.HFXO_ON true).setBoot { s.boot with step := 2 } else s

/-- CORE_READY (R81, R454): the PLL has locked; the journal of every partition is completed. -/
def execCoreReady (s : State) : Out :=
  State.out <|
    if s.boot.step = 2 ∧ !s.pwr.stall then ((s.setFlag SYS_CLK_STAT.PLL_LOCK true).journalCompletion).setBoot { s.boot with step := 3 } else s

/-- BOOT_TEST_END (R81, R506): a failure holds the CP and the data path in reset. (DEDUCED, log entry 55) -/
def execBootTestEnd (pass : Bool) (s : State) : Out :=
  State.out <|
    if s.boot.step ≠ 3 ∨ s.boot.tested then s
    else
      let s := (s.setFlag LCS_HEALTH.CPBOOT (!pass)).setCause 9 (!pass)
      if !pass then s.setBoot { s.boot with step := 4, tested := true }
      else
        let s := s.setBoot { s.boot with tested := true }
        if s.flag PM_STAT.READY then s.pmAnswers else s

/-- PM_READY (R81, R455). (DEDUCED, log entry 55) -/
def execPmReady (s : State) : Out :=
  State.out <|
    if s.boot.step ≠ 3 ∨ s.flag PM_STAT.READY then s
    else
      let s := s.setFlag PM_STAT.READY true
      if s.boot.tested then s.pmAnswers else s

/-- The code of the slot under evaluation shown (R103). -/
def State.palCode (s : State) (k code : Nat) : State :=
  if k = 0 then s.setFld SYS_PAL_STAT.A_CODE code else s.setFld SYS_PAL_STAT.B_CODE code

/-- The slot under evaluation is refused (R85): the other follows, or the ground configuration (R83).
(DESIGN CHOICE, log entry 57) -/
def State.palRefuse (s : State) (code : Nat) : State :=
  let k := s.boot.slot
  let given := if code = Code.refusedAuth then s.flashNum k 0x10 4 else 0
  let s := (s.palCode k code).report ⟨0, k, 0xFFFF, code, given, 0⟩
  if s.boot.second then s.setBoot { s.boot with step := 9, slotUsed := none, result := {} }
  else s.setBoot { s.boot with step := 6, slot := 1 - k, second := true }

/-- QSPI_IDENT_TIMEOUT (R83). -/
def execQspiIdentTimeout (s : State) : Out := State.out <| if s.boot.step = 6 then s.palRefuse Code.format else s

/-- PALETTE_READ_END (R81): the signature check follows, once the vault's self-tests are done. -/
def execPaletteReadEnd (s : State) : Out := State.out <| if s.boot.step = 6 then s.setBoot { s.boot with step := 7 } else s

/-- SIGNATURE_VERIFIED (R85, R479): the checks end; an accepted image is parsed. -/
def execSignatureVerified (s : State) : Out :=
  State.out <|
    if s.boot.step ≠ 7 ∨ !s.flag VLT_STAT.ST_DONE then s
    else
      let k := s.boot.slot
      let code := s.palCheck k
      if code ≠ Code.ok then s.palRefuse code
      else (s.palCode k Code.ok).setBoot { s.boot with step := 9, slotUsed := some k, result := s.palParse k }

/-- An entry of a list set, the list filled up to it. -/
def fillAt {α : Type} (l : List α) (i : Nat) (d v : α) : List α := putAt (l ++ List.replicate (i + 1 - l.length) d) i v

/-- Planning value `k` of the image (R269 to R285). -/
def RndCfg.put (c : RndCfg) (k : Nat) (l : List Nat) : RndCfg :=
  let v := l.headD 0
  match k with
  | 0 => { c with chan := v }
  | 1 => c
  | 2 => { c with qfix := l }
  | 3 => { c with h := v }
  | 4 => { c with ncom := v }
  | 5 => { c with rhoC := v }
  | 6 | 7 => { c with lambda0 := putAt c.lambda0 (k - 6) v }
  | 8 | 9 => { c with epsP := putAt c.epsP (k - 8) v }
  | 10 | 11 => { c with epsD := putAt c.epsD (k - 10) v }
  | 12 => { c with cw := v }
  | 13 => { c with tret := v }
  | 14 => { c with packet := v }
  | _ => { c with slot := v % 8 }

/-- One value of the image programmed. (DESIGN CHOICE, log entry 57) -/
def State.palApply (s : State) (e : PalEffect) : State :=
  let v := e.vals.headD 0
  let w : Word := BitVec.ofNat 32 v
  match e.target with
  | .reg a hi lo => s.setFld ⟨a, hi, lo⟩ v
  | .aiStart c => { s with le := { s.le with aiStart := putAt s.le.aiStart c v } }
  | .pdStart d => { s with le := { s.le with pdStart := putAt s.le.pdStart d v } }
  | .deadTime d => s.setFld (PD_CFG.DT d) (v / 10)
  | .watchdog => s.setBoot { s.boot with wdt := some v }
  | .mem a => s.wrBytes a (e.vals.flatMap (toBytes e.size))
  | .bank n k => (e.vals.foldl (fun p v => (p.1.setBankWord n p.2 (BitVec.ofNat 32 v), p.2 + 1)) (s, k)).1
  | .gain n i =>
    let x := s.slot n
    s.setSlot n { x with gains := fillAt x.gains i (0x40000001, 0) (w, (nth x.gains i (0x40000001, 0)).2) }
  | .offset n i =>
    let x := s.slot n
    s.setSlot n { x with gains := fillAt x.gains i (0x40000001, 0) ((nth x.gains i (0x40000001, 0)).1, w) }
  | .round k => { s with rnd := { s.rnd with cfg := s.rnd.cfg.put k e.vals } }
  | .timeout => { s with way := { s.way with timeout := v } }
  | .current c => { s with ana := { s.ana with aiCurrent := putAt s.ana.aiCurrent c (v != 0) } }
  | .output d => { s with ana := { s.ana with dioOut := putAt s.ana.dioOut d (v != 0) } }
  | .cpArea => s.setBoot { s.boot with cpArea := min 1024 v }
  | .part _ => s
  | .canvas => s
  | .nowhere => s

/-- The canvases of the image placed in the store; one that a check refuses is reported REFUSED_CAPACITY (R94, R200). -/
def State.palCanvas (s : State) (e : PalEffect) : State :=
  if e.target ≠ .canvas then s
  else
    let c := canvasOf (e.vals.take 16)
    let stride := footprint c.kind c.n c.m
    let code := s.readyCheck (2 * e.inst) c fun p => (e.vals.drop 16).getD (p * stride / 4) 0
    if code = Code.ok then (s.canvasLoad e.inst e.vals).1 else s.report (recEntry 0x0601 e.inst Code.refusedCapacity)

/-- Partition `i` as the image gives it: base, size, mode, and the 16 bytes of each password's hash where one is given. -/
def palPart (l : List PalEffect) (i : Nat) : PmPart :=
  let word (k : Nat) : Option Nat := (l.find? fun e => e.inst == i && e.target == .part k).map fun e => e.vals.headD 0
  let pw (k : Nat) : Option (List Byte) := (word k).map fun _ => (List.range 4).flatMap fun j => toBytes 4 ((word (k + j)).getD 0)
  { defined := (word 1).isSome, base := (word 0).getD 0, size := (word 1).getD 0, journal := (word 2).getD 0 != 0
    rpw := pw 3, wpw := pw 7 }

/-- The checks of R447 on partition `i` against those before it. -/
def partCode (before : List PmPart) (p : PmPart) : Nat :=
  if !p.defined then Code.ok
  else if p.base < 1024 ∨ 2048 < p.base + p.size ∨ (p.journal ∧ p.size < 3) then Code.range
  else if before.any fun q => q.defined && decide (q.base < p.base + p.size) && decide (p.base < q.base + q.size) then
    Code.refusedCapacity
  else Code.ok

/-- The partition table of the image in use (R447), and the words that store it, which go before those of the condition report
(R445, R448); after a stop a partition that no record named stays as stored (R92, R98).
(DESIGN CHOICE, log entry 10; DESIGN CHOICE, log entry 57) -/
def State.palParts (s : State) (r : PalResult) : State :=
  let stored := s.storedParts
  let s := forN (fun i s =>
    let p := if r.stop.isSome && !(r.seen.contains (0x0E01, i)) then nth stored i {} else palPart r.effects i
    let code := partCode s.pm.parts p
    let s : State := { s with pm := { s.pm with parts := s.pm.parts ++ [if code = Code.ok ∧ p.defined then p else {}] } }
    if code = Code.ok then s else (s.unapplyRecord 0x0E01 i).report (recEntry 0x0E01 i code)) 16 { s with pm := { s.pm with parts := [] } }
  let words := s.tableWords s.pm.parts
  let s := if words.isEmpty then s else s.ceCount (s.pmSoft (partTableAt s.tableSpare) 0x280)
  (s.setBoot { s.boot with rpt := s.boot.rpt ++ words }).showParts

/-- The credential of slot `k` as the image gives it (R474). -/
def State.palCredential (s : State) (l : List SealEntry) (k : Nat) : State :=
  let v (id d : Nat) : Nat := ((l.find? fun e => e.inst == k && e.id == id).map (·.value)).getD d
  if !(l.any fun e => e.inst == k) then s
  else if !s.credState then (s.unapplyRecord 0x0F01 k).report (recEntry 0x0F01 k Code.refusedState)
  else
    let x := (List.range 8).flatMap fun i => toBytesBE 4 (v (0x0F10 + i) 0)
    let type := v 0x0F01 4
    let pol := type + 16 * v 0x0F07 0 + 32 * v 0x0F04 0 + 64 * v 0x0F06 0 + 2 ^ 8 * (v 0x0F02 0x80 / 128 * 128) + 2 ^ 16 * v 0x0F03 0
    if type = 0 then
      if s.slotType k = 0 then s else s.vaultWriteAll (s.eraseWords k)
    else if (Config.pointY x (v 0x0F07 0 == 1)).isNone then
      (s.unapplyRecord 0x0F01 k).report (recEntry 0x0F01 k Code.range)
    else if s.slotPol k = pol ∧ s.slotKey k = some x then s
    else s.vaultWriteAll (s.updateWords k pol (v 0x0F05 65535) (s.wrapFor k x))

/-- The values of a calculator or port the steward writes into its sealed record (R95). -/
def sealInit (l : List SealEntry) (block inst : Nat) : List Nat :=
  sealApplied block inst ((List.range (if block = 8 then 22 else 47)).map (sealDefault block)) l

/-- The values written for a record: OFF where R295 or R316 is broken, against the calculators `before`, or where a field was
out of range (R95). The answer says whether it was made OFF. -/
def sealOff (bad : Bool) (l : List SealEntry) (before : List (List Nat)) (block inst : Nat) : List Nat × Bool :=
  let v := sealInit l block inst
  let ok := nth v 0 0 == 0 || if block = 8 then calcAlone v && before.all (calcsAgree v) else portOk v
  if bad || !ok then (putAt v 0 0, true) else (v, false)

/-- The records to write, in order: block, instance. -/
def State.sealMissing (s : State) : List (Nat × Nat) :=
  (((List.range 8).map fun c => (8, c)) ++ (List.range 2).map fun p => (9, p)).filter fun (b : Nat × Nat) =>
    (s.recordCurrent b.1 b.2).isNone

/-- The sealed records of the image written one after another, each with its SEAL_INIT entry under ledger counter value
`l` (R95, R308); `calcs` are the calculators kept or written before. A record made OFF is reported under its MODE, with the mode
given. (DESIGN CHOICE, log entry 57) -/
def State.sealWrite (s : State) (r : PalResult) (l : Nat) (calcs : List (List Nat)) (no : Nat) : List (Nat × Nat) → State
  | [] => s
  | (block, inst) :: t =>
    let type := if block = 8 then 0x0801 else 0x0901
    let bad := r.entries.any fun e => e.2.type == type && e.2.inst == inst && e.2.code == Code.range
    let (v, off) := sealOff bad r.metrology (calcs.filter fun c => nth c 0 0 != 0) block inst
    let given := nth (sealInit r.metrology block inst) 0 0
    let s := if off then s.report ⟨type, inst, type, Code.refusedState, given, 0⟩ else s
    let words := s.recordWords block inst l v
    let last := (words.getLast?.map (·.2)).getD 0
    let s := (s.pmProgramAll words).pmProgramAll (s.ledgerWords no l
      { type := 2, block := block, inst := inst, field := 0xFFFF, before := last % 2 ^ 32, after := last / 2 ^ 32 })
    s.sealWrite r l (if block = 8 then v :: calcs else calcs) (no + 1) t

/-- The sealed records of the image written as one commit (R95, R308). -/
def State.sealedInit (s : State) (r : PalResult) : State :=
  let todo := s.sealMissing
  if !s.sealInits ∨ todo.isEmpty then s
  else
    let kept := (List.range 8).filterMap fun c => (s.recordCurrent 8 c).map fun i => s.recordFields 8 c i
    let s := s.sealWrite r (s.scValue 2 + 1) kept (s.fld MH_LEDGER_NEXT.ENTRY_NO) todo
    ((s.scIncrement 2).ledgerGrow todo.length).sealedLoad

/-- A source of a loop input, or a slot's destination, names something configured (R94). -/
def State.srcConfigured (s : State) (code : Nat) : Bool :=
  let k := code % 4096
  match code / 4096 with
  | 2 => s.flag (PD_CFG.EN (k / 3))
  | 4 => s.meField (k / 16) 0 != 0
  | 3 => s.flag (ANA_RTD_CFG.EN k)
  | 5 => s.mhField (k / 8) 0 != 0
  | 6 => (s.slot k).named
  | 7 => s.flag (PG_CTL.EN k)
  | _ => true

/-- Input `i` of slot `n` cleared with its entry, and the slot left disabled (R94, R122). -/
def State.clearInput (s : State) (n i code : Nat) : State :=
  let given := s.srcOf n i
  let s := if i % 2 = 0 then s.setFld (LE_SLOT_IN.SRC_LO n (i / 2)) 0 else s.setFld (LE_SLOT_IN.SRC_HI n (i / 2)) 0
  (s.setSlot n { s.slot n with named := false }).report ⟨0x0301, n, Config.fieldId 0x0301 (2 + i), code, given, 0⟩

/-- References of the slots in `loops` that name nothing configured as the machine stands (R94): they, and a source code in no
range, are cleared, and the slot is left disabled. -/
def State.slotRefs (s : State) (loops : List Nat) : State :=
  forN (fun n s =>
    if !loops.contains n then s else
    let s := forN (fun i s =>
      if !srcOk (s.srcOf n i) then s.clearInput n i Code.format
      else if s.srcConfigured (s.srcOf n i) then s else s.clearInput n i Code.refusedState) 16 s
    match s.slotDrive n with
    | some d =>
      if s.flag (PD_CFG.EN d) then s
      else
        let given := s.fld (LE_SLOT_CFG.DST n)
        ((s.setFld (LE_SLOT_CFG.DST n) 0).setSlot n { s.slot n with named := false }).report
          ⟨0x0301, n, Config.fieldId 0x0301 18, Code.refusedState, given, 0⟩
    | none => s) 64 s

/-- The slots that are configured (R127). -/
def State.namedSlots (s : State) : List Nat := (List.range 64).filter fun n => (s.slot n).named

/-- Links and references resolved again, since a slot left disabled is no longer configured, until no more slot is (R94, R127,
R157). (DESIGN CHOICE, log entry 57) -/
def State.refRounds (loops : List Nat) : Nat → State → State
  | 0, s => s
  | n + 1, s =>
    let t := s.dropLinks.slotRefs loops
    if t.namedSlots = s.namedSlots then t else refRounds loops n t

/-- The slots that the image names configured, their active banks checked, and their links and references resolved (R94, R127,
R149, R157). -/
def State.slotResolve (s : State) (loops : List Nat) : State :=
  let s := forN (fun n s => s.setSlot n { s.slot n with named := loops.contains n || (s.slot n).named }) 64 s
  s.slotChecks.refRounds loops 65

/-- References of the plan bridge resolved (R94): a channel whose fallback slot is not configured is left disabled. -/
def State.bridgeRefs (s : State) : State :=
  forN (fun c s =>
    let n := s.fld (LE_PB_FB.SLOT c)
    if !s.flag (LE_PB_MAP.EN c) || !s.flag (LE_PB_FB.KIND c) || (s.slot n).named then s
    else ((s.setFld (LE_PB_FB.SLOT c) 0).refuseFld (LE_PB_MAP.EN c) 0).reportReg (LE_PB_FB.SLOT c) 0x0302 c false Code.refusedState n 0)
    16 s

/-- A segment of the plug tracker is configured by the registers. -/
def State.segGiven (s : State) (i : Nat) : Bool := s.fld (PT_SEG_RING.CAP i) != 0

/-- The sources of segment `i` that name nothing configured: its inflow, inlet and ambient indices (R94, R252). -/
def State.segBadRefs (s : State) (i : Nat) : List Field :=
  let mh (c : Nat) : Bool := decide (c < 8) && s.mhField c 0 != 0
  let rtd (r : Nat) : Bool := decide (r < 16) && s.flag (ANA_RTD_CFG.EN r)
  let idx := s.fld (PT_SEG_SRC.IIDX i)
  let inlet := match s.fld (PT_SEG_SRC.IKIND i) with
    | 0 => s.segGiven idx
    | 1 | 2 => mh idx
    | 3 => rtd idx
    | _ => true
  (if s.fld (PT_SEG_SRC.FKIND i) = 0 ∧ !mh (s.fld (PT_SEG_SRC.FIDX i)) then [PT_SEG_SRC.FIDX i] else [])
    ++ (if inlet then [] else [PT_SEG_SRC.IIDX i])
    ++ (if s.fld (PT_SEG_SRC.AKIND i) = 1 ∧ !rtd (s.fld (PT_SEG_SRC.AIDX i)) then [PT_SEG_SRC.AIDX i] else [])

/-- Segments that name something not configured are cleared of it and left unconfigured, again until none is left (R94).
(DESIGN CHOICE, log entry 57) -/
def State.segRefs : Nat → State → State
  | 0, s => s
  | n + 1, s =>
    let bad := (List.range 256).filter fun i => s.segGiven i && !(s.segBadRefs i).isEmpty
    if bad.isEmpty then s
    else segRefs n <| bad.foldl (fun t i =>
      (s.segBadRefs i).foldl (fun t f => (t.setFld f 0).reportReg f 0x0701 i false Code.refusedState (s.fld f) 0)
        (t.refuseFld (PT_SEG_RING.CAP i) 0)) s

/-- Segment `i` left unconfigured, with a record-level entry (R94, R251). -/
def State.segRefuse (s : State) (i code : Nat) : State :=
  (s.refuseFld (PT_SEG_RING.CAP i) 0).reportReg (PT_SEG_RING.CAP i) 0x0701 i true code 0 0

/-- A node that a trace channel may name: of a configured slot, or of a PG channel in use (R94, R176). -/
def State.nodeConfigured (s : State) (code : Nat) : Bool :=
  let n := code / 64 % 64
  match code / 4096 with
  | 1 | 2 | 3 | 4 | 6 => (s.slot n).named
  | 5 => s.flag (PG_CTL.EN n)
  | _ => true

/-- References of the image's trace record resolved (R94, R185): a timing slot or a source of it that is not configured is
cleared,
and the trace is left disarmed. (DESIGN CHOICE, log entry 57) -/
def State.traceRefs (s : State) : State :=
  let clear (s : State) (f : Field) (ok : Nat → Bool) : State :=
    if (s.palEffects f).isEmpty || ok (s.fld f) then s
    else ((s.setFld f 0).refuseFld TUNE_TRC_CTL.ARMED 0).reportReg f 0x1301 0 false Code.refusedState (s.fld f) 0
  forN (fun i s => clear (clear s (TUNE_TRC_SRC.SRC_LO i) s.nodeConfigured) (TUNE_TRC_SRC.SRC_HI i) s.nodeConfigured) 4
    (clear s TUNE_TRC_CFG.TSLOT fun n => (s.slot n).named)

/-- Canvas slot `k` has a canvas. -/
def State.canvasGiven (s : State) (k : Nat) : Bool := (s.canvas (2 * k)).state != 0 || (s.canvas (2 * k + 1)).state != 0

/-- The segments and outputs of the image checked in ascending order (R94, R251): the pool is clamped below the output area, a
reference to nothing, a canvas slot without a canvas included, is cleared, and a ring or an inlet chain that breaks R251 is
refused. (DESIGN CHOICE, log entry 57) -/
def State.plugAdmit (s : State) : State :=
  let size := s.fld PT_POOL.SIZE
  let s := if 65024 < size ∧ (List.range 8).any (fun o => s.flag (PT_OUT_CFG.EN o)) then
      (s.setFld PT_POOL.SIZE 65024).reportReg PT_POOL.SIZE 0x0701 0 false Code.okClamped size 65024
    else s
  let s := s.segRefs 257
  let segs := (List.range 256).filter s.segGiven
  let cfg (s : State) (i : Nat) : PtSeg := { cfg := s.ptShadow i }
  let s := segs.foldl (fun s i =>
    let g := cfg s i
    if g.on ∧ (g.cap + 1 < 4 ∨ s.fld PT_POOL.SIZE < g.base + g.cap + 1
        ∨ segs.any (fun k => decide (k < i) && (cfg s k).on && rangesClash g.base (g.cap + 1) (cfg s k).base ((cfg s k).cap + 1))) then
      s.segRefuse i Code.refusedCapacity
    else s) s
  let s := s.segRefs 257
  let all := (List.range 256).map (cfg s)
  let s := segs.foldl (fun s i => if s.segGiven i && !ptChainOk all 16 i then s.segRefuse i Code.range else s) s
  let s := s.segRefs 257
  forN (fun o s =>
    if !s.flag (PT_OUT_CFG.EN o) then s
    else
      let clear (s : State) (f : Field) (ok : Bool) : State :=
        if ok then s
        else ((s.refuseFld (PT_OUT_CFG.EN o) 0).setFld f 0).reportReg f 0x0702 o false Code.refusedState (s.fld f) 0
      clear (clear s (PT_OUT_CFG.SEG o) (s.segGiven (s.fld (PT_OUT_CFG.SEG o)))) (PT_OUT_CFG.SLOT o)
        (s.canvasGiven (s.fld (PT_OUT_CFG.SLOT o)))) 8 s

/-- The modules of the image checked in ascending order (R409): one whose window range passes its end or overlaps another's is
left unconfigured. -/
def State.moduleAdmit (s : State) : State :=
  forN (fun l s => forN (fun m s =>
    let r := s.wshadow l m
    if !recEn r then s
    else if s.wcheck l m r = Code.ok then s.setWmod l m { rec_ := r }
    else (s.refuseFld (WFL_M_CFG.EN l m) 0).reportReg (WFL_M_CFG.EN l m) 0x0C02 (16 * l + m) true Code.refusedCapacity 0 0) 16 s) 24 s

/-- Fields of a paired RTD channel are not applied (R95, R295), by the sealed records as they now stand. -/
def State.lockPaired (s : State) (r : PalResult) : PalResult :=
  r.effects.foldl (fun r e => match e.target with
    | .reg a hi lo =>
      if (List.range 16).any fun n => a == ANA_RTD_CFG n && (s.rtdPair n).isSome then
        r.refuse e Code.refusedLocked (bits (s.reg a).toNat hi lo)
      else r
    | _ => r) r

/-- An area of bus RAM taken: its register, and the next free offset (R340). (DESIGN CHOICE, log entry 57) -/
def State.busArea (s : State) (c reg off size : Nat) : State × Nat :=
  let a := (off + 63) / 64 * 64
  (s.setFld (busField c reg 31 0) (0x31000000 + a), a + size)

/-- The areas of one enabled channel or port from offset `off` (R340): counts are lowered to what fits, the later areas of the
channel keeping their smallest size. -/
def State.busAreas (s : State) (c off : Nat) : State × Nat :=
  if !s.flag (busField c 0 0 0) then (s, off)
  else
    let up (x : Nat) : Nat := (x + 63) / 64 * 64
    let tx := if c < 8 then 2560 else 1280
    let esize := if c < 8 then 80 else 1536
    let minRx := if c < 8 then 16 else 4
    let maxRx := if c < 8 then 4096 else 256
    let base := up off + up tx
    if 0x100000 < base + up (minRx * esize) + 256 then
      ((s.refuseFld (busField c 0 0 0) 0).report (recEntry (if c < 8 then 0x0A01 else 0x0B01) (if c < 8 then c else c - 8) Code.refusedCapacity),
       off)
    else
      let wantRx := max minRx (min maxRx (s.fld (busField c 0x1C 12 0)))
      let rx := min wantRx ((0x100000 - base - 256) / 64 * 64 / esize)
      let base2 := base + up (rx * esize)
      let wantCtx := min 16 (s.fld (busField c 0x1C 22 18))
      let ctx := min wantCtx ((0x100000 - base2 - 256) / 3840)
      let base3 := base2 + up (ctx * 3840)
      let wantCq := max 16 (min 256 (s.fld (busField c 0x1C 31 23)))
      let cq := min wantCq ((0x100000 - base3) / 16)
      let type := if c < 8 then 0x0A01 else 0x0B01
      let inst := if c < 8 then c else c - 8
      let cut (i given got : Nat) (s : State) : State :=
        if got = given then s else s.report ⟨type, inst, Config.fieldId type i, Code.okClamped, given, got⟩
      let s := cut 2 wantCq cq (cut 1 wantCtx ctx (cut 0 wantRx rx s))
      let (s, o) := s.busArea c 0x2C off tx
      let (s, o) := s.busArea c 0x20 o (rx * esize)
      let (s, o) := s.busArea c 0x24 o (ctx * 3840)
      let (s, o) := s.busArea c 0x28 o (cq * 16)
      (((s.setFld (busField c 0x1C 12 0) (rx % 4096)).setFld (busField c 0x1C 22 18) ctx).setFld (busField c 0x1C 31 23) cq, o)

/-- Bus RAM divided (R340). (DESIGN CHOICE, log entry 57) -/
def State.busDivide (s : State) : State :=
  ((List.range 10).foldl (fun (p : State × Nat) c => p.1.busAreas c p.2) (s, 1024 * s.boot.cpArea)).1

/-- The time quanta of 10 ns in a bit of a timing word (R339). -/
def bitQuanta (w : Nat) : Nat := (bits w 4 0 + 1) * (1 + (bits w 24 17 + 1) + (bits w 16 10 + 1))

/-- A bit split within the ranges of R373 for nominal (0) or data (1) timing. -/
def splitOk (k w : Nat) : Bool :=
  if k = 0 then decide (1 ≤ bits w 24 17) && decide (1 ≤ bits w 16 10)
  else decide (bits w 24 17 ≤ 31) && decide (bits w 16 10 ≤ 15)

/-- The ground configuration's bit timing, nominal (0) at 500 kbit/s and data (1) at 2 Mbit/s (R98, R339); the split of the bit
is open. (DESIGN CHOICE, log entry 58) -/
def groundTiming (k : Nat) : Nat :=
  let w := Config.canTiming k
  if splitOk k w ∧ bitQuanta w = nth [200, 50] k 0 then w
  else nth [2 ^ 25 * 39 + 2 ^ 17 * 158 + 2 ^ 10 * 39, 2 ^ 25 * 5 + 2 ^ 17 * 17 + 2 ^ 10 * 5 + 1] k 0

/-- A bit timing at the limit nearer to one outside it, in quanta of 10 ns: nominal (0) 125 kbit/s to 1 Mbit/s, data (1) 1 to
8 Mbit/s (R339); the split of the bit within R373 is open. (DESIGN CHOICE, log entry 58) -/
def limitTiming (k q : Nat) : Nat :=
  let long := nth [800, 100] k 0 < q
  let w := Config.canTiming (2 + 2 * k + b2n long)
  if splitOk k w ∧ bitQuanta w = (if long then nth [800, 100] k 0 else nth [100, 13] k 0) then w
  else nth [2 ^ 17 * 78 + 2 ^ 10 * 19, 2 ^ 17 * 158 + 2 ^ 10 * 39 + 3, 2 ^ 17 * 8 + 2 ^ 10 * 2,
    2 ^ 17 * 17 + 2 ^ 10 * 5 + 3] (2 * k + b2n long) 0

/-- A bit timing word of channel `c` whose rate lies outside its limits is clamped (R339): one that the image gives, or that an
enabled channel has. (DESIGN CHOICE, log entry 58) -/
def State.rateClampAt (s : State) (c k : Nat) : State :=
  let a := if k = 0 then CAN_NBT c else CAN_DBT c
  let q := bitQuanta (s.reg a).toNat
  let given := [(24, 17), (16, 10), (4, 0)].any fun (p : Nat × Nat) => !(s.palEffects ⟨a, p.1, p.2⟩).isEmpty
  if !given && !s.flag (CAN_CTL.EN c) then s
  else if (if k = 0 then 100 else 13) ≤ q ∧ q ≤ (if k = 0 then 800 else 100) then s
  else
    [(24, 17), (16, 10), (4, 0)].foldl (fun t (p : Nat × Nat) =>
      let f : Field := ⟨a, p.1, p.2⟩
      let given := s.fld f
      let v := bits (limitTiming k q) p.1 p.2
      if given = v then t else (t.setFld f v).reportReg f 0x0A01 c false Code.okClamped given v) s

/-- The bit rates of a channel clamped (R339). -/
def State.rateClamp (s : State) (c : Nat) : State := (s.rateClampAt c 0).rateClampAt c 1

/-- The ground configuration, as far as it differs from the reset values or a SYSRST keeps older ones (R98).
(DESIGN CHOICE, log entry 58) -/
def State.ground (s : State) : State :=
  let s := (s.setReg PWR_CFG (regReset PWR_CFG)).setBoot { s.boot with wdt := none }
  let chan (c rx : Nat) (s : State) : State :=
    (((s.setFlag (busField c 0 0 0) true).setFld (busField c 0x1C 12 0) rx).setFld (busField c 0x1C 22 18) 4).setFld
      (busField c 0x1C 31 23) 32
  let s := forN (fun c s =>
    let s := chan c 256 s
    let s := (s.setFlag (CAN_CTL.RASM c) true).setFlag (CAN_HB_CFG.EN c) true
    (s.setReg (CAN_NBT c) (BitVec.ofNat 32 (groundTiming 0))).setReg (CAN_DBT c) (BitVec.ofNat 32 (groundTiming 1))) 2 s
  chan 9 16 (chan 8 16 s)

/-- The blocks kept out of service by the health word (R501). -/
def State.healthKept (s : State) : State :=
  let le := s.fld LCS_HEALTH.LE
  let sa := s.fld LCS_HEALTH.SA
  let s := s.setFld LE_STAT.CELL_EN (0xF - le)
  let s := forN (fun c s => s.setFlag (LE_CELL_STAT.DIS c) (bit le c)) 4 s
  ((s.setFld SA_GROUP.FAILED sa).setFld SA_GROUP.INSERV (0xFF - sa)).setFld SA_STAT.GROUPS (0xFF - sa)

/-- A program for the scan engine came with the image. -/
def PalResult.program (r : PalResult) : Bool := r.effects.any fun e => match e.target with
  | .mem a => decide (0x34000000 ≤ a) && decide (a < 0x34040000)
  | _ => false

/-- The blocks programmed with the results for the image, over the ground values (R92, R94, R95, R100). -/
def State.programme (s : State) (r : PalResult) : State :=
  let image := s.boot.slotUsed.isSome
  let s := s.ground.healthKept
  let s := (if image then s.sealedInit r else s).mhViews
  let r := s.lockPaired r
  let s := s.setBoot { s.boot with report := s.boot.report ++ r.entries, result := r }
  let s := r.effects.foldl State.palApply s
  let s := if image then s.palParts r else s
  let s := (forN (fun k s => s.palCredential r.creds k) 32 s).vltShow
  let s := (s.mhViews.slotResolve r.loops).bridgeRefs
  let s := (r.effects.foldl State.palCanvas s.loopAdmission.traceRefs).plugAdmit.moduleAdmit
  ((List.range 8).foldl State.rateClamp s).busDivide

/-- Every configured block starts (R100). -/
def State.startBlocks (s : State) (program : Bool) : State :=
  let s := s.setTick 0
  let s := ((s.setFlag LE_CTL.EN true).setFlag SA_CTL.EN true).setFlag WFL_CTL.EN true
  let metering := s.sealedValid && !s.tot.barred
  let s := (s.setFlag MH_CTL.EN metering).setFlag ME_CTL.EN metering
  let s := forN (fun d s => if s.flag (PD_CFG.EN d) then s.driveOff d else s) 4 s
  let s := if s.boot.slotUsed.isSome then s.ptStart else s
  let s := s.pbStart.pgStart.wflStart.showLevels
  let s :=
    if !program then s
    else
      let c := s.seCheck 0
      if c.1 = Code.ok then (s.seStart 0).setFlag SE_CTL.EN true
      else ((s.setFld SE_XCHG_STAT.BAD c.2).setFld SE_XCHG_STAT.CODE c.1).report (recEntry 0x0D01 0 c.1)
  s

/-- The image's header shown in the start registers (R103), or the ground configuration (R98). A time above what its field holds
is shown modulo the field. (DESIGN CHOICE, log entry 57) -/
def State.startRegs (s : State) (us : Nat) : State :=
  let s := s.setFld SYS_START_TIME.RUN ((us + 9) / 10)
  match s.boot.slotUsed with
  | some k =>
    let s := (s.setFld SYS_PAL_STAT.SLOT k).setFld SYS_PAL_STAT.STATE (b2n s.boot.result.stop.isSome)
    let s := s.setFlag SYS_PAL_STAT.UNOWNED (!s.owned)
    let s := (s.setReg SYS_PAL_VER (BitVec.ofNat 32 (s.flashNum k 0x10 4))).setReg SYS_PAL_BUILD (BitVec.ofNat 32 (s.flashNum k 0x14 4))
    let role := s.flashNum k 0x0C 1
    let s := (s.setFlag SYS_ROLE.GROUND false).setFld SYS_ROLE.ROLE role
    let s := { s with rnd := { s.rnd with cfg := { s.rnd.cfg with com := b2n (role == 1) } } }
    let id := s.flashNum k 0x0E 2
    let s := s.setReg SYS_NODE_ID (BitVec.ofNat 32 id)
    let r := s.bootRecord
    let s := if bit r 2 && r / 8 == id then s else s.setBootRecord (r % 4 + 4 + 8 * id)
    s.setVlt { s.vlt with mPal := some (s.imageHash k 0 (s.palLen k)) }
  | none =>
    let r := s.bootRecord
    if bit r 2 then s.setReg SYS_NODE_ID (BitVec.ofNat 32 (r / 8)) else s

/-- An entry in its place among entries in image order, before those that came after it (R97). -/
def rptInsert (e : Nat × RptEntry) : List (Nat × RptEntry) → List (Nat × RptEntry)
  | [] => [e]
  | x :: t => if e.1 ≤ x.1 then e :: x :: t else x :: rptInsert e t

/-- The field entries applied with their given value or by DEFAULT (R96): those without an entry of their own.
(DESIGN CHOICE, log entry 57) -/
def State.acceptedCount (s : State) : Nat :=
  (s.boot.result.applied.filter fun o => !s.boot.report.any fun x => x.1 == o && x.2.field != 0xFFFF).length

/-- The commit of the condition report begins (R96, R97): the words that differ, by pages in ascending order but the header's
page last; the corrected reads of their comparison count (R438, R444). (DEDUCED, log entry 55) -/
def State.commitReport (s : State) : State :=
  let all := (s.boot.report.foldr rptInsert []).map (·.2)
  let l := all.take 1020
  let body := l.flatMap RptEntry.bytes
  let st := s.reg SYS_PAL_STAT
  let pal := s.boot.slotUsed
  let num (off n : Nat) : Nat := match pal with
    | some k => s.flashNum k off n
    | none => 0
  let flags := s.fld SYS_PAL_STAT.UNOWNED + 2 * b2n (pal.isNone && s.sealedValid)
  let hdr := toBytes 4 0x54525043 ++ toBytes 4 (s.scValue 3)
    ++ toBytes 1 (s.fld SYS_PAL_STAT.STATE) ++ toBytes 1 (s.fld SYS_PAL_STAT.SLOT) ++ toBytes 1 (num 0x0C 1) ++ toBytes 1 flags
    ++ toBytes 1 (SYS_PAL_STAT.A_CODE.of st) ++ toBytes 1 (SYS_PAL_STAT.B_CODE.of st) ++ toBytes 2 l.length
    ++ toBytes 2 (min 0xFFFF s.acceptedCount) ++ toBytes 2 (min 0xFFFF (all.length - 1020))
    ++ toBytes 4 (s.boot.result.stop.getD 0xFFFFFFFF) ++ toBytes 4 (num 0x14 4) ++ toBytes 4 (num 0x10 4)
    ++ ((s.vlt.mPal.getD (List.replicate 16 0)).take 16) ++ toBytes 4 (crc32 body) ++ List.replicate 8 0
  let words := wordsOf 0x4000 (8 + 2 * l.length) (hdr ++ toBytes 4 (crc32 hdr) ++ body)
  (s.ceCount (s.pmSoft 0x4000 (8 * words.length))).setBoot
    { s.boot with rpt := s.boot.rpt ++ s.pmToProgram (words.drop 32 ++ words.take 32) }

/-- The next `n` words of the report programmed (R96). (DESIGN CHOICE, log entry 15) -/
def State.reportWords (s : State) (n : Nat) : State :=
  (s.pmProgramAll (s.boot.rpt.take n)).setBoot { s.boot with rpt := s.boot.rpt.drop n }

/-- A writer of the PM with an earlier claim is at work: a totals save or a sealed commit, or a brown stall holds the array (R82,
R445, R446), or a SYSRST is coming, after which it does not resume (R22). -/
def State.reportWaits (s : State) : Bool := s.pmBlocked 4 || s.rst.sys

/-- The report's commit during an engine tick: at most 1.8 µs a word (R444). (DEDUCED, log entry 55) -/
def State.reportTick (s : State) : State := if s.boot.rpt.isEmpty || s.reportWaits then s else s.reportWords 5

/-- The firmware slot the steward evaluates first (R102, R115): after a watchdog's first expiry the one not preferred. -/
def State.fwFirst (s : State) : State :=
  let p := s.fld SYS_BOOT_SEL.FW
  let k := if s.boot.fallback then 1 - p else p
  let slot := if s.flag SYS_ROLE.GROUND ∨ !s.started then none else some k
  s.setBoot { s.boot with fwSlot := slot, fwSecond := false, fallback := false }

/-- START_TICK (R81, R100, R101): `us` µs after rails good, rounded up; the MERGE save of this start comes before it (R333). The
blocks are programmed and start; the report is committed; the start-up profile is requested. (DEDUCED, log entry 55) -/
def execStartTick (us : Nat) (s : State) : Out :=
  State.out <|
    if s.boot.step ≠ 9 ∨ s.flag PWR_STAT.PFW ∨ s.tot.save.isSome then s
    else
      let r := s.boot.result
      let s := (s.programme r).startBlocks r.program
      let s := (s.startRegs us).commitReport
      let s := s.setBoot { s.boot with step := 10, startEdge := s.aon.edges, result := {} }
      let prof := match s.boot.slotUsed with
        | some k => s.flashNum k 0x0D 1
        | none => 2
      (s.profRequest prof).fwFirst

/-- The seals of R101: every SEALED field reads 1. -/
def State.sealAll (s : State) : State :=
  let s := (((s.setFlag LE_CTL.SEALED true).setFlag SA_CTL.SEALED true).setFlag PT_CTL.SEALED true).setFlag MH_CTL.SEALED true
  let s := ((s.setFlag ME_CTL.SEALED true).setFlag WFL_CTL.SEALED true).setFlag SE_CTL.SEALED true
  s.setBoot { s.boot with sealed_ := true }

/-- The hand-over (R102, R115, R483): `us` µs after rails good. (DEDUCED, log entry 55) -/
def State.handOver (s : State) (k us : Nat) : State :=
  let o := s.flashNum k 0x1C 4
  let n := s.flashNum k (o + 8) 4
  let s := s.setVlt { s.vlt with mFw := some (s.imageHash k o n) }
  let s := ((s.setFld VLT_BOOT.SLOT k).setFlag VLT_BOOT.UNOWNED (!s.owned)).setReg VLT_FW_VER (BitVec.ofNat 32 (s.flashNum k (o + 0x10) 4))
  let s := if s.boot.sealed_ then s
    else
      let s := (s.setFld SYS_START_TIME.HAND ((us + 99) / 100)).setFld SYS_WDT_CFG.TIMEOUT (s.boot.wdt.getD 2048)
      let s := (s.setFlag SYS_WDT_CFG.ESCALATE true).setFlag SYS_WDT_CFG.EN true
      (s.setFld SYS_WDT_STAT.REMAIN (max 1 (s.fld SYS_WDT_CFG.TIMEOUT))).sealAll
  { s.setBoot { s.boot with fwSlot := none } with cp := { s.cp with
    fw := true, cprst := false, halted := false, machine := true, pmp := List.replicate 16 (0, 0) } }

/-- Neither slot has firmware that verifies: none runs, and the steward keeps the CP (R102, R486, R489). -/
def State.noFirmware (s : State) : State :=
  let s := ((s.setFld VLT_BOOT.SLOT 2).setFlag VLT_BOOT.UNOWNED false).setReg VLT_FW_VER 0
  let s := (s.setVlt { s.vlt with mFw := none }).setBoot { s.boot with fwSlot := none }
  { s with cp := { s.cp with cprst := false } }

/-- FIRMWARE_VERIFIED (R81, R482, R483): the report's commit has ended, the image of the slot under evaluation has been copied to
CP SRAM and its checks end; the other slot follows a refusal. (DEDUCED, log entry 55) -/
def execFirmwareVerified (us : Nat) (s : State) : Out :=
  State.out <|
    match s.boot.fwSlot with
    | none => s
    | some k =>
      if !s.flag VLT_STAT.ST_DONE || (!s.boot.rpt.isEmpty && s.reportWaits) then s
      else
        let s := s.reportWords s.boot.rpt.length
        let o := s.flashNum k 0x1C 4
        let n := s.flashNum k (o + 8) 4
        let code := s.fwCheck k
        let s := if s.palCheck5 k = Code.ok then s.wrBytes 0x20000000 (s.flashBytes k o (min n 0x300000)) else s
        let s := if k = 0 then s.setFld VLT_BOOT.A_CODE code else s.setFld VLT_BOOT.B_CODE code
        if code = Code.ok then s.handOver k us
        else if s.boot.fwSecond then s.noFirmware
        else s.setBoot { s.boot with fwSlot := some (1 - k), fwSecond := true }

/-- A write of SYS_PAL_ROLL (R88). -/
def State.palRollWrite (s : State) (v : Word) : State :=
  if SYS_PAL_ROLL.KEY.of v ≠ 0x7140 ∨ SYS_PAL_ROLL.GO.of v ≠ 1 ∨ s.flag SYS_PAL_STAT.ROLL_BUSY ∨ s.flag SYS_ROLE.GROUND then s
  else s.setFlag SYS_PAL_STAT.ROLL_BUSY true

/-- SYS_PAL_ROLL (R88). -/
def execSysPalRoll (v : Word) (s : State) : Out := s.cpDoes fun s => s.palRollWrite v

/-- A write of SYS_BOOT_SEL (R103, R442): the record keeps its node ID. -/
def State.bootSelWrite (s : State) (v : Word) : State :=
  let r := s.bootRecord
  (s.setBootRecord (r - r % 4 + v.toNat % 4)).setReg SYS_BOOT_SEL (BitVec.ofNat 32 (v.toNat % 4))

/-- SYS_BOOT_SEL (R103). -/
def execSysBootSel (v : Word) (s : State) : Out := s.cpDoes fun s => s.bootSelWrite v

/-- ROLL_END (R88, R445, R484): the single increments of counter 0, or of counter 4, are done. -/
def execRollEnd (fw : Bool) (s : State) : Out :=
  State.out <|
    if s.pmBlocked 5 then s
    else if fw then
      if s.flag VLT_STAT.FW_ROLL_BUSY then
        (forN (fun _ s => s.scIncrement 4) ((s.reg VLT_FW_VER).toNat - s.scValue 4) s).setFlag VLT_STAT.FW_ROLL_BUSY false
      else s
    else if s.flag SYS_PAL_STAT.ROLL_BUSY then
      (forN (fun _ s => s.scIncrement 0) ((s.reg SYS_PAL_VER).toNat - s.scValue 0) s).setFlag SYS_PAL_STAT.ROLL_BUSY false
    else s

end Sys2Proof.Machine
end

