-- ==== Sys2Proof/Machine/Lcs.lean ====
section
/-! DEFINITION. The commands of the life-cycle block: LCS operations (R493), self-tests (R497 to R505), VBAT (R509). -/

namespace Sys2Proof.Machine

/-- PROVISIONED (R493): a write of LCS_CMD with OP 1. -/
def execLcsProvisioned (v : Word) (s : State) : Out := s.cpDoes fun s => if LCS_CMD.OP.of v = 1 then s.lcsCmdWrite v else s

/-- DEPLOY (R493): a write of LCS_CMD with OP 2. -/
def execLcsDeploy (v : Word) (s : State) : Out := s.cpDoes fun s => if LCS_CMD.OP.of v = 2 then s.lcsCmdWrite v else s

/-- ENTER_SERVICE (R493): a write of LCS_CMD with OP 3. -/
def execLcsEnterService (v : Word) (s : State) : Out := s.cpDoes fun s => if LCS_CMD.OP.of v = 3 then s.lcsCmdWrite v else s

/-- LEAVE_SERVICE (R495): a write of LCS_CMD with OP 4. -/
def execLcsLeaveService (v : Word) (s : State) : Out := s.cpDoes fun s => if LCS_CMD.OP.of v = 4 then s.lcsCmdWrite v else s

/-- DECOMMISSION (R496): a write of LCS_CMD with OP 5. -/
def execLcsDecommission (v : Word) (s : State) : Out := s.cpDoes fun s => if LCS_CMD.OP.of v = 5 then s.lcsCmdWrite v else s

/-- DEBUG_OPEN (R493): a write of LCS_CMD with OP 6. -/
def execLcsDebugOpen (v : Word) (s : State) : Out := s.cpDoes fun s => if LCS_CMD.OP.of v = 6 then s.lcsCmdWrite v else s

/-- LCS_COMMAND_END (R493): the save has ended, the fuses are programmed, a SYSRST follows. -/
def execLcsCommandEnd (s : State) : Out :=
  State.out <|
    if s.lcs.op.isNone || s.resetSaving then s
    else
      let s := (s.fuseSteps).foldl State.fuseStep s
      ((s.setLcs { s.lcs with op := none }).lcsEnd Code.ok).askSysrst 7 false

/-- The patterns of a run (R498): COUNT 31 means 16. -/
def BistRun.total (b : BistRun) : Nat := (if b.count = 31 then 16 else b.count) * 65536

/-- The health bit of a target (R510). -/
def BistRun.health (b : BistRun) : Nat :=
  match b.kind with
  | 1 => b.index
  | 2 => 4 + b.index
  | 3 => 12 + b.index
  | _ => 20

/-- The target is out of service already, kept there by a failed run (R501). -/
def State.bistFailed (s : State) (b : BistRun) : Bool := bit (s.reg LCS_HEALTH).toNat b.health

/-- The code of a request (R497, R498, R502 to R504, R510). (DEDUCED, log entry 50) -/
def State.bistCheck (s : State) (b : BistRun) : Nat :=
  let top := nth [0, 4, 8, 8, 1] b.kind 0
  if top ≤ b.index then Code.range
  else if b.count = 0 then Code.range
  else if 17 ≤ b.count ∧ b.count ≤ 30 then Code.length
  else if s.lcs.bist.isSome ∨ !(s.lcState == 0 || s.lcState == 3) ∨ s.inHoldup ∨ s.inSleep ∨ (b.kind = 1 ∧ s.profile = 2) then
    Code.refusedState
  else if b.kind = 1 ∧ !s.bistFailed b ∧ !(s.replan b.index false).refused.isEmpty then Code.refusedCapacity
  else if b.kind = 2 ∧ !s.bistFailed b ∧ ((List.range 8).filter fun g => bit (s.fld SA_GROUP.INSERV) g).length < 2 then
    Code.refusedCapacity
  else if b.kind = 3 ∧ (s.fld SYS_NT_CFG.SRC = b.index + 1 ∨ bit (s.fld SYS_NT_REF.CHAN) b.index) then Code.refusedState
  else Code.ok

/-- What an accepted request does to its target (R502 to R505). -/
def State.bistTarget (s : State) (b : BistRun) : State :=
  match b.kind with
  | 1 => s.setFlag (LE_CELL_STAT.BIST b.index) true
  | 2 =>
    if !bit (s.fld SA_GROUP.INSERV) b.index then
      (s.setSa { s.sa with joining := s.sa.joining.filter (· != b.index) }).setBit SA_GROUP.BIST b.index true
    else
      let s := s.setSa { s.sa with leaving := some b.index }
      if s.sa.run.isNone then s.saBoundary else s
  | 3 => s.setCh b.index { s.ch b.index with testWait := true }
  | _ => s

/-- A write of LCS_BIST_CMD (R497 to R500). -/
def State.bistCmdWrite (s : State) (v : Word) : State :=
  let s := if LCS_BIST_CMD.ABORT.of v = 1 then s.bistCut else s
  if LCS_BIST_CMD.GO.of v ≠ 1 then s
  else
    let b : BistRun := { kind := LCS_BIST_CMD.KIND.of v, index := LCS_BIST_CMD.INDEX.of v, count := LCS_BIST_CMD.COUNT.of v }
    let code := s.bistCheck b
    if code ≠ Code.ok then s.setFld LCS_BIST_STAT.CODE code
    else
      let s := s.setLcs { s.lcs with bist := some b }
      let s := (s.setFld LCS_BIST_STAT.KIND b.kind).setFld LCS_BIST_STAT.INDEX b.index
      let s := ((s.setFlag LCS_BIST_STAT.CUT false).setFlag LCS_BIST_STAT.BUSY true).setFlag LCS_STAT.BIST true
      s.bistTarget b

/-- The target is free of work (R502 to R505). (DEDUCED, log entry 50) -/
def State.bistFree (s : State) (b : BistRun) : Bool :=
  match b.kind with
  | 1 => s.placedSlots.all fun a => s.fld (LE_SLOT_CFG.CELL a.slot) != b.index
  | 2 => !bit (s.fld SA_GROUP.INSERV) b.index
  | 3 => (s.ch b.index).cur.isNone
  | _ => !(s.flag ME_STAT.SHADOW)

/-- The target is back, passed or as it was before the run (R499, R502 to R505). -/
def State.bistBack (s : State) (b : BistRun) (failed : Bool) : State :=
  match b.kind with
  | 1 =>
    let s := s.setFlag (LE_CELL_STAT.BIST b.index) false
    if failed then s
    else
      let s := s.setFlag (LE_CELL_STAT.DIS b.index) false
      (s.setFld LE_STAT.CELL_EN (putBit (s.fld LE_STAT.CELL_EN) b.index true)).goHome
  | 2 =>
    let s := s.setBit SA_GROUP.FAILED b.index failed
    if failed then s.setBit SA_GROUP.BIST b.index false
    else if bit (s.fld SA_GROUP.INSERV) b.index then s.setSa { s.sa with leaving := none }
    else
      let s := s.setSa { s.sa with joining := some b.index }
      if s.sa.run.isNone then s.saBoundary else s
  | 3 => s.setCh b.index { s.ch b.index with testWait := false, testing := none }
  | _ => s.setFlag ME_STAT.BIST false

/-- The target stays out of service (R499, R502 to R504). -/
def State.bistOut (s : State) (b : BistRun) : State :=
  match b.kind with
  | 1 =>
    let s := (s.setFlag (LE_CELL_STAT.BIST b.index) false).setFlag (LE_CELL_STAT.DIS b.index) true
    forN (fun n s => s.setSlot n { s.slot n with home := none }) 64 s
  | 2 => (s.setBit SA_GROUP.BIST b.index false).setBit SA_GROUP.FAILED b.index true
  | 3 =>
    let s := s.setCh b.index { s.ch b.index with testWait := false, testing := none }
    forN (fun e s => if s.txPending b.index e then s.txDone b.index e Code.busOff 0 else s) 32 s
  | _ => (s.setFlag ME_STAT.BIST false).sealResume

/-- A run ends (R499): `patterns` were applied, the signature is `sig`. (DEDUCED, log entry 50) -/
def State.bistEnd (s : State) (b : BistRun) (patterns : Nat) (sig : BitVec 64) : State :=
  let s := s.setLcs { s.lcs with bist := none }
  let s := (s.setFlag LCS_BIST_STAT.BUSY false).setFlag LCS_STAT.BIST false
  let s := (s.setFlag LCS_BIST_STAT.CUT b.cut).setFlag LCS_EVT.BIST true
  let s := (s.setReg LCS_BIST_PAT (BitVec.ofNat 32 patterns)).setReg64 LCS_BIST_SIG_LO LCS_BIST_SIG_HI sig.toNat
  if b.cut ∨ patterns < b.total then
    let s := (s.setFld LCS_BIST_STAT.CODE Code.incomplete).bistBack b (s.bistFailed b)
    if b.kind = 4 then s.sealResume else s
  else if sig = Config.bistSignature b.kind (b.total / 65536) then
    let s := ((s.setFld LCS_BIST_STAT.CODE Code.ok).setHealth b.health false).bistBack b false
    if b.kind = 4 then { s.setFlag ME_STAT.SHADOW true with me := { s.me with shadowed := 0 } } else s
  else ((s.setFld LCS_BIST_STAT.CODE Code.signatureMismatch).setHealth b.health true).bistOut b

/-- BIST_REQUEST (R497): a write of LCS_BIST_CMD with GO = 1. -/
def execBistRequest (v : Word) (s : State) : Out := s.cpDoes fun s => if LCS_BIST_CMD.GO.of v = 1 then s.bistCmdWrite v else s

/-- BIST_ABORT (R500): a write of LCS_BIST_CMD with ABORT = 1. -/
def execBistAbort (v : Word) (s : State) : Out := s.cpDoes fun s => if LCS_BIST_CMD.ABORT.of v = 1 then s.bistCmdWrite v else s

/-- BIST_RUN_START (R502 to R505): the target is free of work, the run starts. -/
def execBistRunStart (s : State) : Out :=
  State.out <|
    match s.lcs.bist with
    | none => s
    | some b =>
      if b.running || b.cut || !s.bistFree b then s
      else
        let s := s.setLcs { s.lcs with bist := some { b with running := true } }
        match b.kind with
        | 1 => s.setFld LE_STAT.CELL_EN (putBit (s.fld LE_STAT.CELL_EN) b.index false)
        | 3 => s.setCh b.index { s.ch b.index with testWait := false, testing := some s.le.tick }
        | 4 => s.setFlag ME_STAT.BIST true
        | _ => s

/-- BIST_RUN_END (R499, R500): a run that was cut short ends with fewer patterns than its COUNT asks for. -/
def execBistRunEnd (patterns : Nat) (sig : BitVec 64) (s : State) : Out :=
  State.out <|
    match s.lcs.bist with
    | none => s
    | some b =>
      if b.total < patterns || (!b.running && patterns != 0) || (patterns != b.total && !b.cut) then s
      else s.bistEnd b patterns sig

/-- BIST_ENTRY_TIMEOUT (R504): transmit entries that have waited 4 ms on a self-test complete. -/
def execBistEntryTimeout (s : State) : Out := State.out <| forN (fun c s => s.busTestTick c) 8 s

/-- VBAT_MEASUREMENT (R509): VBAT measured in mV while the main rails are good, and the VBAT cause of R507. -/
def execVbatMeasurement (mv : Nat) (s : State) : Out :=
  State.out <|
    if !s.pwr.on || s.pwr.stall then s
    else
      let s := s.setFld LCS_VBAT.MV (min 0xFFFF mv)
      let low := if mv < 2300 then s.lcs.vbatLow + 1 else 0
      let high := if 2500 ≤ mv then s.lcs.vbatHigh + 1 else 0
      let s := s.setLcs { s.lcs with vbatLow := min 2 low, vbatHigh := min 2 high }
      if 2 ≤ low then s.setCause 1 true else if 2 ≤ high then s.setCause 1 false else s

end Sys2Proof.Machine
end

