-- ==== Sys2Proof/Machine/Resets.lean ====
section
/-! DEFINITION. The resets and what survives them (R18 to R24). -/

namespace Sys2Proof.Machine

/-- Registers that a SYSRST keeps: those of PWR and AON, SYS_RST_CAUSE, the tamper record, and what comes from fuses or the
boot ROM (R20, R23, R62, R400, R489). (DESIGN CHOICE, log entry 2) -/
def keptBySysrst (a : Nat) : Bool :=
  (decide (0x40010000 ≤ a) && decide (a < 0x40030000)) || a == SYS_RST_CAUSE || a == VLT_TAMP || a == VLT_TAMP_TICK0
    || a == VLT_TAMP_TICK1 || a == VLT_DEVID_LO || a == VLT_DEVID_HI || a == VLT_ROM_VER

/-- Registers that a POR keeps (R20): the supervisor's are reset unless it has granted the first lease already (R45). -/
def keptByPor (lease : Bool) (a : Nat) : Bool :=
  (decide (0x40020000 ≤ a) && decide (a < 0x40030000)) || (lease && decide (0x40010000 ≤ a) && decide (a < 0x40020000))
    || a == VLT_TAMP || a == VLT_TAMP_TICK0 || a == VLT_TAMP_TICK1 || a == VLT_DEVID_LO || a == VLT_DEVID_HI || a == VLT_ROM_VER

/-- The PM array, the one memory that every reset keeps (R20). -/
def inPm (a : Nat) : Bool := decide (0x38000000 ≤ a) && decide (a < 0x38080000)

/-- The increments a spread counter roll in progress had made when a cut fell (R88, R484). -/
def State.rollCut (s : State) (k n target : Nat) : State := forN (fun _ s => s.scIncrement k) (min n (target - s.scValue k)) s

/-- What was in progress stops where a power cut or a SYSRST finds it (R22, R308, R327, R444, R470, R491).
(DESIGN CHOICE, log entry 15) -/
def State.cutWork (s : State) (c : CutPoint) : State :=
  let s := if s.flag SYS_PAL_STAT.ROLL_BUSY then s.rollCut 0 c.roll (s.reg SYS_PAL_VER).toNat else s
  let s := if s.flag VLT_STAT.FW_ROLL_BUSY then s.rollCut 4 c.roll (s.reg VLT_FW_VER).toNat else s
  let s := if s.lcs.op.isSome && !s.resetSaving then (s.fuseSteps.take c.fuse).foldl State.fuseStep s else s
  ((((s.saveCut c.save).sealCut c.sealing).pmCut c.pm).vltCut c.vault).reportWords c.report

/-- The times of the causes as the health record holds them (R508); a word with an uncorrectable error holds none (R438).
(DESIGN CHOICE, log entry 10) -/
def State.causeTicksShow (s : State) : State :=
  forN (fun b s =>
    let at_ := 0x2800 + 8 * (1 + b)
    s.setReg64 (LCS_CAUSE_TICK_LO b) (LCS_CAUSE_TICK_HI b) (if s.pmBad at_ then 0 else s.pmWord at_ % 2 ^ 48)) 10 s

/-- Every part of the main rails but the supervisor returns to its reset state; what is not named is reset (R20); the steward
begins as `boot` says. -/
def State.resetParts (s : State) (keep : Nat → Bool) (boot : BootSt) : State :=
  let r : State := {
    boot := boot
    regs := sparseClear (fun a => !keep a) s.regs
    mem := sparseClear (fun a => !inPm a) s.mem
    ecc := s.ecc
    flash := s.flash
    readback := s.readback
    free := s.free
    rst := { vaultUp := s.rst.vaultUp }
    pwr := s.pwr
    aon := s.aon
    ana := { dio := (List.range 32).map fun i => nth s.ana.dio i false && !nth s.ana.dioOut i false }
    vlt := { sram := s.vlt.sram, root := s.vlt.root }
    lcs := { fuses := s.lcs.fuses, owner := s.lcs.owner, staged := s.lcs.owner }
    pending := s.pending }
  let r := r.lcsShow.causeTicksShow.scShowAll.ledgerShow
  ((r.setFlag VLT_STAT.DBGSEEN r.debugOpen).setFlag VLT_STAT.CERT (r.certLen != 0)).expireSlots.vltShow

/-- A SYSRST takes effect (R20, R22). -/
def State.sysrst (s : State) (c : CutPoint) : State :=
  let s := s.cutWork c
  let lost := s.fld SYS_CLK_STAT.HFXO_LOST
  let count := s.fld SYS_CP_STAT.LOCKSTEP
  let seen := s.fld SYS_CP_STAT.LS_SEEN
  let published := s.rnd.published
  let s := s.resetParts keptBySysrst { step := 1 }
  let s : State := { s with rnd := { s.rnd with published := published } }
  ((s.setFld SYS_CLK_STAT.HFXO_LOST lost).setFld SYS_CP_STAT.LOCKSTEP count).setFld SYS_CP_STAT.LS_SEEN seen

/-- The supervisor as it stands when `feed` has brought the rails up (R20, R45). -/
def State.firstLease (s : State) (feed : Nat) : State :=
  let s : State := { s with pwr := { on := true, good := putAt [0, 0] feed 100, closed := putAt [false, false] feed true
                                     conv := feed, holder := some feed, lease := 4, reg := true, rails := true } }
  let s := (s.setFlag PWR_STAT.TOKEN true).setFld PWR_STAT.HOLDER feed
  if feed = 0 then s.setFlag PWR_STAT.A_ELIG true else s.setFlag PWR_STAT.B_ELIG true

/-- Rails good: a POR, after a cut of what was in progress if the rails were up before (R20, R23, R45). -/
def State.por (s : State) (feed : Nat) (c : CutPoint) : State :=
  let lease := s.flag PWR_STAT.TOKEN && !s.pwr.on
  let s := s.cutWork c
  let up := s.rst.vaultUp
  let s := s.resetParts (keptByPor lease) { step := 1 }
  let s : State := { s with rst := {}, aon := { s.aon with onVbat := false } }
  let s := s.setFlag SYS_RST_CAUSE.VAULTUP up
  if lease then { s with pwr := { s.pwr with on := true, reg := true, rails := true, age := [0, 0], held := [false, false] } } else s.firstLease feed

/-- A CPRST takes effect (R8, R20, R115, R372, R446, R451, R513): the data path runs on. -/
def State.cprst (s : State) : State :=
  let s := s.resetRegs fun a => (decide (0x40130000 ≤ a) && decide (a < 0x40150000)) || a == SYS_LIVE_CTL
  let s := s.clearMem fun a => decide (0x20000000 ≤ a) && decide (a < 0x20300000)
  let s := (s.holdDrop.setReg SYS_LIVE_STAT 0).sessionClose.pmCprst
  let s := { s with live := { s.live with commit := none } }
  let s := s.setFld SYS_WDT_STAT.REMAIN (max 1 (s.fld SYS_WDT_CFG.TIMEOUT))
  let s := ({ s with rst := { s.rst with cp := false }, cp := {} } : State).fwFirst
  let s := { s with vlt := { s.vlt with dropSram := s.vlt.cmd.isSome } }
  ({ s with cp := { s.cp with cprst := s.boot.fwSlot.isSome } } : State).timerLevel

/-- VAULT_UP (R19): V_AON rises after the AON state was lost. -/
def execVaultUp (s : State) : Out :=
  State.out <|
    if !s.aon.lost then s
    else
      let s := s.resetRegs fun a => (decide (0x40020000 ≤ a) && decide (a < 0x40030000)) || a == VLT_TAMP || a == VLT_TAMP_TICK0
        || a == VLT_TAMP_TICK1
      let s := s.setAon { locked := s.aon.locked, onVbat := s.aon.onVbat }
      let s := s.setVlt { s.vlt with sram := [], root := false }
      { s.vltShow with rst := { s.rst with vaultUp := true } }

/-- AON_STATE_LOST (R19): V_AON falls below 1.70 V; it can while the main rails are absent. -/
def execAonStateLost (s : State) : Out :=
  State.out <|
    if !s.aon.onVbat then s
    else
      let s := s.setAon { s.aon with lost := true, count := 0, high := 0, load := none, aged := false, shift := none, clrhi := false }
      s.setVlt { s.vlt with sram := [], root := false }

/-- POR (R20): the main rails become good, brought up by `feed`; `cut` is where a failure of the rails found the work. -/
def execPor (feed : Fin 2) (cut : CutPoint) (s : State) : Out := State.out <| s.por feed cut

/-- RESTART's response has still to go out, within the 10 ms that R369 leaves it. -/
def State.answering (s : State) : Bool :=
  s.rst.answer.any fun a => (s.net.sent.any fun m => m.no == a.1) && decide (s.le.tick < a.2 + 1000)

/-- SYSRST (R22): a SYSRST that was asked for takes effect, after the RESET save where one runs and the response of RESTART
(R369),
or at once where the HFXO is lost (R67). (DEDUCED, log entry 51) -/
def execSysrst (cut : CutPoint) (s : State) : Out :=
  State.out <| if s.rst.sys && (s.rst.now || !(s.resetSaving || s.answering)) then s.sysrst cut else s

/-- CPRST (R20): a CPRST that was asked for takes effect. (DEDUCED, log entry 51) -/
def execCprst (s : State) : Out := State.out <| if s.rst.cp && !s.rst.sys then s.cprst else s

/-- RST_N (R532): the pin is held low for at least 1 µs. -/
def execRstN (s : State) : Out := State.out <| s.askSysrst 2 true

/-- A write of SYS_RST_REQ (R24). -/
def State.rstReqWrite (s : State) (v : Word) : State :=
  if SYS_RST_REQ.KEY.of v ≠ 0xC0DE then s
  else if SYS_RST_REQ.KIND.of v = 1 then s.askCprst 5
  else if SYS_RST_REQ.KIND.of v = 2 then s.askSysrst 4 true
  else s

/-- CPRST_REQUEST (R24): a write of SYS_RST_REQ with KIND 1. -/
def execCprstRequest (v : Word) (s : State) : Out := s.cpDoes fun s => if SYS_RST_REQ.KIND.of v = 1 then s.rstReqWrite v else s

/-- SYSRST_REQUEST (R24): a write of SYS_RST_REQ with KIND 2. -/
def execSysrstRequest (v : Word) (s : State) : Out := s.cpDoes fun s => if SYS_RST_REQ.KIND.of v = 2 then s.rstReqWrite v else s

end Sys2Proof.Machine
end

