-- ==== Sys2Proof/Machine/Cp.lean ====
section
/-! DEFINITION. The control processor's surroundings: access faults and the vault firewall, the interrupt controller, the
machine timer, the watchdog (R104 to R116). -/

namespace Sys2Proof.Machine

/-- LOCKSTEP_MISMATCH (R105): a CPRST follows, and nothing the CP does until then has an effect outside it. -/
def execLockstepMismatch (s : State) : Out :=
  State.out <|
    let s := ((s.countUp SYS_CP_STAT.LOCKSTEP).setFlag SYS_CP_STAT.LS_SEEN true).askCprst 9
    s.setCp { s.cp with mismatch := true }

/-- MACHINE_TIMER (R106). -/
def execMachineTimer (s : State) : Out := State.out s.timerLevel

/-- The hart's mode and PMP entries as an access of it shows them (R104); a debugger's shows none. -/
def State.hartAs (s : State) (x : CpAccess) : State :=
  if x.who = .debug then s else s.setCp { s.cp with machine := x.who == .machine, pmp := pmpMerge s.cp.pmp x.pmp }

/-- ACCESS_FAULT (R104, R108, R110, R111): an access of a hart, or of the debugger, whose accesses go on after a lockstep mismatch
(R105). -/
def execAccessFault (x : CpAccess) (ue : Bool) (s : State) : Out :=
  State.out <|
    if s.inSleep || (s.cp.mismatch && x.who != .debug) then s
    else
      let s := s.hartAs x
      if s.accessFaults x ue || s.pmpDenies x then s.takeFault x else s

/-- SRAM_ECC_CORRECTION (R109). -/
def execSramEccCorrection (s : State) : Out := State.out <| s.countUp SYS_CP_STAT.CE_COUNT

/-- SYS_FW_STAT.CLEAR (R111). -/
def State.fwStatWrite (s : State) (v : Word) : State := if SYS_FW_STAT.CLEAR.of v = 1 then s.setReg SYS_FW_STAT 0 else s

/-- SYS_FW_STAT_CLEAR (R111). -/
def execSysFwStatClear (v : Word) (s : State) : Out := s.cpDoes fun s => s.fwStatWrite v

/-- The source a claim returns among those below `n`: of highest priority above the threshold, the lowest number of equals, with
its priority (R112). -/
def State.claimBest (s : State) : Nat → Option (Nat × Nat)
  | 0 => none
  | n + 1 =>
    let b := s.claimBest n
    let p := s.fld (INTC_PRIO.PRIO n)
    if s.intPending n && bit (s.reg (INTC_EN (n / 32))).toNat (n % 32) && decide (s.fld INTC_THRESH.THRESH < p)
        && b.all (fun x => decide (x.2 < p)) then some (n, p) else b

/-- A claim (R112, R114): the source claimed, 0 with none, is the value read. -/
def State.claim (s : State) : State :=
  match s.claimBest 97 with
  | none => { s with readback := 0 }
  | some (n, _) =>
    let s := s.setBit (INTC_PEND.BITS (n / 32)) (n % 32) false
    { s.setCp { s.cp with claimed := n :: s.cp.claimed } with readback := BitVec.ofNat 32 n }

/-- INTC_CLAIM (R112): a read of INTC_CLAIM. -/
def execIntcClaim (s : State) : Out := s.cpDoes State.claim

/-- A write of INTC_CLAIM (R112). -/
def State.completionWrite (s : State) (v : Word) : State :=
  let n := INTC_CLAIM.ID.of v
  if bit (s.reg (INTC_EN (n / 32))).toNat (n % 32) then
    s.setCp { s.cp with claimed := s.cp.claimed.filter (· != n) }
  else s

/-- INTC_COMPLETION (R112). -/
def execIntcCompletion (v : Word) (s : State) : Out := s.cpDoes fun s => s.completionWrite v

/-- The watchdog reloads (R115). -/
def State.wdtReload (s : State) : State :=
  (s.setFld SYS_WDT_STAT.REMAIN (max 1 (s.fld SYS_WDT_CFG.TIMEOUT))).setCp { s.cp with wdtSub := 0 }

/-- A write of SYS_WDT_KICK (R115). -/
def State.wdtKickWrite (s : State) (v : Word) : State :=
  if SYS_WDT_KICK.KEY.of v = 0x6B1C then s.wdtReload.setFlag SYS_WDT_STAT.STAGE false else s

/-- SYS_WDT_KICK (R115). -/
def execSysWdtKick (v : Word) (s : State) : Out := s.cpDoes fun s => s.wdtKickWrite v

/-- WDT_PREWARNING (R115). (DESIGN CHOICE, log entry 70) -/
def execWdtPrewarning (s : State) : Out :=
  State.out <|
    if s.flag SYS_WDT_CFG.EN && decide (2 * s.fld SYS_WDT_STAT.REMAIN ≤ max 1 (s.fld SYS_WDT_CFG.TIMEOUT)) then
      s.setFlag SYS_WDT_STAT.PREWARN true
    else s

/-- The watchdog has expired. -/
def State.wdtExpired (s : State) : Bool := s.flag SYS_WDT_CFG.EN && s.fld SYS_WDT_STAT.REMAIN == 0

/-- WDT_FIRST_EXPIRY (R115): a CPRST, after which the steward verifies the firmware slot not preferred first. -/
def execWdtFirstExpiry (s : State) : Out :=
  State.out <|
    if s.wdtExpired && s.flag SYS_WDT_CFG.ESCALATE && !s.flag SYS_WDT_STAT.STAGE then
      let s := ((s.setFlag SYS_WDT_STAT.STAGE true).setFlag SYS_WDT_STAT.CPRST_FIRED true).wdtReload
      ({ s with boot := { s.boot with fallback := true } } : State).askCprst 10
    else s

/-- WDT_SECOND_EXPIRY (R115). -/
def execWdtSecondExpiry (s : State) : Out :=
  State.out <|
    if s.wdtExpired && (s.flag SYS_WDT_STAT.STAGE || !s.flag SYS_WDT_CFG.ESCALATE) then s.askSysrst 3 true else s

/-- DEBUG_HALT (R115): the debugger halts the hart or lets it run. -/
def execDebugHalt (halt : Bool) (s : State) : Out := State.out <| s.setCp { s.cp with halted := halt }

/-- DIO_EDGE (R79, R113, R142): the level of an input changes; source 75 requests, and a selected input ends SLEEP.
(DESIGN CHOICE, log entry 39) -/
def execDioEdge (dio : Fin 32) (level : Bool) (s : State) : Out :=
  State.out <|
    if nth s.ana.dioOut dio false || nth s.ana.dio dio false == level then s
    else
      let s := s.dioSet dio level
      let s := if s.flag SYS_SLEEP_CFG.DIO && bit (s.reg SYS_WAKE_DIO).toNat dio then s.wakeBy 3 else s
      s.setCp { s.cp with dioReq := true }

end Sys2Proof.Machine
end

