-- ==== Sys2Proof/Machine/Eth.lean ====
section
/-! DEFINITION. The backbone ports (R364 to R366) and the reference messages (R379 to R386). -/

namespace Sys2Proof.Machine

/-- The MAC address of port `k` of a node: 02:48:51:0k:hh:ll (R364). -/
def macOf (k node : Nat) : List Byte := [0x02, 0x48, 0x51, BitVec.ofNat 8 k] ++ toBytesBE 2 node
/-- The link-local address under modified EUI-64 (R364; RFC 4291). -/
def linkLocalOf (k node : Nat) : List Byte :=
  let m := macOf k node
  [0xFE, 0x80, 0, 0, 0, 0, 0, 0] ++ [nth m 0 0 ^^^ 2] ++ (m.drop 1).take 2 ++ [0xFF, 0xFE] ++ m.drop 3
/-- The MAC address of port `k`. -/
def State.macAddr (s : State) (k : Nat) : List Byte := macOf k s.nodeId
/-- The link-local address of port `k`. -/
def State.linkLocal (s : State) (k : Nat) : List Byte := linkLocalOf k s.nodeId
/-- The global address of port `k`, most significant word first (R374). -/
def State.globalAddr (s : State) (k : Nat) : List Byte :=
  (List.range 4).flatMap fun i => toBytesBE 4 (s.reg (ETH_GADDR k i)).toNat
/-- An address of port `k`; all zeros in ETH_GADDR is none. -/
def State.ownAddr (s : State) (k : Nat) (a : List Byte) : Bool :=
  a == s.linkLocal k || (a == s.globalAddr k && a.any (· != 0))

/-- The one's complement sum of big-endian 16-bit words. -/
def sum16 : List Byte → Nat
  | a :: b :: t => let r := 256 * a.toNat + b.toNat + sum16 t; r % 65536 + r / 65536
  | [a] => 256 * a.toNat
  | [] => 0

/-- The sum over the IPv6 pseudo header and the payload (RFC 8200). -/
def sum6 (src dst : List Byte) (next : Nat) (p : List Byte) : Nat :=
  sum16 (src ++ dst ++ toBytesBE 4 p.length ++ toBytesBE 4 next ++ p)

/-- The payload with its checksum, whose two bytes at `off` are 0, filled in. -/
def withSum (src dst : List Byte) (next off : Nat) (p : List Byte) : List Byte :=
  p.take off ++ toBytesBE 2 (65535 - sum6 src dst next p) ++ p.drop (off + 2)

/-- `n` bytes of a list from `i`. -/
def slice (l : List Byte) (i n : Nat) : List Byte := (l.drop i).take n

/-- The MAC filter of a port: its own address, or a multicast address. (DESIGN CHOICE, log entry 44) -/
def State.macMine (s : State) (k : Nat) (f : List Byte) : Bool :=
  f.take 6 == s.macAddr k || bit (nth f 0 0).toNat 0

/-- An IPv6 frame to `dst` with an ICMPv6 payload, in answer to frame `f` of port `k`. -/
def State.icmpFrame (s : State) (k : Nat) (f src dst p : List Byte) : List Byte :=
  slice f 6 6 ++ s.macAddr k ++ [0x86, 0xDD, 0x60, 0, 0, 0] ++ toBytesBE 2 p.length ++ [58, 255] ++ src ++ dst
    ++ withSum src dst 58 2 p

/-- The answer of a port to an ICMPv6 message for its own addresses: a neighbour advertisement or an echo reply (R364;
RFC 4861, RFC 4443). (PRESUMED, log entry 12) -/
def State.icmpAnswer (s : State) (k : Nat) (f : List Byte) : Option (List Byte) :=
  let src := slice f 22 16
  let dst := slice f 38 16
  let p := (f.drop 54).take (ofBytesBE (slice f 18 2))
  let target := slice p 8 16
  if sum6 src dst 58 p ≠ 65535 then none
  else if nth p 0 0 = 135 ∧ nth f 21 0 = 255 ∧ s.ownAddr k target then
    let na (flags : Byte) := [136, 0, 0, 0, flags, 0, 0, 0] ++ target ++ [2, 1] ++ s.macAddr k
    if src.all (· == 0) then some (s.icmpFrame k f target ([0xFF, 2, 0, 0, 0, 0, 0, 0, 0, 0, 0, 0, 0, 0, 0, 1]) (na 0x20))
    else some (s.icmpFrame k f target src (na 0x60))
  else if nth p 0 0 = 128 ∧ s.ownAddr k dst then some (s.icmpFrame k f dst src ([129, 0, 0, 0] ++ p.drop 4))
  else none

/-- A port sends a frame, from destination address to end of payload; it adds the FCS (R388; the CRC-32 of R358). -/
def State.ethOut (s : State) (c : Nat) (l : List Byte) : State := s.setCh c { s.ch c with out := l ++ toBytes 4 (crc32 l) }

/-- ff02::1. -/
def allNodes : List Byte := [0xFF, 2, 0, 0, 0, 0, 0, 0, 0, 0, 0, 0, 0, 0, 0, 1]

/-- The address of port `k` that datagrams to `dst` come from: the global one where there is one and `dst` is neither multicast
nor link-local. (DESIGN CHOICE, log entry 44) -/
def State.srcAddr (s : State) (k : Nat) (dst : List Byte) : List Byte :=
  let g := s.globalAddr k
  if nth dst 0 0 = 0xFF ∨ (nth dst 0 0 = 0xFE ∧ (nth dst 1 0).toNat / 64 = 2) ∨ g.all (· == 0) then s.linkLocal k else g

/-- The MAC address that a datagram to `dst` goes to: the group's (RFC 2464), or the one its neighbour has.
(DESIGN CHOICE, log entry 44) -/
def dstMac (k : Nat) (dst : List Byte) : List Byte :=
  if nth dst 0 0 = 0xFF then [0x33, 0x33] ++ dst.drop 12 else toBytesBE 6 (Config.neighbourMac k dst).toNat

/-- A UDP datagram as an Ethernet frame (RFC 8200, RFC 768): MAC addresses, IPv6 addresses, UDP ports as two bytes each.
(DESIGN CHOICE, log entry 44) -/
def udpFrame (dmac smac src dst sport dport payload : List Byte) : List Byte :=
  let p := sport ++ dport ++ toBytesBE 2 (8 + payload.length) ++ [0, 0] ++ payload
  let sum := 65535 - sum6 src dst 17 p
  dmac ++ smac ++ [0x86, 0xDD, 0x60, 0, 0, 0] ++ toBytesBE 2 p.length ++ [17, Config.hopLimit] ++ src ++ dst
    ++ p.take 6 ++ toBytesBE 2 (if sum = 0 then 65535 else sum) ++ payload

/-- The bytes of ETH_UDP.PORT. -/
def State.udpPort (s : State) (k : Nat) : List Byte := toBytesBE 2 (s.fld (ETH_UDP.PORT k))

/-- A datagram sent to the address and UDP port of `dest`, to ff02::1 and ETH_UDP.PORT with none (R364, R365). -/
def State.sendUdp (s : State) (k : Nat) (dest payload : List Byte) : State :=
  let dst := if dest.isEmpty then allNodes else dest.take 16
  s.ethOut (8 + k)
    (udpFrame (dstMac k dst) (s.macAddr k) (s.srcAddr k dst) dst (s.udpPort k) (if dest.isEmpty then s.udpPort k else dest.drop 16) payload)

/-- A port may send: up, not silent, running. (DESIGN CHOICE, log entry 44) -/
def State.ethMaySend (s : State) (k : Nat) : Bool :=
  s.busRuns (8 + k) && s.flag (ETH_STAT.UP k) && !s.flag (ETH_CTL.SILENT k)

/-- A frame put into the raw queue (R374); the SFD stamp of a PTP frame is corrected (R388).
(DESIGN CHOICE, log entry 44) -/
def State.ethRaw (s : State) (k : Nat) (f : List Byte) (sof : Int) : State :=
  let ts := s.busStamp sof
  let ptp := slice f 20 1 == [17] && (ofBytesBE (slice f 56 2) == 319 || ofBytesBE (slice f 56 2) == 320)
  let lat := s.fld (ETH_PTP_LAT.RX k) * 2 ^ 24 / 10 ^ 9
  s.rxPost (8 + k) 1536 (f.length % 2 ^ 11) 0 (ts.1, if ptp ∧ ts.1 then ts.2 - lat else ts.2) f

/-- The frames of a segment given to the reassembler (R365): at most 24. (DESIGN CHOICE, log entry 44) -/
def State.segmentFrames (s : State) (c id ts : Nat) (hdr : List Byte) : Nat → List Byte → State
  | 0, _ => s
  | n + 1, l =>
    if l.isEmpty then s
    else (s.carFrame c id ts (hdr ++ l.take 60)).segmentFrames c (id + 1) ts hdr n (l.drop 60)

/-- A message of one frame (R365): the identifier with SEQ 0, then its data. -/
def singleSegment (id : Nat) (data : List Byte) : List Byte := toBytes 4 (id - id % 128) ++ data

/-- The next datagram of a caravan of which `done` frames have left, of `id`, header and body (R365). -/
def caravanSegment (id done header : Nat) (body : List Byte) : List Byte :=
  toBytes 4 (id + done + 1) ++ toBytes 4 header ++ (body.drop (60 * done)).take 1440

/-- The next datagram of an entry (R365). -/
def State.entrySegment (s : State) (k e : Nat) : State :=
  let c := 8 + k
  let base := s.fld (ETH_TX_BASE.ADDR k) + 80 * e
  let id := bits (s.txWord c e 0) 28 0
  if s.priceBarred id then s.priceRefuse c e
  else if s.txCaravan c e then
    let q := nth (s.ch c).sent e 0
    let n := min 24 (s.txCount c e - q)
    let s := s.sendUdp k (s.txDst c e) (caravanSegment id q (s.txHeader c e) (s.txBody c e))
    let s := s.setCh c { s.ch c with sent := putAt (s.ch c).sent e (q + n) }
    if s.txCount c e ≤ q + n then s.txDone c e Code.ok 0 else s
  else
    let w1 := s.txWord c e 1
    let s := s.sendUdp k [] (singleSegment id (s.rdBytes (base + 16) (dlcLen (bit w1 4) (w1 % 16))))
    (s.setCh c { s.ch c with sent := putAt (s.ch c).sent e 1 }).txDone c e Code.ok 0

/-- The next datagram of a message that waits (R365, R367). -/
def State.msgSegment (s : State) (k : Nat) (m : NetMsg) : State :=
  if s.priceBarred m.id then s.msgRefuse m.no
  else if m.single then (s.sendUdp k m.dst (singleSegment m.id m.record)).msgSent m.no 1
  else (s.sendUdp k m.dst (caravanSegment m.id m.done m.header m.body)).msgSent m.no 24

/-- The transmit opportunity of a port: PTP frames go first, then a reference message, a power-fail notice, what has the lowest
identifier among entries and messages (R347, R365, R379, R388). -/
def State.segmentSend (s : State) (k : Nat) : State :=
  let c := 8 + k
  let b := s.ch c
  match (if s.inHoldup then none else nth s.net.ptp k none), (if s.inHoldup then none else b.ref), b.pfail with
  | some (a, n), _, _ => ({ s with net := { s.net with ptp := putAt s.net.ptp k none } }).ethOut c (s.rdBytes a n)
  | none, some d, _ => (s.setCh c { b with ref := none }).sendUdp k [] (singleSegment (s.hwId 0 1) d)
  | none, none, some d => (s.setCh c { b with pfail := none }).sendUdp k [] (singleSegment (s.hwId 0 3) d)
  | none, none, none =>
    if s.inHoldup then s
    else
      match lowestId ((((List.range 16).filter (s.txPending c)).map fun e => (s.txId c e, BusSrc.entry e)) ++ s.msgsOf c) with
      | some (_, .entry e) => s.entrySegment k e
      | some (_, .msg no) =>
        match s.msgAt no with
        | some m => s.msgSegment k m
        | none => s
      | _ => s

/-- The last backbone REF of an acting master within three periods (R386). (DESIGN CHOICE, log entry 38) -/
def State.masterRef (s : State) : Option (Nat × Nat × Nat × Nat) :=
  s.net.backRef.filter fun r => decide (s.le.tick < r.2.2.2 + 3 * s.refTicks)

/-- A grant word that names nobody: VALID is 0 (R286). -/
def grantSilent (g : Nat) : Nat := g - (g / 2 ^ 16 % 2) * 2 ^ 16

/-- The grant word a head puts into its REF frames (R286, R386): the last one received from an acting master, with VALID 0 once
that is three periods old; one that never received any sends its own with VALID 0. (DESIGN CHOICE, log entry 38) -/
def State.grantOut (s : State) : Nat :=
  if s.flag SYS_NT_STAT.TM then s.net.grant
  else match s.masterRef with
    | some r => r.2.2.1
    | none => grantSilent (s.net.backRef.elim s.net.grant (·.2.2.1))

/-- Node and rank of the acting time master, as this head knows it. -/
def State.masterId (s : State) : Nat × Nat :=
  if s.flag SYS_NT_STAT.TM then (s.nodeId, s.fld SYS_RND_CFG2.RANK)
  else match s.net.backRef with
    | some r => (r.1, r.2.1)
    | none => (0, 0)

/-- The data of a REF on a channel or port (R380); a channel fills PREV_NT in as the frame starts. -/
def State.refData (s : State) (c : Nat) : List Byte :=
  let b := s.ch c
  toBytes 4 (1 + 2 ^ 8 * s.fld SYS_NT_STAT.VALID + 2 ^ 9 * b2n (nth s.net.stepped c false) + 2 ^ 10 * s.fld SYS_NT_STAT.TM
      + 2 ^ 16 * b.refSeq)
    ++ toBytes 4 s.grantOut ++ toBytes 8 0
    ++ toBytes 4 (s.fld SYS_NT_REF.PERIOD + 2 ^ 16 * s.masterId.2 + 2 ^ 19 * s.masterId.1) ++ toBytes 4 0

/-- A REF queued on a channel or port (R379). -/
def State.refQueue (s : State) (c : Nat) : State :=
  let d := s.refData c
  let b := s.ch c
  let s := s.setCh c { b with ref := some d, refSeq := (b.refSeq + 1) % 65536, refAt := s.le.tick }
  { s with net := { s.net with stepped := putAt s.net.stepped c false } }

/-- A reference-message instant at a head (R379, R384 to R386); in HOLDUP it sends nothing. (DEDUCED, log entry 60) -/
def State.refInstant (s : State) : State :=
  let s : State := { s with net := { s.net with inst := s.net.inst + 1, instAt := some s.le.tick } }
  let s := s.tmActing.tmQuorum
  if s.inHoldup then s else
  let s := if s.flag SYS_NT_STAT.TM then s.grantDecide else s
  -- a REF that an acting master sends is one its own node receives: it copies its own grant word (log entry 38)
  let s := if s.flag SYS_NT_STAT.TM then s.grantCopy s.net.grant else s
  let s := forN (fun c s => if bit (s.fld SYS_NT_REF.CHAN) c ∧ s.busRuns c then s.refQueue c else s) 8 s
  if s.flag SYS_NT_STAT.TM then
    forN (fun k s => if s.busRuns (8 + k) ∧ s.flag (ETH_STAT.UP k) then s.refQueue (8 + k) else s) 2 s
  else s

/-- A REF received on a channel or port: its grant word is copied; on the time source's channel it may yield an offset; from
the backbone with TM = 1 it names the acting master (R287, R381, R385, R386). -/
def State.refReceive (s : State) (c node : Nat) (d : List Byte) (sof : Int) : State :=
  let w := ofBytes (d.take 4)
  let g := recWord d 4
  let prev := ofBytes (slice d 8 8)
  let p := recWord d 16
  let tl := s.ntAt sof
  let s := s.grantCopy g
  if 8 ≤ c then
    let s := { s with net := { s.net with backSeen := some s.le.tick } }
    if !bit w 10 then s
    else
      let s := { s with net := { s.net with backRef := some (p / 2 ^ 19, p / 2 ^ 16 % 8, g, s.le.tick) } }
      if s.flag SYS_NT_STAT.TM ∧ p / 2 ^ 16 % 8 < s.fld SYS_RND_CFG2.RANK then s.tmStop else s
  else if s.fld SYS_NT_CFG.SRC = c + 1 then s.refPair node (w / 2 ^ 16) (bit w 8) prev tl
  else s

/-- A single-frame REF among the datagrams of a port: its sender and data (R379, R380). -/
def refOf (d : List Byte) : Option (Nat × List Byte) :=
  let id := ofBytes (d.take 4) % 2 ^ 29
  if id / 2 ^ 20 % 64 = 1 ∧ id % 128 = 0 ∧ d.length = 28 ∧ nth d 4 0 = 1 then some (id / 2 ^ 7 % 2 ^ 13, d.drop 4) else none

/-- A frame arrives on port `k` (R364, R365); it answers where it may send and HOLDUP does not hold it (R352).
(DESIGN CHOICE, log entry 44) -/
def State.ethFrame (s : State) (k : Nat) (f : List Byte) (sof : Int) : State :=
  let c := 8 + k
  let src := slice f 22 16
  let dst := slice f 38 16
  let p := (f.drop 54).take (ofBytesBE (slice f 18 2))
  let d := (f.drop 62).take (ofBytesBE (slice f 18 2) - 8)
  if !s.macMine k f then s
  else if slice f 12 2 ≠ [0x86, 0xDD] ∨ (nth f 14 0).toNat / 16 ≠ 6 then s.ethRaw k f sof
  else if nth f 20 0 = 58 ∧ (nth p 0 0 = 135 ∨ nth p 0 0 = 128) then
    match s.icmpAnswer k f with
    | some a => if s.ethMaySend k && !s.inHoldup then s.ethOut c a else s
    | none => s.ethRaw k f sof
  else if nth f 20 0 = 17 ∧ (slice p 6 2 = [0, 0] ∨ sum6 src dst 17 p ≠ 65535) then s.countUp (ETH_STAT.CSUM k)
  else if nth f 20 0 = 17 ∧ ofBytesBE (slice p 2 2) = s.fld (ETH_UDP.PORT k) ∧ s.flag (ETH_CTL.RASM k)
      ∧ 9 ≤ d.length ∧ ofBytes (d.take 4) % 128 ≠ 0 then
    let s := s.setCh c { s.ch c with rxno := ((s.ch c).rxno + 1) % 65536, src := src ++ slice p 0 2 }
    s.segmentFrames c (ofBytes (d.take 4) % 2 ^ 29) ((s.busStamp sof).2 % 2 ^ 32) (slice d 4 4) 24 (d.drop 8)
  else
    let s := s.ethRaw k f sof
    if nth f 20 0 = 17 ∧ ofBytesBE (slice p 2 2) = s.fld (ETH_UDP.PORT k) then
      match refOf d with
      | some (node, r) => s.refReceive c node r sof
      | none => s
    else s

/-- A frame received on a CAN channel (R341); a REF among them is a reference message too (R379 to R381). -/
def State.canFrame (s : State) (c : Nat) (f : CanFrame) (sof : Int) : State :=
  let s := (s.canReceive c f sof).recDown c
  let d := frameBytes f
  if f.xtd ∧ f.fdf ∧ f.id.toNat / 2 ^ 20 % 64 = 1 ∧ f.id.toNat % 128 = 0 ∧ d.length = 24 ∧ nth d 0 0 = 1 then
    s.refReceive c (f.id.toNat / 2 ^ 7 % 2 ^ 13) d sof
  else s

/-- CAN_FRAME_RECEIVED (R341): the SOF sample point lay `sof` PCLK cycles after the present tick.
(DESIGN CHOICE, log entry 43) -/
def execCanFrameReceived (chan : Fin 8) (f : CanFrame) (sof : Int) (s : State) : Out :=
  State.out <| if s.busRuns chan ∧ s.canState chan < 2 then s.canFrame chan f sof else s

/-- ETH_DATAGRAM (R364, R365): a frame from destination address to end of payload arrives, its SFD `sof` PCLK cycles after the
present tick. (DESIGN CHOICE, log entry 44) -/
def execEthDatagram (port : Fin 2) (frame : List Byte) (sof : Int) (s : State) : Out :=
  State.out <| if s.busRuns (8 + port) then s.ethFrame port frame sof else s

/-- ETH_LINK_CHANGE (R364, R374). -/
def execEthLinkChange (port : Fin 2) (up beacon : Bool) (s : State) : Out :=
  State.out <|
    let plca := up && s.flag (ETH_PLCA.EN port) && (beacon || s.fld (ETH_PLCA.ID port) == 0)
    ((s.setFlag (ETH_STAT.UP port) up).setFlag (ETH_STAT.BEACON port) (up && beacon)).setFlag (ETH_STAT.PLCA port) plca

/-- ETH_SEGMENT_SEND (R365). -/
def execEthSegmentSend (port : Fin 2) (s : State) : Out := State.out <| if s.ethMaySend port then s.segmentSend port else s

/-- REF_SEND (R379): one instant of NT is taken once. -/
def execRefSend (s : State) : Out :=
  State.out <| if s.isHead && s.ntReached s.refMs && !s.inSleep && s.net.instAt != some s.le.tick then s.refInstant else s

/-- REF_WITHDRAWN (R379): half a period after its queueing a REF whose SOF has not occurred is withdrawn. -/
def execRefWithdrawn (chan : Fin 8) (s : State) : Out :=
  State.out <|
    let b := s.ch chan
    let started := b.ref.any fun d => b.refSof.any fun f => f.1 == refNo d
    if started ∨ 2 * s.le.tick < 2 * b.refAt + s.refTicks then s else s.setCh chan { b with ref := none }

/-- A REF of `node` with these data as it arrives: a frame on a CAN channel, a datagram to ff02::1 on a port, from the port of the
same number (R341, R365, R379). (DESIGN CHOICE, log entry 44) -/
def State.refArrives (s : State) (c node : Nat) (d : List Byte) (sof : Int) : State :=
  if c < 8 then
    let f : CanFrame := { id := BitVec.ofNat 29 (msgId 0 1 node), xtd := true, rtr := false, fdf := true, brs := true, esi := false
                          dlc := 12, data := d }
    (s.canReceive c f sof).recDown c
  else
    let k := c - 8
    s.ethRaw k (udpFrame (dstMac k allNodes) (macOf k node) (linkLocalOf k node) allNodes (s.udpPort k) (s.udpPort k)
      (singleSegment (msgId 0 1 node) d)) sof

/-- REF_RECEIVE (R287, R341, R381): a reference message arrives; it is a frame received like any other as well. -/
def execRefReceive (chan : Fin 10) (node : BitVec 13) (data : List Byte) (sof : Int) (s : State) : Out :=
  State.out <|
    let d := data.take 24
    if s.busRuns chan ∧ (8 ≤ chan.val ∨ s.canState chan < 2) ∧ d.length = 24 ∧ nth d 0 0 = 1 then
      (s.refArrives chan node.toNat d sof).refReceive chan node.toNat d sof
    else s

end Sys2Proof.Machine
end

