-- ==== Sys2Proof/Machine/Pwr.lean ====
section
/-! DEFINITION. The feeds, the token, handovers, brown stalls and PF_WARN (R39 to R63), counted in supervisor checks. -/

namespace Sys2Proof.Machine

/-- The supply's state set. -/
def State.setPwr (s : State) (p : PwrSt) : State := { s with pwr := p }

/-- The feed's undervoltage threshold in mV (PWR_CFG.UV). -/
def State.uvMv (s : State) : Nat := 9000 + 250 * min 10 (s.fld PWR_CFG.UV)
/-- The warning threshold of VHOLD in mV (PWR_CFG.VHOLD_WARN). -/
def State.warnMv (s : State) : Nat := 8000 + 250 * min 12 (s.fld PWR_CFG.VHOLD_WARN)
/-- The phase current limit in mA (PWR_CFG.OC). -/
def State.ocMa (s : State) : Nat := 100 * max 1 (s.fld PWR_CFG.OC)

/-- The fault flag of a controller. -/
def fltField (f : Nat) : Field := if f = 0 then PWR_STAT.A_FLT else PWR_STAT.B_FLT
/-- The eligibility flag of a feed. -/
def eligField (f : Nat) : Field := if f = 0 then PWR_STAT.A_ELIG else PWR_STAT.B_ELIG

/-- A feed is eligible (R41): its quarantine is a count of good checks that starts again at the decision (R44). -/
def State.feedElig (s : State) (f : Nat) : Bool := decide (100 ≤ nth s.pwr.good f 0)

/-- A controller raises its fault flag: its path opens at once, and conversion passes if the other has none (R40, R43). -/
def State.faultRaise (s : State) (f : Nat) : State :=
  let s := s.setFlag (fltField f) true
  let conv := if s.pwr.conv = f ∧ !s.flag (fltField (1 - f)) then 1 - f else s.pwr.conv
  s.setPwr { s.pwr with closed := putAt s.pwr.closed f false, conv := conv }

/-- A voltage in mV lies within 5 % of a nominal one (R525). -/
def inBand (nominal mv : Nat) : Bool := decide (95 * nominal ≤ 100 * mv) && decide (100 * mv ≤ 105 * nominal)
/-- All three rails are in regulation band at a check (R46, R47, R525). -/
def railBand (m : SupervisorSample) : Bool := inBand 3300 m.vdd33 && inBand 800 m.vdd08 && inBand 1800 m.vdda18

/-- A voltage in units of 50 mV as PWR_VMON shows it. (DESIGN CHOICE, log entry 52) -/
def vmon (mv : Nat) : Nat := min 1023 (mv / 50)

/-- The readings of a check shown, its fault flags taken (R41, R62). -/
def State.pwrRead (s : State) (m : SupervisorSample) : State :=
  let s := ((s.setFld PWR_VMON.VFA (vmon m.vfa)).setFld PWR_VMON.VFB (vmon m.vfb)).setFld PWR_VMON.VHOLD (vmon m.vhold)
  let s := s.setFlag PWR_STAT.VHOLD_LOW (decide (m.vhold < s.warnMv))
  let s := (s.setFlag PWR_STAT.A_FLT m.faultA).setFlag PWR_STAT.B_FLT m.faultB
  let s := if m.faultA then s.faultRaise 0 else s
  let s := if m.faultB then s.faultRaise 1 else s
  s.setPwr { s.pwr with rails := railBand m }

/-- Time passes by one check. -/
def State.pwrCount (s : State) : State :=
  let p := s.pwr
  s.setPwr { p with
    stallAt := p.stallAt + 1, lease := p.lease - 1, guard := p.guard - 1, age := p.age.map (· + 1)
    window := if s.inHold then p.window + 1 else p.window
    sinceHold := min 100000 (p.sinceHold + 1)
    ho := p.ho.map fun (h : Handover) => { h with since := h.since + 1, granted := h.granted.map (· + 1) } }

/-- One feed's eligibility after a check (R41, R58). -/
def State.feedCheck (s : State) (f mv : Nat) : State :=
  let ok := decide (s.uvMv + 500 ≤ mv) && decide (mv ≤ 40000) && !s.flag (fltField f)
  let p := s.pwr
  let s := s.setPwr { p with good := putAt p.good f (if ok then min 100 (nth p.good f 0 + 1) else 0) }
  let e := s.feedElig f
  let p := s.pwr
  let s := s.setPwr { p with bad := putAt p.bad f (if e then 0 else min 360000000 (nth p.bad f 0 + 1))
                             fired := putAt p.fired f (nth p.fired f false && !e) }
  let s := s.setFlag (eligField f) e
  if e && nth p.fired f false then s.setCause 0 (s.pwr.fired.any id) else s

/-- PF_WARN asserts (R59, R60, R74, R82). SYS, which runs from core ready on (R68), is forced to HOLDUP; in SLEEP that is in
effect at once with the clocks as they are (R78). A WARNING save starts, or waits for the save in progress, once the totals of
this start are merged. Before the start tick the steward stops, after it the links send their notice.
(DESIGN CHOICE, log entry 52) -/
def State.pfwAssert (s : State) : State :=
  if s.flag PWR_STAT.PFW then s
  else
    let s := (s.setFlag PWR_STAT.PFW true).setFlag PWR_EVT.PFW_SET true
    let s := if s.boot.step < 3 then s else (s.setFlag SYS_PROF_STAT.FORCED true).setFlag SYS_PROF_STAT.PEND false
    let s : State := { s with tot := { s.tot with stalled := false } }
    let s := if s.inSleep then s.holdupTakes else if s.tot.merged || s.tot.save.isSome then s.saveOccasion .warning else s
    if s.started then s.pfailQueue else s.startAbort

/-- The hold window opens (R46, R52). -/
def State.holdOpen (s : State) : State :=
  if s.inHold then s.setPwr { s.pwr with closeAt := none }
  else ((s.setFlag PWR_STAT.HOLD true).setPwr { s.pwr with window := 0, closeAt := none, regAfter := none }).pgFreeze

/-- What PWR_HO_STAT says of a handover that begins. -/
def State.hoStat (s : State) (cause from_ : Nat) : State :=
  s.setReg PWR_HO_STAT (BitVec.ofNat 32 (cause + 64 * from_))

/-- What PWR_HO_STAT says of the end of handover `h`, over a refused request in between. (DESIGN CHOICE, log entry 52) -/
def State.hoOutcome (s : State) (h : Handover) (o : Nat) : State :=
  ((s.setFld PWR_HO_STAT.CAUSE h.cause).setFld PWR_HO_STAT.FROM (if h.back then h.inn else h.out)).setFld PWR_HO_STAT.OUTCOME o

/-- A wake source fired by a feed event (R79). (DESIGN CHOICE, log entry 52) -/
def State.feedWake (s : State) : State :=
  if s.flag SYS_SLEEP_CFG.FEED then s.wakeBy 4 else s

/-- A decision against the holder `f` (R42, R44, R46, R56): its lease is renewed no more. (DESIGN CHOICE, log entry 52) -/
def State.decision (s : State) (f cause : Nat) (sup : Bool) : State :=
  let s := s.countUp (if sup then PWR_HO_CNT.SUPERVISED else PWR_HO_CNT.UNSUPERVISED)
  let s := ((s.hoStat cause f).setFlag PWR_STAT.HANDOVER true).setFlag PWR_STAT.SUPV sup
  let s := s.holdOpen
  let p := s.pwr
  let s := s.setPwr { p with
    holder := none, reg := false, uv := 0, guard := 4, req := false, regAfter := none
    good := if sup then p.good else putAt p.good f 0
    ho := some { sup := sup, out := f, inn := 1 - f, cause := cause } }
  (s.setFlag (eligField f) (s.feedElig f)).feedWake

/-- A handover ends without a grant or a standby in regulation: PF_WARN asserts, and the window closes by R47. -/
def State.hoLost (s : State) : State :=
  let s := ((s.setFlag PWR_STAT.HANDOVER false).setFlag PWR_STAT.SUPV false).setFlag PWR_EVT.HO_FAIL true
  (s.setPwr { s.pwr with ho := none, regAfter := if s.inHold then some 0 else none }).pfwAssert

/-- The incoming feed of `h` is a dead standby (R47): a supervised handover grants the token back (R57).
(DESIGN CHOICE, log entry 52; DESIGN CHOICE, log entry 70) -/
def State.deadStandby (s : State) (h : Handover) : State :=
  let s := s.holdOpen
  let p := s.pwr
  let s := s.setPwr { p with holder := none, reg := false, uv := 0, guard := 4, good := putAt p.good h.inn 0 }
  let s := ((s.setFlag (eligField h.inn) false).hoOutcome h 3).feedWake
  if h.sup && !h.back then
    (((s.setFlag PWR_EVT.HO_FAIL true).setFlag PWR_STAT.HANDOVER true).setFlag PWR_STAT.SUPV true).setPwr
      { s.pwr with ho := some { back := true, sup := true, out := h.inn, inn := h.out, cause := h.cause } }
  else (if h.sup then s.setFlag PWR_EVT.SHO true else s).hoLost

/-- A handover is complete (R46, step 5): its outcome and time, its event; the one back from a dead standby keeps OUTCOME 3
(R57). -/
def State.hoComplete (s : State) (h : Handover) : State :=
  let s := (s.setFlag PWR_STAT.HANDOVER false).setFlag PWR_STAT.SUPV false
  if h.recovery then s
  else if h.back then s.setFlag PWR_EVT.SHO true
  else ((s.hoOutcome h 1).setFld PWR_HO_STAT.TIME (min 255 h.since)).setFlag
    (if h.sup then PWR_EVT.SHO else PWR_EVT.HO) true

/-- The incoming feed is in regulation (R45, step 6 of R46): the window closes 20 µs later; a recovery grant has its outcome and
ends, and the window of the handover before it closes as R47 has it. -/
def State.regulated (s : State) (h : Handover) : State :=
  let s := if h.recovery then (s.hoOutcome h 1).setFld PWR_HO_STAT.TIME (min 255 (h.granted.getD 0)) else s
  let p := s.pwr
  let close := if s.inHold && !h.recovery then some (p.window + 2) else p.closeAt
  s.setPwr { p with reg := true, ho := if h.recovery then none else p.ho, closeAt := close }

/-- A granted handover at a check (R46): complete at the first check in band, in regulation at the fourth in a row.
(DESIGN CHOICE, log entry 52) -/
def State.hoCheck (s : State) (m : SupervisorSample) (h : Handover) : State :=
  if h.granted.isNone then s
  else
    let ok := railBand m && m.closed && s.pwr.conv == h.inn
    let first := ok && !h.complete
    let h := { h with band := if ok then h.band + 1 else 0, complete := h.complete || ok }
    let now := h.band == 4 && !h.inReg
    let h := { h with inReg := h.inReg || now }
    let s := s.setPwr { s.pwr with ho := some h }
    let s := if first then s.hoComplete h else s
    if now then s.regulated h else s

/-- The check 180 µs after the decision (R47): the incoming feed is in regulation, or it is a dead standby. A recovery grant has
no decision and no such check. -/
def State.hoDue (s : State) : State :=
  match s.pwr.ho with
  | none => s
  | some h =>
    if h.recovery || decide (h.granted.getD 0 < 14) then s
    else if 4 ≤ h.band then s.setPwr { s.pwr with ho := none }
    else s.deadStandby h

/-- The cause for which the holder has failed at a check (R42). (DESIGN CHOICE, log entry 52) -/
def State.failCause (s : State) (m : SupervisorSample) (f : Nat) : Option Nat :=
  if 2 ≤ s.pwr.uv then some 1
  else if 40000 < (if f = 0 then m.vfa else m.vfb) then some 2
  else if s.ocMa < m.phase then some 3
  else if s.flag (fltField f) then some 4
  else none

/-- A grant to feed `f` (R40, R43 to R45). -/
def State.grant (s : State) (f : Nat) : State :=
  let s := (s.setFlag PWR_STAT.TOKEN true).setFld PWR_STAT.HOLDER f
  s.setPwr { s.pwr with holder := some f, lease := 4, uv := 0, conv := f, closed := putAt s.pwr.closed (1 - f) false }

/-- The holder at a check: it has failed, or its lease is renewed (R42, R43, R56). A feed that fails up to the check of R47 is a
dead standby; one that a recovery grant named, or that fails with a supervised request waiting, has an unsupervised decision.
(DESIGN CHOICE, log entry 52) -/
def State.holderCheck (s : State) (m : SupervisorSample) (f : Nat) : State :=
  let mv := if f = 0 then m.vfa else m.vfb
  let s := s.setPwr { s.pwr with uv := if mv < s.uvMv then min 2 (s.pwr.uv + 1) else 0
                                 closed := putAt s.pwr.closed f (m.closed && !s.flag (fltField f)) }
  match s.failCause m f with
  | some c =>
    match s.pwr.ho with
    | some h => if h.recovery then s.decision f c false else s.deadStandby h
    | none => s.decision f c false
  | none =>
    if s.pwr.req && s.pwr.ho.isNone then s.decision f 5 true
    else s.setPwr { s.pwr with lease := 4 }

/-- The grant a check makes while no feed holds the token and no handover is in progress: the first lease, or a recovery grant
(R45). (DESIGN CHOICE, log entry 52) -/
def State.freeGrant (s : State) : State :=
  if s.pwr.holder.isSome || s.pwr.ho.isSome || s.pwr.lease != 0 || s.pwr.guard != 0 then s
  else
    let f := if s.feedElig 0 then some 0 else if s.feedElig 1 then some 1 else none
    match f with
    | none => s
    | some f =>
      let s := s.grant f
      if !s.pwr.on then s
      else
        ((s.hoStat 0 (1 - f)).setFlag PWR_EVT.RECOVER true).setPwr
          { s.pwr with ho := some { recovery := true, out := 1 - f, inn := f, granted := some 0 } }

/-- No WARNING save follows the one in progress (R328). -/
def State.warningsEnd (s : State) : State :=
  { s with tot := { s.tot with stalled := true, waiting := s.tot.waiting.filter (· != .warning) } }

/-- Brown stall is entered (R52, R54): the fast clocks and the PLL stop, the drives are off, the window is open; one that was open
keeps the check it closes at, if that comes after the stall. (DESIGN CHOICE, log entry 52) -/
def State.stallEnter (s : State) : State :=
  let close := if s.inHold then s.pwr.closeAt else none
  let s := s.holdOpen.busCut
  let s := (((forN (fun d s => s.driveOff d) 4 s).wflCut).bistCut).setFlag SYS_CLK_STAT.PLL_LOCK false
  (s.setPwr { s.pwr with stall := true, stallAt := 0, stallEdge := s.aon.edges, relock := false, closeAt := close }).saFreeze.warningsEnd

/-- VHOLD at a check (R52, R59), and the checks in a row in band while a controller converts, which close the window of R47: those
of a brown stall too, which only extends the window (R54). (DESIGN CHOICE, log entry 52; DESIGN CHOICE, log entry 70) -/
def State.vholdCheck (s : State) (m : SupervisorSample) : State :=
  if !s.pwr.on then s
  else
    let s :=
      if !s.pwr.stall then (if m.vhold < 5000 then s.stallEnter else s)
      else if 5500 ≤ m.vhold then s.setPwr { s.pwr with relock := true }
      else s
    let p := s.pwr
    let n := p.regAfter.map fun n => if railBand m && !(s.flag PWR_STAT.A_FLT && s.flag PWR_STAT.B_FLT) then n + 1 else 0
    let s := s.setPwr { p with
      low := if m.vhold < s.warnMv then min 2 (p.low + 1) else 0
      clear := if s.warnMv + 500 ≤ m.vhold then min 100 (p.clear + 1) else 0
      regAfter := if n == some 4 then none else n
      closeAt := if n == some 4 then some (p.window + 2) else p.closeAt }
    if 2 ≤ s.pwr.low then s.pfwAssert else s

/-- PWR_STBY_AGE and TOKEN as they stand after a check (R55, R62). -/
def State.pwrShow (s : State) (m : SupervisorSample) : State :=
  let p := s.pwr
  let s := match p.holder with
    | some f => if p.reg && railBand m && p.ho.isNone then s.setPwr { p with age := putAt p.age f 0, held := putAt p.held f true } else s
    | none => s
  let sb := 1 - s.fld PWR_STAT.HOLDER
  let s := (s.setFlag PWR_STBY_AGE.NEVER (!nth s.pwr.held sb false)).setFld PWR_STBY_AGE.SEC
    (min 0x7FFFFFFF (nth s.pwr.age sb 0 / 100000))
  s.setFlag PWR_STAT.TOKEN (s.pwr.lease != 0)

/-- One check of the supervisor (R41). (DESIGN CHOICE, log entry 52) -/
def State.supervise (s : State) (m : SupervisorSample) : State :=
  let s := (s.pwrCount.pwrRead m)
  let s := (s.feedCheck 0 m.vfa).feedCheck 1 m.vfb
  let s := match s.pwr.ho with
    | some h => s.hoCheck m h
    | none => s
  let s := match s.pwr.holder with
    | some f => s.holderCheck m f
    | none => s
  (s.hoDue.freeGrant.vholdCheck m).pwrShow m

/-- SUPERVISOR_CHECK (R41). (DESIGN CHOICE, log entry 63) -/
def execSupervisorCheck (m : SupervisorSample) (s : State) : Out := State.out <| s.supervise m

/-- LEASE_EXPIRY (R43): a lease that is no longer renewed runs out by the controller's own timer. -/
def execLeaseExpiry (feed : Fin 2) (s : State) : Out :=
  State.out <| if s.pwr.holder == some feed.val then s else s.setPwr { s.pwr with closed := putAt s.pwr.closed feed false }

/-- CONTROLLER_FAULT_FLAG (R43). -/
def execControllerFaultFlag (feed : Fin 2) (s : State) : Out := State.out <| s.faultRaise feed

/-- HANDOVER_GRANT (R44, R46, R57): 40 µs after the decision. (DESIGN CHOICE, log entry 5) -/
def execHandoverGrant (s : State) : Out :=
  State.out <|
    match s.pwr.ho with
    | none => s
    | some h =>
      if h.granted.isSome || decide (h.since < 4) then s
      else if s.feedElig h.inn then
        let s := s.grant h.inn
        s.setPwr { s.pwr with ho := some { h with granted := some 0 } }
      else
        let s := if h.back then s else s.hoOutcome h 2
        (if h.sup then s.setFlag PWR_EVT.SHO true else s).hoLost

/-- HOLD_WINDOW_CLOSE (R34, R47, R49): not before the LE has resumed after a brown stall; its length is recorded, the held values
are released. (DESIGN CHOICE, log entry 52) -/
def execHoldWindowClose (s : State) : Out :=
  State.out <|
    if !s.inHold || s.stalled || !(s.pwr.closeAt.any fun n => decide (n ≤ s.pwr.window)) then s
    else
      let s := (s.setFlag PWR_STAT.HOLD false).setFld PWR_HO_STAT.WINDOW (min 255 s.pwr.window)
      ((s.setPwr { s.pwr with closeAt := none, sinceHold := 0 }).aoRelease).pgFreeze

/-- CLOCK_RESTART (R52, R54): the PLL has locked; the length of the stall in LFXO edges is rounded up to whole ticks. In SLEEP the
next wake reckons the stall's time with the rest (R77), so nothing is moved on here. (DEDUCED, log entry 53) -/
def execClockRestart (s : State) : Out :=
  State.out <|
    if !s.pwr.stall || !s.pwr.relock then s
    else
      let e := s.aon.edges - s.pwr.stallEdge
      let missed := min 0xFFFF ((e * 100000 + 32767) / 32768)
      let s := ((s.countUp PWR_BROWN.COUNT).setFld PWR_BROWN.MISSED missed).setFlag PWR_EVT.BROWN true
      let p := s.pwr
      let coming := p.regAfter.isSome || p.ho.any fun (h : Handover) => !h.recovery && !h.inReg
      let close := if s.inHold && p.closeAt.isNone && !coming then some p.window else p.closeAt
      let s := s.setFlag SYS_CLK_STAT.PLL_LOCK (decide (3 ≤ s.boot.step) && !s.inSleep)
      let s := s.setPwr { p with stall := false, relock := false, resume := s.started && !s.inSleep, missed := missed, closeAt := close }
      let s := s.saFreeze.pmServe
      let s := if s.inSleep then s
        else ((s.setMtime (s.time.mtime + 10 * missed)).ntAdvance (missed * 2 ^ 72 / 100000) true).leasePass missed
      s.setFlag SYS_NT_STAT.COARSE true

/-- LE_RESUME (R51, R52, R54, R121, R301, R416): LE_TICK takes its value at entry plus MISSED; what passed is counted, and a scan
cycle that was under way ends as much later. (DEDUCED, log entry 53) -/
def execLeResume (s : State) : Out :=
  State.out <|
    if !s.pwr.resume || s.pwr.stall then s
    else
      let a := s.le.tick
      let b := a + s.pwr.missed
      let s := ((s.missBetween (a + 1) b false).setTick b).setPwr { s.pwr with resume := false }
      let p := s.seCycleTicks
      let s := if s.seRuns then forN (fun _ s => s.seSkip) ((b - 1) / p - a / p) s else s
      let s := (if 1000 * a < s.se.ends then s.setSe { s.se with ends := s.se.ends + 1000 * s.pwr.missed } else s).flowStall a b
      let s := forN (fun c s =>
        let n := max 1 (s.mhField c 13)
        if (b - 1) / n == a / n then s else s.integrate c) 8 s
      s.applyTrips

/-- RAIL_SHUTDOWN (R53): no return to 5.5 V within 800 µs of entry, or a check below 4.0 V; the rails go, and with them all but
the AON domain, the vault and the PM. (DESIGN CHOICE, log entry 52) -/
def execRailShutdown (cut : CutPoint) (s : State) : Out :=
  State.out <|
    if !s.pwr.stall || !((!s.pwr.relock && decide (80 ≤ s.pwr.stallAt)) || decide (s.fld PWR_VMON.VHOLD < 80)) then s
    else
      let s := s.cutWork cut
      let s := s.resetParts (keptByPor false) {}
      { s with pwr := {} }

/-- A write of PWR_HO_CMD (R56). (DESIGN CHOICE, log entry 52) -/
def State.hoCmdWrite (s : State) (v : Word) : State :=
  if PWR_HO_CMD.KEY.of v ≠ 0xA5C3 ∨ PWR_HO_CMD.GO.of v ≠ 1 then s
  else
    let stand := match s.pwr.holder with
      | some f => s.feedElig (1 - f)
      | none => false
    if !stand || s.pwr.ho.isSome || s.pwr.req || s.inHold || s.flag PWR_STAT.PFW || decide (s.pwr.sinceHold < 100000) then
      ((s.hoStat 5 (s.fld PWR_STAT.HOLDER)).setFld PWR_HO_STAT.OUTCOME 4).setFlag PWR_EVT.SHO true
    else s.setPwr { s.pwr with req := true }

/-- SUPERVISED_HANDOVER_REQUEST (R56). -/
def execSupervisedHandoverRequest (v : Word) (s : State) : Out := s.cpDoes fun s => s.hoCmdWrite v

/-- FEED_1H (R58): 360,000,000 checks in a row ineligible. -/
def execFeed1h (feed : Fin 2) (s : State) : Out :=
  State.out <|
    if nth s.pwr.bad feed 0 < 360000000 || nth s.pwr.fired feed false then s
    else ((s.setFlag PWR_EVT.FEED_1H true).setCause 0 true).setPwr
      { s.pwr with fired := putAt s.pwr.fired feed true }

/-- PF_WARN_DEASSERT (R59, R82). -/
def execPfWarnDeassert (s : State) : Out :=
  State.out <|
    if !s.flag PWR_STAT.PFW || s.pwr.holder.isNone || !s.pwr.reg || !s.pwr.rails || decide (s.pwr.clear < 100) || s.pwr.stall then s
    else ((s.setFlag PWR_STAT.PFW false).setFlag PWR_EVT.PFW_CLR true).startAgain

end Sys2Proof.Machine
end

