-- ==== Sys2Proof/Machine/Vlt.lean ====
section
/-! DEFINITION. The commands of the vault (chapter 22): each vault command is started by a write of VLT_CMD with the address of
its command block, and takes effect at VLT_COMMAND_END. -/

namespace Sys2Proof.Machine

/-- HASH (R476): a write of VLT_CMD with the address of a block of OP 0x01. -/
def execVltHash (a : Word) (s : State) : Out := s.cpDoes fun s => s.vltStartOp 0x01 a

/-- HMAC (R476): a write of VLT_CMD with the address of a block of OP 0x02. -/
def execVltHmac (a : Word) (s : State) : Out := s.cpDoes fun s => s.vltStartOp 0x02 a

/-- CMAC (R476): a write of VLT_CMD with the address of a block of OP 0x03. -/
def execVltCmac (a : Word) (s : State) : Out := s.cpDoes fun s => s.vltStartOp 0x03 a

/-- GCM_SEAL (R476): a write of VLT_CMD with the address of a block of OP 0x04. -/
def execVltGcmSeal (a : Word) (s : State) : Out := s.cpDoes fun s => s.vltStartOp 0x04 a

/-- GCM_OPEN (R476): a write of VLT_CMD with the address of a block of OP 0x05. -/
def execVltGcmOpen (a : Word) (s : State) : Out := s.cpDoes fun s => s.vltStartOp 0x05 a

/-- SIGN (R476): a write of VLT_CMD with the address of a block of OP 0x06. -/
def execVltSign (a : Word) (s : State) : Out := s.cpDoes fun s => s.vltStartOp 0x06 a

/-- VERIFY (R476): a write of VLT_CMD with the address of a block of OP 0x07. -/
def execVltVerify (a : Word) (s : State) : Out := s.cpDoes fun s => s.vltStartOp 0x07 a

/-- ECDH (R476): a write of VLT_CMD with the address of a block of OP 0x08. -/
def execVltEcdh (a : Word) (s : State) : Out := s.cpDoes fun s => s.vltStartOp 0x08 a

/-- GENERATE (R476): a write of VLT_CMD with the address of a block of OP 0x09. -/
def execVltGenerate (a : Word) (s : State) : Out := s.cpDoes fun s => s.vltStartOp 0x09 a

/-- LOAD_PUB (R476): a write of VLT_CMD with the address of a block of OP 0x0A. -/
def execVltLoadPub (a : Word) (s : State) : Out := s.cpDoes fun s => s.vltStartOp 0x0A a

/-- IMPORT (R476): a write of VLT_CMD with the address of a block of OP 0x0B. -/
def execVltImport (a : Word) (s : State) : Out := s.cpDoes fun s => s.vltStartOp 0x0B a

/-- EXPORT (R476): a write of VLT_CMD with the address of a block of OP 0x0C. -/
def execVltExport (a : Word) (s : State) : Out := s.cpDoes fun s => s.vltStartOp 0x0C a

/-- ERASE (R476): a write of VLT_CMD with the address of a block of OP 0x0D. -/
def execVltErase (a : Word) (s : State) : Out := s.cpDoes fun s => s.vltStartOp 0x0D a

/-- POLICY (R476): a write of VLT_CMD with the address of a block of OP 0x0E. -/
def execVltPolicy (a : Word) (s : State) : Out := s.cpDoes fun s => s.vltStartOp 0x0E a

/-- RANDOM (R476): a write of VLT_CMD with the address of a block of OP 0x0F. -/
def execVltRandom (a : Word) (s : State) : Out := s.cpDoes fun s => s.vltStartOp 0x0F a

/-- PUBKEY (R476): a write of VLT_CMD with the address of a block of OP 0x10. -/
def execVltPubkey (a : Word) (s : State) : Out := s.cpDoes fun s => s.vltStartOp 0x10 a

/-- ATTEST (R476): a write of VLT_CMD with the address of a block of OP 0x11. -/
def execVltAttest (a : Word) (s : State) : Out := s.cpDoes fun s => s.vltStartOp 0x11 a

/-- PROVISION (R476): a write of VLT_CMD with the address of a block of OP 0x12. -/
def execVltProvision (a : Word) (s : State) : Out := s.cpDoes fun s => s.vltStartOp 0x12 a

/-- CERT (R476): a write of VLT_CMD with the address of a block of OP 0x13. -/
def execVltCert (a : Word) (s : State) : Out := s.cpDoes fun s => s.vltStartOp 0x13 a

/-- VLT_COMMAND_END (R475). -/
def execVltCommandEnd (s : State) : Out := State.out <| s.vltFinish

/-- A write of VLT_FW_ROLL (R484): it is ignored while the steward keeps the CP. -/
def State.fwRollWrite (s : State) (v : Word) : State :=
  if VLT_FW_ROLL.KEY.of v ≠ 0x7141 ∨ VLT_FW_ROLL.GO.of v ≠ 1 ∨ s.flag VLT_STAT.FW_ROLL_BUSY ∨ !s.cp.fw then s
  else if (s.reg VLT_FW_VER).toNat ≤ s.scValue 4 then s
  else s.setFlag VLT_STAT.FW_ROLL_BUSY true

/-- VLT_FW_ROLL (R484). -/
def execVltFwRoll (v : Word) (s : State) : Out := s.cpDoes fun s => s.fwRollWrite v

/-- TAMPER (R465, R466): a tamper source detects; TAMP0 and TAMP1 are ignored in BLANK. -/
def execTamper (src : Fin 7) (s : State) : Out :=
  State.out <| if (src.val = 1 ∨ src.val = 2) ∧ s.lcState = 0 then s else s.tamper src

/-- DBGSEEN (R463): DBG reports the debug port open. -/
def execDbgseen (s : State) : Out := State.out <| if s.debugOpen then s.dbgSeen else s

/-- The 128 KiB of the boot ROM (R107, R486). -/
def romImage : List Byte := (List.range 32768).flatMap fun i => toBytes 4 (Config.bootRom (4 * i)).toNat

/-- VLT_SELFTEST_DONE (R479): the start-up self-tests end; the ROM measurement is computed with them. -/
def execVltSelftestDone (pass : Bool) (s : State) : Out :=
  State.out <|
    if !s.flag SYS_CLK_STAT.PLL_LOCK || s.flag VLT_STAT.ST_DONE then s
    else
      let s := (s.setFlag VLT_STAT.ST_DONE true).setFlag VLT_STAT.ST_FAIL (!pass)
      (s.setVlt { s.vlt with mRom := some (Config.sha256 romImage) }).vltShow

/-- TRNG_HEALTH_FAIL (R479): a continuous health test fails. -/
def execTrngHealthFail (s : State) : Out :=
  State.out <| ((s.setFlag VLT_STAT.TRNG_FAIL true).setFlag VLT_EVT.TRNG true).vltShow

/-- TRNG_RETEST (R479): the once-per-second start-up test runs while TRNG_FAIL is set; a pass clears it. -/
def execTrngRetest (pass : Bool) (s : State) : Out :=
  State.out <|
    if s.flag VLT_STAT.TRNG_FAIL && pass then ((s.setFlag VLT_STAT.TRNG_FAIL false).setFlag VLT_EVT.TRNG true).vltShow else s

end Sys2Proof.Machine
end

