-- ==== Sys2Proof/Machine/RegWr.lean ====
section
/-! DEFINITION. CP writes of registers and of the memories that take any word, and the CP reads that change state: what each
register's own rules add to its access codes (R4). -/

namespace Sys2Proof.Machine

/-- Registers that a rule of their own writes: `n` of them from `base` on, `stride` apart. -/
structure WriteRow where
  base : Nat
  stride : Nat
  n : Nat
  act : Nat → Word → State → State

/-- The index of the register at `a` in a row. -/
def WriteRow.index (r : WriteRow) (a : Nat) : Option Nat :=
  if r.base ≤ a ∧ (a - r.base) % r.stride = 0 ∧ (a - r.base) / r.stride < r.n then some ((a - r.base) / r.stride) else none

/-- SYS_WDT_CFG ignores writes once EN = 1; enabling reloads (R115). -/
def State.wdtCfgWrite (s : State) (v : Word) : State :=
  if s.flag SYS_WDT_CFG.EN then s
  else
    let s := s.regWrite SYS_WDT_CFG v
    if s.flag SYS_WDT_CFG.EN then s.wdtReload else s

/-- A register that takes writes while `ok` holds. -/
def State.writeIf (s : State) (ok : Bool) (a : Nat) (v : Word) : State := if ok then s.regWrite a v else s

/-- AON_ALM_CFG: MASK accepts writes only while EN = 0 (R393). -/
def State.almCfgWrite (s : State) (n : Nat) (v : Word) : State :=
  let mask := s.fld (AON_ALM_CFG.MASK n)
  let en := s.flag (AON_ALM_CFG.EN n)
  let s := s.regWrite (AON_ALM_CFG n) v
  if en then s.setFld (AON_ALM_CFG.MASK n) mask else s

/-- The rows of SYS, PWR, INTC and AON. -/
def sysRows : List WriteRow :=
  [⟨SYS_RST_REQ, 4, 1, fun _ v s => s.rstReqWrite v⟩,
   ⟨PWR_HO_CMD, 4, 1, fun _ v s => s.hoCmdWrite v⟩,
   ⟨SYS_PROF_REQ, 4, 1, fun _ v s => s.profReqWrite v⟩,
   ⟨SYS_PAL_ROLL, 4, 1, fun _ v s => s.palRollWrite v⟩,
   ⟨SYS_BOOT_SEL, 4, 1, fun _ v s => s.bootSelWrite v⟩,
   ⟨INTC_CLAIM, 4, 1, fun _ v s => s.completionWrite v⟩,
   ⟨INTC_EN 0, 4, 1, fun _ v s => s.regWrite (INTC_EN 0) (v &&& ~~~ 1#32)⟩,
   ⟨SYS_WDT_CFG, 4, 1, fun _ v s => s.wdtCfgWrite v⟩,
   ⟨SYS_WDT_KICK, 4, 1, fun _ v s => s.wdtKickWrite v⟩,
   ⟨SYS_FW_STAT, 4, 1, fun _ v s => s.fwStatWrite v⟩,
   ⟨SYS_MTIMECMP_LO, 4, 2, fun i v s => (s.regWrite (SYS_MTIMECMP_LO + 4 * i) v).timerLevel⟩,
   ⟨SYS_NT_STEP_LO, 4, 1, fun _ v s => s.setReg SYS_NT_STEP_LO v⟩,
   ⟨SYS_NT_STEP_HI, 4, 1, fun _ v s => s.ntStepWrite v⟩,
   ⟨SYS_NT_RATE, 4, 1, fun _ v s => s.ntRateWrite v⟩,
   ⟨SYS_NT_CTL, 4, 1, fun _ v s => s.ntCtlWrite v⟩,
   ⟨SYS_LIVE_CTL, 4, 1, fun _ v s => s.liveCtlWrite v⟩,
   ⟨AON_SET0, 4, 3, fun i v s => s.writeIf (!s.flag AON_STAT.LOAD_PEND) (AON_SET0 + 4 * i) v⟩,
   ⟨AON_CTL, 4, 1, fun _ v s => s.aonCtlWrite v⟩,
   ⟨AON_SHIFT, 4, 1, fun _ v s => s.aonShiftWrite v⟩,
   ⟨AON_ALM_VAL0 0, 0x10, 2, fun i v s => s.writeIf (!s.flag (AON_ALM_CFG.EN i)) (AON_ALM_VAL0 i) v⟩,
   ⟨AON_ALM_VAL1 0, 0x10, 2, fun i v s => s.writeIf (!s.flag (AON_ALM_CFG.EN i)) (AON_ALM_VAL1 i) v⟩,
   ⟨AON_ALM_CFG 0, 0x10, 2, fun i v s => s.almCfgWrite i v⟩]

/-- The rows of LE, PG, PD and TUNE. -/
def loopRows : List WriteRow :=
  [⟨LE_TRIP_STAT, 4, 1, fun _ v s => s.tripClear v⟩,
   ⟨LE_SLOT_CTL 0, 0x40, 64, fun i v s => s.slotCtlWrite i v⟩,
   ⟨LE_SLOT_STAT 0, 0x40, 64, fun i v s => s.slotStatWrite i v⟩,
   ⟨LE_STATE 0 0, 4, 2048, fun i v s => if i % 32 < 17 then s.leStateWrite (i / 32) (i % 32) v else s⟩,
   ⟨LE_PARAM 0 0, 4, 8192, fun i v s => s.leParamWrite (i / 128) (i % 128) v⟩,
   ⟨PG_TARGET 0, 0x40, 16, fun i v s => s.pgTargetWrite i v⟩,
   ⟨PG_PRESET 0, 0x40, 16, fun i v s => s.pgPresetWrite i v⟩,
   ⟨PG_CTL 0, 0x40, 16, fun i v s => s.pgCtlWrite i v⟩,
   ⟨PD_CLR 0, 0x100, 4, fun i v s => s.pdClear i v⟩,
   ⟨TUNE_INJ_CFG, 4, 6, fun i v s => s.writeIf (s.flag TUNE_STAT.AUTH) (TUNE_INJ_CFG + 4 * i) v⟩,
   ⟨TUNE_INJ_CTL, 4, 1, fun _ v s => s.tuneInjCtl v⟩,
   ⟨TUNE_CAP_CFG, 4, 2, fun i v s => s.writeIf (s.flag TUNE_STAT.AUTH) (TUNE_CAP_CFG + 4 * i) v⟩,
   ⟨TUNE_CAP_SRC 0, 4, 4, fun i v s => s.writeIf (s.flag TUNE_STAT.AUTH) (TUNE_CAP_SRC i) v⟩,
   ⟨TUNE_TRC_CFG, 4, 2, fun i v s => s.writeIf (!s.flag TUNE_TRC_CTL.ARMED) (TUNE_TRC_CFG + 4 * i) v⟩,
   ⟨TUNE_TRC_SRC 0, 4, 4, fun i v s => s.writeIf (!s.flag TUNE_TRC_CTL.ARMED) (TUNE_TRC_SRC i) v⟩,
   ⟨TUNE_TRC_THR, 4, 4, fun i v s => s.writeIf (!s.flag TUNE_TRC_CTL.ARMED) (TUNE_TRC_THR + 4 * i) v⟩,
   ⟨TUNE_TRC_CTL, 4, 1, fun _ v s => s.tuneTrcCtl v⟩]

/-- The rows of the buses, with the field links and the scan engine. -/
def busRows : List WriteRow :=
  [⟨CAN_CTL 0, 0x2000, 8, fun i v s => s.canCtlWrite i v⟩,
   ⟨CAN_RX_ACK 0, 0x2000, 8, fun i v s => s.rxAck i v.toNat⟩,
   ⟨CAN_CQ_ACK 0, 0x2000, 8, fun i v s => s.cqAck i v.toNat⟩,
   ⟨CAN_TX_REQ 0, 0x2000, 8, fun i v s => s.txReqWrite i v.toNat⟩,
   ⟨CAN_TX_ABORT 0, 0x2000, 8, fun i v s => s.txAbortWrite i v.toNat⟩,
   ⟨ETH_RX_ACK 0, 0x1000, 2, fun i v s => s.rxAck (8 + i) v.toNat⟩,
   ⟨ETH_CQ_ACK 0, 0x1000, 2, fun i v s => s.cqAck (8 + i) v.toNat⟩,
   ⟨ETH_TX_REQ 0, 0x1000, 2, fun i v s => s.txReqWrite (8 + i) v.toNat⟩,
   ⟨ETH_TX_ABORT 0, 0x1000, 2, fun i v s => s.txAbortWrite (8 + i) v.toNat⟩,
   ⟨ETH_PTP_TX 0, 0x1000, 2, fun i v s => s.setReg (ETH_PTP_TX i) v⟩,
   ⟨ETH_PTP_TXLEN 0, 0x1000, 2, fun i v s => s.ptpWrite i v⟩,
   ⟨WFL_COMMIT, 4, 1, fun _ v s => s.wflCommitWrite v⟩,
   ⟨WFL_OUT 0, 4, 4096, fun i v s => s.wflOutCpWrite i v⟩,
   ⟨SE_XCHG, 4, 1, fun _ v s => s.seXchgWrite v⟩,
   ⟨SE_FORCE_CMD, 4, 1, fun _ v s => s.forceCmdWrite v⟩]

/-- A write of PM_CMD: its operation acts (R443). -/
def State.pmCmdWrite (s : State) (v : Word) : State := ((s.pmLoadWrite v).pmCommitWrite v).pmDiscardWrite v

/-- The rows of SA, PT, MH, PM, VLT and LCS. -/
def storeRows : List WriteRow :=
  [⟨SA_SWAP, 4, 1, fun _ v s => s.saSwapWrite v⟩,
   ⟨PT_COMMIT, 4, 1, fun _ v s => s.ptCommitWrite v⟩,
   ⟨MH_SEAL_CMD, 4, 1, fun _ v s => s.sealCmdWrite v⟩,
   ⟨MH_LEDGER_ACK, 4, 1, fun _ v s => s.ledgerAckWrite v⟩,
   ⟨PM_CMD, 4, 1, fun _ v s => s.pmCmdWrite v⟩,
   ⟨PM_UNLOCK, 4, 1, fun _ v s => (s.pmUnlockWrite v).pmLockWrite v⟩,
   ⟨PM_SC_CMD, 4, 1, fun _ v s => s.scCmdWrite v⟩,
   ⟨PM_PW0, 4, 2, fun i v s => s.setReg (PM_PW0 + 4 * i) v⟩,
   ⟨PM_BUF 0, 4, 64, fun i v s => s.writeIf (s.flag PM_STAT.BUF && !s.flag PM_STAT.BUSY) (PM_BUF i) v⟩,
   ⟨VLT_CMD, 4, 1, fun _ v s => s.vltStart v.toNat⟩,
   ⟨VLT_FW_ROLL, 4, 1, fun _ v s => s.fwRollWrite v⟩,
   ⟨LCS_CMD, 4, 1, fun _ v s => s.lcsCmdWrite v⟩,
   ⟨LCS_OWNER 0, 4, 8, fun i v s => s.ownerWrite i v⟩,
   ⟨LCS_BIST_CMD, 4, 1, fun _ v s => s.bistCmdWrite v⟩]

/-- The register at `a` written by its row's rule, else by its access codes. (DESIGN CHOICE, log entry 6) -/
def writeBy (l : List WriteRow) (a : Nat) (v : Word) (s : State) : State :=
  match l.findSome? (fun r => (r.index a).map fun i => r.act i v s) with
  | some t => t
  | none => s.regWrite a v

/-- The rows that may hold the register at `a`. (DESIGN CHOICE, log entry 6) -/
def rowsAt (a : Nat) : List WriteRow :=
  if a < 0x40030000 ∨ 0x40130000 ≤ a then sysRows else if a < 0x40060000 then loopRows
  else if 0x400A0000 ≤ a ∧ a < 0x400E0000 then busRows else storeRows

/-- A CP write of the word at `a`: a register, or a word of a memory (R107, R108). A job is submitted by the
row JOB_SUBMIT, which names what a write does not give. (DESIGN CHOICE, log entry 6) -/
def State.cpWrite (s : State) (a : Nat) (v : Word) : State :=
  if a % 4 ≠ 0 then s
  else if 0x20000000 ≤ a ∧ a < 0x20300000 ∨ 0x31000000 ≤ a ∧ a < 0x31100000 then s.wr32 a v.toNat
  else if 0x30000000 ≤ a ∧ a < 0x30200000 then s.canvasCpWrite (a - 0x30000000) 4 v.toNat
  else if 0x33000000 ≤ a ∧ a < 0x33080000 then s.plugCpWrite (a - 0x33000000) 4 v.toNat
  else if 0x34000000 ≤ a ∧ a < 0x34080000 then s.seCpWrite (a - 0x34000000) 4 v.toNat
  else writeBy (rowsAt a) a v s

/-- REGISTER_WRITE (R4): a CP write of a register. (DESIGN CHOICE, log entry 6; DESIGN CHOICE, log entry 64) -/
def execRegisterWrite (addr v : Word) (s : State) : Out := s.cpAccess addr .write 2 fun s => s.cpWrite addr.toNat v

/-- ECC_COUNTED_READ (R201, R438, R441, R450): a CP read of the word at `addr` of the canvas store or of the PM window, at which
`progress` words of a commit have reached the array. -/
def execEccCountedRead (addr : Nat) (ecc : EccKind) (progress : Nat) (s : State) : Out :=
  s.cpAccess (BitVec.ofNat 32 addr) .read 2 fun s =>
    let a := addr
    if 0x38000000 ≤ a ∧ a < 0x38080000 then
      (s.pmAdvance (if s.pmGoesOn then progress else 0)).pmRead (a - 0x38000000) ecc
    else if 0x30000000 ≤ a ∧ a < 0x30200000 then
      match ecc with
      | .good => { s with readback := BitVec.ofNat 32 (s.rd32 a) }
      | .corrected => { s.canvasErrors 0 1 with readback := BitVec.ofNat 32 (s.rd32 a) }
      | .uncorrectable => { s.canvasErrors 1 0 with readback := 0xFFFFFFFF }
    else s

/-- A number captured in two registers, low word first. -/
def State.capture64 (s : State) (lo hi v : Nat) : State := s.setReg64 lo hi v

/-- The words 1 to 16 of LE_STATE of slot `n` captured from its last completed step (R148). -/
def State.stateCapture (s : State) (n : Nat) : State :=
  forN (fun k s => s.setReg (LE_STATE n (k + 1)) (BitVec.ofInt 32 (nth (s.slot n).st k {}).m)) 16 s

/-- What a read of the register at `a` captures (R148, R305, R320, R375, R388, R389). -/
def State.captureAt (s : State) (a : Nat) : State :=
  if a = AON_TICK0 then s.capture64 AON_TICK0 AON_TICK1 s.aon.count
  else if a = LE_TICK_LO then s.capture64 LE_TICK_LO LE_TICK_HI s.le.tick
  else if a = SYS_NT_LO then s.capture64 SYS_NT_LO SYS_NT_HI s.nt
  else
    let s := forN (fun k s => if a = ETH_PTP_TXTS_LO k then s.capture64 (ETH_PTP_TXTS_LO k) (ETH_PTP_TXTS_HI k) (nth s.net.ptpTs k 0) else s) 2 s
    let s := forN (fun c s => forN (fun q s => if a = MH_C_ACC_LO c q then s.mhCapture c q else s) 6 s) 8 s
    let s := forN (fun p s => forN (fun q s => if a = ME_P_ACC_LO p q then s.meCapture p q else s) 7 s) 2 s
    forN (fun n s => if a = LE_STATE n 0 then s.stateCapture n else s) 64 s

/-- What a CP read of the word at `a` returns: a register without its WO fields (R4), a word of a memory, or, in the XIP window,
of the flash of the port that holds the running firmware slot (R107). What the boot ROM holds is open.
(DESIGN CHOICE, log entry 3) -/
def State.cpWord (s : State) (a : Nat) : Word :=
  if a < 0x20000 then Config.bootRom a
  else if 0x08000000 ≤ a ∧ a < 0x0C000000 then BitVec.ofNat 32 (s.flashNum (s.fld VLT_BOOT.SLOT) (a - 0x08000000) 4)
  else if a < 0x40000000 then BitVec.ofNat 32 (s.rd32 a)
  else match regDesc a with
    | some r => BitVec.ofNat 32 (r.read (s.reg a).toNat)
    | none => 0

/-- CAPTURING_READ (R389): a CP read of the register at `addr`; one of INTC_CLAIM claims (R114). -/
def execCapturingRead (addr : Word) (s : State) : Out :=
  s.cpAccess addr .read 2 fun s =>
    let a := addr.toNat
    if 0x38000000 ≤ a ∧ a < 0x38080000 then s.pmRead (a - 0x38000000) .good
    else if a = INTC_CLAIM then s.claim
    else let t := s.captureAt a; { t with readback := t.cpWord a }

end Sys2Proof.Machine
end

