-- ==== Sys2Proof/Machine/WayOps.lean ====
section
/-! DEFINITION. What the waystation's services read and change: field values (R369), change sets (R514 to R516). -/

namespace Sys2Proof.Machine

/-- A metrology field as an entry of a sealed commit. -/
def sealOf (type inst id v : Nat) : SealEntry := ⟨if type = 0x0801 then 8 else 9, inst, id, v⟩

/-- Metrology record types (R294, R316). -/
def isMetrology (type : Nat) : Bool := type == 0x0801 || type == 0x0901

/-- The instances of a record type. -/
def typeInstances (type : Nat) : Nat := ((ownType type).map (·.instances)).getD 0

/-- A field that the dictionary or the manual defines. -/
def fieldKnown (type id : Nat) : Bool :=
  if isMetrology type then (sealOf type 0 id 0).known
  else if type = 0x0F01 then (credField id).isSome
  else (Config.dictField type id).isSome

/-- Planning value `k` as READ returns it. -/
def RndCfg.get (c : RndCfg) (k : Nat) : Nat :=
  nth ([c.chan, c.com, c.qfix.headD 0, c.h, c.ncom, c.rhoC] ++ c.lambda0 ++ c.epsP ++ c.epsD ++ [c.cw, c.tret, c.packet, c.slot]) k 0

/-- A credential field of slot `inst` in use (R474). -/
def State.credValue (s : State) (inst id : Nat) : Nat :=
  let p := s.slotPol inst
  match id with
  | 0x0F01 => s.slotType inst
  | 0x0F02 => bits p 15 8
  | 0x0F03 => bits p 23 16
  | 0x0F04 => bits p 5 5
  | 0x0F05 => s.slotLimit inst
  | 0x0F06 => bits p 6 6
  | 0x0F07 => bits p 4 4
  | _ => ofBytesBE (((((s.slotKey inst).getD []).drop (4 * (id - 0x0F10))).take 4))

/-- The value in use of a field (R369). -/
def State.fieldInUse (s : State) (type inst id : Nat) : Nat :=
  let e := sealOf type inst id 0
  if type = 0x0801 then nth (s.mhFields inst) e.index 0
  else if type = 0x0901 then nth (s.meFieldsNow inst) e.index 0
  else if type = 0x0F01 then s.credValue inst id
  else match (palDict type inst id).map (fun f : Config.DictField => f.target inst) with
    | some (.reg a hi lo) => bits (s.reg a).toNat hi lo
    | some (.mem a) => s.rd32 a
    | some (.bank n k) => s.bankWord n k
    | some (.gain n i) => (nth (s.slot n).gains i (0x40000001, 0)).1.toNat
    | some (.offset n i) => (nth (s.slot n).gains i (0x40000001, 0)).2.toNat
    | some (.round k) => s.rnd.cfg.get k
    | some .timeout => s.way.timeout
    | some (.current c) => b2n (nth s.ana.aiCurrent c false)
    | some (.output d) => b2n (nth s.ana.dioOut d false)
    | some .cpArea => s.boot.cpArea
    | some (.aiStart c) => nth s.le.aiStart c 0
    | some (.pdStart d) => nth s.le.pdStart d 0
    | some (.deadTime d) => 10 * s.fld (PD_CFG.DT d)
    | some .watchdog => s.fld SYS_WDT_CFG.TIMEOUT
    | _ => Config.fieldValue type inst id

/-- A value within the dictionary's range of its field; instances count as well (R515). A credential's TYPE has two codes (R474).
-/
def wayInRange (type inst id v : Nat) : Bool :=
  decide (inst < typeInstances type) &&
    if isMetrology type then (sealOf type inst id v).inRange
    else if type = 0x0F01 then (id != 0x0F01 || v == 0 || v == 4) && (credField id).any fun r => decide (r.1 ≤ v) && decide (v ≤ r.2.1)
    else (palDict type inst id).any fun f =>
      match f.kind with
      | .enumerated => f.codes.contains v
      | .float => fisFin b32 v && dictLimit f v == v
      | _ => palSnap (f.target inst) (dictLimit f v) == v

/-- An entry of a change set: record type, instance, field, value. -/
abbrev WayEntry := Nat × Nat × Nat × Nat

/-- Where an entry's value goes. -/
def wayTarget (e : WayEntry) : Config.PalTarget :=
  match palDict e.1 e.2.1 e.2.2.1 with
  | some f => f.target e.2.1
  | none => .nowhere

/-- Bits of a register that hold an LK field. -/
def lkBits (a hi lo : Nat) : Bool :=
  (regDesc a).any fun d => d.fields.any fun f => f.acc == .lk && decide (f.lo ≤ hi) && decide (lo ≤ f.hi)

/-- A field that changes in the running node: metrology, a loop's parameters, and what is no LK field (R511); the dictionary must
mark it live as well (R515). -/
def wayLive (e : WayEntry) : Bool :=
  Config.dictLive e.1 e.2.2.1 && (isMetrology e.1 || match wayTarget e with
    | .bank _ _ | .gain _ _ | .offset _ _ | .mem _ => true
    | .reg a hi lo => !lkBits a hi lo
    | _ => false)

/-- PT_COMMIT of a segment, or of an output. -/
def ptWord (out : Bool) (i : Nat) : Word := PT_COMMIT.GO.put (PT_COMMIT.OUT.put (PT_COMMIT.INDEX.put 0 i) (b2n out)) 1
/-- WFL_COMMIT of a module. -/
def wflWord (l m : Nat) : Word := WFL_COMMIT.GO.put (WFL_COMMIT.LINK.put (WFL_COMMIT.MOD.put 0 m) l) 1

/-- The request by which an entry's shadow reaches its block (R511), none where the write itself acts. -/
def wayReqOf (e : WayEntry) : Option HeldReq :=
  match wayTarget e with
  | .bank n _ | .gain n _ | .offset n _ => some (.swap n)
  | .reg a _ _ =>
    if 0x40071000 ≤ a ∧ a < 0x40075000 then some (.pt (ptWord false ((a - 0x40071000) / 0x40)))
    else if 0x40070100 ≤ a ∧ a < 0x40070200 then some (.pt (ptWord true ((a - 0x40070100) / 0x20)))
    else if 0x400C1000 ≤ a ∧ a < 0x400C7000 then some (.wfl (wflWord ((a - 0x400C1000) / 0x400) ((a - 0x400C1000) % 0x400 / 0x40)))
    else none
  | _ => none

/-- The requests of a set, one for each target. -/
def wayReqs (l : List WayEntry) : List HeldReq :=
  l.foldl (fun r e => match wayReqOf e with
    | some q => if r.any (·.same q) then r else r ++ [q]
    | none => r) []

/-- A trace configuration register is written only while the trace is not armed (R185). -/
def State.trcLocked (s : State) (t : Config.PalTarget) : Bool :=
  match t with
  | .reg a _ _ => s.flag TUNE_TRC_CTL.ARMED && decide (TUNE_TRC_CFG ≤ a) && decide (a < TUNE_TRC_CTL)
  | _ => false

/-- An entry's value written to its shadow, or to its register. -/
def State.wayShadow (s : State) (e : WayEntry) : State :=
  let v := e.2.2.2
  let w : Word := BitVec.ofNat 32 v
  match wayTarget e with
  | .bank n k => s.leParamWrite n k w
  | .gain n i =>
    let x := s.slot n
    s.setSlot n { x with gainsShadow := fillAt x.gainsShadow i (0x40000001, 0) (w, (nth x.gainsShadow i (0x40000001, 0)).2) }
  | .offset n i =>
    let x := s.slot n
    s.setSlot n { x with gainsShadow := fillAt x.gainsShadow i (0x40000001, 0) ((nth x.gainsShadow i (0x40000001, 0)).1, w) }
  | t => if s.trcLocked t then s else s.palApply { inst := e.2.1, target := t, vals := [v] }

/-- One request of a set made: the state, and the code of the block that refuses it (R515). -/
def State.wayRequest (s : State) (q : HeldReq) : State × Nat :=
  if !s.heldRoom q then (s.setFld SYS_LIVE_STAT.CODE Code.refusedCapacity, Code.refusedCapacity)
  else match q with
    | .swap n => (s.request q fun s => s.setFlag (LE_SLOT_CTL.SWAP n) true, Code.ok)
    | .pt v => let t := s.ptCommitWrite v; (t, t.fld PT_STAT.CODE)
    | .wfl v => let t := s.wflCommitWrite v; (t, t.fld WFL_CMT_STAT.CODE)
    | .sa _ | .se _ => (s, Code.ok)

/-- The requests of a set, up to the first refusal. -/
def State.wayRequests (s : State) : List HeldReq → State × Nat
  | [] => (s, Code.ok)
  | q :: t =>
    let r := s.wayRequest q
    if r.2 = Code.ok then r.1.wayRequests t else r

/-- A slot of the set whose swap is still pending, so that its shadow takes no write (R141; log entry 40).
(DESIGN CHOICE, log entry 40) -/
def State.wayBlocked (s : State) (l : List HeldReq) : Bool :=
  l.any fun q => match q with
    | .swap n => s.flag (LE_SLOT_CTL.SWAP n)
    | _ => false

/-- The slot that PAL names passes check 7 of R515. -/
def State.wayPalCheck (s : State) (pal : Nat) : Nat :=
  if pal = 0xFF then Code.ok
  else if 1 < pal then Code.range
  else if s.boot.slotUsed = some pal then Code.refusedState
  else
    let c := s.palCheck pal
    if c ≠ Code.ok then c
    else if s.flashNum pal 0x0C 1 ≠ s.fld SYS_ROLE.ROLE ∨ s.flashNum pal 0x0E 2 ≠ s.nodeId then Code.refusedState
    else Code.ok

/-- The checks 1 to 7 of R515; check 1's right apart. (DESIGN CHOICE, log entry 40) -/
def State.wayCommitCheck (s : State) (no pal : Nat) : Nat :=
  let l := s.live.set
  let metro := l.map fun e : WayEntry => isMetrology e.1
  let seals := l.map fun e : WayEntry => sealOf e.1 e.2.1 e.2.2.1 e.2.2.2
  if s.mh.sealing.isSome ∨ s.live.commit.isSome then Code.refusedState
  else if l.isEmpty ∨ s.live.setNo ≠ no then Code.refusedState
  else if !(l.all fun e : WayEntry => fieldKnown e.1 e.2.2.1 && wayLive e) then Code.refusedLocked
  else if !(l.all fun e : WayEntry => wayInRange e.1 e.2.1 e.2.2.1 e.2.2.2) then Code.range
  else if !((metro.all id && pal == 0xFF) || metro.all (!·)) then Code.format
  else match (if metro.all id then s.sealRefusal l.length seals s.portFields else none) with
    | some (c, _) => c
    | none => s.wayPalCheck pal

/-- The commit point and GO (R516): the boot record names the palette slot, and with GO the entries that no held request stands
for
reach their registers. (DESIGN CHOICE, log entry 40) -/
def State.wayGo (s : State) (pal : Nat) (rest : List WayEntry) : State :=
  let s := if pal = 0xFF then s else s.bootSelWrite (SYS_BOOT_SEL.PAL.put (s.reg SYS_BOOT_SEL) pal)
  (rest.foldl State.wayShadow s).holdGo

/-- COMMIT (R515, R516): the state and the outcome, none while its boot record word waits for the array. -/
def State.wayCommit (s : State) (q : WayReq) (no pal : Nat) : State × Option Nat :=
  let l := s.live.set
  let c := s.wayCommitCheck no pal
  let done (s : State) : State := { s with live := { s.live with setNo := 0, set := [] } }
  if c ≠ Code.ok then (s, some c)
  else if l.all (fun e : WayEntry => isMetrology e.1) then
    let es := l.map fun e : WayEntry => sealOf e.1 e.2.1 e.2.2.1 e.2.2.2
    (done (s.sealCommit es.length es), some Code.ok)
  else
    let qs := wayReqs l
    if s.wayBlocked qs then (s, some Code.refusedState)
    else
      let t := if s.holding then s else s.holdStart
      let r := ((l.filter fun e => (wayReqOf e).isSome).foldl State.wayShadow t).wayRequests qs
      let rest := l.filter fun e => (wayReqOf e).isNone
      if r.2 ≠ Code.ok then (r.1.holdDrop, some r.2)
      else
        let t := done r.1
        if pal ≠ 0xFF ∧ t.pmBlocked 4 then ({ t with live := { t.live with commit := some ⟨q, pal, rest⟩ } }, none)
        else (t.wayGo pal rest, some Code.ok)

/-- WRITE (R514): the set and the code. -/
def State.wayWrite (s : State) (e : WayEntry) (no : Nat) : State × Nat :=
  let l := if s.live.setNo = no then s.live.set else []
  if 64 ≤ l.length then (s, Code.length)
  else ({ s with live := { s.live with setNo := no, set := l ++ [e] } }, Code.ok)

/-- Bytes programmed into the flash of slot `k` (R369). -/
def State.flashWrite (s : State) (k off : Nat) (l : List Byte) : State :=
  { s with flash := (l.foldl (fun p b => (sparseSet flashDefault p.1 (2 ^ 32 * k + p.2 % 2 ^ 32) b, p.2 + 1)) (s.flash, off)).1 }

/-- The slot of the applied palette image or of the running firmware (R369). -/
def State.slotInUse (s : State) (k : Nat) : Bool := s.boot.slotUsed == some k || (s.cp.fw && s.fld VLT_BOOT.SLOT == k)

/-- The entries that FETCH_LEDGER returns from number `no`: those booked, up to 112 (R369). -/
def State.ledgerBytes (s : State) (no : Nat) : Nat → List Byte
  | 0 => []
  | n + 1 =>
    if s.fld MH_LEDGER_NEXT.ENTRY_NO ≤ no ∨ !s.entryBooked (no % 4096) ∨ s.rd32 (pmAddr (ledgerAt no)) ≠ no then []
    else s.pmBytes (ledgerAt no) 32 ++ s.ledgerBytes (no + 1) n

/-- The corrected reads of ledger bytes fetched from entry `no` (R438). -/
def State.ledgerSoft (s : State) (no : Nat) (l : List Byte) : Nat :=
  ((List.range (l.length / 32)).map fun i => s.pmSoft (ledgerAt (no + i)) 32).sum

/-- The condition report as PM holds it (R96, R97). -/
def State.reportBytes (s : State) : List Byte := s.pmBytes 0x4000 (0x40 + 16 * min 1020 s.boot.report.length)

/-- What the palette image's slot preferences become (R369); none for a byte that is no preference. -/
def State.waySel (s : State) (pal fw : Nat) : Option Word :=
  let ok (b : Nat) : Bool := b == 0 || b == 1 || b == 0xFF
  if !(ok pal && ok fw) then none
  else
    let w := s.reg SYS_BOOT_SEL
    let w := if pal = 0xFF then w else SYS_BOOT_SEL.PAL.put w pal
    some (if fw = 0xFF then w else SYS_BOOT_SEL.FW.put w fw)

end Sys2Proof.Machine
end

