-- ==== Sys2Proof/Machine/Way.lean ====
section
/-! DEFINITION. The waystation server: its records, its session and its services (R367 to R372). -/

namespace Sys2Proof.Machine

/-- A number in a request's record. -/
def WayReq.num (q : WayReq) (off n : Nat) : Nat := ofBytes ((q.rec_.drop off).take n)
/-- SERVICE of a request (R368). -/
def WayReq.service (q : WayReq) : Nat := q.num 1 1
/-- SEC of a request. -/
def WayReq.sec (q : WayReq) : Bool := bit (q.num 2 1) 0
/-- SEQ of a request. -/
def WayReq.seq (q : WayReq) : Nat := q.num 8 4

/-- The request that entry `e` of the caravan queue of `chan` holds: a complete WAY_REQ that software owns (R363, R367).
(DESIGN CHOICE, log entry 59) -/
def State.wayRequestAt (s : State) (chan e : Nat) : Option WayReq :=
  let a := s.fld (busField chan 0x28 31 0) + 16 * e
  let x := s.rd8 (a + 10)
  if (s.ackCount chan 0x38 (s.cqDepth chan) e).isNone ∨ bits (s.rd32 a) 25 20 ≠ 4 ∨ s.rd8 (a + 4) ≠ 0 then none
  else
    let src := ((nth (s.ch chan).ctx x.toNat none).map (·.src)).getD []
    some ⟨chan, s.rdBytes (s.ctxAt chan x.toNat) (bits (s.rd32 (a + 8)) 11 0), src⟩

/-- The IV of a record (R371): the direction, seven zero bytes, SEQ. -/
def wayIv (dir seq : Nat) : List Byte := toBytes 1 dir ++ List.replicate 7 0 ++ toBytesBE 4 seq

/-- The first twelve bytes of a response (R368). -/
def State.wayHead (s : State) (q : WayReq) (sec : Bool) (status seq : Nat) : List Byte :=
  toBytes 4 (1 + 2 ^ 8 * q.service + 2 ^ 16 * b2n sec + 2 ^ 24 * status)
    ++ toBytes 4 (s.nodeId + 2 ^ 16 * q.num 6 2) ++ toBytes 4 seq

/-- A WAY_RSP queued on the channel or port of its request, on a port to where it came from (R367). -/
def State.waySend (s : State) (q : WayReq) (r : List Byte) : State :=
  s.handMsg { chan := q.chan, prio := 4, type := 0x05, node := s.nodeId, record := r, dst := q.src }

/-- A response in clear. -/
def State.wayClear (s : State) (q : WayReq) (status : Nat) (body : List Byte) : State :=
  s.waySend q (s.wayHead q false status 0 ++ body)

/-- A response sealed under the open session, which closes after SEQ 0xFFFF_FFFF (R371, R372). -/
def State.waySealed (s : State) (q : WayReq) (status : Nat) (body : List Byte) : State :=
  match s.way.sess with
  | none => s.wayClear q status body
  | some x =>
    let n := x.seqOut + 1
    let h := s.wayHead q true status n
    let s := (s.setWay { s.way with sess := some { x with seqOut := n } }).waySend q (h ++ Config.gcmSeal x.keyOut (wayIv 2 n) h body)
    if 0xFFFFFFFF ≤ n ∨ 0xFFFFFFFF ≤ x.seqIn then s.sessionClose else s

/-- A response, sealed where the request was. -/
def State.wayAnswer (s : State) (q : WayReq) (status : Nat) (body : List Byte) : State :=
  if q.sec then s.waySealed q status body else s.wayClear q status body

/-- A sealed record that the session refuses: the third in a row closes it (R371). -/
def State.wayBad (s : State) (q : WayReq) (x : Session) : State :=
  let s := if 2 ≤ x.bad then s.sessionClose else s.setWay { s.way with sess := some { x with bad := x.bad + 1 } }
  s.wayClear q Code.refusedAuth []

/-- The session has been idle longer than its timeout (R372). -/
def State.wayIdle (s : State) : Bool :=
  s.way.sess.any fun x => decide (x.last + 100000 * s.way.timeout < s.le.tick)

/-- Open values for a handshake: the ephemeral key, the nonce, the per-message secret of the signature. -/
def State.wayFrees (s : State) : Nat × Nat × Nat := (s.freeValue, s.takeFree.freeValue, s.takeFree.takeFree.freeValue)

/-- OPEN (R370): body Qr, Nr, key slot. (DESIGN CHOICE, log entry 59) -/
def State.wayOpen (s : State) (q : WayReq) (b : List Byte) : State :=
  let s := if s.wayIdle then s.sessionClose else s
  let slot := (nth b 80 0).toNat
  if s.zeroed then s.wayAnswer q Code.tamper []
  else if s.way.sess.isSome then s.wayAnswer q Code.refusedState []
  else if 31 < slot ∨ !(Config.onCurve false (b.take 64)) then s.wayAnswer q Code.range []
  else if s.noRandom ∨ s.untested then s.wayAnswer q Code.refusedSelftest []
  else
    let (d, nn, k) := s.wayFrees
    let part := s.wayHead q false Code.ok 0 ++ Config.ecPub false (privOf d) ++ toBytes 16 nn
    let hs := Config.sha256 (q.rec_ ++ part)
    let s := s.takeFree.takeFree.takeFree
    let s := s.setWay { s.way with hand := some { slot := slot, hs := hs, priv := privOf d, qr := b.take 64 } }
    s.waySend q (part ++ Config.ecdsaSign s.attestPriv (privOf k) hs)

/-- FINISH (R370, R471): body the signature. A check against the slot is a use of it, whatever its outcome.
(DESIGN CHOICE, log entry 59) -/
def State.wayFinish (s : State) (q : WayReq) (b : List Byte) : State :=
  match s.way.hand with
  | none => s.wayAnswer q Code.refusedState []
  | some h =>
    let s := s.setWay { s.way with hand := none }
    let cred := s.slotType h.slot == 4 && bit (s.slotPol h.slot) 15
    if !cred then s.wayAnswer q Code.refusedAuth []
    else if s.spent h.slot then s.wayAnswer q Code.refusedLocked []
    else
      let pub := s.credKey h.slot
      let s := (s.vaultWriteAll (s.useWords h.slot)).vltShow
      let digest := Config.sha256 (h.hs ++ ascii "FINISH")
      if !(pub.any fun p => Config.ecdsaVerify false p digest (b.take 64)) then s.wayAnswer q Code.refusedAuth []
      else
        let keys := kdf (Config.ecdhX false h.priv h.qr) (ascii "WAYSTATION") h.hs 512
        let rights := bits (s.slotPol h.slot) 21 16
        let x : Session := { slot := h.slot, rights := rights, keyIn := keys.take 32, keyOut := (keys.drop 32).take 32
                             last := s.le.tick }
        let s := { s.setWay { s.way with sess := some x } with mh := { s.mh with slot := h.slot } }
        (s.showRights).waySealed q Code.ok (toBytes 1 rights)

/-- UPLOAD (R369): body SLOT, flash offset, LEN, data. (DESIGN CHOICE, log entry 59) -/
def State.wayUpload (s : State) (b : List Byte) : State × Nat :=
  let k := (nth b 0 0).toNat
  let off := ofBytes ((b.drop 1).take 4)
  let n := ofBytes ((b.drop 5).take 2)
  if 3584 < n ∨ b.length < 7 + n then (s, Code.length)
  else if 1 < k ∨ 2 ^ 32 < off + n then (s, Code.range)
  else if s.slotInUse k then (s, Code.refusedState)
  else (s.flashWrite k off ((b.drop 7).take n), Code.ok)

/-- FETCH_ATTEST (R487): body nonce and offset. -/
def State.wayAttest (s : State) (q : WayReq) (b : List Byte) : State :=
  let off := ofBytes ((b.drop 32).take 4)
  if s.zeroed then s.wayAnswer q Code.tamper []
  else if s.noRandom ∨ s.untested then s.wayAnswer q Code.refusedSelftest []
  else
    let st := s.attestation (b.take 32) (privOf s.freeValue)
    let s := s.takeFree
    if st.length ≤ off then s.wayAnswer q Code.length [] else s.wayAnswer q Code.ok ((st.drop off).take 3584)

/-- READ (R369): body TYPE, INSTANCE, FIELD_ID. (DESIGN CHOICE, log entry 59) -/
def State.wayRead (s : State) (q : WayReq) (b : List Byte) : State :=
  let type := ofBytes (b.take 2)
  let inst := ofBytes ((b.drop 2).take 2)
  let id := ofBytes ((b.drop 4).take 2)
  if !fieldKnown type id then s.wayAnswer q Code.unknownRecord []
  else if typeInstances type ≤ inst then s.wayAnswer q Code.range []
  else if !(q.sec || Config.dictPublic type id) then s.wayAnswer q Code.refusedAuth []
  else s.wayAnswer q Code.ok (toBytes 4 (s.fieldInUse type inst id))

/-- The services served by the steward in the ground configuration, or while no firmware verifies (R99, R102).
(DESIGN CHOICE, log entry 59) -/
def groundServices : List Nat := [0x01, 0x04, 0x05, 0x06, 0x07, 0x0A, 0x0B, 0x0C, 0x0E, 0x0F]

/-- The right that a service needs (R369). (DESIGN CHOICE, log entry 59) -/
def serviceRight (n : Nat) : Option Nat :=
  if n = 0x03 ∨ n = 0x08 ∨ n = 0x09 then some 0
  else if n = 0x04 ∨ n = 0x0E ∨ n = 0x0F then some 1
  else if n = 0x0D then some 2
  else none

/-- The bytes that a service's fixed fields take. (DESIGN CHOICE, log entry 59) -/
def serviceLen (n : Nat) : Nat := nth [0, 0, 6, 14, 7, 4, 4, 36, 1, 5, 81, 64, 0, 4, 2, 0] n 0

/-- A code and nothing else answered. (DEDUCED, log entry 41) -/
def State.wayCode (q : WayReq) (r : State × Nat) : State := r.1.wayAnswer q r.2 []

/-- The service of a request with its body in clear (R369). (DEDUCED, log entry 41; DESIGN CHOICE, log entry 59) -/
def State.wayRun (s : State) (q : WayReq) (b : List Byte) : State :=
  let n := q.service
  if !s.cp.fw && !groundServices.contains n then s.wayAnswer q Code.refusedState []
  else if n = 0 ∨ 0x0F < n then s.wayAnswer q Code.unknownRecord []
  else if (n = 0x0C ∧ !q.sec) ∨ (serviceRight n).any (fun r => !(q.sec && s.hasRight r)) then s.wayAnswer q Code.refusedAuth []
  else if b.length < serviceLen n then s.wayAnswer q Code.length []
  else match n with
    | 0x01 =>
      s.wayAnswer q Code.ok (s.beatData ++ toBytes 4 (s.reg SYS_PAL_STAT).toNat ++ toBytes 4 (s.reg SYS_PROF_STAT).toNat
        ++ toBytes 4 (s.reg SYS_TOT_STAT).toNat ++ toBytes 4 (s.reg LCS_CAUSE).toNat)
    | 0x02 => s.wayRead q b
    | 0x03 =>
      (s.wayWrite (ofBytes (b.take 2), ofBytes ((b.drop 2).take 2), ofBytes ((b.drop 4).take 2), ofBytes ((b.drop 6).take 4))
        (ofBytes ((b.drop 10).take 4))) |> State.wayCode q
    | 0x04 => State.wayCode q (s.wayUpload b)
    | 0x05 =>
      let off := ofBytes (b.take 4)
      if s.reportBytes.length ≤ off then s.wayAnswer q Code.length []
      else
        let l := (s.reportBytes.drop off).take 3584
        (s.ceCount (s.pmSoft (0x4000 + off / 8 * 8) (l.length + off % 8))).wayAnswer q Code.ok l
    | 0x06 =>
      let first := ofBytes (b.take 4)
      let no := if first = 0xFFFFFFFF then s.ackWord else first
      let l := s.ledgerBytes no 112
      (s.ceCount (s.ledgerSoft no l)).wayAnswer q Code.ok l
    | 0x07 => s.wayAttest q b
    | 0x08 =>
      let t := s.profRequest ((nth b 0 0).toNat % 8)
      if 7 < (nth b 0 0).toNat then s.wayAnswer q Code.range []
      else t.wayAnswer q Code.ok (toBytes 1 (t.fld SYS_PROF_STAT.CODE))
    | 0x09 =>
      match s.wayCommit q (ofBytes (b.take 4)) (nth b 4 0).toNat with
      | (t, some c) => t.wayAnswer q c []
      | (t, none) => t
    | 0x0A => s.wayOpen q b
    | 0x0B => s.wayFinish q b
    | 0x0C => (s.wayAnswer q Code.ok []).sessionClose
    | 0x0D => (if s.flag MH_STAT.MAUTH then s.ledgerAck (ofBytes (b.take 4)) else s).wayAnswer q Code.ok []
    | 0x0E =>
      match s.waySel (nth b 0 0).toNat (nth b 1 0).toNat with
      | some w => (s.bootSelWrite w).wayAnswer q Code.ok []
      | none => s.wayAnswer q Code.range []
    | _ =>
      let t := (s.wayAnswer q Code.ok []).askSysrst 8 true
      { t with rst := { t.rst with answer := some (s.net.msgs, s.le.tick) } }

/-- A request served (R367, R368): a node that is not the target does not answer; a sealed record is opened under the session
first (R371). (DESIGN CHOICE, log entry 59) -/
def State.wayServe (s : State) (q : WayReq) : State :=
  if q.rec_.length < 12 ∨ q.num 4 2 % 2 ^ 13 ≠ s.nodeId then s
  else if q.num 0 1 ≠ 1 ∨ 1 < q.num 2 1 ∨ q.num 3 1 ≠ 0 ∨ 2 ^ 13 ≤ q.num 4 2 ∨ (!q.sec ∧ q.seq ≠ 0) then
    s.wayClear q Code.format []
  else if !q.sec then s.wayRun q (q.rec_.drop 12)
  else
    match s.way.sess with
    | none => s.wayClear q Code.refusedAuth []
    | some x =>
      match (if x.seqIn < q.seq then Config.gcmOpen x.keyIn (wayIv 1 q.seq) (q.rec_.take 12) (q.rec_.drop 12) else none) with
      | none => s.wayBad q x
      | some b => (s.setWay { s.way with sess := some { x with seqIn := q.seq, bad := 0, last := s.le.tick } }).wayRun q b

/-- Requests are served: after the start tick, not during CPRST, HOLDUP or SLEEP (R367). (DESIGN CHOICE, log entry 59) -/
def State.wayServes (s : State) : Bool :=
  s.started && !s.cp.cprst && !s.rst.cp && !s.rst.sys && !s.inHoldup && !s.inSleep && !s.pwr.stall

/-- The request in entry `e` of the caravan queue of `chan` served where `mine` takes its service code. -/
def State.wayService (s : State) (mine : Nat → Bool) (chan e : Nat) : State :=
  match s.wayRequestAt chan e with
  | none => s
  | some q => if s.wayServes && mine q.service then s.wayServe q else s

/-- STATUS (R369), and a request of a service that the table does not hold (log entry 41). (DEDUCED, log entry 41) -/
def execReqStatus (chan : Fin 10) (entry : Fin 512) (s : State) : Out :=
  State.out <| s.wayService (fun n => n == 1 || n == 0 || decide (15 < n)) chan entry

/-- READ (R369). -/
def execReqRead (chan : Fin 10) (entry : Fin 512) (s : State) : Out := State.out <| s.wayService (· == 2) chan entry

/-- WRITE (R369, R514). -/
def execReqWrite (chan : Fin 10) (entry : Fin 512) (s : State) : Out := State.out <| s.wayService (· == 3) chan entry

/-- UPLOAD (R369). -/
def execReqUpload (chan : Fin 10) (entry : Fin 512) (s : State) : Out := State.out <| s.wayService (· == 4) chan entry

/-- FETCH_REPORT (R97, R369). -/
def execReqFetchReport (chan : Fin 10) (entry : Fin 512) (s : State) : Out := State.out <| s.wayService (· == 5) chan entry

/-- FETCH_LEDGER (R310, R369). -/
def execReqFetchLedger (chan : Fin 10) (entry : Fin 512) (s : State) : Out := State.out <| s.wayService (· == 6) chan entry

/-- FETCH_ATTEST (R369, R487). -/
def execReqFetchAttest (chan : Fin 10) (entry : Fin 512) (s : State) : Out := State.out <| s.wayService (· == 7) chan entry

/-- PROFILE (R72, R369). -/
def execReqProfile (chan : Fin 10) (entry : Fin 512) (s : State) : Out := State.out <| s.wayService (· == 8) chan entry

/-- COMMIT (R515, R516). -/
def execReqCommit (chan : Fin 10) (entry : Fin 512) (s : State) : Out := State.out <| s.wayService (· == 9) chan entry

/-- OPEN (R370). -/
def execReqOpen (chan : Fin 10) (entry : Fin 512) (s : State) : Out := State.out <| s.wayService (· == 10) chan entry

/-- FINISH (R370, R371). -/
def execReqFinish (chan : Fin 10) (entry : Fin 512) (s : State) : Out := State.out <| s.wayService (· == 11) chan entry

/-- CLOSE (R372). -/
def execReqClose (chan : Fin 10) (entry : Fin 512) (s : State) : Out := State.out <| s.wayService (· == 12) chan entry

/-- LEDGER_ACK (R310, R369). -/
def execReqLedgerAck (chan : Fin 10) (entry : Fin 512) (s : State) : Out := State.out <| s.wayService (· == 13) chan entry

/-- BOOT_SEL (R103, R369). -/
def execReqBootSel (chan : Fin 10) (entry : Fin 512) (s : State) : Out := State.out <| s.wayService (· == 14) chan entry

/-- RESTART (R22, R369). -/
def execReqRestart (chan : Fin 10) (entry : Fin 512) (s : State) : Out := State.out <| s.wayService (· == 15) chan entry

/-- A COMMIT that waits goes on once the array is free: its commit point, GO, and its answer (R516); where its hold has been
dropped
by then (R513) it applies nothing. (DESIGN CHOICE, log entry 40) -/
def State.commitGoesOn (s : State) : State :=
  match s.live.commit with
  | none => s
  | some w =>
    if s.pmBlocked 4 then s
    else
      let t : State := { s with live := { s.live with commit := none } }
      if t.holding then (t.wayGo w.pal w.rest).wayAnswer w.req Code.ok [] else t.wayAnswer w.req Code.skipped []

/-- SESSION_TIMEOUT (R372). -/
def execSessionTimeout (s : State) : Out := State.out <| if s.wayIdle then s.sessionClose else s

end Sys2Proof.Machine
end

