-- ==== Sys2Proof/Machine/Tick.lean ====
section
/-! DEFINITION. The engine tick (R121). -/

namespace Sys2Proof.Machine

/-- ENGINE_TICK (R121, R287, R375): a tick boundary while the PLL drives the engine. SYS_MTIME and NT advance by 10 µs, LE_TICK by
one, the lease shown in SYS_COORD_STAT runs down, a condition report goes on (R96), and so does a COMMIT that waits for the array
(R516). (DESIGN CHOICE, log entry 63) -/
def execEngineTick (s : State) : Out :=
  State.out <|
    if !s.flag SYS_CLK_STAT.PLL_LOCK || s.pwr.stall then s
    else
      let s := (s.setMtime (s.time.mtime + 10)).ntAdvance (s.ntGain 1000) false
      let s := if s.started && !s.pwr.resume && !s.inSleep then (s.setTick (s.le.tick + 1)).seShow else s
      (s.showRound.setFld SYS_COORD_STAT.LEASE (s.fld SYS_COORD_STAT.LEASE - 1)).reportTick.commitGoesOn

end Sys2Proof.Machine
end

