-- ==== Sys2Proof/Machine/Dispatch.lean ====
section
/-! DEFINITION. The meaning of every command: one arm for each. -/

namespace Sys2Proof.Machine

/-- The effect of a command on everything but the queue. -/
def exec (i : Instr) (s : State) : Host.Outcome State Fault Refusal :=
  match i with
  | .pmLoad v => Sys2Proof.Machine.execPmLoad v s
  | .pmCommit v => Sys2Proof.Machine.execPmCommit v s
  | .pmDiscard v => Sys2Proof.Machine.execPmDiscard v s
  | .pmCommitEnd => Sys2Proof.Machine.execPmCommitEnd s
  | .pmUnlock v => Sys2Proof.Machine.execPmUnlock v s
  | .pmLock v => Sys2Proof.Machine.execPmLock v s
  | .unlockWaitEnd part => Sys2Proof.Machine.execUnlockWaitEnd part s
  | .pmScCmd v => Sys2Proof.Machine.execPmScCmd v s
  | .ceHour => Sys2Proof.Machine.execCeHour s
  | .eccCountedRead addr ecc progress => Sys2Proof.Machine.execEccCountedRead addr ecc progress s
  | .integrationInstant hm => Sys2Proof.Machine.execIntegrationInstant hm s
  | .calculatorStep hm => Sys2Proof.Machine.execCalculatorStep hm s
  | .rtdConversion chan ohms overlap => Sys2Proof.Machine.execRtdConversion chan ohms overlap s
  | .rtdPeriod chan => Sys2Proof.Machine.execRtdPeriod chan s
  | .aiFlowConversion hm level overlap => Sys2Proof.Machine.execAiFlowConversion hm level overlap s
  | .mhSealCmd v => Sys2Proof.Machine.execMhSealCmd v s
  | .sealedCommitEnd => Sys2Proof.Machine.execSealedCommitEnd s
  | .mhLedgerAck v => Sys2Proof.Machine.execMhLedgerAck v s
  | .meCommitWaitTimeout => Sys2Proof.Machine.execMeCommitWaitTimeout s
  | .meteringSample codes overlap => Sys2Proof.Machine.execMeteringSample codes overlap s
  | .meteringBlock port => Sys2Proof.Machine.execMeteringBlock port s
  | .periodicSave => Sys2Proof.Machine.execPeriodicSave s
  | .totalsSaveEnd => Sys2Proof.Machine.execTotalsSaveEnd s
  | .runMark => Sys2Proof.Machine.execRunMark s
  | .vaultUp => Sys2Proof.Machine.execVaultUp s
  | .por feed cut => Sys2Proof.Machine.execPor feed cut s
  | .sysrst cut => Sys2Proof.Machine.execSysrst cut s
  | .cprst => Sys2Proof.Machine.execCprst s
  | .rstN => Sys2Proof.Machine.execRstN s
  | .cprstRequest v => Sys2Proof.Machine.execCprstRequest v s
  | .sysrstRequest v => Sys2Proof.Machine.execSysrstRequest v s
  | .registerWrite addr v => Sys2Proof.Machine.execRegisterWrite addr v s
  | .supervisorCheck m => Sys2Proof.Machine.execSupervisorCheck m s
  | .leaseExpiry feed => Sys2Proof.Machine.execLeaseExpiry feed s
  | .controllerFaultFlag feed => Sys2Proof.Machine.execControllerFaultFlag feed s
  | .handoverGrant => Sys2Proof.Machine.execHandoverGrant s
  | .holdWindowClose => Sys2Proof.Machine.execHoldWindowClose s
  | .clockRestart => Sys2Proof.Machine.execClockRestart s
  | .leResume => Sys2Proof.Machine.execLeResume s
  | .railShutdown cut => Sys2Proof.Machine.execRailShutdown cut s
  | .supervisedHandoverRequest v => Sys2Proof.Machine.execSupervisedHandoverRequest v s
  | .feed1h feed => Sys2Proof.Machine.execFeed1h feed s
  | .pfWarnDeassert => Sys2Proof.Machine.execPfWarnDeassert s
  | .holdupEffect => Sys2Proof.Machine.execHoldupEffect s
  | .holdupReturn => Sys2Proof.Machine.execHoldupReturn s
  | .hfxoStable => Sys2Proof.Machine.execHfxoStable s
  | .coreReady => Sys2Proof.Machine.execCoreReady s
  | .hfxoLoss => Sys2Proof.Machine.execHfxoLoss s
  | .sysProfReq v => Sys2Proof.Machine.execSysProfReq v s
  | .profileChange => Sys2Proof.Machine.execProfileChange s
  | .wakePerSample w => Sys2Proof.Machine.execWakePerSample w s
  | .wakeSource src dio => Sys2Proof.Machine.execWakeSource src dio s
  | .sleepExit => Sys2Proof.Machine.execSleepExit s
  | .bootTestEnd pass => Sys2Proof.Machine.execBootTestEnd pass s
  | .pmReady => Sys2Proof.Machine.execPmReady s
  | .qspiIdentTimeout => Sys2Proof.Machine.execQspiIdentTimeout s
  | .paletteReadEnd => Sys2Proof.Machine.execPaletteReadEnd s
  | .signatureVerified => Sys2Proof.Machine.execSignatureVerified s
  | .startTick us => Sys2Proof.Machine.execStartTick us s
  | .firmwareVerified us => Sys2Proof.Machine.execFirmwareVerified us s
  | .sysPalRoll v => Sys2Proof.Machine.execSysPalRoll v s
  | .sysBootSel v => Sys2Proof.Machine.execSysBootSel v s
  | .lockstepMismatch => Sys2Proof.Machine.execLockstepMismatch s
  | .machineTimer => Sys2Proof.Machine.execMachineTimer s
  | .accessFault x ue => Sys2Proof.Machine.execAccessFault x ue s
  | .sramEccCorrection => Sys2Proof.Machine.execSramEccCorrection s
  | .intcClaim => Sys2Proof.Machine.execIntcClaim s
  | .intcCompletion v => Sys2Proof.Machine.execIntcCompletion v s
  | .sysFwStatClear v => Sys2Proof.Machine.execSysFwStatClear v s
  | .sysWdtKick v => Sys2Proof.Machine.execSysWdtKick v s
  | .wdtPrewarning => Sys2Proof.Machine.execWdtPrewarning s
  | .wdtFirstExpiry => Sys2Proof.Machine.execWdtFirstExpiry s
  | .wdtSecondExpiry => Sys2Proof.Machine.execWdtSecondExpiry s
  | .engineTick => Sys2Proof.Machine.execEngineTick s
  | .conversionEnd c overlap => Sys2Proof.Machine.execConversionEnd c overlap s
  | .loopWindow slot => Sys2Proof.Machine.execLoopWindow slot s
  | .overrun slot => Sys2Proof.Machine.execOverrun slot s
  | .trip input => Sys2Proof.Machine.execTrip input s
  | .tripLatchClear v => Sys2Proof.Machine.execTripLatchClear v s
  | .swapRequest slot v => Sys2Proof.Machine.execSwapRequest slot v s
  | .leStateWrite slot k v => Sys2Proof.Machine.execLeStateWrite slot k v s
  | .leParamWrite slot k v => Sys2Proof.Machine.execLeParamWrite slot k v s
  | .faultClear slot v => Sys2Proof.Machine.execFaultClear slot v s
  | .cellReschedule cell => Sys2Proof.Machine.execCellReschedule cell s
  | .planStepBoundary => Sys2Proof.Machine.execPlanStepBoundary s
  | .pgUpdate chan => Sys2Proof.Machine.execPgUpdate chan s
  | .pgTarget chan v => Sys2Proof.Machine.execPgTarget chan v s
  | .pgPlanComplete chan => Sys2Proof.Machine.execPgPlanComplete chan s
  | .pgStop chan v => Sys2Proof.Machine.execPgStop chan v s
  | .pgPreset chan v => Sys2Proof.Machine.execPgPreset chan v s
  | .pgEnable chan v => Sys2Proof.Machine.execPgEnable chan v s
  | .comparePoint drive => Sys2Proof.Machine.execComparePoint drive s
  | .pdClrOc drive v => Sys2Proof.Machine.execPdClrOc drive v s
  | .pdClrHu drive v => Sys2Proof.Machine.execPdClrHu drive v s
  | .injectionGo v => Sys2Proof.Machine.execInjectionGo v s
  | .injectionStop v => Sys2Proof.Machine.execInjectionStop v s
  | .traceArm v => Sys2Proof.Machine.execTraceArm v s
  | .traceStop v => Sys2Proof.Machine.execTraceStop v s
  | .canvasReadyRequest entry v => Sys2Proof.Machine.execCanvasReadyRequest entry v s
  | .canvasLoadCancel entry v => Sys2Proof.Machine.execCanvasLoadCancel entry v s
  | .canvasStoreWrite off size v => Sys2Proof.Machine.execCanvasStoreWrite off size v s
  | .jobSubmit prio v busy cycles => Sys2Proof.Machine.execJobSubmit prio v busy cycles s
  | .jobStart => Sys2Proof.Machine.execJobStart s
  | .waveEnd bad corrected => Sys2Proof.Machine.execWaveEnd bad corrected s
  | .jobDeadline cut => Sys2Proof.Machine.execJobDeadline cut s
  | .saSwap v => Sys2Proof.Machine.execSaSwap v s
  | .canvasSwap slot => Sys2Proof.Machine.execCanvasSwap slot s
  | .saClockRestart cut => Sys2Proof.Machine.execSaClockRestart cut s
  | .ptUpdate => Sys2Proof.Machine.execPtUpdate s
  | .ptCommit v => Sys2Proof.Machine.execPtCommit v s
  | .roundBoundary => Sys2Proof.Machine.execRoundBoundary s
  | .solveEnd => Sys2Proof.Machine.execSolveEnd s
  | .replyEnd => Sys2Proof.Machine.execReplyEnd s
  | .collect => Sys2Proof.Machine.execCollect s
  | .coordLeaseLapse => Sys2Proof.Machine.execCoordLeaseLapse s
  | .candSend => Sys2Proof.Machine.execCandSend s
  | .canFrameReceived chan f sof => Sys2Proof.Machine.execCanFrameReceived chan f sof s
  | .caravanTimeout chan ctx => Sys2Proof.Machine.execCaravanTimeout chan ctx s
  | .canRxAck chan v => Sys2Proof.Machine.execCanRxAck chan v s
  | .canCqAck chan v => Sys2Proof.Machine.execCanCqAck chan v s
  | .canTxReq chan v => Sys2Proof.Machine.execCanTxReq chan v s
  | .canFrameStart chan cycles => Sys2Proof.Machine.execCanFrameStart chan cycles s
  | .canFrameEnd chan outcome => Sys2Proof.Machine.execCanFrameEnd chan outcome s
  | .canTxAbort chan v => Sys2Proof.Machine.execCanTxAbort chan v s
  | .recover chan v => Sys2Proof.Machine.execRecover chan v s
  | .busOffRecovery chan => Sys2Proof.Machine.execBusOffRecovery chan s
  | .canMode chan v => Sys2Proof.Machine.execCanMode chan v s
  | .restrictedOperation chan => Sys2Proof.Machine.execRestrictedOperation chan s
  | .wup chan v => Sys2Proof.Machine.execWup chan v s
  | .wakeUpPattern chan => Sys2Proof.Machine.execWakeUpPattern chan s
  | .heartbeat chan => Sys2Proof.Machine.execHeartbeat chan s
  | .ethDatagram port frame sof => Sys2Proof.Machine.execEthDatagram port frame sof s
  | .reqStatus chan entry => Sys2Proof.Machine.execReqStatus chan entry s
  | .reqRead chan entry => Sys2Proof.Machine.execReqRead chan entry s
  | .reqWrite chan entry => Sys2Proof.Machine.execReqWrite chan entry s
  | .reqUpload chan entry => Sys2Proof.Machine.execReqUpload chan entry s
  | .reqFetchReport chan entry => Sys2Proof.Machine.execReqFetchReport chan entry s
  | .reqFetchLedger chan entry => Sys2Proof.Machine.execReqFetchLedger chan entry s
  | .reqFetchAttest chan entry => Sys2Proof.Machine.execReqFetchAttest chan entry s
  | .reqProfile chan entry => Sys2Proof.Machine.execReqProfile chan entry s
  | .reqCommit chan entry => Sys2Proof.Machine.execReqCommit chan entry s
  | .reqOpen chan entry => Sys2Proof.Machine.execReqOpen chan entry s
  | .reqFinish chan entry => Sys2Proof.Machine.execReqFinish chan entry s
  | .reqClose chan entry => Sys2Proof.Machine.execReqClose chan entry s
  | .reqLedgerAck chan entry => Sys2Proof.Machine.execReqLedgerAck chan entry s
  | .reqBootSel chan entry => Sys2Proof.Machine.execReqBootSel chan entry s
  | .reqRestart chan entry => Sys2Proof.Machine.execReqRestart chan entry s
  | .sessionTimeout => Sys2Proof.Machine.execSessionTimeout s
  | .refSend => Sys2Proof.Machine.execRefSend s
  | .refWithdrawn chan => Sys2Proof.Machine.execRefWithdrawn chan s
  | .refReceive chan node data sof => Sys2Proof.Machine.execRefReceive chan node data sof s
  | .holdoverExpiry => Sys2Proof.Machine.execHoldoverExpiry s
  | .sysNtStep v => Sys2Proof.Machine.execSysNtStep v s
  | .sysNtRate v => Sys2Proof.Machine.execSysNtRate v s
  | .fwValid v => Sys2Proof.Machine.execFwValid v s
  | .inval v => Sys2Proof.Machine.execInval v s
  | .ptpSend port v => Sys2Proof.Machine.execPtpSend port v s
  | .ptpTimestamp port cycles => Sys2Proof.Machine.execPtpTimestamp port cycles s
  | .load v => Sys2Proof.Machine.execLoad v s
  | .loadEffect => Sys2Proof.Machine.execLoadEffect s
  | .aonShift v => Sys2Proof.Machine.execAonShift v s
  | .secondBoundary => Sys2Proof.Machine.execSecondBoundary s
  | .alarm n => Sys2Proof.Machine.execAlarm n s
  | .clrhi v => Sys2Proof.Machine.execClrhi v s
  | .lockout => Sys2Proof.Machine.execLockout s
  | .vbatSwitch => Sys2Proof.Machine.execVbatSwitch s
  | .lockoutLift => Sys2Proof.Machine.execLockoutLift s
  | .pulseCount p => Sys2Proof.Machine.execPulseCount p s
  | .wflCycleInstant link => Sys2Proof.Machine.execWflCycleInstant link s
  | .wflResponse link frame parity cycles => Sys2Proof.Machine.execWflResponse link frame parity cycles s
  | .responseTimeout link cycles => Sys2Proof.Machine.execResponseTimeout link cycles s
  | .wflCommit v => Sys2Proof.Machine.execWflCommit v s
  | .wflOutWrite entry v => Sys2Proof.Machine.execWflOutWrite entry v s
  | .seCycle cycles exchange => Sys2Proof.Machine.execSeCycle cycles exchange s
  | .seSkip => Sys2Proof.Machine.execSeSkip s
  | .seXchg v => Sys2Proof.Machine.execSeXchg v s
  | .seForceSet v => Sys2Proof.Machine.execSeForceSet v s
  | .seForceClr v => Sys2Proof.Machine.execSeForceClr v s
  | .vltHash a => Sys2Proof.Machine.execVltHash a s
  | .vltHmac a => Sys2Proof.Machine.execVltHmac a s
  | .vltCmac a => Sys2Proof.Machine.execVltCmac a s
  | .vltGcmSeal a => Sys2Proof.Machine.execVltGcmSeal a s
  | .vltGcmOpen a => Sys2Proof.Machine.execVltGcmOpen a s
  | .vltSign a => Sys2Proof.Machine.execVltSign a s
  | .vltVerify a => Sys2Proof.Machine.execVltVerify a s
  | .vltEcdh a => Sys2Proof.Machine.execVltEcdh a s
  | .vltGenerate a => Sys2Proof.Machine.execVltGenerate a s
  | .vltLoadPub a => Sys2Proof.Machine.execVltLoadPub a s
  | .vltImport a => Sys2Proof.Machine.execVltImport a s
  | .vltExport a => Sys2Proof.Machine.execVltExport a s
  | .vltErase a => Sys2Proof.Machine.execVltErase a s
  | .vltPolicy a => Sys2Proof.Machine.execVltPolicy a s
  | .vltRandom a => Sys2Proof.Machine.execVltRandom a s
  | .vltPubkey a => Sys2Proof.Machine.execVltPubkey a s
  | .vltAttest a => Sys2Proof.Machine.execVltAttest a s
  | .vltProvision a => Sys2Proof.Machine.execVltProvision a s
  | .vltCert a => Sys2Proof.Machine.execVltCert a s
  | .vltCommandEnd => Sys2Proof.Machine.execVltCommandEnd s
  | .vltFwRoll v => Sys2Proof.Machine.execVltFwRoll v s
  | .tamper src => Sys2Proof.Machine.execTamper src s
  | .dbgseen => Sys2Proof.Machine.execDbgseen s
  | .vltSelftestDone pass => Sys2Proof.Machine.execVltSelftestDone pass s
  | .trngHealthFail => Sys2Proof.Machine.execTrngHealthFail s
  | .trngRetest pass => Sys2Proof.Machine.execTrngRetest pass s
  | .lcsProvisioned v => Sys2Proof.Machine.execLcsProvisioned v s
  | .lcsDeploy v => Sys2Proof.Machine.execLcsDeploy v s
  | .lcsEnterService v => Sys2Proof.Machine.execLcsEnterService v s
  | .lcsLeaveService v => Sys2Proof.Machine.execLcsLeaveService v s
  | .lcsDecommission v => Sys2Proof.Machine.execLcsDecommission v s
  | .lcsDebugOpen v => Sys2Proof.Machine.execLcsDebugOpen v s
  | .lcsCommandEnd => Sys2Proof.Machine.execLcsCommandEnd s
  | .bistRequest v => Sys2Proof.Machine.execBistRequest v s
  | .bistAbort v => Sys2Proof.Machine.execBistAbort v s
  | .bistRunStart => Sys2Proof.Machine.execBistRunStart s
  | .bistRunEnd patterns sig => Sys2Proof.Machine.execBistRunEnd patterns sig s
  | .bistEntryTimeout => Sys2Proof.Machine.execBistEntryTimeout s
  | .vbatMeasurement mv => Sys2Proof.Machine.execVbatMeasurement mv s
  | .liveHold v => Sys2Proof.Machine.execLiveHold v s
  | .liveGo v => Sys2Proof.Machine.execLiveGo v s
  | .liveDrop v => Sys2Proof.Machine.execLiveDrop v s
  | .holdTimeout => Sys2Proof.Machine.execHoldTimeout s
  | .aonStateLost => Sys2Proof.Machine.execAonStateLost s
  | .canErrorDetected chan type pos large => Sys2Proof.Machine.execCanErrorDetected chan type pos large s
  | .ethLinkChange port up beacon => Sys2Proof.Machine.execEthLinkChange port up beacon s
  | .ethSegmentSend port => Sys2Proof.Machine.execEthSegmentSend port s
  | .rollEnd fw => Sys2Proof.Machine.execRollEnd fw s
  | .tickCounterWrap => Sys2Proof.Machine.execTickCounterWrap s
  | .debugHalt halt => Sys2Proof.Machine.execDebugHalt halt s
  | .dioEdge dio level => Sys2Proof.Machine.execDioEdge dio level s
  | .capturingRead addr => Sys2Proof.Machine.execCapturingRead addr s
  | .plugStoreWrite off size v => Sys2Proof.Machine.execPlugStoreWrite off size v s
  | .seAreaWrite off size v => Sys2Proof.Machine.execSeAreaWrite off size v s

end Sys2Proof.Machine
end

