-- ==== Sys2Proof/Machine/Step.lean ====
section
/-! DEFINITION. One step of the block: the command at the front of the queue. -/

namespace Sys2Proof.Machine

/-- Takes the command at the front of the queue and runs it; on an empty queue an LFXO edge passes (log entry 4).
(DESIGN CHOICE, log entry 4; DESIGN CHOICE, log entry 62) -/
def step (s : State) : Host.Outcome State Fault Refusal :=
  match s.pending with
  | [] => (s.aonEdge false).out
  | c :: rest => exec c { s with pending := rest }

/-- The state with the command a word spells at the front of its queue; no row of the table has bits, so no word spells
one. (DESIGN CHOICE, log entry 62) -/
def State.withFetchWord (s : State) (nbits w : Nat) : State :=
  match decodeTableWord nbits w with
  | some c => { s with pending := c :: s.pending }
  | none => s

end Sys2Proof.Machine
end

