-- ==== Sys2Proof/Machine/Pins.lean ====
section
/-! DEFINITION. The balls of the package: the signal of each (R29, R30), its direction and domain (R31), the state of each group of
balls outside normal running (R34, R35), and the gates of the drives (R167 to R169). All are views: no command reads them. -/

namespace Sys2Proof.Machine

/-- The pins of a feed group, in the order of columns 5 to 19 (R30). -/
inductive FeedPin where
  | vf | gate | src | hg1 | lg1 | sw1 | bst1 | csp1 | csn1 | hg2 | lg2 | sw2 | bst2 | csp2 | csn2
  deriving DecidableEq, Repr

/-- The signals of the package (R31). -/
inductive Signal where
  | wfTx (n : Nat) | wfRx (n : Nat) | wfDe (n : Nat)
  | qspiClk (p : Nat) | qspiCsN (p : Nat) | qspiIo (p i : Nat)
  | canTx (n : Nat) | canRx (n : Nat) | suartTx (n : Nat) | suartRx (n : Nat)
  | pdHigh (d phase : Nat) | pdLow (d phase : Nat) | pdCurrent (d phase : Nat)
  | ethP (n : Nat) | ethN (n : Nat)
  | tck | tms | tdi | tdo | trstN | rstN | replaceN | pfWarnN
  | tamp (n : Nat) | hfxoIn | hfxoOut | lfxoIn | lfxoOut
  | rtdExc (n : Nat) | rtdSp (n : Nat) | rtdSn (n : Nat) | rtdFn (n : Nat)
  | meVoltage (port ch : Nat) | meCurrent (port ch : Nat) (negative : Bool)
  | ao (n : Nat) | dio (n : Nat) | pls (n : Nat) | ai (n : Nat)
  | feed (f : Nat) (pin : FeedPin) | fb33 | fb18 | fb08
  | vss | vssa | vbat | vhold | vdd33 | vdd08 | vdda18
  deriving DecidableEq, Repr

/-- The pins of a feed group in column order. -/
def feedPins : List FeedPin :=
  [.vf, .gate, .src, .hg1, .lg1, .sw1, .bst1, .csp1, .csn1, .hg2, .lg2, .sw2, .bst2, .csp2, .csn2]

/-- The north side: rows A to D (R30). -/
def northBall (r c : Nat) : Signal :=
  if r ≤ 3 then
    if c = 1 ∨ c = 26 then
      let p := c / 26
      if r = 1 then .qspiClk p else if r = 2 then .qspiCsN p else .qspiIo p 0
    else if r = 1 then .wfTx (c - 2) else if r = 2 then .wfRx (c - 2) else .wfDe (c - 2)
  else if c ≤ 3 then .qspiIo 0 c
  else if c ≤ 19 then (if c % 2 = 0 then .canTx ((c - 4) / 2) else .canRx ((c - 4) / 2))
  else if c ≤ 23 then (if c % 2 = 0 then .suartTx ((c - 20) / 2) else .suartRx ((c - 20) / 2))
  else .qspiIo 1 (27 - c)

/-- The east side: columns 23 to 26, rows E to AC (R30). -/
def eastBall (r c : Nat) : Signal :=
  let d := (r - 5) / 3
  let q := (r - 5) % 3
  let k := c - 23
  if r ≤ 16 then nth [Signal.vssa, .pdCurrent d q, .pdLow d q, .pdHigh d q] k .vss
  else if r = 17 then nth [.ethP 0, .ethN 0, .ethP 1, .ethN 1] k .vss
  else if r = 18 then nth [.tck, .tms, .tdi, .tdo] k .vss
  else if r = 19 then nth [.trstN, .rstN, .replaceN, .pfWarnN] k .vss
  else if r = 20 then nth [.tamp 0, .tamp 1, .vbat, .vss] k .vss
  else if r = 21 then nth [.hfxoIn, .hfxoOut, .vss, .vss] k .vss
  else nth [.lfxoIn, .lfxoOut, .vss, .vss] k .vss

/-- A metering port's balls: column 0, 1 or 2 of its three, row AG (0) to AD (3) (R30). -/
def meterBall (port k q : Nat) : Signal :=
  if k = 0 then .meVoltage port q
  else .meCurrent port (2 * (k - 1) + q / 2) (q % 2 == 1)

/-- The south side: rows AD to AG (R30). -/
def southBall (r c : Nat) : Signal :=
  let q := 26 - r
  if c ≤ 16 then nth [Signal.rtdExc (c - 1), .rtdSp (c - 1), .rtdSn (c - 1), .rtdFn (c - 1)] q .vss
  else if c ≤ 19 then meterBall 0 (c - 17) q
  else if c = 20 ∨ c = 24 then .vssa
  else if c ≤ 23 then meterBall 1 (c - 21) q
  else .ao (4 * (c - 25) + q)

/-- The west side: columns 1 to 4, rows E to AC (R30). -/
def westBall (r c : Nat) : Signal :=
  if c = 1 then .dio (r - 5)
  else if c = 2 then (if r ≤ 18 then .dio (r + 13) else .vss)
  else if c = 3 then (if r ≤ 20 then .pls (r - 5) else .vss)
  else if r ≤ 20 then .ai (r - 5) else .vssa

/-- The inner field: columns 5 to 22, rows E to AC (R30). -/
def innerBall (r c : Nat) : Signal :=
  if r = 5 then
    if c ≤ 19 then .feed 0 (nth feedPins (c - 5) .vf) else nth [.fb33, .fb18, .fb08] (c - 20) .vss
  else if r = 22 then (if c ≤ 19 then .feed 1 (nth feedPins (c - 5) .vf) else .vhold)
  else if r = 6 ∨ r = 21 then .vdd33
  else if c = 5 ∨ c = 22 then .vss
  else if r ≤ 18 then (if (r + c) % 2 = 0 then .vdd08 else .vss)
  else if r = 19 then .vdda18
  else .vssa

/-- The signal of the ball at row index `r` and column `c`, both from 1 to 26 (R29, R30). (DESIGN CHOICE, log entry 66) -/
def ballSignal (r c : Nat) : Option Signal :=
  if r < 1 ∨ 26 < r ∨ c < 1 ∨ 26 < c then none
  else if r ≤ 4 then some (northBall r c)
  else if 23 ≤ r then some (southBall r c)
  else if 23 ≤ c then some (eastBall r c)
  else if c ≤ 4 then some (westBall r c)
  else some (innerBall r c)

/-- The centre of a ball from the package centre, in half millimetres, to the right and upwards (R29). -/
def ballCentre (r c : Nat) : Int × Int := (2 * (c : Int) - 27, 27 - 2 * (r : Int))

/-- The directions of R31. -/
inductive Direction where
  | input | output | bidirectional | openDrain | analogIn | analogOut | analog | analogBidirectional
  deriving DecidableEq, Repr

/-- The direction of a signal; a supply ball has none (R31). -/
def Signal.direction : Signal → Option Direction
  | .wfTx _ | .wfDe _ | .canTx _ | .qspiClk _ | .qspiCsN _ | .suartTx _ | .pdHigh _ _ | .pdLow _ _ | .tdo | .rtdExc _ => some .output
  | .wfRx _ | .canRx _ | .suartRx _ | .tck | .tms | .tdi | .trstN | .rstN | .tamp _ | .pls _ => some .input
  | .qspiIo _ _ | .dio _ => some .bidirectional
  | .replaceN | .pfWarnN => some .openDrain
  | .pdCurrent _ _ | .ai _ | .rtdSp _ | .rtdSn _ | .rtdFn _ | .meVoltage _ _ | .meCurrent _ _ _ | .fb33 | .fb18 | .fb08 => some .analogIn
  | .ao _ => some .analogOut
  | .lfxoIn | .lfxoOut | .hfxoIn | .hfxoOut => some .analog
  | .ethP _ | .ethN _ => some .analogBidirectional
  | .feed _ .gate | .feed _ .hg1 | .feed _ .lg1 | .feed _ .hg2 | .feed _ .lg2 => some .output
  | .feed _ _ => some .input
  | .vss | .vssa | .vbat | .vhold | .vdd33 | .vdd08 | .vdda18 => none

/-- The supply domains of R31. -/
inductive Domain where
  | vdd33 | vdda18 | aon | feed (f : Nat) | supervisor | vhold
  deriving DecidableEq, Repr

/-- The supply domains of a signal; a supply ball has none (R31). -/
def Signal.domains : Signal → List Domain
  | .wfTx _ | .wfRx _ | .wfDe _ | .canTx _ | .canRx _ | .qspiClk _ | .qspiCsN _ | .qspiIo _ _ | .suartTx _ | .suartRx _ | .pdHigh _ _
  | .pdLow _ _ | .tck | .tms | .tdi | .tdo | .trstN | .rstN | .replaceN | .pfWarnN | .dio _ => [.vdd33]
  | .pdCurrent _ _ | .ethP _ | .ethN _ | .hfxoIn | .hfxoOut | .ai _ | .rtdExc _ | .rtdSp _ | .rtdSn _ | .rtdFn _ | .meVoltage _ _
  | .meCurrent _ _ _ => [.vdda18]
  | .tamp _ | .lfxoIn | .lfxoOut | .pls _ => [.aon]
  | .ao _ => [.vhold, .vdda18]
  | .feed f _ => [.feed f]
  | .fb33 | .fb18 | .fb08 => [.supervisor]
  | .vss | .vssa | .vbat | .vhold | .vdd33 | .vdd08 | .vdda18 => []

/-- The high-side command of a phase in clock cycle `n` after a compare point, with compare value `c` on a carrier of height `h`
that counts up or down from there (R167, R168). -/
def highCommand (up : Bool) (h c n : Nat) : Bool := if up then decide (h ≤ n + c) else decide (n < c)

/-- The off state that leaves the low sides on (R169); codes 2 and 3 act as ALL_OFF. -/
def State.offLow (s : State) (d : Nat) : Bool := s.fld (PD_CFG.OFF d) == 1

/-- The command of a gate `n` cycles after the latest compare point, or `n` cycles before it where `past` (R168, R169). -/
def State.gateCommand (s : State) (d phase : Nat) (low past : Bool) (n : Nat) : Bool :=
  let up := s.le.tick / s.halfPeriod d % 2 == 0
  let duties := if past then (s.drive d).before else s.duties d
  match duties with
  | none => low && s.offLow d
  | some l => highCommand (up != past) (1000 * s.halfPeriod d) (nth l phase 0) (if past then 1000 * s.halfPeriod d - n else n) != low

/-- A gate of a drive that is not in its off state, in the cycle of 10 ns that begins `n` cycles after the latest compare point:
high once its command has been on for the dead time, low at once (R168). -/
def State.gate (s : State) (d phase : Nat) (low : Bool) (n : Nat) : Bool :=
  (List.range (s.deadTime d + 1)).all fun j =>
    if j ≤ n then s.gateCommand d phase low false (n - j) else s.gateCommand d phase low true (j - n)

/-- A gate of a drive that entered its off state `n` cycles ago: low, but for the low sides under LOW_ON after the dead time
(R169). -/
def State.offGate (s : State) (d : Nat) (low : Bool) (n : Nat) : Bool := low && s.offLow d && decide (s.deadTime d ≤ n)

/-- The level that a DIO ball drives, none while it is an input (R34, R35). -/
def State.dioDrive (s : State) (n : Nat) : Option Bool :=
  if s.pwr.on && s.started && nth s.ana.dioOut n false then some (nth s.ana.dio n false) else none

/-- The code of an analogue output: 0 V or 0 mA in reset (R34, R35). -/
def State.aoCode (s : State) (n : Nat) : Nat := if s.pwr.on && s.started then nth s.ana.ao n 0 else 0

/-- The groups of R34. -/
inductive PinGroup where
  | fieldLinks | can | flash | serviceUart | pumpPwm | analogIn | rtdExcitation | analogOut | digitalIo | backbone | debug
  | replaceN | pfWarnN | alwaysOn | hfxo | feedSense
  deriving DecidableEq, Repr

/-- The states of R34's table; `programmed`: as the palette image and the block behind the balls have it. -/
inductive PinState where
  | txHighDeLow | txRecessive | clkLowCsHighIoPulledUp | csHigh | txHigh | drivenLow | drivesOff | highImpedanceBurdenOff
  | samplesInvalid | off | heldCurrent | zeroOut | holdLast | inputPullDown | outputsHold | silentHighImpedance | silent | tapByTrst
  | tapKept | released | low | active | running | supervised | unpowered | unpoweredHighImpedance | programmed
  deriving DecidableEq, Repr

/-- REPLACE_N by R508, for as long as the rails are good: a reset clears the causes and releases it, a failed boot test asserts it
before the start (R81). -/
def State.replaceLevel (s : State) : PinState := if s.replaceN then .released else .low

/-- The reset column of R34. (DESIGN CHOICE, log entry 66) -/
def State.pinReset (s : State) : PinGroup → PinState
  | .fieldLinks => .txHighDeLow
  | .can => .txRecessive
  | .flash => .clkLowCsHighIoPulledUp
  | .serviceUart => .txHigh
  | .pumpPwm => .drivenLow
  | .analogIn => .highImpedanceBurdenOff
  | .rtdExcitation => .off
  | .analogOut => .zeroOut
  | .digitalIo => .inputPullDown
  | .backbone => .silentHighImpedance
  | .debug => .tapByTrst
  | .replaceN => s.replaceLevel
  | .pfWarnN => if s.pwr.reg && !s.flag PWR_STAT.VHOLD_LOW && !s.flag PWR_STAT.PFW then .released else .low
  | .alwaysOn => .active
  | .hfxo => if s.flag SYS_CLK_STAT.HFXO_ON then .running else .off
  | .feedSense => .supervised

/-- The brown-stall column of R34. (DESIGN CHOICE, log entry 66) -/
def State.pinStall (s : State) : PinGroup → PinState
  | .fieldLinks => .txHighDeLow
  | .can => .txRecessive
  | .flash => .csHigh
  | .serviceUart => .txHigh
  | .pumpPwm => .drivesOff
  | .analogIn => .samplesInvalid
  | .rtdExcitation => .heldCurrent
  | .analogOut => .holdLast
  | .digitalIo => .outputsHold
  | .backbone => .silent
  | .debug => .tapKept
  | .replaceN => s.replaceLevel
  | .pfWarnN => .low
  | .alwaysOn => .active
  | .hfxo => if s.flag SYS_CLK_STAT.HFXO_ON then .running else .off
  | .feedSense => .supervised

/-- The VAULT column of R34. (DESIGN CHOICE, log entry 66) -/
def pinVault : PinGroup → PinState
  | .replaceN => .released
  | .pfWarnN => .released
  | .alwaysOn => .active
  | .hfxo => .off
  | .analogOut => .unpoweredHighImpedance
  | _ => .unpowered

/-- The state of a group of balls (R34); VAULT goes before reset, reset before brown stall (R35). The reset column holds until the
steward programmes the groups at the start tick, the brown-stall column until the LE resumes. While the rails are not on, only
VBAT is present. (DESIGN CHOICE, log entry 66) -/
def State.pins (s : State) (g : PinGroup) : PinState :=
  if !s.pwr.on then pinVault g
  else if !s.started then s.pinReset g
  else if s.pwr.stall || s.pwr.resume then s.pinStall g
  else match g with
    | .replaceN => s.replaceLevel
    | .pfWarnN => if s.flag PWR_STAT.PFW then .low else .released
    | .alwaysOn => .active
    | .feedSense => .supervised
    | .hfxo => if s.flag SYS_CLK_STAT.HFXO_ON then .running else .off
    | .serviceUart => if s.cp.cprst then .txHigh else .programmed
    | _ => .programmed

end Sys2Proof.Machine
end

