-- ==== Sys2Proof/Safety.lean ====
section
/-! DEFINITION. The words in which claims about the machine are stated: which parts of the state are kept in a canonical form,
what it is for a command to complete, and what it is to leave the rest of the state alone. -/

namespace Sys2Proof.Machine

/-- The registers list no address twice, in rising order, and none at its reset value. -/
abbrev State.regsWf (s : State) : Bool := sparseWf regReset s.regs

/-- The memory lists no address twice, in rising order, and no byte that an unlisted address reads as. -/
abbrev Memory.wf (m : List Host.Cell) : Bool := sparseWf memDefault m

/-- Command `c` completes in `s`: it answers a next state, and `p` holds of it. -/
def Runs (c : Instr) (s : State) (p : State → Prop) : Prop := ∃ t, exec c s = .next t ∧ p t

/-- Every register outside `l` holds in `t` what it held in `s`. The pending registers of the interrupt controller are left out:
the gateways raise their bits at the end of every command (R112). -/
def KeepsRegs (s t : State) (l : List Nat) : Prop := ∀ a, a ∉ l → (∀ k < 3, a ≠ INTC_PEND k) → t.reg a = s.reg a

/-- Every byte of memory reads in `t` as in `s`, and no word has gained or lost an ECC error (R438). -/
def KeepsMem (s t : State) : Prop := t.ecc = s.ecc ∧ ∀ a, t.rd8 a = s.rd8 a

/-- Every register outside the `n` bytes of addresses from `a` on holds in `t` what it held in `s`, the pending registers of the
interrupt controller left out. -/
def KeepsRegsOut (s t : State) (a n : Nat) : Prop :=
  ∀ b, b < a ∨ a + n ≤ b → (∀ k < 3, b ≠ INTC_PEND k) → t.reg b = s.reg b

/-- Every byte of memory outside the `n` bytes from `a` on reads in `t` as in `s`, and no word that lies outside them has gained
or lost an ECC error. -/
def KeepsMemOut (s t : State) (a n : Nat) : Prop :=
  (∀ b, b < a ∨ a + n ≤ b → t.rd8 b = s.rd8 b)
  ∧ ∀ x : Nat × Bool, pmAddr x.1 + 8 ≤ a ∨ a + n ≤ pmAddr x.1 → (x ∈ t.ecc ↔ x ∈ s.ecc)

/-- Everything but registers and memory with its ECC errors is in `t` as in `s`: flash, the queue, and the state of every block.
The request of a DIO edge is left out: the gateways take it up at the end of every command (R112). -/
def KeepsRest (s t : State) : Prop :=
  { t with regs := s.regs, mem := s.mem, ecc := s.ecc, cp := { t.cp with dioReq := s.cp.dioReq } } = s

/-- Nothing changes but the registers of `l`. -/
def OnlyRegs (s t : State) (l : List Nat) : Prop := KeepsRegs s t l ∧ KeepsMem s t ∧ KeepsRest s t

/-- The registers of the blocks of R107's map that `l` leaves out (a block is named by the upper 16 bits of its addresses) hold in
`t` what they held in `s`, the pending registers of the interrupt controller left out. -/
def KeepsBlocks (s t : State) (l : List Nat) : Prop :=
  ∀ a, a / 0x10000 ∉ l → (∀ k < 3, a ≠ INTC_PEND k) → t.reg a = s.reg a

/-- The registers that an LFXO edge can change: those of the tick counter and its alarms, the pulse counters, the wake cause, the
watchdog's count and SYS_MTIME. -/
def edgeRegs : List Nat :=
  [AON_STAT, AON_HIGH0, AON_HIGH1, AON_EVT, AON_ALM_CFG 0, AON_ALM_CFG 1, SYS_WAKE_CAUSE, SYS_WDT_STAT, SYS_MTIME_LO, SYS_MTIME_HI]
    ++ (List.range 16).map AON_PLS_CNT

/-- What an LFXO edge leaves alone: all but the counter, the watchdog, the machine timer and a wake. -/
def KeepsAtEdge (s t : State) : Prop :=
  KeepsRegs s t edgeRegs ∧ KeepsMem s t
    ∧ KeepsRest s { t with aon := s.aon, prof := { t.prof with woke := s.prof.woke }, time := { t.time with mtime := s.time.mtime },
                           cp := { t.cp with wdtSub := s.cp.wdtSub, mtip := s.cp.mtip } }

/-- The registers that show replacement cause `b` (R507, R508). -/
def causeRegs (b : Nat) : List Nat := [LCS_CAUSE, LCS_CAUSE_SEEN, LCS_EVT, LCS_CAUSE_TICK_LO b, LCS_CAUSE_TICK_HI b]

/-- The registers that a change of profile writes (R74, R128, R248). -/
def profileRegs : List Nat := [SYS_PROF_STAT, SYS_PROF_EVT, SA_STAT] ++ (List.range 64).map LE_SLOT_SCHED

/-- What the loops leave alone: everything but the registers of LE, PD and TUNE, the state of the loops and of the tuning unit,
the
analogue outputs, and the store of captures and trace, where a capture that runs fits its area as R182 checks it. -/
def KeepsButLoops (s t : State) : Prop :=
  KeepsBlocks s t [0x4003, 0x4004, 0x4005]
    ∧ (s.flag TUNE_STAT.CAP_RUN = true → s.capFrames ≤ frameDepth (s.fld TUNE_CAP_CFG.NCH + 1) → KeepsMemOut s t 0x32000000 0x100000)
    ∧ (s.flag TUNE_STAT.CAP_RUN = false → KeepsMemOut s t 0x32000000 0x100000)
    ∧ KeepsRest s { t with le := s.le, tune := s.tune, ana := { t.ana with ao := s.ana.ao, aoNext := s.ana.aoNext } }

/-- Slot `n` has in `t` a move to another cell than `c`, to the place that the admission without `c` gives it (R129). -/
def State.MovesOff (s t : State) (c : Nat) (raise : Bool) (n : Nat) : Prop :=
  ∃ pl ∈ (s.replan c raise).placed, pl.slot = n ∧ pl.cell ≠ c ∧ (t.slot n).move = some (pl.cell, pl.ofs, pl.k, pl.p)

/-- Of the slots at most slot `n` changes, and so of the loops' outputs. -/
def KeepsOtherSlots (s t : State) (n : Nat) : Prop :=
  ∀ m < 64, m ≠ n → t.slot m = s.slot m ∧ t.reg (LE_SLOT_OUT m) = s.reg (LE_SLOT_OUT m)

/-- The registers in which the end of a job of priority `p` shows (R242 to R244, R246, R248). -/
def jobEndRegs (p : Nat) : List Nat := [SA_STAT, SA_EVT, SA_GROUP, SA_DONE_CNT p, LE_PB_STAT] ++ (List.range 8).map SA_LAST

/-- Every byte of memory outside the ranges `l`, each an address and a length, reads in `t` as in `s`. -/
def KeepsMemBut (s t : State) (l : List (Nat × Nat)) : Prop := ∀ a, (∀ r ∈ l, a < r.1 ∨ r.1 + r.2 ≤ a) → t.rd8 a = s.rd8 a

/-- The length in bytes of what a problem of job `j` delivers to DST (R226). -/
def State.rowBytes (s : State) (j : SaJob) : Nat := 4 * if (s.canvas j.half).kind = 1 then (s.canvas j.half).m else (s.canvas j.half).n

/-- The bytes that the ends of the problems `ps` of job `j` write: the error counters of the store's header, the problems' own,
and
with DST = 1 their rows at DST_ADDR (R194, R201, R226). -/
def State.resultBytes (s : State) (j : SaJob) (ps : List Nat) : List (Nat × Nat) :=
  let c := s.canvas j.half
  (canvasBase + 2, 6) :: ps.map (fun p => (s.problemAt j.half p, footprint c.kind c.n c.m))
    ++ if j.dst = 1 then ps.map fun p => (j.dstAddr + s.rowBytes j * (p - j.first), s.rowBytes j) else []

/-- The job's canvas and destination are as the checks of R200 and R227 leave them: an operation its kind permits, a region behind
the directory, rows outside the canvas store. -/
def State.jobSound (s : State) (j : SaJob) (ps : List Nat) : Prop :=
  (s.canvas j.half).kind < 2 ∧ opPermitted (s.canvas j.half).kind j.op = true ∧ 0x440 ≤ (s.canvas j.half).base
    ∧ (j.dst = 1 → canvasBase + 0x200000 ≤ j.dstAddr ∨ ∀ p ∈ ps, j.dstAddr + s.rowBytes j * (p - j.first + 1) ≤ canvasBase)

/-- Every part that R20 resets with the main rails is as it is at reset; whether a price was published since POR is left out
(R291). -/
def PartsReset (t : State) : Prop :=
  t.le = {} ∧ t.tune = {} ∧ t.sa = {} ∧ t.pt = {} ∧ t.time = {} ∧ t.net = {} ∧ t.rnd = { published := t.rnd.published }
    ∧ t.wfl = List.replicate 24 {} ∧ t.se = {} ∧ t.way = {} ∧ t.mh = {} ∧ t.me = {} ∧ t.tot = {} ∧ t.live = {} ∧ t.prof = {}

/-- A field link without the commits that a live-change hold keeps back. -/
def WflLink.noHeld (l : WflLink) : WflLink := { l with mods := l.mods.map fun m => { m with held := none } }

/-- Every source that requests is pending or claimed (R112). -/
def IntcSettled (s : State) : Prop := ∀ n < 80, s.srcLevel n = true → s.intPending n = true ∨ s.cp.claimed.contains n = true

/-- The OR-ing paths of the two feeds are not both closed (R39): the path of the feed that does not hold the token is open, and
without a holder at most one is closed; a handover names the two feeds. -/
def PathsApart (s : State) : Prop :=
  ¬ (nth s.pwr.closed 0 false = true ∧ nth s.pwr.closed 1 false = true)
    ∧ (∀ f, s.pwr.holder = some f → f < 2 ∧ nth s.pwr.closed (1 - f) false = false)
    ∧ ∀ h, s.pwr.ho = some h → h.inn < 2 ∧ h.out < 2

/-- The voltage of feed `f` at a check, and the fault flag of its controller. -/
def feedMv (m : SupervisorSample) (f : Nat) : Nat := if f = 0 then m.vfa else m.vfb
def feedFault (m : SupervisorSample) (f : Nat) : Bool := if f = 0 then m.faultA else m.faultB

/-- Feed `f`, which holds the token, has not failed at a check, whatever the check before it read (R42). -/
def FeedSound (s : State) (m : SupervisorSample) (f : Nat) : Prop :=
  s.uvMv ≤ feedMv m f ∧ feedMv m f ≤ 40000 ∧ m.phase ≤ s.ocMa ∧ feedFault m f = false

/-- A check meets the conditions of R41 for feed `f`. -/
def FeedGood (s : State) (m : SupervisorSample) (f : Nat) : Prop :=
  s.uvMv + 500 ≤ feedMv m f ∧ feedMv m f ≤ 40000 ∧ feedFault m f = false

/-- VHOLD is neither below its warning threshold nor low enough for a brown stall (R52, R59). -/
def HoldSound (s : State) (m : SupervisorSample) : Prop := 5000 ≤ m.vhold ∧ s.warnMv ≤ m.vhold

/-- What a supervisor check leaves alone where it asserts no PF_WARN and enters no brown stall; `l` are further registers that may
change. -/
def KeepsAtCheck (s t : State) (l : List Nat) : Prop :=
  KeepsRegs s t ([PWR_STAT, PWR_VMON, PWR_STBY_AGE] ++ causeRegs 0 ++ l) ∧ KeepsMemOut s t 0x38002808 8
    ∧ KeepsRest s { t with pwr := s.pwr, pm := { t.pm with later := s.pm.later }, prof := { t.prof with woke := s.prof.woke } }

/-- The registers that a decision shows itself in (R46, R62, R79, R164). -/
def decisionRegs : List Nat := [PWR_HO_STAT, PWR_HO_CNT, SYS_WAKE_CAUSE] ++ (List.range 16).map PG_STAT

/-- Entry `e` of the caravan queue of `c` holds a request `q` of service `n` for this node, well formed (R367, R368), and requests
are served now. -/
def State.asks (s : State) (c e n : Nat) (q : WayReq) : Prop :=
  s.wayRequestAt c e = some q ∧ s.wayServes = true ∧ q.service = n ∧ 12 ≤ q.rec_.length ∧ q.num 4 2 = s.nodeId
    ∧ q.num 0 1 = 1 ∧ q.num 3 1 = 0

/-- The request is in clear (R368). -/
def State.asksClear (s : State) (c e n : Nat) (q : WayReq) : Prop := s.asks c e n q ∧ q.num 2 1 = 0 ∧ q.seq = 0

/-- The request is sealed, under the open session `x` and with a sequence number above the last, neither near its end (R371,
R372). -/
def State.asksSealed (s : State) (c e n : Nat) (q : WayReq) (x : Session) : Prop :=
  s.asks c e n q ∧ q.num 2 1 = 1 ∧ s.way.sess = some x ∧ x.seqIn < q.seq ∧ q.seq < 0xFFFFFFFF ∧ x.seqOut + 1 < 0xFFFFFFFF

/-- The body of a sealed request, none where it does not open (R371). -/
def WayReq.opened (q : WayReq) (x : Session) : Option (List Byte) :=
  Config.gcmOpen x.keyIn (wayIv 1 q.seq) (q.rec_.take 12) (q.rec_.drop 12)

/-- The message `m`, and no other, has joined those that wait for the bus, followed by its copy for ETH1 where the ports copy
(R366). -/
def Hands (s t : State) (m : NetMsg) : Prop :=
  t.net.sent = s.net.sent ++ m :: (if s.copies m.chan then [{ m with chan := 9, no := m.no + 1 }] else [])

/-- One response goes out, a WAY_RSP to the sender of the request (R367) whose record is `r`. -/
def Answers (s t : State) (q : WayReq) (r : List Byte) : Prop :=
  ∃ m, Hands s t m ∧ m.chan = q.chan ∧ m.prio = 4 ∧ m.type = 0x05 ∧ m.node = s.nodeId ∧ m.dst = q.src ∧ m.record = r

/-- The requests that a session seals, with their service numbers (R369). -/
def sealedRequests (c : Fin 10) (e : Fin 512) : List (Nat × Instr) :=
  [(3, .reqWrite c e), (4, .reqUpload c e), (8, .reqProfile c e), (9, .reqCommit c e), (12, .reqClose c e), (13, .reqLedgerAck c e),
   (14, .reqBootSel c e), (15, .reqRestart c e)]

/-- Port `k` sends the UDP payload `p` from its link-local address to ff02::1, in a frame with its FCS (R358, R364, R365). -/
def SendsToAll (s t : State) (k : Nat) (p : List Byte) : Prop :=
  let f := udpFrame (dstMac k allNodes) (s.macAddr k) (s.linkLocal k) allNodes (s.udpPort k) (s.udpPort k) p
  (t.ch (8 + k)).out = f ++ toBytes 4 (crc32 f)

/-- One response goes out, a WAY_RSP whose STATUS is `code` (R368). -/
def AnswersCode (s t : State) (q : WayReq) (code : Nat) : Prop :=
  ∃ r, Answers s t q r ∧ nth r 3 0 = BitVec.ofNat 8 code

/-- Channel `c` of the profile generators is given the target `v` (R161, R163): PG_TARGET shows it, and a channel that runs has
it in
the planner's queue, unless it is at rest at it or on its way to it with no other request waiting. -/
def GetsTarget (s t : State) (c : Nat) (v : Dy) : Prop :=
  t.reg (PG_TARGET c) = BitVec.ofNat 32 (v.toFloat b32)
    ∧ (s.flag (PG_CTL.EN c) = true →
        ((s.le.tick, c, PgReq.go (v.toFloat b64)) ∈ t.le.queue ∧ t.flag (PG_STAT.PEND c) = true)
        ∨ ((s.pgCh c).ready = none ∧ (∀ e ∈ s.le.queue, e.2.1 ≠ c)
            ∧ feq b64 (v.toFloat b64) (if (s.pgCh c).segs.isEmpty then (s.pgCh c).x else (s.pgCh c).target) = true))

/-- The commands that start the vault operations of R476, with their OP codes. -/
def vltCommands (a : Word) : List (Nat × Instr) :=
  [(0x01, .vltHash a), (0x02, .vltHmac a), (0x03, .vltCmac a), (0x04, .vltGcmSeal a), (0x05, .vltGcmOpen a), (0x06, .vltSign a),
   (0x07, .vltVerify a), (0x08, .vltEcdh a), (0x09, .vltGenerate a), (0x0A, .vltLoadPub a), (0x0B, .vltImport a),
   (0x0C, .vltExport a), (0x0D, .vltErase a), (0x0E, .vltPolicy a), (0x0F, .vltRandom a), (0x10, .vltPubkey a),
   (0x11, .vltAttest a), (0x12, .vltProvision a), (0x13, .vltCert a)]

/-- The registers that show the vault's slots, status and cause (R467, R480, R489, R507). -/
def vltShown : List Nat :=
  [VLT_STAT, LCS_CAUSE, LCS_CAUSE_SEEN, LCS_EVT, LCS_CAUSE_TICK_LO 6, LCS_CAUSE_TICK_HI 6]
    ++ (List.range 32).map VLT_SLOT_POL ++ (List.range 32).map (fun k => VLT_SLOT_LIM k)

/-- Every byte of memory outside the PM window reads in `t` as in `s`. -/
abbrev KeepsMemButPm (s t : State) : Prop := KeepsMemOut s t 0x38000000 0x80000

/-- Nothing changes in memory but in the PM, and no register but those of the blocks `l` and those that a ledger entry and a
spread
counter write: of MH, PM and LCS (R309, R457, R507). -/
def KeepsButBooking (s t : State) (l : List Nat) : Prop := KeepsBlocks s t (l ++ [0x4008, 0x400E, 0x4010]) ∧ KeepsMemButPm s t

/-- The command asks for an LCS operation (R493): its OP, the key, the code of the checks, and no operation in progress. -/
def State.lcsAsks (s : State) (v : Word) (op code : Nat) : Prop :=
  LCS_CMD.OP.of v = op ∧ LCS_CMD.KEY.of v = 0x1C5A ∧ s.flag LCS_CMD_STAT.BUSY = false ∧ s.lcsCheck op = code

/-- The commands of R493 with their OP codes. -/
def lcsCommands (v : Word) : List (Nat × Instr) :=
  [(1, .lcsProvisioned v), (2, .lcsDeploy v), (3, .lcsEnterService v), (4, .lcsLeaveService v), (5, .lcsDecommission v),
   (6, .lcsDebugOpen v)]

/-- The commands that the CP carries out, or a debugger through it: they write or read a register or a memory (R104, R105). -/
def cpCommand : Instr → Bool
  | .load _ | .aonShift _ | .clrhi _ | .sysProfReq _ | .sysNtStep _ | .sysNtRate _ | .fwValid _ | .inval _ | .ptpSend _ _
  | .tripLatchClear _ | .swapRequest _ _ | .leStateWrite _ _ _ | .leParamWrite _ _ _ | .faultClear _ _ | .pdClrOc _ _
  | .pdClrHu _ _ | .canRxAck _ _ | .canCqAck _ _ | .canTxReq _ _ | .canTxAbort _ _ | .recover _ _ | .canMode _ _ | .wup _ _
  | .cprstRequest _ | .sysrstRequest _ | .supervisedHandoverRequest _ | .seXchg _ | .seForceSet _ | .seForceClr _
  | .mhSealCmd _ | .mhLedgerAck _ | .pgTarget _ _ | .pgPreset _ _ | .pgStop _ _ | .pgEnable _ _ | .injectionGo _
  | .injectionStop _ | .traceArm _ | .traceStop _ | .canvasReadyRequest _ _ | .canvasLoadCancel _ _ | .jobSubmit _ _ _ _
  | .saSwap _ | .vltHash _ | .vltHmac _ | .vltCmac _ | .vltGcmSeal _ | .vltGcmOpen _ | .vltSign _ | .vltVerify _
  | .vltEcdh _ | .vltGenerate _ | .vltLoadPub _ | .vltImport _ | .vltExport _ | .vltErase _ | .vltPolicy _ | .vltRandom _
  | .vltPubkey _ | .vltAttest _ | .vltProvision _ | .vltCert _ | .vltFwRoll _ | .accessFault _ _ | .sysFwStatClear _
  | .intcClaim | .intcCompletion _ | .sysWdtKick _ | .sysPalRoll _ | .sysBootSel _ | .lcsProvisioned _ | .lcsDeploy _
  | .lcsEnterService _ | .lcsLeaveService _ | .lcsDecommission _ | .lcsDebugOpen _ | .bistRequest _ | .bistAbort _
  | .liveHold _ | .liveGo _ | .liveDrop _ | .pmLoad _ | .pmCommit _ | .pmDiscard _ | .pmUnlock _ | .pmLock _ | .pmScCmd _
  | .wflCommit _ | .wflOutWrite _ _ | .ptCommit _ | .seAreaWrite _ _ _ | .registerWrite _ _ | .eccCountedRead _ _ _
  | .capturingRead _ | .canvasStoreWrite _ _ _ | .plugStoreWrite _ _ _ => true
  | _ => false

end Sys2Proof.Machine
end

