-- ==== Sys2Proof/WellFormed.lean ====
section
/-! DEFINITION. Which commands are well formed: what the block's surroundings can present to it. -/

namespace Sys2Proof

/-- A CAN frame (R341): an 11-bit identifier in base format, no CAN FD bits in a classical frame, no remote CAN FD frame, at most
64 data bytes. -/
def CanFrame.wf (f : CanFrame) : Bool :=
  (f.xtd || decide (f.id.toNat < 2 ^ 11)) && (f.fdf || (!f.brs && !f.esi)) && !(f.fdf && f.rtr)
    && decide (f.data.length ≤ if f.fdf then 64 else 8)

/-- A 24-bit code of a metering channel (R315). -/
def code24 (x : Int) : Bool := decide (-(2 ^ 23) ≤ x) && decide (x < 2 ^ 23)

/-- A store of `size` bytes at an offset aligned to it (R108). -/
def storeOk (off : Nat) (size : Fin 3) : Bool := off % 2 ^ size.val == 0

/-- The inputs of a wake (R77): RTD channels that exist. -/
def WakeInput.wf (w : WakeInput) : Bool := w.rtds.all fun r => decide (r.1 < 16)

/-- A frame on a backbone port: from destination address to end of payload (R364). -/
def ethLen (n : Nat) : Bool := decide (14 ≤ n) && decide (n ≤ 1514)

/-- What the surroundings can present. -/
def Instr.wf : Instr → Bool
  | .meteringSample codes _ => codes.length == 2 && codes.all fun l => l.length == 8 && l.all code24
  | .canFrameReceived _ f _ => f.wf
  | .canvasStoreWrite off size _ => storeOk off.toNat size
  | .plugStoreWrite off size _ => storeOk off.toNat size
  | .seAreaWrite off size _ => storeOk off.toNat size
  | .registerWrite addr _ => addr.toNat % 4 == 0
  | .capturingRead addr => addr.toNat % 4 == 0
  | .eccCountedRead addr _ _ => addr % 4 == 0
  | .ethDatagram _ frame _ => ethLen frame.length
  | .refReceive _ _ data _ => data.length == 24
  | .wflResponse _ frame _ _ => decide (frame.length ≤ 262)
  | .wakePerSample w => w.wf
  | .vbatMeasurement mv => decide (mv < 2 ^ 16)
  | _ => true

end Sys2Proof
end

