-- ==== Sys2Proof/Certificates/Slice0/Obligations.lean ====
section
/-! DEFINITION. The statements for the provers, by chapter of the manual. A clause about a command gives the state and operands at
which it acts and what the next state holds; `Runs` says that the command completes. -/

open Sys2Proof Sys2Proof.Machine

/-- R108, R390, R391, R392, R395, R396: a write of AON_CTL or AON_SHIFT arms what the next edges do: LOAD takes the staged count
and discards an
armed shift (R392); a second LOAD changes no count that is staged; AON_SHIFT arms the signed shift, or is lost while a LOAD pends
(R392); CLRHI waits for the next edge. During the lockout each of these writes only faults, with trap cause 7 (R108, R396).
It rests on the model's choices of log entries 39, 64. -/
def Obligations.AonCounterWrites : Prop :=
  (∀ (s : State) (v : Word), AON_CTL.LOAD.of v = 1 → s.aon.locked = false → s.aon.load = none →
    s.cpStopped = false → Runs (.load v) s fun t =>
      t.aon.load = some s.staged ∧ t.aon.count = s.aon.count ∧ t.aon.shift = none ∧ t.flag AON_STAT.LOAD_PEND = true
      ∧ (s.aon.shift.isSome = true → t.flag AON_STAT.SHIFT_LOST = true ∧ t.flag AON_STAT.SHIFT_PEND = false)
      ∧ KeepsRegs s t [AON_STAT, AON_EVT] ∧ KeepsMem s t ∧ KeepsRest s { t with aon := s.aon })
  ∧ (∀ (s : State) (v : Word) (b : Nat), AON_CTL.LOAD.of v = 1 → s.aon.locked = false → s.aon.load = some b →
    s.cpStopped = false → Runs (.load v) s fun t =>
      t.aon.load = some b ∧ t.aon.count = s.aon.count ∧ KeepsRegs s t [] ∧ KeepsMem s t ∧ KeepsRest s { t with aon := s.aon })
  ∧ (∀ (s : State) (v : Word), s.aon.locked = false → s.aon.load = none →
    s.cpStopped = false → Runs (.aonShift v) s fun t =>
      t.aon = { s.aon with shift := some (signed 16 v.toNat) } ∧ t.fld AON_SHIFT.K = AON_SHIFT.K.of v
      ∧ t.flag AON_STAT.SHIFT_PEND = true ∧ KeepsRegs s t [AON_SHIFT, AON_STAT] ∧ KeepsMem s t
      ∧ KeepsRest s { t with aon := s.aon })
  ∧ (∀ (s : State) (v : Word) (b : Nat), s.aon.locked = false → s.aon.load = some b →
    s.cpStopped = false → Runs (.aonShift v) s fun t =>
      t.aon = { s.aon with shift := none } ∧ t.flag AON_STAT.SHIFT_LOST = true ∧ t.flag AON_EVT.SHIFT_LOST = true
      ∧ KeepsRegs s t [AON_SHIFT, AON_STAT, AON_EVT] ∧ KeepsMem s t ∧ KeepsRest s { t with aon := s.aon })
  ∧ (∀ (s : State) (v : Word), AON_CTL.CLRHI.of v = 1 → AON_CTL.LOAD.of v = 0 → s.aon.locked = false →
    s.cpStopped = false → Runs (.clrhi v) s fun t => t.aon = { s.aon with clrhi := true } ∧ KeepsRegs s t [] ∧ KeepsMem s t
      ∧ KeepsRest s { t with aon := s.aon })
  ∧ (∀ (s : State) (v : Word) (c : Instr), s.aon.locked = true → s.cpStopped = false →
    c = .aonShift v ∨ c = .load v ∧ AON_CTL.LOAD.of v = 1 ∨ c = .clrhi v ∧ AON_CTL.CLRHI.of v = 1 → Runs c s fun t =>
      t.cp.trap = some 7 ∧ t.cp.machine = true ∧ KeepsRegs s t [] ∧ KeepsMem s t
      ∧ KeepsRest s { t with cp := { t.cp with trap := s.cp.trap, machine := s.cp.machine } })

/-- R390, R391, R394: the LFXO edges that do more than count. At the edge at which a LOAD acts the count is the staged one; at a
second boundary an armed shift is added to the count, modulo 2⁴⁸; past 2⁴⁸ − 1 the count is 0; an alarm whose lanes match the
new count, above the highest count H, fires with OK. -/
def Obligations.AonCounterEdges : Prop :=
  (∀ (s : State) (b : Nat), s.aon.lost = false → s.aon.load = some b →
    Runs .loadEffect s fun t =>
      t.aon.count = b ∧ t.aon.load = none ∧ t.flag AON_STAT.LOAD_PEND = false ∧ t.aon.edges = s.aon.edges + 1
      ∧ KeepsAtEdge s t)
  ∧ (∀ (s : State) (k : Int), s.aon.lost = false → s.aon.load = none → s.aon.count % 32768 = 32767 → s.aon.shift = some k →
    Runs .secondBoundary s fun t =>
      t.aon.count = (((s.aon.count : Int) + 1 + k) % 2 ^ 48).toNat ∧ t.aon.shift = none
      ∧ t.flag AON_STAT.SHIFT_PEND = false ∧ KeepsAtEdge s t)
  ∧ (∀ (s : State), s.aon.lost = false → s.aon.load = none → s.aon.count % 32768 = 32767 → s.aon.count + 1 < 2 ^ 48 →
    s.aon.shift = none →
    Runs .secondBoundary s fun t =>
      t.aon.count = s.aon.count + 1 ∧ t.aon.high = max (if s.aon.clrhi then 0 else s.aon.high) (s.aon.count + 1)
      ∧ KeepsAtEdge s t)
  ∧ (∀ (s : State), s.aon.lost = false → s.aon.load = none → s.aon.shift = none → s.aon.count + 1 = 2 ^ 48 →
    Runs .tickCounterWrap s fun t => t.aon.count = 0 ∧ t.aon.edges = s.aon.edges + 1
      ∧ KeepsAtEdge s t)
  ∧ (∀ (s : State) (n : Fin 2), s.aon.lost = false → s.aon.load = none → s.aon.count % 32768 ≠ 32767 →
    s.almMatches n (s.aon.count + 1) = true → s.aon.high < s.aon.count + 1 →
    Runs (.alarm n) s fun t =>
      t.aon.count = s.aon.count + 1 ∧ t.flag (AON_ALM_CFG.FIRED n) = true ∧ t.fld (AON_ALM_CFG.CODE n) = 0
      ∧ KeepsAtEdge s t)

/-- R392: a LOAD and a shift never both act. From a state in which not both are armed, no command of the AON domain leads to one
in which both are; a shift that is armed when LOAD is written, or that is written while a LOAD pends, is discarded, SHIFT_PEND
clears and AON_STAT.SHIFT_LOST and AON_EVT.SHIFT_LOST are set; and at the edge at which a LOAD acts no shift is added. -/
def Obligations.LoadAndShiftExclude : Prop :=
  (∀ (s t : State) (v : Word) (n : Fin 2) (k : Fin 16), s.aon.load = none ∨ s.aon.shift = none →
    ∀ c ∈ [Instr.load v, .clrhi v, .aonShift v, .loadEffect, .secondBoundary, .tickCounterWrap, .alarm n, .pulseCount ⟨k, true⟩,
      .pulseCount ⟨k, false⟩, .lockout, .vbatSwitch, .lockoutLift, .aonStateLost, .vaultUp, .registerWrite (BitVec.ofNat 32 AON_CTL) v,
      .registerWrite (BitVec.ofNat 32 AON_SHIFT) v],
    exec c s = .next t → t.aon.load = none ∨ t.aon.shift = none)
  ∧ (∀ (s : State) (v : Word), AON_CTL.LOAD.of v = 1 → s.aon.locked = false → s.aon.load = none → s.aon.shift.isSome = true →
    s.cpStopped = false → ∀ c ∈ [Instr.load v, .registerWrite (BitVec.ofNat 32 AON_CTL) v], Runs c s fun t =>
      t.aon.shift = none ∧ t.aon.load = some s.staged ∧ t.flag AON_STAT.SHIFT_PEND = false ∧ t.flag AON_STAT.SHIFT_LOST = true
      ∧ t.flag AON_EVT.SHIFT_LOST = true ∧ KeepsRegs s t [AON_STAT, AON_EVT] ∧ KeepsMem s t ∧ KeepsRest s { t with aon := s.aon })
  ∧ (∀ (s : State) (v : Word) (b : Nat), s.aon.locked = false → s.aon.load = some b → s.cpStopped = false →
    ∀ c ∈ [Instr.aonShift v, .registerWrite (BitVec.ofNat 32 AON_SHIFT) v], Runs c s fun t =>
      t.aon = { s.aon with shift := none } ∧ t.flag AON_STAT.SHIFT_PEND = false ∧ t.flag AON_STAT.SHIFT_LOST = true
      ∧ t.flag AON_EVT.SHIFT_LOST = true
      ∧ KeepsRegs s t [AON_SHIFT, AON_STAT, AON_EVT] ∧ KeepsMem s t ∧ KeepsRest s { t with aon := s.aon })
  ∧ (∀ (s : State) (b : Nat), s.aon.lost = false → s.aon.load = some b → Runs .loadEffect s fun t =>
      t.aon.count = b ∧ t.aon.shift = s.aon.shift ∧ KeepsAtEdge s t)

/-- R79, R396, R533: the AON domain below and above the supply's thresholds. A lockout closes it to the CP, the switch to VBAT
and the
return leave its state. A pulse input's filter takes a level that the input held at FILT samples in a row, with FILT = 0 at once;
an
enabled channel then counts, modulo its width, where EDGE selects the edge before that level. An edge in SLEEP is a wake source
where SYS_SLEEP_CFG selects it (R79).
It rests on the model's choices of log entries 4, 54. -/
def Obligations.AonSupplyAndPulses : Prop :=
  (∀ s : State, Runs .lockout s fun t => t.aon = { s.aon with locked := true } ∧ KeepsRegs s t [] ∧ KeepsMem s t
    ∧ KeepsRest s { t with aon := s.aon })
  ∧ (∀ s : State, s.aon.locked = true → Runs .vbatSwitch s fun t => t.aon = { s.aon with onVbat := true } ∧ KeepsRegs s t []
    ∧ KeepsMem s t ∧ KeepsRest s { t with aon := s.aon })
  ∧ (∀ s : State, Runs .lockoutLift s fun t => t.aon = { s.aon with locked := false, onVbat := false } ∧ KeepsRegs s t []
    ∧ KeepsMem s t ∧ KeepsRest s { t with aon := s.aon })
  ∧ (∀ (s : State) (n : Fin 16) (level : Bool), s.aon.lost = false → s.fld (AON_PLS_CFG.FILT n) = 0 →
    n.val < s.aon.pulses.length → (s.inSleep && s.flag SYS_SLEEP_CFG.PLS) = false →
    Runs (.pulseCount ⟨n, level⟩) s fun t =>
      t.pulseIn n = { level := level, taken := level, run := 0 }
      ∧ t.fld (AON_PLS_CNT.COUNT n) = (s.fld (AON_PLS_CNT.COUNT n) + (if s.flag (AON_PLS_CFG.EN n) ∧ level ≠ (s.pulseIn n).taken
          ∧ level = s.flag (AON_PLS_CFG.EDGE n) then 1 else 0)) % 2 ^ 32
      ∧ (∀ m, m ≠ n.val → t.pulseIn m = s.pulseIn m) ∧ KeepsRegs s t [AON_PLS_CNT n] ∧ KeepsMem s t
      ∧ KeepsRest s { t with aon := { t.aon with pulses := s.aon.pulses } })
  ∧ (∀ (s : State) (n : Fin 16) (level : Bool), s.aon.lost = false → n.val < s.aon.pulses.length →
    s.fld (AON_PLS_CFG.FILT n) ≠ 0 → level ≠ (s.pulseIn n).taken → s.fld (AON_PLS_CFG.FILT n) ≤ (s.pulseIn n).run + 1 →
    Runs (.pulseCount ⟨n, level⟩) s fun t =>
      t.pulseIn n = { level := level, taken := level, run := 0 }
      ∧ t.fld (AON_PLS_CNT.COUNT n) = (s.fld (AON_PLS_CNT.COUNT n)
          + (if s.flag (AON_PLS_CFG.EN n) ∧ level = s.flag (AON_PLS_CFG.EDGE n) then 1 else 0)) % 2 ^ 32
      ∧ t.aon.edges = s.aon.edges + 1 ∧ KeepsAtEdge s t)
  ∧ (∀ (s : State) (n : Fin 16) (level : Bool), s.fld (AON_PLS_CFG.FILT n) ≠ 0 →
    level = (s.pulseIn n).taken ∨ (s.pulseIn n).run + 1 < s.fld (AON_PLS_CFG.FILT n) →
    (s.inSleep && s.flag SYS_SLEEP_CFG.PLS) = false → Runs (.pulseCount ⟨n, level⟩) s fun t =>
      KeepsRegs s t [] ∧ KeepsMem s t ∧ KeepsRest s { t with aon := { t.aon with pulses := s.aon.pulses } })
  ∧ (∀ (s : State) (n : Fin 16), s.pending = [] → s.aon.lost = false → n.val < s.aon.pulses.length →
    s.fld (AON_PLS_CFG.FILT n) ≠ 0 → ∃ t, step s = .next t
      ∧ (let p := s.pulseIn n
         let takes := p.level ≠ p.taken ∧ s.fld (AON_PLS_CFG.FILT n) ≤ p.run + 1
         t.pulseIn n = (if takes then { level := p.level, taken := p.level, run := 0 }
           else { p with run := if p.level = p.taken then 0 else p.run + 1 })
         ∧ t.fld (AON_PLS_CNT.COUNT n) = (s.fld (AON_PLS_CNT.COUNT n) + (if takes ∧ s.flag (AON_PLS_CFG.EN n)
             ∧ p.level = s.flag (AON_PLS_CFG.EDGE n) then 1 else 0)) % 2 ^ 32)
      ∧ KeepsAtEdge s t)
  ∧ (∀ (s : State) (n : Fin 16) (level : Bool), s.inSleep = true → s.flag SYS_SLEEP_CFG.PLS = true → level ≠ (s.pulseIn n).level →
    Runs (.pulseCount ⟨n, level⟩) s fun t => t.prof.woke = true
      ∧ bit (t.fld SYS_WAKE_CAUSE.CAUSE) 1 = true ∧ KeepsAtEdge s t)

/-- R24: a write of SYS_RST_REQ acts only with KEY = 0xC0DE. With it, KIND 0b01 asks for a CPRST and 0b10 for a SYSRST, each
with its own cause bit; with any other key nothing changes, no cause bit either. KIND 0b00 and 0b11 do nothing. -/
def Obligations.SoftwareResetRequests : Prop :=
  (∀ (s : State) (v : Word), SYS_RST_REQ.KEY.of v ≠ 0xC0DE →
    s.cpStopped = false → Runs (.cprstRequest v) s (OnlyRegs s · []) ∧ Runs (.sysrstRequest v) s (OnlyRegs s · [])
    ∧ Runs (.registerWrite (BitVec.ofNat 32 SYS_RST_REQ) v) s (OnlyRegs s · []))
  ∧ (∀ (s : State) (v : Word), SYS_RST_REQ.KEY.of v = 0xC0DE → SYS_RST_REQ.KIND.of v = 1 → s.rst.sys = false → s.rst.cp = false →
    s.cpStopped = false → ∀ c ∈ [Instr.cprstRequest v, Instr.registerWrite (BitVec.ofNat 32 SYS_RST_REQ) v], Runs c s fun t =>
      t.rst = { s.rst with cp := true } ∧ t.reg SYS_RST_CAUSE = BitVec.ofNat 32 (putBit (s.reg SYS_RST_CAUSE).toNat 5 true)
      ∧ KeepsRegs s t [SYS_RST_CAUSE] ∧ KeepsMem s t ∧ KeepsRest s { t with rst := s.rst })
  ∧ (∀ (s : State) (v : Word), SYS_RST_REQ.KEY.of v = 0xC0DE → SYS_RST_REQ.KIND.of v = 2 → s.rst.sys = false →
    s.cpStopped = false → ∀ c ∈ [Instr.sysrstRequest v, Instr.registerWrite (BitVec.ofNat 32 SYS_RST_REQ) v], Runs c s fun t =>
      t.rst = { s.rst with sys := true }
      ∧ t.reg SYS_RST_CAUSE = BitVec.ofNat 32 (putBit (s.reg SYS_RST_CAUSE).toNat 4 true)
      ∧ KeepsRegs s t [SYS_RST_CAUSE, SYS_TOT_STAT, PM_STAT] ∧ KeepsMem s t
      ∧ KeepsRest s { t with rst := s.rst, tot := s.tot }
      ∧ (s.tot.merged = false → t.tot = s.tot ∧ KeepsRegs s t [SYS_RST_CAUSE]))
  ∧ (∀ (s : State) (v : Word), SYS_RST_REQ.KEY.of v = 0xC0DE → SYS_RST_REQ.KIND.of v = 0 ∨ SYS_RST_REQ.KIND.of v = 3 →
    s.cpStopped = false → Runs (.registerWrite (BitVec.ofNat 32 SYS_RST_REQ) v) s (OnlyRegs s · []))

/-- R19, R20: what each reset leaves. A POR, a SYSRST that was asked for and whose RESET save has ended or does not run, and the
loss of the rails leave every part of the data path as it is at reset; the POR after a VAULT-UP shows it; a CPRST leaves the data
path, time, the supply, the vault and the life cycle as they were, and clears CP SRAM alone: what it takes away are the
requests that a live-change hold keeps, the staged change set, an authorised injection and a PM buffer with no commit in
progress; a
VAULT-UP starts the AON domain and the vault's SRAM afresh. RST_N asks for a SYSRST.
It rests on the model's choices of log entries 1, 2. -/
def Obligations.ResetsTakeEffect : Prop :=
  (∀ (s : State) (feed : Fin 2) (cut : CutPoint), Runs (.por feed cut) s fun t =>
    PartsReset t ∧ t.rnd = {} ∧ t.boot = { step := 1 } ∧ t.rst = {} ∧ t.pwr.on = true ∧ t.cp = {}
    ∧ t.flag SYS_RST_CAUSE.VAULTUP = s.rst.vaultUp
    ∧ t.aon = { s.aon with onVbat := false } ∧ t.flash = s.flash ∧ t.free = s.free ∧ t.readback = s.readback
      ∧ t.pending = s.pending
    ∧ (∀ a, 0x40020000 ≤ a ∧ a < 0x40030000 → t.reg a = s.reg a)
    ∧ ∀ a, a < 0x38000000 ∨ 0x38080000 ≤ a → t.rd8 a = memDefault a)
  ∧ (∀ (s : State) (cut : CutPoint), s.rst.sys = true → (s.resetSaving = false ∧ s.answering = false) ∨ s.rst.now = true →
    Runs (.sysrst cut) s fun t =>
    PartsReset t ∧ t.rnd = { published := s.rnd.published } ∧ t.boot = { step := 1 } ∧ t.rst = { vaultUp := s.rst.vaultUp }
    ∧ t.pwr = s.pwr ∧ t.cp = {} ∧ t.aon = s.aon ∧ t.flash = s.flash ∧ t.free = s.free ∧ t.readback = s.readback
    ∧ t.pending = s.pending ∧ t.reg SYS_RST_CAUSE = s.reg SYS_RST_CAUSE
    ∧ (∀ a, 0x40010000 ≤ a ∧ a < 0x40030000 → t.reg a = s.reg a)
    ∧ ∀ a, a < 0x38000000 ∨ 0x38080000 ≤ a → t.rd8 a = memDefault a)
  ∧ (∀ (s : State), s.rst.cp = true → s.rst.sys = false → Runs .cprst s fun t =>
    t.rst = { s.rst with cp := false } ∧ t.cp.fw = false ∧ t.cp.claimed = [] ∧ t.cp.mismatch = false ∧ t.cp.trap = none
    ∧ t.boot = { s.boot with fwSlot := t.boot.fwSlot, fwSecond := false, fallback := false }
    ∧ t.way = { s.way with sess := none, hand := none } ∧ t.vlt = { s.vlt with dropSram := s.vlt.cmd.isSome }
    ∧ t.live = { since := s.live.since, held := if s.holding then [] else s.live.held } ∧ t.holding = false
    ∧ t.pt = { s.pt with staged := t.pt.staged } ∧ (∀ g ∈ t.pt.staged, g ∈ s.pt.staged)
    ∧ (∀ g ∈ s.pt.staged, g.armed = true → g ∈ t.pt.staged)
    ∧ t.se = { s.se with held := t.se.held } ∧ t.wfl.map WflLink.noHeld = s.wfl.map WflLink.noHeld
    ∧ (s.holding = false → t.pt = s.pt ∧ t.se = s.se ∧ t.wfl = s.wfl)
    ∧ t.tune = { s.tune with w := t.tune.w } ∧ (s.flag TUNE_STAT.AUTH = false → t.tune = s.tune)
    ∧ t.pm = { s.pm with loaded := if s.flag PM_STAT.BUSY then s.pm.loaded else none }
    ∧ KeepsBlocks s t [0x4000, 0x4005, 0x4008, 0x400E, 0x4010, 0x4013, 0x4014] ∧ t.reg SYS_RST_CAUSE = s.reg SYS_RST_CAUSE
    ∧ KeepsRest s { t with rst := s.rst, boot := s.boot, cp := s.cp, way := s.way, vlt := s.vlt, live := s.live, pm := s.pm,
                           tune := s.tune, pt := s.pt, se := s.se, wfl := s.wfl }
    ∧ ∀ a, t.rd8 a = if 0x20000000 ≤ a ∧ a < 0x20300000 then 0 else s.rd8 a)
  ∧ (∀ (s : State), s.aon.lost = true → Runs .vaultUp s fun t =>
    t.aon = { locked := s.aon.locked, onVbat := s.aon.onVbat } ∧ t.vlt.sram = [] ∧ t.vlt.root = false ∧ t.rst.vaultUp = true
    ∧ (∀ n < 4, t.reg (AON_SCRATCH n) = 0) ∧ KeepsBlocks s t [0x4002, 0x400F, 0x4010] ∧ KeepsMemOut s t 0x38002838 8
    ∧ KeepsRest s { t with aon := s.aon, vlt := s.vlt, rst := { t.rst with vaultUp := s.rst.vaultUp },
                           pm := { t.pm with later := s.pm.later } })
  ∧ (∀ (s : State), s.aon.onVbat = true → Runs .aonStateLost s fun t =>
    t.aon.lost = true ∧ t.aon.count = 0 ∧ t.aon.high = 0 ∧ t.aon.load = none ∧ t.vlt.sram = [] ∧ t.vlt.root = false
    ∧ KeepsRegs s t [] ∧ KeepsMem s t ∧ KeepsRest s { t with aon := s.aon, vlt := s.vlt })
  ∧ (∀ (s : State), s.rst.sys = false → Runs .rstN s fun t =>
    t.rst = { s.rst with sys := true } ∧ t.reg SYS_RST_CAUSE = BitVec.ofNat 32 (putBit (s.reg SYS_RST_CAUSE).toNat 2 true)
    ∧ KeepsRegs s t [SYS_RST_CAUSE, SYS_TOT_STAT, PM_STAT] ∧ KeepsMem s t
    ∧ KeepsRest s { t with rst := s.rst, tot := s.tot }
    ∧ (s.tot.merged = false → t.tot = s.tot ∧ KeepsRegs s t [SYS_RST_CAUSE]))
/-- R34, R35: the balls outside normal running. After a POR or a SYSRST every group has the state of the reset column, after the
loss of the rails that of VAULT, in a brown stall of a started node that of the brown-stall column; a CPRST leaves every group as
it was but the service UARTs, whose TX is high while no firmware runs. It rests on the model's choices of log entries 52, 66. -/
def Obligations.BallStates : Prop :=
  (∀ (s : State) (feed : Fin 2) (cut : CutPoint), Runs (.por feed cut) s fun t => ∀ g, t.pins g = t.pinReset g)
  ∧ (∀ (s : State) (cut : CutPoint), s.rst.sys = true → s.resetSaving = false → s.pwr.on = true → Runs (.sysrst cut) s fun t =>
    (∀ g, t.pins g = t.pinReset g) ∧ t.pins .pumpPwm = .drivenLow ∧ t.pins .can = .txRecessive
      ∧ t.pins .fieldLinks = .txHighDeLow ∧ t.pins .analogOut = .zeroOut
    ∧ t.pins .digitalIo = .inputPullDown ∧ t.pins .rtdExcitation = .off
    ∧ (t.reg LCS_CAUSE = 0 → t.pins .replaceN = .released))
  ∧ (∀ (s : State), s.rst.cp = true → s.rst.sys = false → Runs .cprst s fun t =>
    (∀ g, g ≠ .serviceUart → t.pins g = s.pins g)
    ∧ (s.pwr.on = true → s.started = true → s.flag SYS_ROLE.GROUND = false → t.pins .serviceUart = .txHigh))
  ∧ (∀ (s : State) (cut : CutPoint), s.pwr.stall = true → s.pwr.relock = false → 80 ≤ s.pwr.stallAt →
    Runs (.railShutdown cut) s fun t => ∀ g, t.pins g = pinVault g)
  ∧ (∀ (s : State) (m : SupervisorSample), s.pwr.on = true → s.pwr.stall = false → s.started = true → m.vhold < 5000 →
    Runs (.supervisorCheck m) s fun t =>
      t.pins .pumpPwm = .drivesOff ∧ t.pins .analogOut = .holdLast ∧ t.pins .analogIn = .samplesInvalid
      ∧ t.pins .can = .txRecessive ∧ t.pins .fieldLinks = .txHighDeLow ∧ t.pins .pfWarnN = .low)

/-- R41 to R47, R55, R57, R59, R60, R62: a supervisor check. It always leaves TOKEN and PWR_STBY_AGE as the lease and the
standby's
age say. A check that finds the holding feed sound renews its lease; one that finds it failed, or a supervised handover requested,
is the decision: the lease is renewed no more and runs down, the hold window opens, a failed feed's quarantine begins, and with no
holder each check takes 10 µs off the lease. A feed that fails R41 at a check is not eligible; one that meets it for the 100th
time
in a row is, and gets the first lease or a recovery grant where none holds the token. The check 180 µs after the decision finds a
dead standby unless the rails are in regulation. The second check in a row that reads VHOLD below its warning threshold asserts
PF_WARN, forces HOLDUP and starts the WARNING save.
It rests on the model's choices of log entries 52, 70. -/
def Obligations.SupervisorChecks : Prop :=
  (∀ (s : State) (m : SupervisorSample), Runs (.supervisorCheck m) s fun t =>
    t.flag PWR_STAT.TOKEN = (t.pwr.lease != 0)
    ∧ t.fld PWR_STBY_AGE.SEC = min 0x7FFFFFFF (nth t.pwr.age (1 - t.fld PWR_STAT.HOLDER) 0 / 100000)
    ∧ t.flag PWR_STBY_AGE.NEVER = !nth t.pwr.held (1 - t.fld PWR_STAT.HOLDER) false)
  ∧ (∀ (s : State) (m : SupervisorSample) (f : Fin 2), s.pwr.holder = some f.val → s.pwr.on = true → s.pwr.stall = false →
    s.pwr.ho = none → s.pwr.req = false → s.pwr.regAfter = none → m.faultA = false → m.faultB = false →
    FeedSound s m f → HoldSound s m →
    Runs (.supervisorCheck m) s fun t =>
      t.pwr.holder = some f.val ∧ t.pwr.lease = 4 ∧ t.flag PWR_STAT.TOKEN = true
      ∧ t.fld PWR_VMON.VFA = min 1023 (m.vfa / 50) ∧ t.fld PWR_VMON.VFB = min 1023 (m.vfb / 50)
      ∧ t.fld PWR_VMON.VHOLD = min 1023 (m.vhold / 50) ∧ t.flag PWR_STAT.VHOLD_LOW = false ∧ t.pwr.low = 0
      ∧ KeepsAtCheck s t [])
  ∧ (∀ (s : State) (m : SupervisorSample) (f : Fin 2) (c : Nat), s.pwr.holder = some f.val → s.pwr.ho = none →
    c = 1 ∧ feedMv m f < s.uvMv ∧ 1 ≤ s.pwr.uv
      ∨ c = 2 ∧ 40000 < feedMv m f
      ∨ c = 3 ∧ s.uvMv ≤ feedMv m f ∧ feedMv m f ≤ 40000 ∧ s.ocMa < m.phase
      ∨ c = 4 ∧ s.uvMv ≤ feedMv m f ∧ feedMv m f ≤ 40000 ∧ m.phase ≤ s.ocMa ∧ feedFault m f = true →
    Runs (.supervisorCheck m) s fun t =>
      t.pwr.holder = none ∧ t.pwr.lease = s.pwr.lease - 1 ∧ t.pwr.ho = some { out := f, inn := 1 - f.val, cause := c }
      ∧ nth t.pwr.good f 0 = 0 ∧ t.flag (eligField f) = false
      ∧ t.flag PWR_STAT.HANDOVER = true ∧ t.flag PWR_STAT.SUPV = false ∧ t.flag PWR_STAT.HOLD = true
      ∧ t.fld PWR_HO_STAT.CAUSE = c ∧ t.fld PWR_HO_STAT.FROM = f
      ∧ t.fld PWR_HO_CNT.UNSUPERVISED = satInc 0xFFFF (s.fld PWR_HO_CNT.UNSUPERVISED)
      ∧ (s.pwr.on = true → s.pwr.stall = false → HoldSound s m → KeepsAtCheck s t decisionRegs))
  ∧ (∀ (s : State) (m : SupervisorSample) (f : Fin 2), s.pwr.holder = some f.val → s.pwr.ho = none → s.pwr.req = true →
    FeedSound s m f → Runs (.supervisorCheck m) s fun t =>
      t.pwr.holder = none ∧ t.pwr.lease = s.pwr.lease - 1 ∧ t.pwr.req = false
      ∧ t.pwr.ho = some { sup := true, out := f, inn := 1 - f.val, cause := 5 }
      ∧ t.flag PWR_STAT.HANDOVER = true ∧ t.flag PWR_STAT.SUPV = true ∧ t.flag PWR_STAT.HOLD = true
      ∧ t.fld PWR_HO_STAT.CAUSE = 5 ∧ t.fld PWR_HO_STAT.FROM = f
      ∧ t.fld PWR_HO_CNT.SUPERVISED = satInc 0xFFFF (s.fld PWR_HO_CNT.SUPERVISED)
      ∧ (s.pwr.on = true → s.pwr.stall = false → HoldSound s m → KeepsAtCheck s t decisionRegs))
  ∧ (∀ (s : State) (m : SupervisorSample) (h : Handover), s.pwr.holder = none → s.pwr.ho = some h → h.granted = none →
    Runs (.supervisorCheck m) s fun t =>
      t.pwr.holder = none ∧ t.pwr.lease = s.pwr.lease - 1 ∧ t.pwr.ho = some { h with since := h.since + 1 })
  ∧ (∀ (s : State) (m : SupervisorSample) (f : Fin 2), ¬ FeedGood s m f → Runs (.supervisorCheck m) s fun t =>
      nth t.pwr.good f 0 = 0 ∧ t.flag (eligField f) = false)
  ∧ (∀ (s : State) (m : SupervisorSample) (f : Fin 2), s.pwr.holder ≠ some f.val → s.pwr.ho = none → f.val < s.pwr.good.length →
    99 ≤ nth s.pwr.good f 0 → FeedGood s m f → Runs (.supervisorCheck m) s fun t => t.flag (eligField f) = true)
  ∧ (∀ (s : State) (m : SupervisorSample) (f : Fin 2), s.pwr.holder = none → s.pwr.ho = none → s.pwr.lease ≤ 1 → s.pwr.guard ≤ 1 →
    f.val < s.pwr.good.length → 99 ≤ nth s.pwr.good f 0 → FeedGood s m f →
    f.val = 0 ∨ nth s.pwr.good 0 0 < 99 ∨ ¬ FeedGood s m 0 →
    Runs (.supervisorCheck m) s fun t =>
      t.pwr.holder = some f.val ∧ t.pwr.lease = 4 ∧ t.pwr.conv = f ∧ nth t.pwr.closed (1 - f.val) false = false
      ∧ t.flag PWR_STAT.TOKEN = true ∧ t.fld PWR_STAT.HOLDER = f
      ∧ (if s.pwr.on then t.flag PWR_EVT.RECOVER = true ∧ t.fld PWR_HO_STAT.CAUSE = 0
        else t.pwr.ho = none ∧ KeepsAtCheck s t []))
  ∧ (∀ (s : State) (m : SupervisorSample) (h : Handover) (n : Nat), s.pwr.holder = some h.inn → s.pwr.ho = some h →
    h.recovery = false → h.sup = false → h.inn < 2 → h.granted = some n → 13 ≤ n → railBand m = false →
    Runs (.supervisorCheck m) s fun t =>
      t.pwr.holder = none ∧ t.pwr.ho = none ∧ nth t.pwr.good h.inn 0 = 0 ∧ t.flag (eligField h.inn) = false
      ∧ t.fld PWR_HO_STAT.OUTCOME = 3 ∧ t.flag PWR_STAT.HANDOVER = false ∧ t.flag PWR_EVT.HO_FAIL = true
      ∧ t.flag PWR_STAT.PFW = true)
  ∧ (∀ (s : State) (m : SupervisorSample), s.pwr.on = true → s.flag PWR_STAT.PFW = false → m.vhold < s.warnMv → 1 ≤ s.pwr.low →
    Runs (.supervisorCheck m) s fun t =>
      t.flag PWR_STAT.PFW = true ∧ t.flag PWR_EVT.PFW_SET = true
      ∧ (3 ≤ s.boot.step → t.flag SYS_PROF_STAT.FORCED = true ∧ t.flag SYS_PROF_STAT.PEND = false)
      ∧ (s.inSleep = false → s.tot.merged = true → s.tot.barred = false → 5000 ≤ m.vhold → s.pwr.stall = false →
        t.tot.save.isSome = true))

/-- R40, R43 to R47, R56, R58, R59: the supply's events between checks. A lease that is not renewed opens its path; a controller's
fault flag opens its own path, and conversion passes to the other if that has no fault; the grant of a handover opens the other
path and gives the token to the incoming feed, and where that is not eligible the handover is lost and PF_WARN asserts (R59); a
supervised handover is asked for, or refused with OUTCOME 4, a standby that is not eligible among the reasons; a feed ineligible
for an hour raises its cause.
It rests on the model's choices of log entry 52. -/
def Obligations.TokenAndHandover : Prop :=
  (∀ (s : State) (f : Fin 2), s.pwr.holder ≠ some f.val → Runs (.leaseExpiry f) s fun t =>
    t.pwr = { s.pwr with closed := putAt s.pwr.closed f false } ∧ KeepsRegs s t [] ∧ KeepsMem s t
      ∧ KeepsRest s { t with pwr := s.pwr })
  ∧ (∀ (s : State) (f : Fin 2), Runs (.controllerFaultFlag f) s fun t =>
    t.flag (fltField f) = true ∧ t.pwr.closed = putAt s.pwr.closed f false
    ∧ t.pwr.conv = (if s.pwr.conv = f ∧ s.flag (fltField (1 - f)) = false then 1 - f.val else s.pwr.conv)
    ∧ KeepsRegs s t [PWR_STAT] ∧ KeepsMem s t ∧ KeepsRest s { t with pwr := s.pwr })
  ∧ (∀ (s : State) (h : Handover), s.pwr.ho = some h → h.granted = none → 4 ≤ h.since → h.inn < 2 → s.feedElig h.inn = true →
    Runs .handoverGrant s fun t =>
      t.pwr = { s.pwr with holder := some h.inn, lease := 4, uv := 0, conv := h.inn, closed := putAt s.pwr.closed (1 - h.inn) false,
                           ho := some { h with granted := some 0 } }
      ∧ t.flag PWR_STAT.TOKEN = true ∧ t.fld PWR_STAT.HOLDER = h.inn
      ∧ KeepsRegs s t [PWR_STAT] ∧ KeepsMem s t ∧ KeepsRest s { t with pwr := s.pwr })
  ∧ (∀ (s : State) (h : Handover), s.pwr.ho = some h → h.granted = none → 4 ≤ h.since → h.back = false →
    s.feedElig h.inn = false →
    Runs .handoverGrant s fun t =>
      t.pwr.ho = none ∧ t.pwr.holder = s.pwr.holder ∧ t.pwr.closed = s.pwr.closed ∧ t.fld PWR_HO_STAT.OUTCOME = 2
      ∧ t.flag PWR_STAT.HANDOVER = false ∧ t.flag PWR_EVT.HO_FAIL = true ∧ t.flag PWR_STAT.PFW = true)
  ∧ (∀ (s : State) (v : Word) (f : Nat), PWR_HO_CMD.KEY.of v = 0xA5C3 → PWR_HO_CMD.GO.of v = 1 → s.pwr.holder = some f →
    s.feedElig (1 - f) = true → s.pwr.ho = none → s.pwr.req = false → s.inHold = false → s.flag PWR_STAT.PFW = false →
    100000 ≤ s.pwr.sinceHold →
    s.cpStopped = false → Runs (.supervisedHandoverRequest v) s fun t =>
      t.pwr = { s.pwr with req := true } ∧ KeepsRegs s t [] ∧ KeepsMem s t ∧ KeepsRest s { t with pwr := s.pwr })
  ∧ (∀ (s : State) (v : Word), PWR_HO_CMD.KEY.of v = 0xA5C3 → PWR_HO_CMD.GO.of v = 1 →
    s.pwr.holder = none ∨ (∃ f, s.pwr.holder = some f ∧ s.feedElig (1 - f) = false) ∨ s.pwr.ho.isSome = true ∨ s.inHold = true
      ∨ s.flag PWR_STAT.PFW = true ∨ s.pwr.sinceHold < 100000 →
    s.cpStopped = false → Runs (.supervisedHandoverRequest v) s fun t =>
      t.fld PWR_HO_STAT.OUTCOME = 4 ∧ t.flag PWR_EVT.SHO = true ∧ OnlyRegs s t [PWR_HO_STAT, PWR_EVT])
  ∧ (∀ (s : State) (f : Fin 2), 360000000 ≤ nth s.pwr.bad f 0 → nth s.pwr.fired f false = false → Runs (.feed1h f) s fun t =>
    t.flag PWR_EVT.FEED_1H = true ∧ t.pwr = { s.pwr with fired := putAt s.pwr.fired f true }
    ∧ (s.fld LCS_STAT.STATE ≠ 4 → bit (t.reg LCS_CAUSE).toNat 0 = true)
    ∧ KeepsRegs s t (PWR_EVT :: causeRegs 0) ∧ KeepsMemOut s t 0x38002808 8
    ∧ KeepsRest s { t with pwr := s.pwr, pm := { t.pm with later := s.pm.later } })

/-- R47, R52 to R54, R59: the end of a hold window, of a brown stall and of PF_WARN.
It rests on the model's choices of log entries 52, 53. -/
def Obligations.HoldStallAndWarning : Prop :=
  (∀ (s : State) (n : Nat), s.inHold = true → s.pwr.stall = false → s.pwr.resume = false → s.pwr.closeAt = some n →
    n ≤ s.pwr.window →
    Runs .holdWindowClose s fun t =>
      t.flag PWR_STAT.HOLD = false ∧ t.fld PWR_HO_STAT.WINDOW = min 255 s.pwr.window
      ∧ t.pwr = { s.pwr with closeAt := none, sinceHold := 0 }
      ∧ t.ana.ao = List.zipWith (fun v w => Option.getD w v) s.ana.ao s.ana.aoNext
      ∧ KeepsRegs s t ([PWR_STAT, PWR_HO_STAT] ++ (List.range 16).map PG_STAT) ∧ KeepsMem s t
      ∧ KeepsRest s { t with pwr := s.pwr, ana := { t.ana with ao := s.ana.ao, aoNext := s.ana.aoNext } }
      ∧ (s.flag LE_CTL.EN = true → ∀ c < 16, t.flag (PG_STAT.FROZEN c) = false))
  ∧ (∀ (s : State), s.pwr.stall = true → s.pwr.relock = true → Runs .clockRestart s fun t =>
      t.pwr.stall = false ∧ t.pwr.resume = s.started
      ∧ t.fld PWR_BROWN.MISSED = min 0xFFFF (((s.aon.edges - s.pwr.stallEdge) * 100000 + 32767) / 32768)
      ∧ t.pwr.missed = t.fld PWR_BROWN.MISSED ∧ t.flag PWR_EVT.BROWN = true ∧ t.flag SYS_NT_STAT.COARSE = true
      ∧ (s.inHold = true → s.pwr.closeAt = none → s.pwr.regAfter = none → s.pwr.ho = none → t.pwr.closeAt = some s.pwr.window)
      ∧ (s.pm.later = [] → s.pm.sc = none → s.mh.deferred = [] → KeepsMem s t) ∧ KeepsMemButPm s t
      ∧ KeepsBlocks s t [0x4000, 0x4001, 0x4006, 0x4008, 0x400E, 0x4010]
      ∧ KeepsRest s { t with pwr := s.pwr, time := s.time, cp := { t.cp with mtip := s.cp.mtip }, mh := s.mh, pm := s.pm })
  ∧ (∀ (s : State), s.pwr.resume = true → s.pwr.stall = false → Runs .leResume s fun t =>
      t.le.tick = (s.le.tick + s.pwr.missed) % 2 ^ 64 ∧ t.pwr = { s.pwr with resume := false }
      ∧ KeepsBlocks s t [0x4002, 0x4003, 0x4004, 0x4005, 0x4008, 0x400D, 0x4011] ∧ t.ecc = s.ecc
      ∧ KeepsRest s { t with le := s.le, pwr := s.pwr, tune := s.tune, mh := s.mh, ana := s.ana })
  ∧ (∀ (s : State) (cut : CutPoint), s.pwr.stall = true → s.pwr.relock = false → 80 ≤ s.pwr.stallAt →
    Runs (.railShutdown cut) s fun t => PartsReset t ∧ t.rnd = {} ∧ t.pwr = {} ∧ t.boot = {} ∧ t.cp = {}
      ∧ t.aon = s.aon ∧ t.flash = s.flash ∧ t.free = s.free ∧ t.readback = s.readback ∧ t.pending = s.pending
      ∧ (∀ a, 0x40020000 ≤ a ∧ a < 0x40030000 → t.reg a = s.reg a)
      ∧ ∀ a, a < 0x38000000 ∨ 0x38080000 ≤ a → t.rd8 a = memDefault a)
  ∧ (∀ (s : State), s.flag PWR_STAT.PFW = true → s.pwr.holder.isSome = true → s.pwr.reg = true → s.pwr.rails = true →
    100 ≤ s.pwr.clear → s.pwr.stall = false → s.boot.step ≠ 5 → Runs .pfWarnDeassert s fun t =>
      t.flag PWR_STAT.PFW = false ∧ t.flag PWR_EVT.PFW_CLR = true ∧ OnlyRegs s t [PWR_STAT, PWR_EVT])
  ∧ (∀ (s : State), s.flag PWR_STAT.PFW = true → s.pwr.holder.isSome = true → s.pwr.reg = true → s.pwr.rails = true →
    100 ≤ s.pwr.clear → s.pwr.stall = false → s.boot.step = 5 → s.lcState ≠ 4 → Runs .pfWarnDeassert s fun t =>
      t.flag PWR_STAT.PFW = false ∧ t.boot.step = 6
      ∧ KeepsRegs s t [PWR_STAT, PWR_EVT, SYS_BOOT_SEL] ∧ KeepsMem s t ∧ KeepsRest s { t with boot := s.boot })
/-- R67, R72, R74: requests for a profile get the code of R72's table, and one that is accepted is in effect after the next tick
boundary; a forced HOLDUP takes effect, and its end gives the former profile back, or SLEEP where the clocks are those of SLEEP
and no wake source fired; the loss of the HFXO asks for a SYSRST that waits for no RESET save.
It rests on the model's choices of log entry 54. -/
def Obligations.ProfileChanges : Prop :=
  (∀ (s : State) (v : Word), s.profCheck (SYS_PROF_REQ.PROF.of v) = Code.ok → s.cpStopped = false →
    Runs (.sysProfReq v) s fun t =>
    t.fld SYS_PROF_STAT.CODE = Code.ok ∧ t.fld SYS_PROF_STAT.REQ = SYS_PROF_REQ.PROF.of v ∧ t.flag SYS_PROF_STAT.PEND = true
    ∧ t.prof = { s.prof with req := SYS_PROF_REQ.PROF.of v } ∧ KeepsRegs s t [SYS_PROF_STAT] ∧ KeepsMem s t
    ∧ KeepsRest s { t with prof := s.prof })
  ∧ (∀ (s : State) (v : Word), s.profCheck (SYS_PROF_REQ.PROF.of v) ≠ Code.ok → s.cpStopped = false →
    Runs (.sysProfReq v) s fun t =>
    t.fld SYS_PROF_STAT.CODE = s.profCheck (SYS_PROF_REQ.PROF.of v) ∧ t.flag SYS_PROF_EVT.REFUSED = true
    ∧ OnlyRegs s t [SYS_PROF_STAT, SYS_PROF_EVT])
  ∧ (∀ (s : State), s.flag SYS_PROF_STAT.PEND = true → s.inSleep = false → s.pwr.stall = false → s.prof.req < 8 →
    Runs .profileChange s fun t =>
      t.profile = s.prof.req ∧ t.flag SYS_PROF_STAT.PEND = false
      ∧ (s.prof.req ≠ s.profile → t.flag SYS_PROF_EVT.CHANGED = true ∧ (s.prof.req = 4 ↔ t.prof.sleep = true))
      ∧ KeepsMem s t ∧ (s.prof.req ≠ 4 → KeepsRegs s t profileRegs ∧ KeepsRest s t)
      ∧ KeepsBlocks s t [0x4000, 0x4003, 0x4006, 0x400E]
      ∧ KeepsRest s { t with prof := s.prof, wfl := s.wfl, lcs := s.lcs, time := s.time, tot := s.tot })
  ∧ (∀ (s : State), s.flag SYS_PROF_STAT.FORCED = true → s.inHoldup = false → s.pwr.stall = false → Runs .holdupEffect s fun t =>
      t.profile = 3 ∧ t.prof = { s.prof with prev := s.profile } ∧ t.flag SYS_PROF_EVT.CHANGED = true
      ∧ KeepsRegs s t (profileRegs ++ [TUNE_STAT, TUNE_EVT, TUNE_INJ_STAT, TUNE_TRC_CTL, TUNE_TRC_STAT]) ∧ KeepsMem s t
      ∧ KeepsRest s { t with prof := s.prof, tune := s.tune, lcs := { t.lcs with bist := s.lcs.bist } })
  ∧ (∀ (s : State), s.flag PWR_STAT.PFW = false → s.flag SYS_PROF_STAT.FORCED = true → s.inHoldup = true → s.pwr.stall = false →
    (s.inSleep = true → s.prof.woke = false) → Runs .holdupReturn s fun t =>
      t.profile = (if s.inSleep then 4 else s.prof.prev % 8) ∧ t.flag SYS_PROF_STAT.FORCED = false
      ∧ t.flag SYS_PROF_EVT.CHANGED = true ∧ KeepsRegs s t profileRegs ∧ KeepsMem s t ∧ KeepsRest s t)
  ∧ (∀ (s : State), s.flag SYS_PROF_STAT.FORCED = true → s.inHoldup = true → s.inSleep = true → s.prof.woke = true →
    s.flag PWR_STAT.PFW = false → s.pwr.stall = false → Runs .holdupReturn s fun t =>
      t.profile = s.prof.prev % 8 ∧ t.prof = { prev := s.prof.prev } ∧ t.flag SYS_PROF_STAT.FORCED = false
      ∧ t.flag SYS_CLK_STAT.HFXO_ON = true ∧ t.flag SYS_CLK_STAT.PLL_LOCK = true ∧ t.flag SYS_PROF_EVT.CHANGED = true
      ∧ KeepsBlocks s t [0x4000, 0x4003, 0x4004, 0x4005, 0x4006, 0x400C] ∧ KeepsMemOut s t 0x38008800 8
      ∧ KeepsRest s { t with prof := s.prof, le := s.le, time := s.time, tot := s.tot, tune := s.tune, ana := s.ana,
                             pm := { t.pm with later := s.pm.later, waits := s.pm.waits }, cp := { t.cp with mtip := s.cp.mtip } })
  ∧ (∀ (s : State), s.flag SYS_CLK_STAT.HFXO_ON = true → Runs .hfxoLoss s fun t =>
      t.flag SYS_CLK_STAT.HFXO_LOST = true ∧ t.rst = { s.rst with sys := true, now := true }
      ∧ t.reg SYS_RST_CAUSE = BitVec.ofNat 32 (putBit (s.reg SYS_RST_CAUSE).toNat 6 true)
      ∧ KeepsRegs s t [SYS_CLK_STAT, SYS_RST_CAUSE] ∧ KeepsMem s t ∧ KeepsRest s { t with rst := s.rst })

/-- R77 to R79: SLEEP. A wake for a sample leaves the node asleep at the tick of its instant, and of memory writes at most the
captures and trace, the scan engine's variables, and the PM for a calculator whose instant it is; an enabled source marks its
cause and ends SLEEP; the exit gives the profile before SLEEP back, the clocks run, and LE_TICK has advanced by the LFXO time
since the last wake.
It rests on the model's choices of log entry 54. -/
def Obligations.SleepAndWake : Prop :=
  (∀ (s : State) (w : WakeInput), s.inSleep = true → s.flag PWR_STAT.PFW = false → s.wakeInstant w.tick = true →
    s.wakePlace w.tick = true → s.stalled = false → Runs (.wakePerSample w) s fun t =>
      t.prof.sleep = true ∧ t.le.tick = w.tick % 2 ^ 64 ∧ t.flag SYS_CLK_STAT.HFXO_ON = s.flag SYS_CLK_STAT.HFXO_ON
      ∧ (w.lost = true → t.flag SYS_CLK_STAT.HFXO_LOST = true ∧ t.rst.sys = true ∧ t.rst.now = true)
      ∧ KeepsBlocks s t [0x4000, 0x4002, 0x4003, 0x4004, 0x4005, 0x4008, 0x400C, 0x400D, 0x400E, 0x4010, 0x4011]
      ∧ (s.flag TUNE_STAT.CAP_RUN = false ∨ s.capFrames ≤ frameDepth (s.fld TUNE_CAP_CFG.NCH + 1) →
          KeepsMemBut s t [(0x32000000, 0x100000), (0x34040000, 0x40000), (0x38000000, 0x80000)]
          ∧ (s.flag SE_CTL.EN = false → KeepsMemBut s t [(0x32000000, 0x100000), (0x38000000, 0x80000)])
          ∧ ((∀ c < 8, s.mhRuns c = true → w.tick % max 1 (s.mhField c 13) ≠ 0) →
              KeepsMemBut s t [(0x32000000, 0x100000), (0x34040000, 0x40000)] ∧ t.ecc = s.ecc))
      ∧ KeepsRest s { t with prof := s.prof, le := s.le, time := s.time, tot := s.tot, tune := s.tune, ana := s.ana, mh := s.mh,
                             se := s.se, rst := s.rst, pm := s.pm, cp := { t.cp with mtip := s.cp.mtip } })
  ∧ (∀ (s : State) (src : Fin 5) (dio : Fin 32), s.inSleep = true → bit (s.reg SYS_SLEEP_CFG).toNat src = true →
    (src ≠ 3 ∨ bit (s.reg SYS_WAKE_DIO).toNat dio = true) → Runs (.wakeSource src dio) s fun t =>
      t.prof = { s.prof with woke := true } ∧ t.fld SYS_WAKE_CAUSE.CAUSE = putBit (s.fld SYS_WAKE_CAUSE.CAUSE) src true
      ∧ KeepsRegs s t [SYS_WAKE_CAUSE] ∧ KeepsMem s t ∧ KeepsRest s { t with prof := s.prof })
  ∧ (∀ (s : State), s.inSleep = true → s.prof.woke = true → s.flag PWR_STAT.PFW = false → s.flag SYS_PROF_STAT.FORCED = false →
    s.pwr.stall = false → Runs .sleepExit s fun t =>
      t.prof = { prev := s.prof.prev } ∧ t.profile = s.prof.prev % 8
      ∧ t.le.tick = (s.le.tick + (2 * (s.aon.edges - s.prof.lastEdge) * 100000 + 32768) / 65536) % 2 ^ 64
      ∧ t.flag SYS_CLK_STAT.HFXO_ON = true ∧ t.flag SYS_CLK_STAT.PLL_LOCK = true ∧ t.flag SYS_PROF_EVT.WAKE = true
      ∧ KeepsBlocks s t [0x4000, 0x4003, 0x4004, 0x4005, 0x4006, 0x400C] ∧ KeepsMemOut s t 0x38008800 8
      ∧ KeepsRest s { t with prof := s.prof, le := s.le, time := s.time, tot := s.tot, tune := s.tune, ana := s.ana,
                             pm := { t.pm with later := s.pm.later, waits := s.pm.waits }, cp := { t.cp with mtip := s.cp.mtip } })
/-- R65, R81, R82, R454, R506: the steward up to the palette read. The clocks come up in turn, the boot test and the parameter
memory are waited for, and then step 5 is done once.
It rests on the model's choices of log entry 55. -/
def Obligations.StewardStarts : Prop :=
  (∀ (s : State), s.boot.step = 1 → Runs .hfxoStable s fun t =>
    t.boot = { s.boot with step := 2 } ∧ t.flag SYS_CLK_STAT.HFXO_ON = true ∧ KeepsRegs s t [SYS_CLK_STAT] ∧ KeepsMem s t
    ∧ KeepsRest s { t with boot := s.boot })
  ∧ (∀ (s : State), s.boot.step = 2 → s.pwr.stall = false → Runs .coreReady s fun t =>
    t.boot = { s.boot with step := 3 } ∧ t.flag SYS_CLK_STAT.PLL_LOCK = true ∧ KeepsRegs s t [SYS_CLK_STAT, PM_JRNL, PM_ECC]
    ∧ KeepsMemButPm s t ∧ KeepsRest s { t with boot := s.boot, pm := { t.pm with ceNow := s.pm.ceNow } })
  ∧ (∀ (s : State), s.boot.step = 3 → s.boot.tested = false → Runs (.bootTestEnd false) s fun t =>
    t.boot = { s.boot with step := 4, tested := true } ∧ t.flag LCS_HEALTH.CPBOOT = true
    ∧ KeepsRegs s t (LCS_HEALTH :: causeRegs 9) ∧ KeepsMemOut s t 0x38002850 8
    ∧ KeepsRest s { t with boot := s.boot, pm := { t.pm with later := s.pm.later } })
  ∧ (∀ (s : State), s.boot.step = 3 → s.boot.tested = false → s.flag PM_STAT.READY = false → Runs (.bootTestEnd true) s fun t =>
    t.boot = { s.boot with tested := true } ∧ t.flag LCS_HEALTH.CPBOOT = false
    ∧ KeepsRegs s t (LCS_HEALTH :: causeRegs 9) ∧ KeepsMem s t ∧ KeepsRest s { t with boot := s.boot })
  ∧ (∀ (s : State), s.boot.step = 3 → s.boot.tested = false → s.flag PM_STAT.READY = true → Runs (.bootTestEnd true) s fun t =>
    t.boot.read = true ∧ (t.boot.step = 5 ∨ t.boot.step = 6 ∨ t.boot.step = 9) ∧ t.pm.parts = s.storedParts
    ∧ KeepsBlocks s t [0x4000, 0x4002, 0x4008, 0x4009, 0x400E, 0x400F, 0x4010, 0x4011] ∧ KeepsMemButPm s t
    ∧ KeepsRest s { t with boot := s.boot, pm := s.pm, tot := s.tot, mh := s.mh, me := s.me })
  ∧ (∀ (s : State), s.boot.step = 3 → s.boot.tested = false → s.flag PM_STAT.READY = false → Runs .pmReady s fun t =>
    t.flag PM_STAT.READY = true ∧ OnlyRegs s t [PM_STAT])
  ∧ (∀ (s : State), s.boot.step = 3 → s.boot.tested = true → s.flag PM_STAT.READY = false → Runs .pmReady s fun t =>
    t.boot.read = true ∧ (t.boot.step = 5 ∨ t.boot.step = 6 ∨ t.boot.step = 9) ∧ t.pm.parts = s.storedParts
    ∧ KeepsBlocks s t [0x4000, 0x4002, 0x4008, 0x4009, 0x400E, 0x400F, 0x4010, 0x4011] ∧ KeepsMemButPm s t
    ∧ KeepsRest s { t with boot := s.boot, pm := s.pm, tot := s.tot, mh := s.mh, me := s.me })

/-- R83, R85, R88, R100, R102, R103, R482, R483, R484: slots, the start tick and the hand-over. A slot refused gives way to the
other, then to the ground configuration; an accepted slot is used; the start tick ends the start; a firmware image whose checks
end OK runs, one refused gives way to the other slot, then to none. SYS_BOOT_SEL is stored in the boot record, and the counters of
palette and firmware versions advance at ROLL_END.
It rests on the model's choices of log entries 55, 56, 57. -/
def Obligations.StewardEvaluates : Prop :=
  (∀ (s : State), s.boot.step = 6 → s.boot.second = false → Runs .qspiIdentTimeout s fun t =>
    t.boot = { s.boot with step := 6, slot := 1 - s.boot.slot, second := true,
                           report := s.boot.report ++ [(0, ⟨0, s.boot.slot, 0xFFFF, Code.format, 0, 0⟩)] }
    ∧ t.fld (if s.boot.slot = 0 then SYS_PAL_STAT.A_CODE else SYS_PAL_STAT.B_CODE) = Code.format
    ∧ KeepsRegs s t [SYS_PAL_STAT] ∧ KeepsMem s t ∧ KeepsRest s { t with boot := s.boot })
  ∧ (∀ (s : State), s.boot.step = 6 → s.boot.second = true → Runs .qspiIdentTimeout s fun t =>
    t.boot.step = 9 ∧ t.boot.slotUsed = none
    ∧ KeepsRegs s t [SYS_PAL_STAT] ∧ KeepsMem s t ∧ KeepsRest s { t with boot := s.boot })
  ∧ (∀ (s : State), s.boot.step = 6 → Runs .paletteReadEnd s fun t =>
    t.boot = { s.boot with step := 7 } ∧ KeepsRegs s t [] ∧ KeepsMem s t ∧ KeepsRest s { t with boot := s.boot })
  ∧ (∀ (s : State), s.boot.step = 7 → s.flag VLT_STAT.ST_DONE = true → Runs .signatureVerified s fun t =>
    (s.palCheck s.boot.slot = Code.ok →
      t.boot = { s.boot with step := 9, slotUsed := some s.boot.slot, result := s.palParse s.boot.slot })
    ∧ (s.palCheck s.boot.slot ≠ Code.ok → t.boot.slotUsed = (if s.boot.second then none else s.boot.slotUsed)
      ∧ t.boot.step = if s.boot.second then 9 else 6)
    ∧ KeepsRegs s t [SYS_PAL_STAT] ∧ KeepsMem s t ∧ KeepsRest s { t with boot := s.boot })
  ∧ (∀ (s : State) (us : Nat), s.boot.step = 9 → s.flag PWR_STAT.PFW = false → s.tot.save = none → Runs (.startTick us) s fun t =>
    t.boot.step = 10 ∧ t.started = true ∧ t.boot.result = {} ∧ t.boot.fallback = false
    ∧ KeepsRest s { t with boot := s.boot, prof := s.prof, le := s.le, pm := s.pm, vlt := s.vlt, pt := s.pt, wfl := s.wfl, mh := s.mh,
                           me := s.me, se := s.se, rnd := s.rnd, way := s.way, ana := s.ana })
  ∧ (∀ (s : State) (us k : Nat), s.boot.fwSlot = some k → s.flag VLT_STAT.ST_DONE = true →
    s.boot.rpt = [] ∨ s.reportWaits = false → Runs (.firmwareVerified us) s fun t =>
    (s.fwCheck k = Code.ok → t.cp.fw = true ∧ t.cp.machine = true ∧ t.cp.pmp = List.replicate 16 (0, 0) ∧ t.boot.fwSlot = none
        ∧ t.boot.sealed_ = true)
    ∧ t.boot.rpt = [] ∧ (s.fwCheck k ≠ Code.ok → t.cp.fw = s.cp.fw
      ∧ t.boot.fwSlot = if s.boot.fwSecond then none else some (1 - k))
    ∧ KeepsRegs s t [SYS_START_TIME, SYS_WDT_CFG, SYS_WDT_STAT, LE_CTL, SA_CTL, PT_CTL, MH_CTL, ME_CTL, WFL_CTL, SE_CTL, VLT_BOOT,
                     VLT_FW_VER]
    ∧ (∀ a, a < 0x20000000 ∨ 0x20300000 ≤ a ∧ a < 0x38000000 ∨ 0x38080000 ≤ a → t.rd8 a = s.rd8 a)
    ∧ KeepsRest s { t with boot := s.boot, cp := s.cp, vlt := s.vlt })
  ∧ (∀ (s : State) (v : Word), s.pmBlocked 4 = false → s.cpStopped = false → Runs (.sysBootSel v) s fun t =>
    t.reg SYS_BOOT_SEL = BitVec.ofNat 32 (v.toNat % 4)
    ∧ t.mem = (s.setBootRecord (s.bootRecord - s.bootRecord % 4 + v.toNat % 4)).mem
    ∧ KeepsRegs s t [SYS_BOOT_SEL] ∧ KeepsMemOut s t 0x38000000 8 ∧ KeepsRest s t)
  ∧ (∀ (s : State) (v : Word), SYS_PAL_ROLL.KEY.of v = 0x7140 → SYS_PAL_ROLL.GO.of v = 1 → s.flag SYS_PAL_STAT.ROLL_BUSY = false →
    s.flag SYS_ROLE.GROUND = false → s.cpStopped = false → Runs (.sysPalRoll v) s fun t =>
      t.flag SYS_PAL_STAT.ROLL_BUSY = true ∧ OnlyRegs s t [SYS_PAL_STAT])
  ∧ (∀ (s : State), s.flag SYS_PAL_STAT.ROLL_BUSY = true → s.pmBlocked 5 = false → Runs (.rollEnd false) s fun t =>
      t.flag SYS_PAL_STAT.ROLL_BUSY = false
      ∧ t.mem = (forN (fun _ (s : State) => s.scIncrement 0) ((s.reg SYS_PAL_VER).toNat - s.scValue 0) s).mem
      ∧ KeepsBlocks s t [0x4000, 0x400E, 0x4010] ∧ KeepsMemButPm s t
      ∧ KeepsRest s { t with pm := { t.pm with later := s.pm.later } })
  ∧ (∀ (s : State), s.flag VLT_STAT.FW_ROLL_BUSY = true → s.pmBlocked 5 = false → Runs (.rollEnd true) s fun t =>
      t.flag VLT_STAT.FW_ROLL_BUSY = false
      ∧ t.mem = (forN (fun _ (s : State) => s.scIncrement 4) ((s.reg VLT_FW_VER).toNat - s.scValue 4) s).mem
      ∧ KeepsBlocks s t [0x400F, 0x400E, 0x4010] ∧ KeepsMemButPm s t
      ∧ KeepsRest s { t with pm := { t.pm with later := s.pm.later } })
/-- R104 to R106, R108 to R111: the control processor's surroundings. A lockstep mismatch asks for a CPRST with its cause, and the
CP has no effect until then, but a debugger's accesses go on; the machine timer pends while MTIME has reached MTIMECMP; an access
that faults, by R108's table or by the PMP entries that come with it, has no effect but its cause; a denied one is counted, the
first of them recorded.
It rests on the model's choices of log entries 39, 64, 68. -/
def Obligations.CpFaults : Prop :=
  (∀ (s : State), s.rst.sys = false → s.rst.cp = false → Runs .lockstepMismatch s fun t =>
    t.flag SYS_CP_STAT.LS_SEEN = true ∧ t.fld SYS_CP_STAT.LOCKSTEP = min 0xFF (s.fld SYS_CP_STAT.LOCKSTEP + 1)
    ∧ t.rst = { s.rst with cp := true } ∧ t.reg SYS_RST_CAUSE = BitVec.ofNat 32 (putBit (s.reg SYS_RST_CAUSE).toNat 9 true)
    ∧ t.cp.mismatch = true ∧ t.cpStopped = true
    ∧ KeepsRegs s t [SYS_CP_STAT, SYS_RST_CAUSE] ∧ KeepsMem s t
      ∧ KeepsRest s { t with rst := s.rst, cp := { t.cp with mismatch := s.cp.mismatch } })
  ∧ (∀ (s : State), Runs .machineTimer s fun t =>
    t.cp.mtip = decide (s.reg64 SYS_MTIMECMP_LO SYS_MTIMECMP_HI ≤ s.time.mtime)
    ∧ KeepsRegs s t [] ∧ KeepsMem s t ∧ KeepsRest s { t with cp := s.cp })
  ∧ (∀ (s : State) (x : CpAccess) (ue : Bool), s.accessFaults x ue = true → x.who = .debug → s.inSleep = false →
    Runs (.accessFault x ue) s fun t =>
    t.cp.sberror = (if cpMisaligned x then 3 else 2) ∧ t.cp.trap = s.cp.trap
    ∧ KeepsRegs s t [SYS_FW_STAT] ∧ KeepsMem s t ∧ KeepsRest s { t with cp := { t.cp with sberror := s.cp.sberror } })
  ∧ (∀ (s : State) (x : CpAccess) (ue : Bool), s.accessFaults x ue = true ∨ (s.hartAs x).pmpDenies x = true → x.who ≠ .debug →
    s.cpStopped = false → Runs (.accessFault x ue) s fun t =>
    t.cp.trap = some (if x.kind = .fetch then 1 else if x.kind = .write ∨ x.kind = .atomic then 7 else 5) ∧ t.cp.machine = true
    ∧ KeepsRegs s t [SYS_FW_STAT] ∧ KeepsMem s t
    ∧ KeepsRest s { t with cp := { t.cp with trap := s.cp.trap, machine := s.cp.machine, pmp := s.cp.pmp } })
  ∧ (∀ (s : State) (x : CpAccess) (ue : Bool), s.accessFaults x ue = false → (s.hartAs x).pmpDenies x = false →
    Runs (.accessFault x ue) s fun t =>
    t.cp.trap = s.cp.trap ∧ t.cp.sberror = s.cp.sberror ∧ KeepsRegs s t [] ∧ KeepsMem s t
    ∧ KeepsRest s { t with cp := { t.cp with machine := s.cp.machine, pmp := s.cp.pmp } })
  ∧ (∀ (s : State) (x : CpAccess) (ue : Bool), inBlocks x.addr.toNat = true → cpDenied x = true →
    s.inSleep = false → s.cp.mismatch = false ∨ x.who = .debug → Runs (.accessFault x ue) s fun t =>
    t.fld SYS_FW_STAT.COUNT = min 0xFFF (s.fld SYS_FW_STAT.COUNT + 1)
    ∧ (s.fld SYS_FW_STAT.COUNT = 0 → t.fld SYS_FW_STAT.OFFSET = x.addr.toNat % 2 ^ 16
        ∧ t.fld SYS_FW_STAT.INIT = (if x.who = .debug then 2 else 1)
        ∧ t.flag SYS_FW_STAT.WRITE = decide (x.kind = .write ∨ x.kind = .atomic))
    ∧ KeepsRegs s t [SYS_FW_STAT] ∧ KeepsMem s t
    ∧ KeepsRest s { t with cp := { t.cp with trap := s.cp.trap, machine := s.cp.machine, sberror := s.cp.sberror, pmp := s.cp.pmp } })
  ∧ (∀ (s : State), Runs .sramEccCorrection s fun t =>
    t.fld SYS_CP_STAT.CE_COUNT = min 0xFFFF (s.fld SYS_CP_STAT.CE_COUNT + 1) ∧ OnlyRegs s t [SYS_CP_STAT])
  ∧ (∀ (s : State) (v : Word), SYS_FW_STAT.CLEAR.of v = 1 → s.cpStopped = false → Runs (.sysFwStatClear v) s fun t =>
    t.reg SYS_FW_STAT = 0 ∧ OnlyRegs s t [SYS_FW_STAT])
  ∧ (∀ (s : State) (c : Instr), cpCommand c = true → s.cpStopped = true → Runs c s (OnlyRegs s · []))
  ∧ (∀ (s : State) (halt : Bool), Runs (.debugHalt halt) s fun t =>
    t.cp.halted = halt ∧ KeepsRegs s t [] ∧ KeepsMem s t ∧ KeepsRest s { t with cp := s.cp })

/-- R79, R112: the interrupt controller. A claim returns the source of the table's choice, clears its pending bit and holds it
claimed
until a completion for an enabled source; an edge on an input is a request of source 75, and in SLEEP the wake source that
SYS_SLEEP_CFG and SYS_WAKE_DIO select (R79).
It rests on the model's choices of log entry 39. -/
def Obligations.InterruptClaims : Prop :=
  (∀ (s : State), s.claimBest 97 = none → s.cpStopped = false → Runs .intcClaim s fun t =>
    t.readback = 0 ∧ t.cp.claimed = s.cp.claimed ∧ KeepsRegs s t [] ∧ KeepsMem s t
      ∧ KeepsRest s { t with readback := s.readback })
  ∧ (∀ (s : State) (n p : Nat), s.claimBest 97 = some (n, p) → n < 96 → s.cpStopped = false → Runs .intcClaim s fun t =>
    t.readback = BitVec.ofNat 32 n ∧ t.cp.claimed = n :: s.cp.claimed ∧ t.intPending n = false
    ∧ KeepsRegs s t [] ∧ KeepsMem s t ∧ KeepsRest s { t with readback := s.readback, cp := s.cp })
  ∧ (∀ (s : State) (v : Word), bit (s.reg (INTC_EN (INTC_CLAIM.ID.of v / 32))).toNat (INTC_CLAIM.ID.of v % 32) = true →
    s.cpStopped = false → Runs (.intcCompletion v) s fun t =>
      t.cp.claimed = s.cp.claimed.filter (fun n => n != INTC_CLAIM.ID.of v)
      ∧ KeepsRegs s t [] ∧ KeepsMem s t ∧ KeepsRest s { t with cp := s.cp })
  ∧ (∀ (s : State) (d : Fin 32) (level : Bool), nth s.ana.dioOut d false = false → nth s.ana.dio d false ≠ level →
    Runs (.dioEdge d level) s fun t =>
      t.ana = { s.ana with dio := putAt s.ana.dio d level } ∧ (t.intPending 75 = true ∨ t.cp.claimed.contains 75 = true)
      ∧ (s.flag LE_CTL.EN = true →
      ∀ i < 8, bit (t.fld LE_TRIP_STAT.LEVEL) i = (nth t.ana.dio i false != s.flag (LE_TRIP_CFG.POL i)))
      ∧ (s.inSleep = true → s.flag SYS_SLEEP_CFG.DIO = true → bit (s.reg SYS_WAKE_DIO).toNat d = true →
          t.prof.woke = true ∧ bit (t.fld SYS_WAKE_CAUSE.CAUSE) 3 = true)
      ∧ ((s.inSleep && s.flag SYS_SLEEP_CFG.DIO && bit (s.reg SYS_WAKE_DIO).toNat d) = false →
          t.prof = s.prof ∧ t.reg SYS_WAKE_CAUSE = s.reg SYS_WAKE_CAUSE)
      ∧ KeepsRegs s t [LE_TRIP_STAT, SYS_WAKE_CAUSE] ∧ KeepsMem s t
      ∧ KeepsRest s { t with ana := s.ana, prof := { t.prof with woke := s.prof.woke } })

/-- R112: in every state that a command leaves, every source that requests is pending or claimed.
It rests on the model's choices of log entry 39. -/
def Obligations.EveryRequestIsForwarded : Prop :=
  ∀ s t : State, step s = .next t → IntcSettled t

/-- R39, R112: after reset no source requests that is not pending or claimed, and both OR-ing paths are open.
It rests on the model's choices of log entries 1, 39. -/
def Obligations.ResetIsSettled : Prop :=
  IntcSettled State.reset ∧ PathsApart State.reset ∧ State.reset.pwr.closed = [false, false]

/-- R106, R115, R121, R287: the watchdog and the engine tick. A kick with the key reloads it and ends the stage; at half its time
it warns;
its first expiry asks for a CPRST, a second for a SYSRST. A tick advances SYS_MTIME by 10 µs (R106) and LE_TICK by one, and the
coordinator's lease falls (R287).
It rests on the model's choices of log entries 39, 63, 70. -/
def Obligations.WatchdogAndTick : Prop :=
  (∀ (s : State) (v : Word), SYS_WDT_KICK.KEY.of v = 0x6B1C → s.cpStopped = false → Runs (.sysWdtKick v) s fun t =>
    t.fld SYS_WDT_STAT.REMAIN = max 1 (s.fld SYS_WDT_CFG.TIMEOUT) ∧ t.flag SYS_WDT_STAT.STAGE = false ∧ t.cp.wdtSub = 0
    ∧ KeepsRegs s t [SYS_WDT_STAT] ∧ KeepsMem s t ∧ KeepsRest s { t with cp := s.cp })
  ∧ (∀ (s : State) (v : Word), SYS_WDT_KICK.KEY.of v ≠ 0x6B1C → s.cpStopped = false → Runs (.sysWdtKick v) s (OnlyRegs s · []))
  ∧ (∀ (s : State), s.flag SYS_WDT_CFG.EN = true → 2 * s.fld SYS_WDT_STAT.REMAIN ≤ max 1 (s.fld SYS_WDT_CFG.TIMEOUT) →
    Runs .wdtPrewarning s fun t => t.flag SYS_WDT_STAT.PREWARN = true ∧ OnlyRegs s t [SYS_WDT_STAT])
  ∧ (∀ (s : State), s.wdtExpired = true → s.flag SYS_WDT_CFG.ESCALATE = true → s.flag SYS_WDT_STAT.STAGE = false →
    s.rst.sys = false → s.rst.cp = false → Runs .wdtFirstExpiry s fun t =>
      t.flag SYS_WDT_STAT.STAGE = true ∧ t.flag SYS_WDT_STAT.CPRST_FIRED = true
      ∧ t.fld SYS_WDT_STAT.REMAIN = max 1 (s.fld SYS_WDT_CFG.TIMEOUT)
      ∧ t.rst = { s.rst with cp := true } ∧ t.boot = { s.boot with fallback := true }
      ∧ t.reg SYS_RST_CAUSE = BitVec.ofNat 32 (putBit (s.reg SYS_RST_CAUSE).toNat 10 true)
      ∧ KeepsRegs s t [SYS_WDT_STAT, SYS_RST_CAUSE] ∧ KeepsMem s t
      ∧ KeepsRest s { t with rst := s.rst, boot := s.boot, cp := { t.cp with wdtSub := s.cp.wdtSub } })
  ∧ (∀ (s : State), s.wdtExpired = true → s.flag SYS_WDT_STAT.STAGE = true ∨ s.flag SYS_WDT_CFG.ESCALATE = false →
    s.rst.sys = false → Runs .wdtSecondExpiry s fun t =>
      t.rst = { s.rst with sys := true } ∧ t.reg SYS_RST_CAUSE = BitVec.ofNat 32 (putBit (s.reg SYS_RST_CAUSE).toNat 3 true)
      ∧ KeepsRegs s t [SYS_RST_CAUSE, SYS_TOT_STAT, PM_STAT] ∧ KeepsMem s t
      ∧ KeepsRest s { t with rst := s.rst, tot := s.tot }
      ∧ (s.tot.merged = false → t.tot = s.tot ∧ KeepsRegs s t [SYS_RST_CAUSE]))
  ∧ (∀ (s : State), s.flag SYS_CLK_STAT.PLL_LOCK = true → s.pwr.stall = false → s.live.commit = none →
    Runs .engineTick s fun t =>
      t.time.mtime = (s.time.mtime + 10) % 2 ^ 64
      ∧ t.le.tick = (if s.started && !s.pwr.resume && !s.inSleep then (s.le.tick + 1) % 2 ^ 64 else s.le.tick)
      ∧ t.fld SYS_COORD_STAT.LEASE = s.fld SYS_COORD_STAT.LEASE - 1 ∧ KeepsMemButPm s t
      ∧ (s.boot.rpt = [] → KeepsMem s t)
      ∧ KeepsRegs s t ([SYS_MTIME_LO, SYS_MTIME_HI, LE_TICK_LO, SE_STAT, SE_XCHG_STAT, SYS_COORD_STAT, SYS_RND_NEXT_LO,
                      SYS_RND_NEXT_HI] ++ (List.range 16).map PM_PART_STAT)
      ∧ KeepsRest s { t with time := s.time, le := { t.le with tick := s.le.tick }, pm := { t.pm with waits := s.pm.waits },
                             boot := { t.boot with rpt := s.boot.rpt },
                            
                             cp := { t.cp with mtip := s.cp.mtip } })
/-- R7, R52, R68, R121, R135, R138, R140, R531: conversions and loop windows. A conversion of the level at the pin reaches its
channel with its invalid flag, and none ends before the start tick, in SLEEP or in a brown stall (R52, R68, R531); a window that
is due is had once; a step that runs to its end leaves CODE OK, one whose input is flagged is counted as skipped, one whose inputs
are sound and that is abandoned at the window's end is counted as an overrun.
It rests on the model's choices of log entries 17, 26, 42. -/
def Obligations.LoopWindows : Prop :=
  (∀ (s : State) (chan : Fin 16) (level : Int) (overlap : Bool), s.started = true → s.pwr.stall = false → s.inSleep = false →
    Runs (.conversionEnd (.ai chan level) overlap) s fun t =>
      let v := Dy.ofFloat b64 (aiResult (nth s.ana.aiCurrent chan false) level)
      t.le = { s.le with conv := putAt s.le.conv chan ⟨v, overlap || s.inHold⟩ }
    ∧ KeepsRegs s t [] ∧ KeepsMem s t ∧ KeepsRest s { t with le := s.le })
  ∧ (∀ (s : State) (d : Fin 4) (q : Fin 3) (level : Int) (overlap : Bool), s.started = true → s.pwr.stall = false →
    s.inSleep = false →
    s.fld (PD_OCL.LIMIT d) = 0 ∨ (phaseCode level).natAbs ≤ s.fld (PD_OCL.LIMIT d) →
    Runs (.conversionEnd (.phase d q level) overlap) s fun t =>
      t.le.conv = putAt s.le.conv (16 + 3 * d + q) ⟨Dy.ofInt (phaseCode level), overlap || s.inHold⟩
      ∧ KeepsRegs s t [] ∧ KeepsMem s t ∧ KeepsRest s { t with le := s.le })
  ∧ (∀ (s : State) (d : Fin 4) (q : Fin 3) (level : Int) (overlap : Bool), s.started = true → s.pwr.stall = false →
    s.inSleep = false →
    s.fld (PD_OCL.LIMIT d) ≠ 0 → s.fld (PD_OCL.LIMIT d) < (phaseCode level).natAbs →
    Runs (.conversionEnd (.phase d q level) overlap) s fun t =>
      t.flag (PD_STAT.OC d) = true ∧ t.flag (PD_STAT.OFF d) = true ∧ t.flag (PD_STAT.RUN d) = false ∧ t.flag (PD_EVT.OC d) = true
      ∧ KeepsButLoops s t ∧ KeepsMem s t)
  ∧ (∀ (s : State) (c : Conversion) (overlap : Bool), s.started = false ∨ s.pwr.stall = true ∨ s.inSleep = true →
    Runs (.conversionEnd c overlap) s (OnlyRegs s · []))
  ∧ (∀ (s : State) (n : Fin 64), s.windowDue n = true → n < s.le.slots.length → Runs (.loopWindow n) s fun t =>
    (t.slot n).ranAt = some s.le.tick ∧ t.le.tick = s.le.tick ∧ KeepsButLoops s t ∧ KeepsOtherSlots s t n)
  ∧ (∀ (s : State) (n : Fin 64), s.windowDue n = true → (s.slot n).move = none → (s.slot n).cmd = none →
    s.flag (LE_SLOT_CTL.SWAP n) = false → s.flag TUNE_STAT.INJ_RUN = false → s.tripNow n = false → s.slotRuns n = true →
    s.inputFlagged n = false → Runs (.loopWindow n) s fun t =>
      t.fld (LE_SLOT_STAT.CODE n) = Code.ok ∧ t.fld (LE_SLOT_STAT.CONSEC n) = 0
      ∧ t.fld (LE_SKIP.COUNT n) = s.fld (LE_SKIP.COUNT n) ∧ t.fld (LE_OVR.COUNT n) = s.fld (LE_OVR.COUNT n)
      ∧ KeepsButLoops s t ∧ KeepsOtherSlots s t n)
  ∧ (∀ (s : State) (n : Fin 64), s.windowDue n = true → (s.slot n).move = none → (s.slot n).cmd = none →
    s.flag (LE_SLOT_CTL.SWAP n) = false → s.flag TUNE_STAT.INJ_RUN = false → s.tripNow n = false → s.slotRuns n = true →
    s.inputFlagged n = true → Runs (.loopWindow n) s fun t =>
      t.fld (LE_SLOT_STAT.CODE n) = Code.skipped ∧ t.flag LE_EVT.SKIP = true
      ∧ t.reg (LE_SLOT_OUT n) = s.reg (LE_SLOT_OUT n) ∧ KeepsButLoops s t ∧ KeepsOtherSlots s t n)
  ∧ (∀ (s : State) (n : Fin 64), s.windowDue n = true → (s.slot n).move = none → (s.slot n).cmd = none →
    s.flag (LE_SLOT_CTL.SWAP n) = false → s.tripNow n = false → s.slotRuns n = true → s.inputFlagged n = false →
    Runs (.overrun n) s fun t =>
      t.fld (LE_SLOT_STAT.CODE n) = Code.overrun ∧ t.flag LE_EVT.OVR = true
      ∧ (s.fld (LE_OVR.COUNT n) < 0xFFFFFFFF → t.fld (LE_OVR.COUNT n) = s.fld (LE_OVR.COUNT n) + 1)
      ∧ KeepsButLoops s t ∧ KeepsOtherSlots s t n)

/-- R142 to R144, R159, R170, R171: trips and faults. An enabled trip input latches, and every slot it masks is tripped; a
latch whose input is inactive clears; a fault, an overcurrent and a coast end by the writes their rules give.
It rests on the model's choices of log entry 42. -/
def Obligations.TripsAndFaults : Prop :=
  (∀ (s : State) (i : Fin 8), s.flag (LE_TRIP_CFG.EN i) = true → bit (s.fld LE_TRIP_STAT.LEVEL) i = true →
    bit (s.fld LE_TRIP_STAT.LATCH) i = false → s.stalled = false → s.inSleep = false → Runs (.trip i) s fun t =>
      bit (t.fld LE_TRIP_STAT.LATCH) i = true ∧ t.flag LE_STAT.TRIP_ANY = true ∧ t.flag LE_EVT.TRIP = true
      ∧ KeepsButLoops s t ∧ KeepsMem s t
      ∧ ∀ n < 64, bit (s.reg64 (LE_TRIP_MASK_LO i) (LE_TRIP_MASK_HI i)) n = true →
          t.flag (LE_SLOT_STAT.TRIPPED n) = true)
  ∧ (∀ (s : State) (v : Word), s.cpStopped = false → Runs (.tripLatchClear v) s fun t =>
      (∀ i < 8, bit (t.fld LE_TRIP_STAT.LATCH) i
        = (bit (s.fld LE_TRIP_STAT.LATCH) i && !(bit v.toNat i && !bit (s.fld LE_TRIP_STAT.LEVEL) i)))
      ∧ t.flag LE_STAT.TRIP_ANY = (t.fld LE_TRIP_STAT.LATCH != 0) ∧ KeepsButLoops s t ∧ KeepsMem s t)
  ∧ (∀ (s : State) (n : Fin 64) (v : Word), (LE_SLOT_STAT.FAULT n).of v = 1 → s.cpStopped = false →
    Runs (.faultClear n v) s fun t =>
      t.flag (LE_SLOT_STAT.FAULT n) = false ∧ (t.slot n).act = 0
      ∧ (n < s.le.slots.length →
      (t.slot n).cmd = if (s.slot n).seLock then (s.slot n).cmd.map (fun w => putBit w 1 false) else (s.slot n).cmd)
      ∧ KeepsRegs s t [LE_SLOT_STAT n] ∧ KeepsMem s t ∧ KeepsRest s { t with le := s.le })
  ∧ (∀ (s : State) (d : Fin 4) (v : Word), (PD_CLR.OC d).of v = 1 →
    (∀ c ∈ (s.drive d).codes, s.fld (PD_OCL.LIMIT d) = 0 ∨ c.natAbs ≤ s.fld (PD_OCL.LIMIT d)) →
    s.cpStopped = false → Runs (.pdClrOc d v) s fun t => t.flag (PD_STAT.OC d) = false
      ∧ KeepsButLoops s t ∧ KeepsMem s t)
  ∧ (∀ (s : State) (d : Fin 4) (v : Word), (PD_CLR.HU d).of v = 1 → s.cpStopped = false → Runs (.pdClrHu d v) s fun t =>
      t.flag (PD_STAT.HU d) = false ∧ KeepsButLoops s t ∧ KeepsMem s t
      ∧ ((PD_CLR.OC d).of v = 0 → OnlyRegs s t [PD_STAT d]))

/-- R129, R141, R148, R502, R511, R512: slots and their banks. A swap is asked for at once, or held by a live-change hold, which
keeps
each slot's request once and refuses one past its capacity; words of the shadow bank and of the state are written while their
conditions hold, else ignored. A cell that leaves service is no longer in CELL_EN, and each admitted slot has a move to the place
on
another cell that the admission without that cell gives it. After a failure a slot with no place is admitted no longer; a
self-test
for whose slots there is no place moves none.
It rests on the model's choices of log entries 25, 49. -/
def Obligations.SlotWrites : Prop :=
  (∀ (s : State) (n : Fin 64) (v : Word), (LE_SLOT_CTL.SWAP n).of v = 1 → s.holding = false → s.cpStopped = false →
    Runs (.swapRequest n v) s fun t =>
      t.flag (LE_SLOT_CTL.SWAP n) = true
      ∧ t.fld (LE_SLOT_CTL.EN n) = (if s.seOwned n then s.fld (LE_SLOT_CTL.EN n) else (LE_SLOT_CTL.EN n).of v)
      ∧ t.fld (LE_SLOT_CTL.MODE n) = (if s.seOwned n then s.fld (LE_SLOT_CTL.MODE n) else (LE_SLOT_CTL.MODE n).of v)
      ∧ OnlyRegs s t [LE_SLOT_CTL n])
  ∧ (∀ (s : State) (n : Fin 64) (v : Word), (LE_SLOT_CTL.SWAP n).of v = 1 → s.holding = true → s.cpStopped = false →
    Runs (.swapRequest n v) s fun t =>
      t.flag (LE_SLOT_CTL.SWAP n) = s.flag (LE_SLOT_CTL.SWAP n)
      ∧ t.fld (LE_SLOT_CTL.EN n) = (if s.seOwned n then s.fld (LE_SLOT_CTL.EN n) else (LE_SLOT_CTL.EN n).of v)
      ∧ t.fld (LE_SLOT_CTL.MODE n) = (if s.seOwned n then s.fld (LE_SLOT_CTL.MODE n) else (LE_SLOT_CTL.MODE n).of v)
      ∧ (HeldReq.swap n ∈ s.live.held → t.live = s.live)
      ∧ (HeldReq.swap n ∉ s.live.held → s.live.held.length < 256 → t.live = { s.live with held := s.live.held ++ [.swap n] })
      ∧ (HeldReq.swap n ∈ s.live.held ∨ s.live.held.length < 256 → t.fld SYS_LIVE_STAT.HELD = min 0xFF t.live.held.length)
      ∧ (HeldReq.swap n ∉ s.live.held → 256 ≤ s.live.held.length →
          t.live = s.live ∧ t.fld SYS_LIVE_STAT.CODE = Code.refusedCapacity)
      ∧ KeepsRegs s t [SYS_LIVE_STAT, LE_SLOT_CTL n] ∧ KeepsMem s t ∧ KeepsRest s { t with live := s.live })
  ∧ (∀ (s : State) (n : Fin 64) (k : Fin 128) (v : Word), s.flag (LE_SLOT_CTL.SWAP n) = false →
    s.cpStopped = false → Runs (.leParamWrite n k v) s fun t => t.reg (LE_PARAM n k) = (if k = 0 then v &&& 0x1FFF else v)
      ∧ OnlyRegs s t [LE_PARAM n k])
  ∧ (∀ (s : State) (n : Fin 64) (k : Fin 128) (v : Word), s.flag (LE_SLOT_CTL.SWAP n) = true →
    s.cpStopped = false → Runs (.leParamWrite n k v) s (OnlyRegs s · []))
  ∧ (∀ (s : State) (n : Fin 64) (k : Fin 17) (v : Word), s.flag (LE_SLOT_CTL.EN n) = false → s.seOwned n = false → k ≠ 0 →
    s.cpStopped = false → Runs (.leStateWrite n k v) s fun t =>
      t.reg (LE_STATE n k) = BitVec.ofInt 32 (signed 24 v.toNat)
      ∧ (k.val ≤ (s.slot n).st.length → n < s.le.slots.length → (nth (t.slot n).st (k - 1) {}).m = signed 24 v.toNat)
      ∧ KeepsRegs s t [LE_STATE n k] ∧ KeepsMem s t ∧ KeepsRest s { t with le := s.le })
  ∧ (∀ (s : State) (n : Fin 64) (v : Word), s.flag (LE_SLOT_CTL.EN n) = false → s.seOwned n = false →
    s.cpStopped = false → Runs (.leStateWrite n 0 v) s fun t =>
      t.fld (LE_STATE.EXP n) = v.toNat % 256 ∧ (∀ b ∈ (t.slot n).st, b.e = signed 8 v.toNat)
      ∧ KeepsRegs s t [LE_STATE n 0] ∧ KeepsMem s t ∧ KeepsRest s { t with le := s.le })
  ∧ (∀ (s : State) (n : Fin 64) (k : Fin 17) (v : Word), s.flag (LE_SLOT_CTL.EN n) = true ∨ s.seOwned n = true →
    s.cpStopped = false → Runs (.leStateWrite n k v) s (OnlyRegs s · []))
  ∧ (∀ (s : State) (c : Fin 4), s.flag (LE_CELL_STAT.BIST c) = false → s.flag (LE_CELL_STAT.DIS c) = true →
    bit (s.fld LE_STAT.CELL_EN) c = true → Runs (.cellReschedule c) s fun t =>
      bit (t.fld LE_STAT.CELL_EN) c = false
      ∧ (∀ n < 64, s.admitted n = true → t.admitted n = !(s.replan c true).refused.any (fun r => r.1 == n))
      ∧ (∀ n < s.le.slots.length, t.admitted n = true → n < 64 → s.MovesOff t c true n)
      ∧ (∀ n < s.le.slots.length, s.admitted n = true → n < 64 → t.admitted n = false → (t.slot n).move = none)
      ∧ (∀ n, { t.slot n with move := (s.slot n).move, named := (s.slot n).named } = s.slot n)
      ∧ KeepsRegs s t (LE_STAT :: (List.range 64).map LE_SLOT_CFG ++ (List.range 4).map PD_STAT) ∧ KeepsMem s t
      ∧ KeepsRest s { t with le := { t.le with slots := s.le.slots, pd := s.le.pd } })
  ∧ (∀ (s : State) (c : Fin 4), s.flag (LE_CELL_STAT.BIST c) = true → bit (s.fld LE_STAT.CELL_EN) c = true →
    (s.replan c false).refused = [] → Runs (.cellReschedule c) s fun t =>
      bit (t.fld LE_STAT.CELL_EN) c = false
      ∧ (∀ n < s.le.slots.length, t.admitted n = true → n < 64 →
          s.MovesOff t c false n ∧ (t.slot n).home = some (s.fld (LE_SLOT_CFG.CELL n), (s.slot n).ofs))
      ∧ (∀ n, { t.slot n with move := (s.slot n).move, home := (s.slot n).home } = s.slot n)
      ∧ KeepsRegs s t [LE_STAT] ∧ KeepsMem s t ∧ KeepsRest s { t with le := { t.le with slots := s.le.slots } })
  ∧ (∀ (s : State) (c : Fin 4), (s.flag (LE_CELL_STAT.BIST c) = true ∧ (s.replan c false).refused ≠ [])
      ∨ (s.flag (LE_CELL_STAT.BIST c) = false ∧ s.flag (LE_CELL_STAT.DIS c) = false) ∨ bit (s.fld LE_STAT.CELL_EN) c = false →
    Runs (.cellReschedule c) s (OnlyRegs s · []))

/-- R12 to R14, R145, R146, R160, R161, R164, R165, R167 to R169: the plan bridge, the profile generators and the drives. At a
boundary the
bridge takes the newest plan or counts it stale; while the plan in use has an entry its targets go to the channels it feeds, and
else those of the heating curve; each change between the two is flagged with its event. An update of a channel shows its position,
velocity and acceleration; a target written is taken or refused by its code, a plan that is complete waits for the next update,
and STOP,
PRESET and EN act; a running drive leaves its off state at a compare point.
It rests on the model's choices of log entries 27, 69. -/
def Obligations.PlansAndProfiles : Prop :=
  (∀ (s : State), s.flag LE_CTL.EN = true → s.flag LE_PB_CFG.EN = true → s.pwr.stall = false → s.pbDue = true →
    Runs .planStepBoundary s fun t =>
      t.pbNewest = none ∧ t.le.boundary = some s.le.tick ∧ t.pbDue = false
      ∧ KeepsRegs s t ([LE_STAT, LE_EVT, LE_PB_STAT] ++ (List.range 16).map PG_TARGET ++ (List.range 16).map PG_STAT)
      ∧ KeepsMem s t
      ∧ KeepsRest s { t with le := s.le, tune := { t.tune with events := s.tune.events } }
      ∧ (s.pbNewest = none → t.le.staleN = s.le.staleN + 1 ∧ t.le.plan = s.le.plan)
      ∧ (∀ x c, s.pbNewest = some (x, c) → pbTakes c = false → t.le.staleN = s.le.staleN + 1 ∧ t.le.plan = s.le.plan)
      ∧ (∀ x c, s.pbNewest = some (x, c) → pbTakes c = true → s.pbFinite x = true →
          t.le.staleN = 0 ∧ t.le.plan = some x ∧ t.fld LE_PB_STAT.STALE = 0 ∧ t.flag LE_PB_STAT.NONFINITE = false)
      ∧ (∀ x c, s.pbNewest = some (x, c) → pbTakes c = true → s.pbFinite x = false →
          t.le.staleN = s.le.staleN + 1 ∧ t.le.plan = s.le.plan ∧ t.flag LE_PB_STAT.NONFINITE = true
            ∧ t.flag LE_EVT.PB_NONFIN = true)
      ∧ (∀ x, t.le.plan = some x → t.le.staleN ≤ s.pbLimit → ∀ l, s.pbTargets x (t.le.staleN / s.pbBlock) = some l →
          t.flag LE_PB_STAT.FALLBACK = false ∧ ∀ p ∈ pbConvert l, GetsTarget s t p.1 p.2)
      ∧ ((∀ x, t.le.plan = some x → t.le.staleN ≤ s.pbLimit → s.pbTargets x (t.le.staleN / s.pbBlock) = none) →
          t.flag LE_PB_STAT.FALLBACK = true
          ∧ ∀ c < 16, s.flag (LE_PB_MAP.EN c) = true →
              (s.flag (LE_PB_FB.KIND c) = true → GetsTarget s t c (s.slot (s.fld (LE_PB_FB.SLOT c))).out.dy)
              ∧ (s.flag (LE_PB_FB.KIND c) = false → fisFin b32 (s.reg (LE_PB_FBV c)).toNat = true →
                  GetsTarget s t c (s.reg32f (LE_PB_FBV c))))
      ∧ (∀ c < 16, s.flag (LE_PB_MAP.EN c) = false → t.reg (PG_TARGET c) = s.reg (PG_TARGET c))
      ∧ (s.flag LE_PB_STAT.FALLBACK = false → t.flag LE_PB_STAT.FALLBACK = true →
          t.flag LE_EVT.PB_FB_IN = true ∧ t.flag LE_STAT.FALLBACK = true)
      ∧ (s.flag LE_PB_STAT.FALLBACK = true → t.flag LE_PB_STAT.FALLBACK = false →
          t.flag LE_EVT.PB_FB_OUT = true ∧ t.flag LE_STAT.FALLBACK = false))
  ∧ (∀ (s : State) (c : Fin 16), s.flag LE_CTL.EN = true → s.flag (PG_CTL.EN c) = true → s.le.tick % s.pgPeriod c = 0 →
    s.pgFrozen = false → Runs (.pgUpdate c) s fun t =>
      t.reg (PG_POS c) = BitVec.ofNat 32 (fconv b64 b32 (t.pgCh c).x)
        ∧ t.reg (PG_VEL c) = BitVec.ofNat 32 (fconv b64 b32 (t.pgCh c).v)
      ∧ t.reg (PG_ACC c) = BitVec.ofNat 32 (fconv b64 b32 (t.pgCh c).a)
      ∧ t.flag (PG_STAT.MOVING c) = !(t.pgCh c).segs.isEmpty ∧ (c < s.le.pg.length → (t.pgCh c).ready = none)
      ∧ KeepsRegs s t [PG_POS c, PG_VEL c, PG_ACC c, PG_REMAIN c, PG_STAT c, PG_EVT, PG_TARGET c] ∧ KeepsMem s t
      ∧ KeepsRest s { t with le := { t.le with pg := s.le.pg } } ∧ ∀ d : Fin 16, d ≠ c → t.pgCh d = s.pgCh d)
  ∧ (∀ (s : State) (c : Fin 16) (v : Word), s.pgFed c = false → fisFin b32 v.toNat = true → s.cpStopped = false →
    Runs (.pgTarget c v) s fun t =>
      t.reg (PG_TARGET c) = v ∧ t.fld (PG_STAT.CODE c) = Code.ok ∧ KeepsRegs s t [PG_TARGET c, PG_STAT c] ∧ KeepsMem s t
      ∧ KeepsRest s { t with le := s.le })
  ∧ (∀ (s : State) (c : Fin 16) (v : Word), s.pgFed c = true ∨ fisFin b32 v.toNat = false → s.cpStopped = false →
    Runs (.pgTarget c v) s fun t =>
      t.fld (PG_STAT.CODE c) = (if s.pgFed c then Code.refusedState else Code.range) ∧ bit (t.reg PG_EVT).toNat (16 + c) = true
      ∧ OnlyRegs s t [PG_STAT c, PG_EVT])
  ∧ (∀ (s : State) (c : Fin 16) (r : PgReq) (rest : List (Nat × Nat × PgReq)) (tick : Nat),
    s.le.queue = (tick, c.val, r) :: rest → c < s.le.pg.length →
    Runs (.pgPlanComplete c) s fun t =>
      t.le.queue = rest ∧ (t.pgCh c).ready = some r ∧ t.flag (PG_STAT.PEND c) = true
      ∧ KeepsRegs s t [PG_CTL c, PG_STAT c] ∧ KeepsMem s t ∧ KeepsRest s { t with le := s.le })
  ∧ (∀ (s : State) (c : Fin 16) (v : Word), (PG_CTL.STOP c).of v = 1 → (PG_CTL.EN c).of v = 1 → s.flag (PG_CTL.EN c) = true →
    s.flag LE_CTL.EN = true → s.cpStopped = false → Runs (.pgStop c v) s fun t =>
      t.flag (PG_CTL.STOP c) = true ∧ (s.le.tick, c.val, PgReq.stop) ∈ t.le.queue ∧ t.flag (PG_STAT.PEND c) = true
      ∧ KeepsRegs s t [PG_CTL c, PG_STAT c] ∧ KeepsMem s t ∧ KeepsRest s { t with le := s.le })
  ∧ (∀ (s : State) (c : Fin 16) (v : Word), s.flag (PG_CTL.EN c) = false → c < s.le.pg.length → s.cpStopped = false →
    Runs (.pgPreset c v) s fun t =>
      (t.pgCh c).x = fconv b32 b64 v.toNat ∧ (t.pgCh c).v = 0 ∧ (t.pgCh c).a = 0 ∧ (t.pgCh c).segs = []
      ∧ t.flag (PG_STAT.MOVING c) = false
      ∧ KeepsRegs s t [PG_POS c, PG_VEL c, PG_ACC c, PG_REMAIN c, PG_STAT c] ∧ KeepsMem s t
      ∧ KeepsRest s { t with le := { t.le with pg := s.le.pg, queue := s.le.queue } })
  ∧ (∀ (s : State) (c : Fin 16) (v : Word), s.cpStopped = false → Runs (.pgEnable c v) s fun t =>
      t.flag (PG_CTL.EN c) = decide ((PG_CTL.EN c).of v = 1)
      ∧ KeepsRegs s t [PG_CTL c, PG_POS c, PG_VEL c, PG_ACC c, PG_REMAIN c, PG_STAT c] ∧ KeepsMem s t
      ∧ KeepsRest s { t with le := { t.le with pg := s.le.pg, queue := s.le.queue } }
      ∧ (s.flag (PG_CTL.EN c) = true → (PG_CTL.EN c).of v = 0 → t.flag (PG_STAT.MOVING c) = false
      ∧ t.flag (PG_STAT.PEND c) = false))
  ∧ (∀ (s : State) (d : Fin 4) (n : Nat), s.flag LE_CTL.EN = true → s.flag (PD_CFG.EN d) = true → s.pwr.stall = false →
    s.inSleep = false → s.le.tick % s.halfPeriod d = 0 → s.inHold = false → s.driveSlot d 64 = some n →
    s.flag (PD_STAT.FIRST d) = false → s.flag (PD_STAT.OC d) = false → s.flag (PD_STAT.HU d) = false →
    s.flag (LE_SLOT_STAT.TRIPPED n) = false → (s.drive d).stepped = true → Runs (.comparePoint d) s fun t =>
      t.flag (PD_STAT.RUN d) = true ∧ t.flag (PD_STAT.OFF d) = false
      ∧ (∀ q < 3, t.fld (PD_DUTY.CMP d q) ≤ 1000 * s.halfPeriod d)
      ∧ KeepsRegs s t [PD_STAT d, PD_EVT d, PD_DUTY d 0, PD_DUTY d 1, PD_DUTY d 2] ∧ KeepsMem s t
      ∧ (d < s.le.pd.length → (t.drive d).before = s.duties d) ∧ KeepsRest s { t with le := s.le })

/-- R182, R183, R185: injection and trace. GO starts an injection only if the checks of R182 pass and gives their code if not;
STOP ends what runs; the trace is armed if R185 lets it, and stops at once.
It rests on the model's choices of log entries 42, 69. -/
def Obligations.TuneCommands : Prop :=
  (∀ (s : State) (v : Word), TUNE_INJ_CTL.GO.of v = 1 → TUNE_INJ_CTL.STOP.of v = 0 → s.injCheck ≠ Code.ok →
    s.cpStopped = false → Runs (.injectionGo v) s fun t => t.fld TUNE_INJ_STAT.CODE = s.injCheck ∧ OnlyRegs s t [TUNE_INJ_STAT])
  ∧ (∀ (s : State) (v : Word), TUNE_INJ_CTL.GO.of v = 1 → TUNE_INJ_CTL.STOP.of v = 0 → s.injCheck = Code.ok →
    s.cpStopped = false → Runs (.injectionGo v) s fun t =>
      t.fld TUNE_INJ_STAT.CODE = Code.ok ∧ t.fld TUNE_INJ_STAT.ABORT = 0
      ∧ t.flag TUNE_STAT.INJ_RUN = (s.fld TUNE_INJ_CFG.SIG != 0)
      ∧ (s.flag TUNE_CAP_CFG.EN = true → t.flag TUNE_STAT.CAP_RUN = true ∧ t.reg TUNE_CAP_COUNT = 0)
      ∧ t.tune.j = 0 ∧ KeepsRegs s t [TUNE_INJ_STAT, TUNE_STAT, TUNE_CAP_COUNT] ∧ KeepsMem s t
      ∧ KeepsRest s { t with tune := s.tune })
  ∧ (∀ (s : State) (v : Word), TUNE_INJ_CTL.STOP.of v = 1 → TUNE_INJ_CTL.GO.of v = 0 → s.flag TUNE_STAT.AUTH = true →
    s.cpStopped = false → Runs (.injectionStop v) s fun t =>
      t.flag TUNE_STAT.INJ_RUN = false ∧ t.flag TUNE_STAT.CAP_RUN = false
      ∧ (s.flag TUNE_STAT.INJ_RUN = true → t.fld TUNE_INJ_STAT.CODE = Code.incomplete ∧ t.fld TUNE_INJ_STAT.ABORT = 4
          ∧ t.flag TUNE_EVT.INJ_END = true)
      ∧ KeepsRegs s t [TUNE_STAT, TUNE_INJ_STAT, TUNE_EVT] ∧ KeepsMem s t ∧ KeepsRest s { t with tune := s.tune })
  ∧ (∀ (s : State) (v : Word), TUNE_TRC_CTL.ARMED.of v = 1 → TUNE_TRC_CTL.STOP.of v = 0 → s.flag TUNE_TRC_CTL.ARMED = false →
    s.armOk = true → s.cpStopped = false → Runs (.traceArm v) s fun t =>
      t.flag TUNE_TRC_CTL.ARMED = true ∧ t.flag TUNE_STAT.TRC_ARMED = true ∧ t.flag TUNE_TRC_STAT.DONE = false
      ∧ t.tune.trcCount = 0 ∧ t.tune.trcPost = none
      ∧ KeepsRegs s t [TUNE_TRC_CTL, TUNE_STAT, TUNE_TRC_STAT] ∧ KeepsMem s t ∧ KeepsRest s { t with tune := s.tune })
  ∧ (∀ (s : State) (v : Word), TUNE_TRC_CTL.STOP.of v = 1 → s.cpStopped = false → Runs (.traceStop v) s fun t =>
      t.flag TUNE_TRC_CTL.ARMED = false ∧ t.flag TUNE_STAT.TRC_ARMED = false ∧ OnlyRegs s t [TUNE_TRC_CTL, TUNE_STAT])

/-- R199 to R201: the canvas store. A request for READY that passes the checks on the words as written makes the entry READY with
its STRIDE; a cancelled load leaves it EMPTY; a write into a LOADING region takes effect, one into a fixed word is ignored and
counted. -/
def Obligations.CanvasStore : Prop :=
  (∀ (s : State) (e : Fin 16) (v : Word), (s.canvas e).state = 1 → v.toNat % 8 = 2 →
    (let w := s.wr32 (dirAt e) (v.toNat - v.toNat % 8 + 1);
     let c := w.canvas e;
     w.readyCheck e c (fun p => w.rd32 (canvasBase + c.base + p * footprint c.kind c.n c.m)) = Code.ok) →
    s.cpStopped = false → Runs (.canvasReadyRequest e v) s fun t =>
      (t.canvas e).state = 2 ∧ t.rd8 (dirAt e + 6) = BitVec.ofNat 8 Code.ok
      ∧ (t.canvas e).kind = bits v.toNat 15 8 ∧ (t.canvas e).n = bits v.toNat 23 16 ∧ (t.canvas e).m = bits v.toNat 31 24
      ∧ (t.canvas e).stride = footprint (bits v.toNat 15 8) (bits v.toNat 23 16) (bits v.toNat 31 24)
      ∧ KeepsRegs s t [] ∧ KeepsMemOut s t canvasBase 0x200000 ∧ KeepsRest s t)
  ∧ (∀ (s : State) (e : Fin 16) (v : Word), (s.canvas e).state = 2 → v.toNat % 8 = 0 →
    s.cpStopped = false → Runs (.canvasLoadCancel e v) s fun t =>
      (t.canvas e).state = 0 ∧ (t.fld SA_SWAP_STAT.PEND).testBit (e.val / 2) = false
      ∧ ((s.fld SA_SWAP_STAT.PEND).testBit (e.val / 2) = true →
          t.sa.queue = s.sa.queue.map fun j => if j.slot = e.val / 2 ∧ j.wait then { j with dead := true } else j)
      ∧ KeepsRegs s t [SA_SWAP_STAT] ∧ KeepsMemOut s t (dirAt e) 4 ∧ KeepsRest s { t with sa := s.sa })
  ∧ (∀ (s : State) (off : BitVec 21) (size : Fin 3) (v : Word), off.toNat % 2 ^ size.val = 0 → 0x440 ≤ off.toNat →
    (∃ i < 16, (s.canvas i).state = 1 ∧ (s.canvas i).region.1 ≤ off.toNat
      ∧ off.toNat + 2 ^ size.val ≤ (s.canvas i).region.1 + (s.canvas i).region.2) →
    s.cpStopped = false → Runs (.canvasStoreWrite off size v) s fun t =>
      (∀ i < 2 ^ size.val, t.rd8 (canvasBase + off.toNat + i) = nth (toBytes 4 v.toNat) i 0)
      ∧ KeepsRegs s t [] ∧ KeepsMemOut s t (canvasBase + off.toNat) (2 ^ size.val) ∧ KeepsRest s t)
  ∧ (∀ (s : State) (off : BitVec 21) (size : Fin 3) (v : Word), off.toNat < 0x40 → off.toNat % 2 ^ size.val = 0 →
    s.cpStopped = false → Runs (.canvasStoreWrite off size v) s fun t =>
      t.rd16 canvasBase = satInc 0xFFFF (s.rd16 canvasBase)
      ∧ KeepsRegs s t [] ∧ KeepsMemOut s t canvasBase 2 ∧ KeepsRest s t)

/-- R225, R230 to R232, R242, R246: jobs. A checked descriptor gives its code, and an accepted one joins the queue; the oldest
eligible job of the highest priority starts; at the end of a wave its job goes on from the next problem, or ends counted and
signalled; a job whose deadline comes while it waits ends SKIPPED. Of memory the end of a wave or of the job writes the store's
error counters, its problems' own bytes, their rows at DST_ADDR, and the record.
It rests on the model's choices of log entries 29, 34, 35. -/
def Obligations.SolverJobs : Prop :=
  (∀ (s : State) (prio : Fin 4) (v : Word) (cyc code tag : Nat), s.submitOutcome prio v.toNat cyc = (code, tag, none) →
    tag < 2 ^ 16 → code < 2 ^ 8 →
    s.cpStopped = false → Runs (.jobSubmit prio v false cyc) s fun t =>
      t.fld SA_SUB_STAT.CODE = code ∧ t.fld SA_SUB_STAT.TAG = tag ∧ KeepsRegs s t [SA_SUB_STAT] ∧ KeepsMem s t
      ∧ KeepsRest s { t with rnd := s.rnd })
  ∧ (∀ (s : State) (prio : Fin 4) (v : Word) (cyc tag e : Nat) (j : SaJob),
    s.submitOutcome prio v.toNat cyc = (Code.ok, tag, some (j, e)) → tag < 2 ^ 16 →
    s.cpStopped = false → Runs (.jobSubmit prio v false cyc) s fun t =>
      t.fld SA_SUB_STAT.CODE = Code.ok ∧ t.fld SA_SUB_STAT.TAG = tag ∧ t.reg SA_EST = BitVec.ofNat 32 e
      ∧ t.sa = { s.sa with queue := s.sa.queue ++ [j], accepted := s.sa.accepted + 1 }
      ∧ KeepsRegs s t [SA_SUB_STAT, SA_EST, SA_STAT] ∧ KeepsMem s t ∧ KeepsRest s { t with sa := s.sa, rnd := s.rnd })
  ∧ (∀ (s : State) (prio : Fin 4) (v : Word) (cyc : Nat), s.cpStopped = false → Runs (.jobSubmit prio v true cyc) s fun t =>
      t.flag SA_SUB_STAT.IGNORED = true ∧ OnlyRegs s t [SA_SUB_STAT])
  ∧ (∀ (s : State) (p : Nat) (j : SaJob), s.sa.run = none → s.saClock = true → p < 4 → s.saOldest p = some j →
    (∀ q < p, s.saOldest q = none) → (0 < p → s.sa.pre = none) → j.dead = false →
    rtCode ((s.rtAddrs j).map s.rtPacket) = Code.ok → Runs .jobStart s fun t =>
      (∃ r, t.sa.run = some r ∧ r.id = j.id ∧ r.start = some s.le.tick ∧ r.next = j.next
        ∧ r.late = decide (j.accept + j.est < s.le.tick))
      ∧ t.sa.queue = s.sa.queue.filter (·.id != j.id) ∧ t.sa.pre = s.sa.pre ∧ t.flag SA_STAT.RUN = true
      ∧ KeepsRegs s t [SA_STAT] ∧ t.ecc = s.ecc ∧ (s.rtAddrs j = [] → KeepsMem s t) ∧ KeepsRest s { t with sa := s.sa })
  ∧ (∀ (s : State) (bad : List EccFind) (corrected : Nat) (j : SaJob), s.sa.run = some j → s.saClock = true → j.prio < 4 →
    Runs (.waveEnd bad corrected) s fun t =>
      t.sa.leaving = none ∧ t.sa.joining = none ∧ t.sa.queue = s.sa.queue
      ∧ ((∃ r, (t.sa.run = some r ∧ t.sa.pre = s.sa.pre ∨ t.sa.run = none ∧ s.sa.pre = none ∧ t.sa.pre = some r)
            ∧ r.id = j.id ∧ r.next = j.next + (s.waveOf j).length ∧ r.done.length = j.done.length + (s.waveOf j).length
            ∧ (s.jobSound j (s.waveOf j) → KeepsMemBut s t (s.resultBytes j (s.waveOf j))))
        ∨ (t.sa.run = none ∧ t.sa.pre = s.sa.pre ∧ bit (t.fld SA_EVT.DONE) j.prio = true
            ∧ t.reg (SA_DONE_CNT j.prio) = s.reg (SA_DONE_CNT j.prio) + 1
            ∧ (s.jobSound j (s.waveOf j) → KeepsMemBut s t ((j.cmplAddr, 32) :: s.resultBytes j (s.waveOf j)))))
      ∧ KeepsRegs s t (jobEndRegs j.prio) ∧ t.ecc = s.ecc
      ∧ KeepsRest s { t with sa := s.sa, le := { t.le with offers := s.le.offers }, rnd := s.rnd, net := s.net })
  ∧ (∀ (s : State) (cut : WaveCut) (cmd : Instr) (j : SaJob),
    cmd = .jobDeadline cut ∨ cmd = .saClockRestart cut → s.saClock = true →
    s.saDue = [j] → s.sa.run = none → s.sa.pre = none → j.prio < 4 → Runs cmd s fun t =>
      t.sa.queue = s.sa.queue.filter (·.id != j.id) ∧ t.sa.run = none
      ∧ t.reg (SA_LAST 0) = BitVec.ofNat 32 (Code.skipped + 256 * j.op + 65536 * j.tag)
      ∧ bit (t.fld SA_EVT.DONE) j.prio = true ∧ t.reg (SA_DONE_CNT j.prio) = s.reg (SA_DONE_CNT j.prio) + 1
      ∧ KeepsRegs s t (jobEndRegs j.prio) ∧ KeepsMemOut s t j.cmplAddr 32
      ∧ KeepsRest s { t with sa := s.sa, rnd := s.rnd, net := s.net })
  ∧ (∀ (s : State) (cut : WaveCut) (j : SaJob), s.saClock = true → s.saDue = [j] → s.sa.run = some j →
    j.prio < 4 → Runs (.jobDeadline cut) s fun t =>
      t.sa.run = none ∧ t.sa.queue = s.sa.queue ∧ bit (t.fld SA_EVT.DONE) j.prio = true
      ∧ t.reg (SA_DONE_CNT j.prio) = s.reg (SA_DONE_CNT j.prio) + 1
      ∧ (s.jobSound j (s.problemsFrom j j.next) →
          KeepsMemBut s t ((j.cmplAddr, 32) :: s.resultBytes j (s.problemsFrom j j.next)))
      ∧ KeepsRegs s t (jobEndRegs j.prio) ∧ t.ecc = s.ecc
      ∧ KeepsRest s { t with sa := s.sa, le := { t.le with offers := s.le.offers }, rnd := s.rnd, net := s.net })
  ∧ (∀ (s : State) (cut : WaveCut), s.saClock = true → s.saDue = [] →
    Runs (.saClockRestart cut) s fun t =>
      t.flag SA_STAT.FROZEN = false ∧ t.sa = s.sa ∧ OnlyRegs s t [SA_STAT])

/-- R245: a canvas swap. On a slot with no ACTIVE half a request takes effect at once; else it is pending while earlier jobs
remain on the slot. Then the READY half becomes ACTIVE with GEN 0, the former ACTIVE half EMPTY, and the jobs that waited may
start. -/
def Obligations.CanvasSwaps : Prop :=
  (∀ (s : State) (v : Word), SA_SWAP.GO.of v = 1 → (s.slotHalf (SA_SWAP.SLOT.of v) 2).isSome →
    (s.fld SA_SWAP_STAT.PEND).testBit (SA_SWAP.SLOT.of v) = false → s.holding = false →
    (s.slotHalf (SA_SWAP.SLOT.of v) 3).isSome → s.cpStopped = false → Runs (.saSwap v) s fun t =>
      (t.fld SA_SWAP_STAT.PEND).testBit (SA_SWAP.SLOT.of v) = true ∧ t.fld SA_SWAP_STAT.CODE = Code.ok
      ∧ OnlyRegs s t [SA_SWAP_STAT])
  ∧ (∀ (s : State) (v : Word) (r : Nat), SA_SWAP.GO.of v = 1 → s.slotHalf (SA_SWAP.SLOT.of v) 2 = some r →
    (s.fld SA_SWAP_STAT.PEND).testBit (SA_SWAP.SLOT.of v) = false → s.holding = false →
    (s.slotHalf (SA_SWAP.SLOT.of v) 3).isNone → s.cpStopped = false → Runs (.saSwap v) s fun t =>
      (t.canvas r).state = 3 ∧ (t.canvas r).gen = 0 ∧ (t.fld SA_SWAP_STAT.PEND).testBit (SA_SWAP.SLOT.of v) = false
      ∧ (t.fld SA_SWAP_STAT.DONE).testBit (SA_SWAP.SLOT.of v) = true ∧ t.fld SA_SWAP_STAT.CODE = Code.ok
      ∧ KeepsRegs s t [SA_SWAP_STAT] ∧ KeepsMemOut s t (dirAt (2 * SA_SWAP.SLOT.of v)) 0x80 ∧ KeepsRest s { t with sa := s.sa })
  ∧ (∀ (s : State) (v : Word), SA_SWAP.GO.of v = 1 →
    ((s.slotHalf (SA_SWAP.SLOT.of v) 2).isNone ∨ (s.fld SA_SWAP_STAT.PEND).testBit (SA_SWAP.SLOT.of v) = true) →
    s.cpStopped = false → Runs (.saSwap v) s fun t => t.fld SA_SWAP_STAT.CODE = Code.refusedState ∧ OnlyRegs s t [SA_SWAP_STAT])
  ∧ (∀ (s : State) (slot : Fin 8) (r : Nat), (s.fld SA_SWAP_STAT.PEND).testBit slot.val = true → s.slotHalf slot 2 = some r →
    (∀ j ∈ s.sa.run.toList ++ s.sa.pre.toList ++ s.sa.queue, j.slot = slot.val → j.wait = true ∧ j.dead = false) →
    Runs (.canvasSwap slot) s fun t =>
      (t.canvas r).state = 3 ∧ (t.canvas r).gen = 0 ∧ (∀ a, s.slotHalf slot 3 = some a → (t.canvas a).state = 0)
      ∧ (t.fld SA_SWAP_STAT.PEND).testBit slot.val = false ∧ (t.fld SA_SWAP_STAT.DONE).testBit slot.val = true
      ∧ (∀ j ∈ t.sa.queue, j.slot = slot.val → j.dead = false → j.wait = false)
      ∧ KeepsRegs s t [SA_SWAP_STAT] ∧ KeepsMemOut s t (dirAt (2 * slot.val)) 0x80 ∧ KeepsRest s { t with sa := s.sa })

/-- R250, R253, R260: the plug tracker. An update happens at its instant, in it every armed change takes effect; a change that
passes the checks waits for the next update, one that fails them is discarded; a CP write within the pool is ignored and counted.
It rests on the model's choices of log entry 36. -/
def Obligations.PlugTracker : Prop :=
  (∀ (s : State), s.flag PT_CTL.EN = true → s.inHoldup = false → s.inSleep = false → s.pwr.stall = false →
    s.le.tick % s.ptPeriod = 0 → s.pt.last ≠ some s.le.tick → Runs .ptUpdate s fun t =>
      t.pt.last = some s.le.tick ∧ (∀ g ∈ t.pt.staged, g.armed = false) ∧ t.flag PT_EVT.UPD = true
      ∧ t.fld PT_STAT.UPD_SEQ = (s.fld PT_STAT.UPD_SEQ + 2) % 2 ^ 16
      ∧ KeepsRegsOut s t 0x40070000 0x10000 ∧ KeepsMemOut s t 0x33000000 0x1000000 ∧ KeepsRest s { t with pt := s.pt })
  ∧ (∀ (s : State) (v : Word), PT_COMMIT.GO.of v = 1 → s.ptCheck (ptKey v) = Code.ok → s.holding = false →
    s.cpStopped = false → Runs (.ptCommit v) s fun t =>
      t.fld PT_STAT.CODE = Code.ok ∧ (∃ g ∈ t.pt.staged, g.key = ptKey v ∧ g.armed = true
        ∧ g.words = if ptKey v < 256 then s.ptShadow (ptKey v) else s.ptOutShadow (ptKey v - 256))
      ∧ (ptKey v < 256 → t.flag (PT_SEG_STAT.PEND (ptKey v)) = true) ∧ t.pt.segs = s.pt.segs ∧ t.pt.outs = s.pt.outs
      ∧ KeepsRegs s t [PT_STAT, PT_SEG_STAT (ptKey v)] ∧ KeepsMem s t ∧ KeepsRest s { t with pt := s.pt })
  ∧ (∀ (s : State) (v : Word), PT_COMMIT.GO.of v = 1 → s.ptCheck (ptKey v) ≠ Code.ok →
    s.cpStopped = false → Runs (.ptCommit v) s fun t =>
      t.fld PT_STAT.CODE = s.ptCheck (ptKey v) ∧ t.flag PT_EVT.COMMIT = true ∧ t.pt = s.pt
      ∧ (ptKey v < 256 → t.reg (PT_SEG_RING (ptKey v)) = BitVec.ofNat 32 ((s.ptSeg (ptKey v)).c 0)) ∧ KeepsBlocks s t [0x4007]
      ∧ KeepsMem s t ∧ KeepsRest s t)
  ∧ (∀ (s : State) (off : BitVec 19) (size : Fin 3) (v : Word), off.toNat % 2 ^ size.val = 0 →
    s.flag PT_CTL.EN = false ∨ s.plugHeld off.toNat = false → s.cpStopped = false → Runs (.plugStoreWrite off size v) s fun t =>
      (∀ i < 2 ^ size.val, t.rd8 (0x33000000 + off.toNat + i) = nth (toBytes 4 v.toNat) i 0)
      ∧ KeepsRegs s t [] ∧ KeepsMemOut s t (0x33000000 + off.toNat) (2 ^ size.val) ∧ KeepsRest s t)
  ∧ (∀ (s : State) (off : BitVec 19) (size : Fin 3) (v : Word), off.toNat % 2 ^ size.val = 0 →
    s.flag PT_CTL.EN = true → s.plugHeld off.toNat = true → s.cpStopped = false → Runs (.plugStoreWrite off size v) s fun t =>
      t.fld PT_STAT.IGN_WR = satInc 0xFF (s.fld PT_STAT.IGN_WR) ∧ OnlyRegs s t [PT_STAT])

/-- R266, R278, R281 to R283, R287, R291: planning rounds. A boundary numbers the round and fixes its members where a cycle
starts; a participant without a job repeats its draw; a head sums its domain at REPLY_END; the holder publishes the price of the
next round at COLLECT; a lapsed lease names nobody; a head sends its candidacy.
It rests on the model's choices of log entry 38. -/
def Obligations.PlanningRounds : Prop :=
  (∀ (s : State), s.ntReached s.roundMs = true → s.ntIndex s.roundMs ≠ s.rnd.index → Runs .roundBoundary s fun t =>
      t.fld SYS_RND_NUM.ROUND = s.ntIndex s.roundMs % 2 ^ 32 ∧ t.rnd.index = s.ntIndex s.roundMs
      ∧ t.rnd.price = none ∧ t.rnd.job = none ∧ t.rnd.replied = false ∧ t.rnd.summed = false ∧ t.rnd.collected = false
      ∧ (∀ m ∈ t.rnd.members, m.heard = none)
      ∧ KeepsRegs s t [SYS_RND_NUM, SYS_RND_NEXT_LO, SYS_RND_NEXT_HI] ∧ KeepsMem s t
      ∧ KeepsRest s { t with rnd := s.rnd, net := s.net })
  ∧ (∀ (s : State), s.phaseCome (s.fld SYS_RND_CFG.SOLVE_END) = true → s.rnd.job = none → s.isParticipant = true →
    s.rnd.named = true → s.rnd.replied = false → s.canSend = true → s.rnd.refused.getD Code.stale < 256 → s.rnd.cfg.com < 2 →
    Runs .solveEnd s fun t =>
      t.rnd = { s.rnd with replied := true, dprev := s.repeatDraw }
      ∧ (∃ m, Hands s t m ∧ m.chan = s.rnd.cfg.chan ∧ m.type = 9 ∧ m.node = s.nodeId
          ∧ bits (recWord m.record 0) 15 8 = s.rnd.refused.getD Code.stale ∧ bit (recWord m.record 0) 25 = true)
      ∧ KeepsRegs s t [] ∧ KeepsMem s t ∧ KeepsRest s { t with rnd := s.rnd, net := s.net })
  ∧ (∀ (s : State), s.isHead = true → s.canSend = true → s.rnd.summed = false → s.phaseCome (s.fld SYS_RND_CFG.REPLY_END) = true →
    Runs .replyEnd s fun t =>
      t.rnd.summed = true
      ∧ t.rnd.members.map (·.miss) = s.rnd.members.map (fun m => if m.heard.isSome then 0 else m.miss + 1)
      ∧ (∃ d ∈ t.rnd.sums, d.head = s.nodeId ∧ d.round = s.rnd.index % 2 ^ 32)
      ∧ (∃ m, Hands s t m ∧ m.chan = 8 ∧ m.type = 10 ∧ m.node = s.nodeId)
      ∧ KeepsRegs s t [] ∧ KeepsMem s t ∧ KeepsRest s { t with rnd := s.rnd, net := s.net })
  ∧ (∀ (s : State), s.isHead = true → s.canSend = true → s.rnd.collected = false →
    s.phaseCome (s.fld SYS_RND_CFG.COLLECT) = true →
    s.flag SYS_COORD_STAT.HOLD = true → Runs .collect s fun t =>
      t.rnd.collected = true ∧ t.rnd.holding = true ∧ t.rnd.next = t.rnd.newest
      ∧ (∃ m, Hands s t m ∧ m.chan = 8 ∧ m.type = 8 ∧ some m.record = t.rnd.next
          ∧ priceRound m.record = (s.rnd.index + 1) % 2 ^ 32 ∧ (s.rnd.holding = false → priceCycleStart m.record = true))
      ∧ KeepsRegs s t [] ∧ KeepsMem s t ∧ KeepsRest s { t with rnd := s.rnd, net := s.net })
  ∧ (∀ (s : State), s.coordValid = true → s.fld SYS_COORD_STAT.LEASE = 0 → Runs .coordLeaseLapse s fun t =>
      t.coordValid = false ∧ t.flag SYS_COORD_STAT.HOLD = false ∧ t.coordId = s.coordId ∧ t.rnd = { s.rnd with holding := false }
      ∧ KeepsRegs s t [SYS_COORD, SYS_COORD_STAT] ∧ KeepsMem s t ∧ KeepsRest s { t with rnd := s.rnd })
  ∧ (∀ (s : State), s.isHead = true → s.canSend = true → (s.flag SYS_RND_CFG2.CAND = true ∨ 0 < s.fld SYS_NT_CFG.HEADS) →
    Runs .candSend s fun t =>
      (∃ m, Hands s t m ∧ m.chan = 8 ∧ m.type = 11 ∧ m.node = s.nodeId
          ∧ recWord m.record 0 = s.fld SYS_RND_CFG2.RANK + 8 * b2n s.eligible + 16 * b2n (s.flag SYS_COORD_STAT.HOLD))
      ∧ KeepsRegs s t [SYS_NT_STAT] ∧ KeepsMem s t ∧ KeepsRest s { t with net := s.net })

/-- R296, R297, R299, R301 to R303: heat and cold calculators. An instant, at a multiple of PERIOD, latches the pulse count and
starts both conversions; a conversion leaves its temperature or its open or short flag; a step books the volume, and its energy or
its fault; an analogue flow joins the mean of its step, and a step that closed over a negative one shows REV.
It rests on the model's choices of log entries 14, 16, 17, 26. -/
def Obligations.HeatCalculators : Prop :=
  (∀ (s : State) (c : Fin 8), s.stalled = false → s.inSleep = false → s.flag MH_CTL.EN = true → s.atInstant c = true →
    (s.calculator c).newFields = none → s.mhField c 0 ≠ 0 → c.val < s.mh.calcs.length → s.mhField c 1 < s.ana.rtd.length →
    s.mhField c 2 < s.ana.rtd.length → Runs (.integrationInstant c) s fun t =>
      (t.calculator c).running = true ∧ (t.calculator c).latched = (s.reg (AON_PLS_CNT (s.mhField c 4))).toNat
      ∧ (t.calculator c).closed = (s.calculator c).flow ∧ (t.calculator c).acc = (s.calculator c).acc
      ∧ (t.rtd (s.mhField c 1)).conv = true ∧ (t.rtd (s.mhField c 2)).conv = true
      ∧ KeepsRegs s t [] ∧ KeepsMem s t ∧ KeepsRest s { t with mh := s.mh, ana := s.ana })
  ∧ (∀ (s : State) (c : Fin 8) (vals : List Nat), s.stalled = false → s.inSleep = false → s.flag MH_CTL.EN = true →
    s.atInstant c = true →
    (s.calculator c).newFields = some vals → c.val < s.mh.calcs.length → Runs (.integrationInstant c) s fun t =>
      (∀ k < 22, t.reg (MH_C_FIELD c k) = BitVec.ofNat 32 (nth vals k 0)) ∧ (t.calculator c).newFields = none
      ∧ (t.calculator c).acc = (s.calculator c).acc
      ∧ KeepsBlocks s t [0x4002, 0x4008, 0x4011] ∧ KeepsMem s t ∧ KeepsRest s { t with mh := s.mh, ana := s.ana })
  ∧ (∀ (s : State) (n : Fin 16) (ohms : BitVec 64) (overlap : Bool), (s.rtd n).conv = true → n.val < s.ana.rtd.length →
    (overlap = true ∨ s.inHold = true) → Runs (.rtdConversion n ohms overlap) s fun t =>
      t.flag (ANA_RTD_STAT.INVALID n) = true ∧ (t.rtd n) = { s.rtd n with conv := false }
      ∧ KeepsRegs s t [ANA_RTD_STAT n] ∧ KeepsMem s t ∧ KeepsRest s { t with ana := s.ana })
  ∧ (∀ (s : State) (n : Fin 16) (ohms : BitVec 64) (v : Nat), (s.rtd n).conv = true → n.val < s.ana.rtd.length →
    s.inHold = false → s.rtdPair n = none → rtdTemp (f64 (rtdNominal (s.fld (ANA_RTD_CFG.TYPE n)))) ohms.toNat = some v →
    Runs (.rtdConversion n ohms false) s fun t =>
      t.flag (ANA_RTD_STAT.INVALID n) = false ∧ (t.rtd n).conv = false
      ∧ t.flag (ANA_RTD_STAT.SHORT n) = flt b64 v (f64 (-50)) ∧ t.flag (ANA_RTD_STAT.OPEN n) = flt b64 (f64 200) v
      ∧ (flt b64 v (f64 (-50)) = false → flt b64 (f64 200) v = false →
          t.reg (ANA_RTD_VAL n) = BitVec.ofNat 32 (fconv b64 b32 v) ∧ (t.rtd n).t64 = v)
      ∧ KeepsRegs s t [ANA_RTD_STAT n, ANA_RTD_VAL n] ∧ KeepsMem s t ∧ KeepsRest s { t with ana := s.ana })
  ∧ (∀ (s : State) (n : Fin 16), s.stalled = false → s.inSleep = false → s.flag (ANA_RTD_CFG.EN n) = true →
    s.flag (ANA_RTD_STAT.PAIRED n) = false → s.le.tick % min 1000000 (max 10000 (s.fld (ANA_RTD_CFG.PERIOD n))) = 0 →
    n.val < s.ana.rtd.length → Runs (.rtdPeriod n) s fun t =>
      (t.rtd n).conv = true ∧ KeepsRegs s t [] ∧ KeepsMem s t ∧ KeepsRest s { t with ana := s.ana })
  ∧ (∀ (s : State) (c : Fin 8) (level : Int), s.mhField c 0 ≠ 0 → s.mhField c 3 ≠ 0 → s.flag MH_CTL.EN = true →
    s.inHold = false → c.val < s.mh.calcs.length → (s.calculator c).closing = false → s.stalled = false → s.inSleep = false →
    s.le.tick % 1000 = 0 → (s.calculator c).flowAt ≠ some s.le.tick → Runs (.aiFlowConversion c level false) s fun t =>
      let a := aiResult (nth s.ana.aiCurrent (s.mhField c 4) false) level
      let q := fadd b64 (fmul b64 (fconv b32 b64 (s.mhField c 7)) a) (fconv b32 b64 (s.mhField c 8))
      (t.calculator c).lastA = a ∧ (t.calculator c).flowAt = some s.le.tick
      ∧ (t.calculator c).flow.vals = (s.calculator c).flow.vals ++ [a]
      ∧ (t.calculator c).flow.bad = ((s.calculator c).flow.bad || (t.calculator c).lastBad)
      ∧ t.flowQ c a = (if flt b64 q 0 || flt b64 q (fconv b32 b64 (s.mhField c 9)) then 0 else q)
      ∧ (t.calculator c).flowSeen = true ∧ KeepsRegs s t [] ∧ KeepsMem s t ∧ KeepsRest s { t with mh := s.mh })
  ∧ (∀ (s : State) (c : Fin 8), (s.calculator c).running = true → (s.calculator c).closing = false →
    (s.rtd (s.mhField c 1)).conv = false →
    (s.rtd (s.mhField c 2)).conv = false → c.val < s.mh.calcs.length → Runs (.calculatorStep c) s fun t =>
      let acc := (s.calculator c).acc
      let dv := s.mhVolume c
      (t.calculator c).running = false ∧ t.reg (MH_C_SEQ c) = s.reg (MH_C_SEQ c) + 2 ∧ bit (t.fld MH_EVT.STEP) c = true
      ∧ (s.mhField c 3 = 1 → (∃ a ∈ (s.calculator c).closed.vals,
          flt b64 (fadd b64 (fmul b64 (fconv b32 b64 (s.mhField c 7)) a) (fconv b32 b64 (s.mhField c 8))) 0 = true) →
          t.flag (MH_C_STAT.REV c) = true)
      ∧ t.fld (MH_C_STAT.CAUSE c) = s.mhCauses c ∧ t.flag (MH_C_STAT.FAULT c) = (s.mhCauses c != 0)
      ∧ (s.mhCauses c = 0 → (t.calculator c).acc =
          match s.mhEnergy c dv (s.rtd (s.mhField c 1)).t64 (s.rtd (s.mhField c 2)).t64 with
          | some (q, e) => addTo (addTo acc 2 dv) q e
          | none => addTo acc 2 dv)
      ∧ (s.mhCauses c ≠ 0 → bit (s.mhCauses c) 5 = false → (t.calculator c).acc = addTo (addTo acc 2 dv) 5 dv)
      ∧ (bit (s.mhCauses c) 5 = true → (t.calculator c).acc = acc)
      ∧ KeepsButBooking s t [] ∧ KeepsRest s { t with mh := s.mh, pm := { t.pm with later := s.pm.later } }
      ∧ ∀ d : Fin 8, d ≠ c → t.calculator d = s.calculator d)

/-- R307, R308, R310, R505: sealed commits. A request that passes the checks is under way, one that does not changes nothing but
its code; the end books its entries and leaves the new values for their boundary; an acknowledgement frees its entries; a commit
that waited too long for the metering copy is refused.
It rests on the model's choices of log entry 15. -/
def Obligations.SealedCommits : Prop :=
  (∀ (s : State) (v : Word), MH_SEAL_CMD.KEY.of v = 0x5EA1 → MH_SEAL_CMD.GO.of v ≠ 0 → s.cpStopped = false →
    Runs (.mhSealCmd v) s fun t =>
      let num := if MH_SEAL_CMD.NUM.of v = 31 then 16 else MH_SEAL_CMD.NUM.of v
      let es := (List.range (min num 16)).map s.sealEntry
      match s.sealRefusal num es s.portFields with
      | some (c, i) =>
        t.fld MH_SEAL_STAT.CODE = c ∧ t.fld MH_SEAL_STAT.ENTRY = i ∧ t.flag MH_EVT.COMMIT = true
        ∧ OnlyRegs s t [MH_SEAL_STAT, MH_EVT]
      | none =>
        t.flag MH_SEAL_STAT.BUSY = true ∧ t.fld MH_SEAL_STAT.CODE = Code.ok
        ∧ (∃ c, t.mh = { s.mh with sealing := some c } ∧ c.entries = es ∧ c.booked = es.length
            ∧ c.waiting = (es.any (fun e => e.block == 9) && (s.flag ME_STAT.BIST || s.flag ME_STAT.SHADOW)))
        ∧ KeepsRegs s t [MH_SEAL_STAT, PM_STAT] ∧ t.flag PM_STAT.HELD = true ∧ KeepsMem s t ∧ KeepsRest s { t with mh := s.mh })
  ∧ (∀ (s : State) (c : SealSt), s.mh.sealing = some c → c.waiting = false → s.tot.save = none →
    s.pwr.stall = false → s.rst.sys = false → Runs .sealedCommitEnd s fun t =>
      t.mh.sealing = none ∧ t.mh.deferred = [] ∧ t.flag MH_SEAL_STAT.BUSY = false ∧ t.fld MH_SEAL_STAT.CODE = Code.ok
      ∧ t.flag MH_EVT.COMMIT = true
      ∧ (∀ i vals, c.fields = [(8, i, vals)] → i < s.mh.calcs.length → (s.pmProgramAll c.words).scCheck 2 = .done →
          (t.calculator i).newFields = some vals)
      ∧ KeepsButBooking s t [] ∧ KeepsRest s { t with mh := s.mh, me := { t.me with newFields := s.me.newFields }, pm := s.pm })
  ∧ (∀ (s : State) (v : Word), s.flag MH_STAT.MAUTH = true →
    (let oldest := (s.fld MH_LEDGER_NEXT.ENTRY_NO + 2 ^ 32 - s.ledgerHeld) % 2 ^ 32;
     let n := (v.toNat + 2 ^ 32 - oldest) % 2 ^ 32 + 1;
     n ≤ s.ledgerHeld → s.pmBlocked 3 = false → s.cpStopped = false → Runs (.mhLedgerAck v) s fun t =>
      t.ledgerHeld = s.ledgerHeld - n ∧ t.flag MH_STAT.FULL = false ∧ t.ackWord = (v.toNat + 1) % 2 ^ 32
      ∧ KeepsRegs s t [MH_LEDGER_HELD, MH_STAT] ∧ KeepsMemOut s t (pmAddr 0x8808) 8 ∧ KeepsRest s t))
  ∧ (∀ (s : State) (c : SealSt), s.mh.sealing = some c → c.waiting = true → Runs .meCommitWaitTimeout s fun t =>
      t.fld MH_SEAL_STAT.CODE = Code.refusedSelftest ∧ t.flag MH_SEAL_STAT.BUSY = false ∧ t.mh = { s.mh with sealing := none }
      ∧ t.flag MH_EVT.COMMIT = true ∧ KeepsRegs s t [MH_SEAL_STAT, MH_EVT] ∧ KeepsMem s t ∧ KeepsRest s { t with mh := s.mh })

/-- R314, R315, R319, R320: electrical metering. A sample goes through the high-pass filters of every port in use; a block books
its energy by the sign of its power, shows itself by its number and event, and begins the next one with the new sealed values;
before its 80 samples it books nothing.
It rests on the model's choices of log entries 9, 20. -/
def Obligations.ElectricalMetering : Prop :=
  (∀ (s : State) (codes : List (List Int)) (p : Nat), s.flag ME_CTL.EN = true → s.inHold = false → p < 2 → s.me.ports.length = 2 →
    s.meField p 0 ≠ 0 → Runs (.meteringSample codes false) s fun t =>
      (t.port p).samples = (s.port p).samples + 1
      ∧ (t.port p).hpX = (List.range 8).map (fun ch => (s.meFilter p ch (nth (nth codes p []) ch 0)).1)
      ∧ (t.port p).hpY = (List.range 8).map (fun ch => (s.meFilter p ch (nth (nth codes p []) ch 0)).2)
      ∧ KeepsButBooking s t [0x4009] ∧ KeepsRest s { t with me := s.me, mh := s.mh, pm := s.pm })
  ∧ (∀ (s : State) (codes : List (List Int)), s.flag ME_CTL.EN = true → s.meField 0 0 = 0 → s.meField 1 0 = 0 →
    Runs (.meteringSample codes false) s fun t => OnlyRegs s t [])
  ∧ (∀ (s : State) (p : Fin 2), s.flag ME_CTL.EN = true → s.me.ports.length = 2 → s.meField p 0 ≠ 0 →
    (s.port p).acc.length = 7 → (s.port p).sums.n = 80 → (s.port p).due = 0 → (s.port p).frames.length = 1 →
    Runs (.meteringBlock p) s fun t =>
      let pw := fsum b64 0 ((s.port p).sums.p.map blockMean)
      let q := if fle b64 0 pw then 0 else 1
      t.reg (ME_P_SEQ p) = s.reg (ME_P_SEQ p) + 2 ∧ t.flag (ME_P_EVT.BLOCK p) = true ∧ (t.port p).sums = {}
      ∧ nth (t.port p).acc q 0 = accAdd (nth (s.port p).acc q 0) (fmul b64 (fabs b64 pw) (fofRat b64 1 100))
      ∧ nth (t.port p).acc (1 - q) 0 = nth (s.port p).acc (1 - q) 0
      ∧ (∀ vals, nth s.me.newFields p none = some vals → ∀ k < 47, t.reg (ME_P_FIELD p k) = BitVec.ofNat 32 (nth vals k 0))
      ∧ KeepsButBooking s t [0x4009] ∧ KeepsRest s { t with me := s.me, mh := s.mh, pm := s.pm })
  ∧ (∀ (s : State) (p : Fin 2), s.flag ME_CTL.EN = true → s.meField p 0 ≠ 0 → (s.port p).due = 0 →
    (s.port p).sums.n + (s.port p).frames.length ≤ 80 → Runs (.meteringBlock p) s (OnlyRegs s · []))

/-- R327, R328, R332, R337, R445: totals across power cuts. A periodic occasion comes once a period; it takes its snapshot for the
area that does not hold the current save, or waits; a save ends with its words in the array, then the next occasion is served,
none after a RESET save, or a writer that waited; the run mark is the tick count, once a second, and waits for a save. -/
def Obligations.TotalsSaves : Prop :=
  (∀ (s : State), s.inSleep = false → s.pwr.stall = false → s.tot.merged = true → s.tot.barred = false → s.tot.save = none →
    s.tot.periods < (s.le.tick - s.tot.origin) / (100000 * min 3600 (max 10 (s.fld SYS_TOT_CFG.PERIOD))) →
    Runs .periodicSave s fun t =>
      (∃ v, t.tot = { s.tot with save := some v, periods := s.intervals s.savePeriod } ∧ v.kind = .periodic ∧ v.lreq = 0
        ∧ v.bytes = s.saveRecord .periodic (s.scValue 1 + 1) 0 ∧ v.area < 2 ∧ ∀ a, s.currentArea = some a → v.area ≠ a)
      ∧ t.flag SYS_TOT_STAT.BUSY = true ∧ KeepsRegs s t [SYS_TOT_STAT, PM_STAT] ∧ KeepsMem s t
      ∧ KeepsRest s { t with tot := s.tot })
  ∧ (∀ (s : State), (s.le.tick - s.tot.origin) / (100000 * min 3600 (max 10 (s.fld SYS_TOT_CFG.PERIOD))) ≤ s.tot.periods →
    Runs .periodicSave s (OnlyRegs s · []))
  ∧ (∀ (s : State) (v : SaveSt), s.inSleep = false → s.pwr.stall = false → s.tot.merged = true → s.tot.barred = false →
    s.tot.save = some v → s.tot.periods < s.intervals s.savePeriod →
    Runs .periodicSave s fun t =>
      t.tot.save = some v ∧ SaveKind.periodic ∈ t.tot.waiting ∧ KeepsRegs s t [] ∧ KeepsMem s t
        ∧ KeepsRest s { t with tot := s.tot })
  ∧ (∀ (s : State) (v : SaveSt), s.tot.save = some v → s.pwr.stall = false → v.kind ≠ .warning →
    Runs .totalsSaveEnd s fun t =>
      (nextKind s.tot.waiting = none ∨ v.kind = .reset → t.tot.save = none ∧ t.flag SYS_TOT_STAT.BUSY = false)
      ∧ (∀ k, nextKind s.tot.waiting = some k → v.kind ≠ .reset → ∃ w, t.tot.save = some w ∧ w.kind = k)
      ∧ t.tot.merged = (s.tot.merged || v.kind == .merge)
      ∧ (s.pm.later = [] → s.pm.sc = none → s.mh.deferred = [] → ∀ a, t.rd8 a = (s.commitSave v).rd8 a)
      ∧ (∀ c off x, s.pm.later = [(c, off, x)] → c = 1 ∨ c = 3 ∨ c = 4 → s.mh.deferred = [] → s.pm.sc = none → s.sealing = false →
          nextKind s.tot.waiting = none ∨ v.kind = .reset → t.pmWord off = x % 2 ^ 64)
      ∧ (∀ a, (s.commitSave v).currentArea = some a → t.fld SYS_TOT_STAT.AREA = a)
      ∧ KeepsButBooking s t [0x4000] ∧ KeepsRest s { t with tot := s.tot, mh := s.mh, pm := s.pm })
  ∧ (∀ (s : State), s.inSleep = false → s.pwr.stall = false → s.boot.step = 10 → s.tot.barred = false → s.tot.save = none →
    s.tot.marks < (s.le.tick - s.tot.origin) / 100000 → Runs .runMark s fun t =>
      t.pmWord 0x8800 = s.tickCount % 2 ^ 48
        ∧ t.tot = { s.tot with marks := (s.le.tick - s.tot.origin) / 100000, ahead := s.tot.waiting }
      ∧ KeepsRegs s t [] ∧ KeepsMemOut s t (pmAddr 0x8800) 8 ∧ KeepsRest s { t with tot := s.tot })
  ∧ (∀ (s : State) (v : SaveSt), s.inSleep = false → s.pwr.stall = false → s.boot.step = 10 → s.tot.barred = false →
    s.tot.save = some v → s.tot.marks < (s.le.tick - s.tot.origin) / 100000 → Runs .runMark s fun t =>
      t.pm = { s.pm with later := s.pm.later ++ [(1, 0x8800, s.tickCount % 2 ^ 48)] }
      ∧ t.tot = { s.tot with marks := (s.le.tick - s.tot.origin) / 100000, ahead := s.tot.waiting } ∧ KeepsRegs s t []
      ∧ KeepsMem s t
      ∧ KeepsRest s { t with pm := s.pm, tot := s.tot })
  ∧ (∀ (s : State), s.inSleep = true ∨ s.pwr.stall = true ∨ s.boot.step ≠ 10 → Runs .runMark s (OnlyRegs s · []))

/-- R341 to R344, R361, R362: receiving. A frame that is no caravan takes the next entry of the receive queue; an acknowledgement
releases the entries it names; a caravan that waited too long is dropped.
It rests on the model's choices of log entry 43. -/
def Obligations.BusReception : Prop :=
  (∀ (s : State) (c : Fin 8) (f : CanFrame) (sof : Int), s.busRuns c = true → s.canState c < 2 → s.isCaravan c f = false →
    s.qOwned c 0x30 < s.rxDepth c → c.val < s.net.ch.length → Runs (.canFrameReceived c f sof) s fun t =>
      let a := s.fld (busField c 0x20 31 0) + 80 * s.qNext c 0x30
      t.rd32 a = f.id.toNat + 2 ^ 29 * b2n f.xtd + 2 ^ 30 * b2n f.rtr
      ∧ t.rd64 (a + 8) = (s.busStamp sof).2 % 2 ^ 64
      ∧ (∀ i < 64, t.rd8 (a + 16 + i) = nth (frameBytes f) i 0)
      ∧ t.qNext c 0x30 = (s.qNext c 0x30 + 1) % s.rxDepth c ∧ t.qOwned c 0x30 = s.qOwned c 0x30 + 1
      ∧ t.flag (busField c 0x10 0 0) = true ∧ (t.ch c).rxno = ((s.ch c).rxno + 1) % 65536
      ∧ KeepsRegs s t [busBase c + 0x30, busBase c + 0x10, CAN_STAT c] ∧ KeepsMemOut s t a 80
      ∧ KeepsRest s { t with net := s.net, free := s.free })
  ∧ (∀ (s : State) (c : Fin 8) (f : CanFrame) (sof : Int), s.busRuns c = true → s.canState c < 2 → s.isCaravan c f = true →
    c.val < s.net.ch.length → Runs (.canFrameReceived c f sof) s fun t =>
      (t.ch c).rxno = ((s.ch c).rxno + 1) % 65536 ∧ t.reg (busBase c + 0x30) = s.reg (busBase c + 0x30))
  ∧ (∀ (s : State) (c : Fin 10) (v : Word) (n : Nat), s.ackCount c 0x30 (s.rxDepth c) (v.toNat % 2 ^ 13) = some n →
    s.cpStopped = false → Runs (.canRxAck c v) s fun t => t.qOwned c 0x30 = s.qOwned c 0x30 - n ∧ OnlyRegs s t [busBase c + 0x30])
  ∧ (∀ (s : State) (c : Fin 10) (v : Word), s.ackCount c 0x30 (s.rxDepth c) (v.toNat % 2 ^ 13) = none →
    s.cpStopped = false → Runs (.canRxAck c v) s fun t => t.flag (busField c 0x40 31 31) = true ∧ OnlyRegs s t [busBase c + 0x40])
  ∧ (∀ (s : State) (c : Fin 10) (v : Word) (n : Nat), s.ackCount c 0x38 (s.cqDepth c) (v.toNat % 2 ^ 13) = some n →
    c.val < s.net.ch.length → s.cpStopped = false → Runs (.canCqAck c v) s fun t =>
      t.qOwned c 0x38 = s.qOwned c 0x38 - n ∧ (t.ch c).cq = (s.ch c).cq.drop n
      ∧ (∀ x, some x ∈ (s.ch c).cq.take n → nth (t.ch c).ctx x none = none)
      ∧ KeepsRegs s t [busBase c + 0x38] ∧ KeepsMem s t ∧ KeepsRest s { t with net := s.net })
  ∧ (∀ (s : State) (c : Fin 10) (x : Fin 16) (k : BusCtx), s.busRuns c = true → nth (s.ch c).ctx x none = some k →
    k.owned = false →
    k.opened + 100 * max 1 (s.fld (busField c 0x44 9 0)) ≤ s.le.tick → c.val < s.net.ch.length → x.val < (s.ch c).ctx.length →
    Runs (.caravanTimeout c x) s fun t =>
      nth (t.ch c).ctx x none = none
      ∧ (s.qOwned c 0x38 < s.cqDepth c → t.qOwned c 0x38 = s.qOwned c 0x38 + 1 ∧ t.flag (busField c 0x10 1 1) = true
          ∧ (t.rd32 (s.fld (busField c 0x28 31 0) + 16 * s.qNext c 0x38 + 4)) % 256 = Code.length)
      ∧ (s.cqDepth c ≤ s.qOwned c 0x38 → t.fld (busField c 0x40 23 12) = satInc 0xFFF (s.fld (busField c 0x40 23 12))
          ∧ t.flag (busField c 0x10 3 3) = true ∧ KeepsMem s t)
      ∧ KeepsRegs s t [busBase c + 0x38, busBase c + 0x10, busBase c + 0x40]
      ∧ KeepsMemOut s t (s.fld (busField c 0x28 31 0) + 16 * s.qNext c 0x38) 16 ∧ KeepsRest s { t with net := s.net })

/-- R344: a frame that arrives while every entry of its queue is owned is dropped. CAN_LOST.RX_LOST is incremented, up to its
maximum, and CAN_EVT.RX_LOST is set; the queue and its entries stay as they are; RXNO still counts the frame. -/
def Obligations.FullReceiveQueue : Prop :=
  ∀ (s : State) (c : Fin 8) (f : CanFrame) (sof : Int), s.busRuns c = true → s.canState c < 2 → s.isCaravan c f = false →
    s.qOwned c 0x30 = s.rxDepth c → c.val < s.net.ch.length → Runs (.canFrameReceived c f sof) s fun t =>
      t.fld (CAN_LOST.RX_LOST c) = min 0xFFF (s.fld (CAN_LOST.RX_LOST c) + 1) ∧ t.flag (CAN_EVT.RX_LOST c) = true
      ∧ (t.ch c).rxno = ((s.ch c).rxno + 1) % 65536 ∧ t.qOwned c 0x30 = s.qOwned c 0x30 ∧ t.qNext c 0x30 = s.qNext c 0x30
      ∧ KeepsRegs s t [CAN_LOST c, CAN_EVT c, CAN_STAT c] ∧ KeepsMem s t ∧ KeepsRest s { t with net := s.net, free := s.free }

/-- R346 to R349: transmitting. A request makes an entry that passes its check pending, and one that fails it complete with its
code; the frame of the lowest identifier starts, a reference message first; a frame that ends well completes its entry with its
last frame; an abort completes every entry that is not on the bus.
It rests on the model's choices of log entry 43. -/
def Obligations.BusTransmission : Prop :=
  (∀ (s : State) (c : Fin 10) (v : Word) (e : Nat), e < busEntries c → bit v.toNat e = true → s.txPending c e = false →
    s.flag (busField c 0 0 0) = true → s.canFailed c = false → s.cpStopped = false → Runs (.canTxReq c v) s fun t =>
      (s.txCheck c e = Code.ok → t.txPending c e = true)
      ∧ (s.txCheck c e ≠ Code.ok → t.txPending c e = false ∧ bit (t.reg (busBase c + 0x54)).toNat e = true
          ∧ t.fld ⟨busBase c + 0x100 + 4 * e, 7, 0⟩ = s.txCheck c e)
      ∧ KeepsRegsOut s t (busBase c) 0x180 ∧ KeepsMem s t ∧ KeepsRest s { t with net := s.net })
  ∧ (∀ (s : State) (c : Fin 10) (v : Word) (e : Nat), e < busEntries c → bit v.toNat e = false → s.cpStopped = false →
    Runs (.canTxReq c v) s fun t =>
      t.txPending c e = s.txPending c e ∧ t.reg (busBase c + 0x100 + 4 * e) = s.reg (busBase c + 0x100 + 4 * e)
      ∧ KeepsRegsOut s t (busBase c) 0x180 ∧ KeepsMem s t ∧ KeepsRest s { t with net := s.net })
  ∧ (∀ (s : State) (c : Fin 8) (cyc : Int) (d : List Byte), s.canMayStart c = true → s.inHoldup = false → (s.ch c).ref = some d →
    c.val < s.net.ch.length → Runs (.canFrameStart c cyc) s fun t =>
      (t.ch c).cur = some (.ref, s.hwFrame c (s.hwId 0 1) d) ∧ (t.ch c).refSof = some (refNo d, s.ntAt cyc)
      ∧ KeepsRegs s t [] ∧ KeepsMem s t ∧ KeepsRest s { t with net := s.net })
  ∧ (∀ (s : State) (c : Fin 8) (cyc : Int) (id e : Nat), s.canMayStart c = true → (s.inHoldup = true ∨ (s.ch c).ref = none) →
    lowestId (s.canReady c) = some (id, .entry e) → (bit (s.txWord c e 0) 29 && s.priceBarred id) = false →
    c.val < s.net.ch.length → Runs (.canFrameStart c cyc) s fun t =>
      (t.ch c).cur = some (.entry e, s.entryFrame c e)
      ∧ KeepsRegs s t [] ∧ KeepsMem s t ∧ KeepsRest s { t with net := s.net })
  ∧ (∀ (s : State) (c : Fin 8) (e : Nat) (f : CanFrame), (s.ch c).cur = some (.entry e, f) → s.busRuns c = true → e < 32 →
    c.val < s.net.ch.length → e < (s.ch c).sent.length → nth (s.ch c).abort e false = false → s.canState c < 2 →
    Runs (.canFrameEnd c .sent) s fun t =>
      (t.ch c).cur = none ∧ t.tec c = s.tec c - 1
      ∧ (s.txCount c e ≤ nth (s.ch c).sent e 0 + 1 → t.txPending c e = false ∧ bit (t.reg (busBase c + 0x54)).toNat e = true
          ∧ t.fld ⟨busBase c + 0x100 + 4 * e, 7, 0⟩ = Code.ok ∧ t.flag (busField c 0x10 4 4) = true)
      ∧ (nth (s.ch c).sent e 0 + 1 < s.txCount c e → t.txPending c e = s.txPending c e
          ∧ nth (t.ch c).sent e 0 = nth (s.ch c).sent e 0 + 1)
      ∧ KeepsRegsOut s t (busBase c) 0x180 ∧ KeepsMem s t ∧ KeepsRest s { t with net := s.net })
  ∧ (∀ (s : State) (c : Fin 8) (e : Nat) (f : CanFrame) (p : BitVec 8), (s.ch c).cur = some (.entry e, f) → s.busRuns c = true →
    e < 32 → c.val < s.net.ch.length → s.txOneshot c e = false → nth (s.ch c).abort e false = false →
    Runs (.canFrameEnd c (.arbLost p)) s fun t =>
      (t.ch c).cur = none ∧ KeepsRegs s t [] ∧ KeepsMem s t ∧ KeepsRest s { t with net := s.net })
  ∧ (∀ (s : State) (c : Fin 8) (e : Nat) (f : CanFrame) (ty : Fin 5) (p : BitVec 8), (s.ch c).cur = some (.entry e, f) →
    s.busRuns c = true → e < 32 → c.val < s.net.ch.length → s.txOneshot c e = true → nth (s.ch c).abort e false = false →
      s.canState c < 2 → ty ≠ 4 →
      s.tec c + 8 ≤ 255 →
    Runs (.canFrameEnd c (.error ty p)) s fun t =>
      (t.ch c).cur = none ∧ t.tec c = s.tec c + 8 ∧ t.txPending c e = false
      ∧ t.fld ⟨busBase c + 0x100 + 4 * e, 15, 0⟩ = Code.busError + 256 * ty.val
      ∧ t.fld (CAN_ERR.TYPE c) = ty.val ∧ t.fld (CAN_ERR.POS c) = p.toNat
      ∧ KeepsRegsOut s t (busBase c) 0x180 ∧ KeepsMem s t ∧ KeepsRest s { t with net := s.net })
  ∧ (∀ (s : State) (c : Fin 10) (v : Word) (e : Nat), e < busEntries c → bit v.toNat e = true → s.txPending c e = true →
    c.val < s.net.ch.length → e < (s.ch c).abort.length → s.cpStopped = false → Runs (.canTxAbort c v) s fun t =>
      (s.onBus c e = false → t.txPending c e = false ∧ t.fld ⟨busBase c + 0x100 + 4 * e, 7, 0⟩ = Code.skipped)
      ∧ (s.onBus c e = true → t.txPending c e = true ∧ nth (t.ch c).abort e false = true)
      ∧ KeepsRegsOut s t (busBase c) 0x180 ∧ KeepsMem s t ∧ KeepsRest s { t with net := s.net })

/-- R338, R350, R351, R353, R355: modes, errors and recovery of a channel. A wake-up pattern waits for every pending frame; a
channel
that does not run ends no frame, recovers not and changes no mode of operation.
It rests on the model's choices of log entries 12, 43. -/
def Obligations.CanModesAndErrors : Prop :=
  (∀ (s : State) (c : Fin 8) (v : Word), (CAN_CTL.RECOVER c).of v = 1 → s.canState c = 2 → s.cpStopped = false →
    Runs (.recover c v) s fun t =>
      t.canState c = 3 ∧ t.flag (CAN_CTL.RECOVER c) = false ∧ OnlyRegs s t [CAN_CTL c, CAN_STAT c])
  ∧ (∀ (s : State) (c : Fin 8), s.busRuns c = true → s.canState c = 3 → Runs (.busOffRecovery c) s fun t =>
      t.canState c = 0 ∧ t.tec c = 0 ∧ t.recCount c = 0 ∧ OnlyRegs s t [CAN_STAT c])
  ∧ (∀ (s : State) (c : Fin 8) (v : Word), s.cpStopped = false → Runs (.canMode c v) s fun t =>
      t.fld (CAN_CTL.MODE c) = (CAN_CTL.MODE c).of v
      ∧ t.fld (CAN_CTL.EN c) = (if s.lkSealed = true then s.fld (CAN_CTL.EN c) else (CAN_CTL.EN c).of v)
      ∧ t.flag (CAN_STAT.RESTR c) = s.flag (CAN_STAT.RESTR c) ∧ OnlyRegs s t [CAN_CTL c, CAN_STAT c])
  ∧ (∀ (s : State) (c : Fin 8), s.busRuns c = true → (s.ch c).cur = none → Runs (.restrictedOperation c) s fun t =>
      t.flag (CAN_STAT.RESTR c) = decide (s.fld (CAN_CTL.MODE c) ≠ 0) ∧ OnlyRegs s t [CAN_STAT c])
  ∧ (∀ (s : State) (c : Fin 8) (v : Word), (CAN_CTL.WUP c).of v = 1 → s.flag (CAN_STAT.RESTR c) = false →
    s.cpStopped = false → Runs (.wup c v) s fun t =>
      t.flag (CAN_CTL.WUP c) = true ∧ OnlyRegs s t [CAN_CTL c, CAN_STAT c])
  ∧ (∀ (s : State) (c : Fin 8), s.canMayStart c = true → s.inHoldup = false → s.canReady c = [] → (s.ch c).ref = none →
    s.reg (CAN_TX_PEND c) = 0 → s.flag (CAN_CTL.WUP c) = true →
      Runs (.wakeUpPattern c) s fun t => t.flag (CAN_CTL.WUP c) = false ∧ OnlyRegs s t [CAN_CTL c])
  ∧ (∀ (s : State) (c : Fin 8), s.canReady c ≠ [] ∨ (s.ch c).ref ≠ none ∨ s.reg (CAN_TX_PEND c) ≠ 0 →
    Runs (.wakeUpPattern c) s (OnlyRegs s · []))
  ∧ (∀ (s : State) (c : Fin 8) (o : CanOutcome), s.busRuns c = false →
    ∀ i ∈ [Instr.canFrameEnd c o, .busOffRecovery c, .restrictedOperation c], Runs i s (OnlyRegs s · []))
  ∧ (∀ (s : State) (c : Fin 8), s.busRuns c = true → s.flag (CAN_HB_CFG.EN c) = true → c.val < s.net.ch.length →
    Runs (.heartbeat c) s fun t =>
      (t.ch c) = { s.ch c with heartbeat := true } ∧ KeepsRegs s t [] ∧ KeepsMem s t ∧ KeepsRest s { t with net := s.net })
  ∧ (∀ (s : State) (c : Fin 8) (ty : Fin 6) (pos : BitVec 8) (large : Bool), s.busRuns c = true → s.canState c < 2 →
    s.flag (CAN_STAT.RESTR c) = false → Runs (.canErrorDetected c ty pos large) s fun t =>
      t.recCount c = min 255 (s.recCount c + if large then 8 else 1) ∧ t.tec c = s.tec c
      ∧ t.canState c = b2n (decide (127 < s.tec c) || decide (127 < s.recCount c + if large then 8 else 1))
      ∧ t.fld (CAN_ERR.COUNT c) = satInc 0xFFFF (s.fld (CAN_ERR.COUNT c)) ∧ t.fld (CAN_ERR.TYPE c) = ty.val
      ∧ t.fld (CAN_ERR.POS c) = pos.toNat ∧ OnlyRegs s t [CAN_ERR c, CAN_STAT c, busBase c + 0x10])

/-- R364, R365, R374: the backbone ports. A frame for another station changes nothing; one that is not IPv6 goes to the raw queue;
a datagram with a wrong checksum is counted; a link change shows; a transmit opportunity sends the PTP frame, the reference
message, the power-fail notice or the entry whose turn it is.
It rests on the model's choices of log entries 12, 44. -/
def Obligations.BackbonePorts : Prop :=
  (∀ (s : State) (k : Fin 2) (f : List Byte) (sof : Int), s.busRuns (8 + k) = true → s.macMine k f = false →
    Runs (.ethDatagram k f sof) s (OnlyRegs s · []))
  ∧ (∀ (s : State) (k : Fin 2) (f : List Byte) (sof : Int), s.busRuns (8 + k) = true → s.macMine k f = true →
    slice f 12 2 ≠ [0x86, 0xDD] → s.qOwned (8 + k) 0x30 < s.rxDepth (8 + k) → Runs (.ethDatagram k f sof) s fun t =>
      let a := s.fld (busField (8 + k) 0x20 31 0) + 1536 * s.qNext (8 + k) 0x30
      (∀ i < 1520, t.rd8 (a + 16 + i) = nth f i 0) ∧ t.rd32 a = f.length % 2 ^ 11
      ∧ t.qOwned (8 + k) 0x30 = s.qOwned (8 + k) 0x30 + 1 ∧ t.flag (busField (8 + k) 0x10 0 0) = true
      ∧ KeepsRegs s t [busBase (8 + k) + 0x30, busBase (8 + k) + 0x10] ∧ KeepsMemOut s t a 1536
      ∧ KeepsRest s { t with net := s.net })
  ∧ (∀ (s : State) (k : Fin 2) (f : List Byte) (sof : Int), s.busRuns (8 + k) = true → s.macMine k f = true →
    slice f 12 2 = [0x86, 0xDD] → (nth f 14 0).toNat / 16 = 6 → nth f 20 0 = 17 →
    sum6 (slice f 22 16) (slice f 38 16) 17 ((f.drop 54).take (ofBytesBE (slice f 18 2))) ≠ 65535 →
    Runs (.ethDatagram k f sof) s fun t =>
      t.fld (ETH_STAT.CSUM k) = satInc 0xFFFF (s.fld (ETH_STAT.CSUM k)) ∧ OnlyRegs s t [ETH_STAT k])
  ∧ (∀ (s : State) (k : Fin 2) (up beacon : Bool), Runs (.ethLinkChange k up beacon) s fun t =>
      t.flag (ETH_STAT.UP k) = up ∧ t.flag (ETH_STAT.BEACON k) = (up && beacon)
      ∧ t.flag (ETH_STAT.PLCA k) = (up && s.flag (ETH_PLCA.EN k) && (beacon || s.fld (ETH_PLCA.ID k) == 0))
      ∧ OnlyRegs s t [ETH_STAT k])
  ∧ (∀ (s : State) (k : Fin 2) (d : List Byte), s.ethMaySend k = true → s.inHoldup = false → nth s.net.ptp k none = none →
    (s.ch (8 + k)).ref = some d → 8 + k.val < s.net.ch.length → Runs (.ethSegmentSend k) s fun t =>
      (t.ch (8 + k)).ref = none ∧ SendsToAll s t k (toBytes 4 (s.hwId 0 1) ++ d)
      ∧ KeepsRegs s t [] ∧ KeepsMem s t ∧ KeepsRest s { t with net := s.net })
  ∧ (∀ (s : State) (k : Fin 2) (d : List Byte), s.ethMaySend k = true → (s.inHoldup = true ∨ nth s.net.ptp k none = none) →
    (s.inHoldup = true ∨ (s.ch (8 + k)).ref = none) → (s.ch (8 + k)).pfail = some d → 8 + k.val < s.net.ch.length →
    Runs (.ethSegmentSend k) s fun t =>
      (t.ch (8 + k)).pfail = none ∧ SendsToAll s t k (toBytes 4 (s.hwId 0 3) ++ d)
      ∧ KeepsRegs s t [] ∧ KeepsMem s t ∧ KeepsRest s { t with net := s.net })
  ∧ (∀ (s : State) (k : Fin 2) (id e : Nat), s.ethMaySend k = true → s.inHoldup = false → nth s.net.ptp k none = none →
    (s.ch (8 + k)).ref = none → (s.ch (8 + k)).pfail = none →
    lowestId ((((List.range 16).filter (s.txPending (8 + k))).map fun e => (s.txId (8 + k) e, BusSrc.entry e))
      ++ s.msgsOf (8 + k)) = some (id, .entry e) →
    s.priceBarred (bits (s.txWord (8 + k) e 0) 28 0) = false → s.txCaravan (8 + k) e = false → e < 16 →
      8 + k.val < s.net.ch.length →
    Runs (.ethSegmentSend k) s fun t =>
      let x := bits (s.txWord (8 + k) e 0) 28 0
      let w := s.txWord (8 + k) e 1
      t.txPending (8 + k) e = false ∧ t.fld ⟨busBase (8 + k) + 0x100 + 4 * e, 7, 0⟩ = Code.ok
      ∧ SendsToAll s t k (toBytes 4 (x - x % 128)
          ++ s.rdBytes (s.fld (ETH_TX_BASE.ADDR k) + 80 * e + 16) (dlcLen (bit w 4) (w % 16)))
      ∧ KeepsRegsOut s t (busBase (8 + k)) 0x180 ∧ KeepsMem s t ∧ KeepsRest s { t with net := s.net })
  ∧ (∀ (s : State) (k : Fin 2) (a n : Nat), s.ethMaySend k = true → s.inHoldup = false → nth s.net.ptp k none = some (a, n) →
    8 + k.val < s.net.ch.length → Runs (.ethSegmentSend k) s fun t =>
      (t.ch (8 + k)).out = s.rdBytes a n ++ toBytes 4 (crc32 (s.rdBytes a n)) ∧ nth t.net.ptp k none = none
      ∧ KeepsRegs s t [] ∧ KeepsMem s t ∧ KeepsRest s { t with net := s.net })

/-- R287, R379, R381: reference messages. At its instant a head queues one on every channel of SYS_NT_REF.CHAN; one whose frame
has not started half a period later is withdrawn; one received gives the grant word and, on the time source's channel, joins a
pair.
It rests on the model's choices of log entries 38, 60. -/
def Obligations.ReferenceMessages : Prop :=
  (∀ (s : State) (c : Nat), s.isHead = true → s.ntReached s.refMs = true → s.inHoldup = false → s.inSleep = false →
    s.net.instAt ≠ some s.le.tick → c < 8 →
    bit (s.fld SYS_NT_REF.CHAN) c = true → s.busRuns c = true → c < s.net.ch.length → Runs .refSend s fun t =>
      (t.ch c).ref.isSome = true ∧ (t.ch c).refAt = s.le.tick ∧ (t.ch c).refSeq = ((s.ch c).refSeq + 1) % 65536
      ∧ t.net.instAt = some s.le.tick
      ∧ KeepsRegs s t [SYS_NT_STAT, SYS_COORD, SYS_COORD_STAT] ∧ KeepsMem s t
      ∧ KeepsRest s { t with net := s.net, rnd := { t.rnd with holding := s.rnd.holding } })
  ∧ (∀ (s : State) (c : Fin 8), (s.ch c).refSof = none → (∀ f, (s.ch c).cur ≠ some (.ref, f)) →
    2 * (s.ch c).refAt + s.refTicks ≤ 2 * s.le.tick → c.val < s.net.ch.length → Runs (.refWithdrawn c) s fun t =>
      t.ch c = { s.ch c with ref := none } ∧ KeepsRegs s t [] ∧ KeepsMem s t ∧ KeepsRest s { t with net := s.net })
  ∧ (∀ (s : State) (c : Fin 10) (node : BitVec 13) (d : List Byte) (sof : Int), s.busRuns c = true → 24 ≤ d.length →
    nth d 0 0 = 1 → (c.val < 8 → s.canState c < 2) → c.val < s.net.ch.length → Runs (.refReceive c node d sof) s fun t =>
      t.reg SYS_COORD = BitVec.ofNat 32 (recWord d 4)
      ∧ t.flag SYS_COORD_STAT.HOLD = (bit (recWord d 4) 16 && bits (recWord d 4) 12 0 == s.nodeId)
      ∧ (bit (recWord d 4) 16 = true → t.fld SYS_COORD_STAT.LEASE = 3 * s.refMs * 100 % 2 ^ 19)
      ∧ (c.val < 8 → s.fld SYS_NT_CFG.SRC = c + 1 → ∃ tl, t.time.pair
          = some (node.toNat, ofBytes (d.take 4) / 2 ^ 16, bit (ofBytes (d.take 4)) 8, tl))
      ∧ (c.val < 8 → s.fld SYS_NT_CFG.SRC ≠ c + 1 → t.time = s.time)
      ∧ (t.ch c).rxno = ((s.ch c).rxno + 1) % 65536
      ∧ (s.qOwned c 0x30 < s.rxDepth c → t.qOwned c 0x30 = s.qOwned c 0x30 + 1)
      ∧ (8 ≤ c.val → bit (ofBytes (d.take 4)) 10 = true → ∃ m, t.net.backRef = some m ∧ m.2.2.2 = s.le.tick)
      ∧ KeepsBlocks s t [0x4000, 0x4003, busBase c / 0x10000]
      ∧ KeepsMemOut s t (s.fld (busField c 0x20 31 0) + (if c.val < 8 then 80 else 1536) * s.qNext c 0x30)
          (if c.val < 8 then 80 else 1536)
      ∧ t.rnd = { s.rnd with holding := s.rnd.holding && t.flag SYS_COORD_STAT.HOLD }
      ∧ KeepsRest s { t with net := s.net, time := s.time, free := s.free, rnd := s.rnd })

/-- R376 to R378, R388: Network Time. Firmware steps and rates act with the firmware source alone; validity is set and cleared by
SYS_NT_CTL and by the holdover; a PTP frame waits for its opportunity and leaves its time stamp.
It rests on the model's choices of log entry 37. -/
def Obligations.NetworkTime : Prop :=
  (∀ (s : State) (v : Word), s.ntFirmware = true → s.cpStopped = false → Runs (.sysNtStep v) s fun t =>
      let off := signed 64 ((s.reg SYS_NT_STEP_LO).toNat + 2 ^ 32 * v.toNat) * 2 ^ 48
      t.time.now = (((s.time.now : Int) + off) % 2 ^ 112).toNat ∧ t.time.lastAcc = s.le.tick
      ∧ t.fld SYS_NT_STAT.STEPS = satInc 0xFFFF (s.fld SYS_NT_STAT.STEPS)
      ∧ KeepsRegs s t [SYS_NT_STAT, SYS_RND_NEXT_LO, SYS_RND_NEXT_HI] ∧ KeepsMem s t
      ∧ KeepsRest s { t with time := s.time, net := s.net })
  ∧ (∀ (s : State) (v : Word), s.ntFirmware = true → s.cpStopped = false → Runs (.sysNtRate v) s fun t =>
      t.reg SYS_NT_RATE = BitVec.ofInt 32 (clampInt (-549755814) 549755814 (signed 32 v.toNat)) ∧ t.time.lastAcc = s.le.tick
      ∧ t.time.freq = clampInt (-549755814) 549755814 (signed 32 v.toNat)
      ∧ KeepsRegs s t [SYS_NT_RATE, SYS_RND_NEXT_LO, SYS_RND_NEXT_HI] ∧ KeepsMem s t ∧ KeepsRest s { t with time := s.time })
  ∧ (∀ (s : State) (v : Word), s.ntFirmware = false →
    s.cpStopped = false → Runs (.sysNtStep v) s (OnlyRegs s · []) ∧ Runs (.sysNtRate v) s (OnlyRegs s · []))
  ∧ (∀ (s : State) (v : Word), SYS_NT_CTL.FW_VALID.of v = 1 → SYS_NT_CTL.INVAL.of v = 0 → s.ntFirmware = true →
    s.cpStopped = false → Runs (.fwValid v) s fun t =>
      t.flag SYS_NT_STAT.VALID = true ∧ t.flag SYS_COORD_STAT.NT_VALID = true ∧ t.time.now = s.time.now
      ∧ t.time.lastAcc = s.le.tick ∧ t.flag LE_PB_STAT.NT_SYNC = s.flag LE_CTL.EN
      ∧ KeepsRegs s t [SYS_NT_STAT, SYS_COORD_STAT, SYS_RND_NEXT_LO, SYS_RND_NEXT_HI, LE_PB_STAT] ∧ KeepsMem s t
      ∧ KeepsRest s { t with time := s.time })
  ∧ (∀ (s : State) (v : Word), SYS_NT_CTL.INVAL.of v = 1 → s.cpStopped = false → Runs (.inval v) s fun t =>
      t.flag SYS_NT_STAT.VALID = false ∧ t.flag SYS_COORD_STAT.NT_VALID = false ∧ t.time.now = s.time.now
      ∧ t.reg SYS_RND_NEXT_LO = 0xFFFFFFFF ∧ t.reg SYS_RND_NEXT_HI = 0xFFFFFFFF
      ∧ t.flag LE_PB_STAT.NT_SYNC = false
      ∧ KeepsRegs s t [SYS_NT_STAT, SYS_COORD_STAT, SYS_RND_NEXT_LO, SYS_RND_NEXT_HI, LE_PB_STAT] ∧ KeepsMem s t
      ∧ KeepsRest s { t with time := s.time })
  ∧ (∀ (s : State), s.flag SYS_NT_STAT.VALID = true → s.time.lastAcc + s.holdTicks ≤ s.le.tick → Runs .holdoverExpiry s fun t =>
      t.flag SYS_NT_STAT.VALID = false ∧ t.reg SYS_NT_RATE = BitVec.ofInt 32 s.time.freq ∧ t.time.now = s.time.now
      ∧ t.flag LE_PB_STAT.NT_SYNC = false
      ∧ KeepsRegs s t [SYS_NT_STAT, SYS_COORD_STAT, SYS_NT_RATE, SYS_RND_NEXT_LO, SYS_RND_NEXT_HI, LE_PB_STAT] ∧ KeepsMem s t
      ∧ KeepsRest s { t with time := s.time })
  ∧ (∀ (s : State) (k : Fin 2) (v : Word), (ETH_PTP_TXLEN.GO k).of v = 1 → s.flag (ETH_PTP_STAT.BUSY k) = false →
    60 ≤ (ETH_PTP_TXLEN.LEN k).of v → (ETH_PTP_TXLEN.LEN k).of v ≤ 1514 → k.val < s.net.ptp.length →
    s.cpStopped = false → Runs (.ptpSend k v) s fun t =>
      t.flag (ETH_PTP_STAT.BUSY k) = true ∧ t.fld (ETH_PTP_STAT.CODE k) = Code.ok
      ∧ nth t.net.ptp k none = some ((s.reg (ETH_PTP_TX k)).toNat, (ETH_PTP_TXLEN.LEN k).of v)
      ∧ KeepsRegs s t [ETH_PTP_STAT k] ∧ KeepsMem s t ∧ KeepsRest s { t with net := s.net })
  ∧ (∀ (s : State) (k : Fin 2) (cyc : Nat), s.flag (ETH_PTP_STAT.BUSY k) = true → k.val < s.net.ptp.length →
    k.val < s.net.ptpTs.length → Runs (.ptpTimestamp k cyc) s fun t =>
      t.flag (ETH_PTP_STAT.TSV k) = true ∧ t.flag (ETH_PTP_STAT.BUSY k) = false ∧ nth t.net.ptp k none = none
      ∧ nth t.net.ptpTs k 0 = (s.ntAt cyc + s.fld (ETH_PTP_LAT.TX k) * 2 ^ 24 / 10 ^ 9) % 2 ^ 64
      ∧ KeepsRegs s t [ETH_PTP_STAT k] ∧ KeepsMem s t ∧ KeepsRest s { t with net := s.net })

/-- R438, R443, R444, R453: PM_CMD LOAD, COMMIT and DISCARD, written with the key and not refused, act; refused ones give their
code in
PM_STAT.CODE and change nothing else; the corrected reads that LOAD and COMMIT need are counted (R438). A commit that ends
programs every word it has still to program, drops the buffer and
raises DONE (R444, R453).
It rests on the model's choices of log entries 7, 15. -/
def Obligations.PmPageCommands : Prop :=
  (∀ (s : State) (v : Word), pmCmdIs v 1 = true → s.pageRefusal (PM_CMD.PAGE.of v) false = none →
    s.cpStopped = false → Runs (.pmLoad v) s fun t =>
      let p := 0x100 * PM_CMD.PAGE.of v
      (∀ i < 64, s.pmBad (p + 8 * (i / 2)) = false → t.reg (PM_BUF i) = BitVec.ofNat 32 (s.rd32 (pmAddr (p + 4 * i))))
      ∧ t.pm = { s.pm with loaded := some (PM_CMD.PAGE.of v), ceNow := s.pm.ceNow + s.pmSoft p 0x100 }
      ∧ t.fld PM_ECC.CE = (if s.pmSoft p 0x100 = 0 then s.fld PM_ECC.CE else min 0xFFFF (s.fld PM_ECC.CE + s.pmSoft p 0x100))
      ∧ t.fld PM_STAT.CODE = 0 ∧ t.flag PM_STAT.BUF = true
      ∧ KeepsRegs s t (PM_STAT :: PM_ECC :: (List.range 64).map PM_BUF) ∧ KeepsMem s t
      ∧ KeepsRest s { t with pm := s.pm, free := s.free })
  ∧ (∀ (s : State) (v : Word) (c : Nat), pmCmdIs v 1 = true → s.pageRefusal (PM_CMD.PAGE.of v) false = some c →
    s.cpStopped = false → Runs (.pmLoad v) s fun t => t.fld PM_STAT.CODE = c ∧ OnlyRegs s t [PM_STAT])
  ∧ (∀ (s : State) (v : Word) (p : Nat × PmPart), pmCmdIs v 2 = true → s.pageRefusal (s.pm.loaded.getD 0) true = none →
    partOf (s.pm.loaded.getD 0) 0 s.pm.parts = some p →
    s.cpStopped = false → Runs (.pmCommit v) s fun t =>
      let n := s.commitSoft (s.pm.loaded.getD 0) p.2
      t.pm = { s.pm with steps := s.commitSteps (s.pm.loaded.getD 0) p.2, ceNow := s.pm.ceNow + n }
      ∧ t.fld PM_ECC.CE = (if n = 0 then s.fld PM_ECC.CE else min 0xFFFF (s.fld PM_ECC.CE + n)) ∧ t.fld PM_STAT.CODE = 0
      ∧ t.flag PM_STAT.BUSY = true ∧ KeepsRegs s t [PM_STAT, PM_ECC] ∧ KeepsMem s t ∧ KeepsRest s { t with pm := s.pm })
  ∧ (∀ (s : State) (v : Word), pmCmdIs v 3 = true → s.flag PM_STAT.READY = true → s.flag PM_STAT.BUSY = false →
    s.cpStopped = false → Runs (.pmDiscard v) s fun t =>
      t.pm = { s.pm with loaded := none } ∧ t.fld PM_STAT.CODE = 0 ∧ t.flag PM_STAT.BUF = false
      ∧ KeepsRegs s t [PM_STAT] ∧ KeepsMem s t ∧ KeepsRest s { t with pm := s.pm })
  ∧ (∀ (s : State), s.flag PM_STAT.BUSY = true → s.pmBlocked 6 = false → s.rst.sys = false →
    Runs .pmCommitEnd s fun t =>
      t.mem = (s.pmProgramAll s.pm.steps).mem ∧ t.pm = { s.pm with steps := [], loaded := none }
      ∧ t.flag PM_STAT.BUSY = false ∧ t.flag PM_STAT.BUF = false ∧ t.flag PM_EVT.DONE = true
      ∧ KeepsRegs s t [PM_STAT, PM_EVT] ∧ KeepsMemButPm s t ∧ KeepsRest s { t with pm := s.pm })

/-- R440, R449, R450, R456 to R458: passwords, spread counters and corrected errors. A partition without a password unlocks; with
one, the digest decides between unlocking and counting a failure; a firmware counter advances by one; an hour's corrected errors
join the sum of the last 24.
It rests on the model's choices of log entries 7, 11, 12. -/
def Obligations.PmPasswordsAndCounters : Prop :=
  (∀ (s : State) (v : Word), PM_UNLOCK.GO.of v ≠ 0 → PM_UNLOCK.LOCK.of v ≠ 1 →
    s.flag (PM_PART_STAT.LOCKED (PM_UNLOCK.PART.of v)) = false →
    (if PM_UNLOCK.KIND.of v = 1 then (nth s.pm.parts (PM_UNLOCK.PART.of v) {}).wpw
      else (nth s.pm.parts (PM_UNLOCK.PART.of v) {}).rpw) = none → s.cpStopped = false → Runs (.pmUnlock v) s fun t =>
      (PM_UNLOCK.KIND.of v = 1 → t.flag (PM_PART_STAT.WUNL (PM_UNLOCK.PART.of v)) = true)
      ∧ (PM_UNLOCK.KIND.of v ≠ 1 → t.flag (PM_PART_STAT.RUNL (PM_UNLOCK.PART.of v)) = true)
      ∧ t.fld PM_STAT.CODE = Code.ok ∧ t.reg PM_PW0 = 0 ∧ t.reg PM_PW1 = 0
      ∧ OnlyRegs s t [PM_PART_STAT (PM_UNLOCK.PART.of v), PM_STAT, PM_PW0, PM_PW1])
  ∧ (∀ (s : State) (v : Word) (h : List Byte), PM_UNLOCK.GO.of v ≠ 0 → PM_UNLOCK.LOCK.of v ≠ 1 → PM_UNLOCK.KIND.of v = 1 →
    (nth s.pm.parts (PM_UNLOCK.PART.of v) {}).wpw = some h → s.flag (PM_PART_STAT.LOCKED (PM_UNLOCK.PART.of v)) = false →
    s.fld (PM_PART_STAT.WAIT (PM_UNLOCK.PART.of v)) = 0 → s.fld (PM_PART_STAT.FAILS (PM_UNLOCK.PART.of v)) < 7 →
    s.cpStopped = false → Runs (.pmUnlock v) s fun t =>
      let p := PM_UNLOCK.PART.of v
      ((Config.sha256 (s.stagedPw ++ [BitVec.ofNat 8 p])).take 16 = h →
        t.flag (PM_PART_STAT.WUNL p) = true ∧ t.fld (PM_PART_STAT.FAILS p) = 0 ∧ t.fld PM_STAT.CODE = Code.ok)
      ∧ ((Config.sha256 (s.stagedPw ++ [BitVec.ofNat 8 p])).take 16 ≠ h →
        t.flag (PM_PART_STAT.WUNL p) = s.flag (PM_PART_STAT.WUNL p)
        ∧ t.fld (PM_PART_STAT.FAILS p) = s.fld (PM_PART_STAT.FAILS p) + 1
        ∧ t.fld (PM_PART_STAT.WAIT p) = 2 ^ s.fld (PM_PART_STAT.FAILS p) ∧ t.fld PM_STAT.CODE = Code.refusedAuth)
      ∧ OnlyRegs s t [PM_PART_STAT p, PM_STAT, PM_PW0, PM_PW1])
  ∧ (∀ (s : State) (v : Word), PM_UNLOCK.LOCK.of v = 1 → s.cpStopped = false → Runs (.pmLock v) s fun t =>
      t.flag (PM_PART_STAT.RUNL (PM_UNLOCK.PART.of v)) = false ∧ t.flag (PM_PART_STAT.WUNL (PM_UNLOCK.PART.of v)) = false
      ∧ OnlyRegs s t [PM_PART_STAT (PM_UNLOCK.PART.of v)])
  ∧ (∀ (s : State) (p : Fin 16), Runs (.unlockWaitEnd p) s fun t =>
      t.fld (PM_PART_STAT.WAIT p) = 0 ∧ t.pm = { s.pm with waits := s.pm.waits.filter (·.1 != p.val) }
      ∧ KeepsRegs s t [PM_PART_STAT p] ∧ KeepsMem s t ∧ KeepsRest s { t with pm := s.pm })
  ∧ (∀ (s : State) (v : Word), PM_SC_CMD.KEY.of v = 0x5C01 → PM_SC_CMD.GO.of v ≠ 0 → s.flag PM_SC_STAT.BUSY = false →
    8 ≤ PM_SC_CMD.INDEX.of v → s.scCheck (PM_SC_CMD.INDEX.of v) = .done → s.pmBlocked 5 = false →
      s.scValue (PM_SC_CMD.INDEX.of v) + 1 < 4252017622 →
    s.cpStopped = false → Runs (.pmScCmd v) s fun t =>
      t.scValue (PM_SC_CMD.INDEX.of v) = s.scValue (PM_SC_CMD.INDEX.of v) + 1 ∧ t.fld PM_SC_STAT.CODE = Code.ok
      ∧ t.reg (PM_SC_VAL (PM_SC_CMD.INDEX.of v)) = BitVec.ofNat 32 (s.scValue (PM_SC_CMD.INDEX.of v) + 1)
      ∧ KeepsRegs s t [PM_SC_STAT, PM_SC_VAL (PM_SC_CMD.INDEX.of v), PM_SC_BAD]
      ∧ KeepsMemOut s t (pmAddr (scCell (PM_SC_CMD.INDEX.of v) 0)) 0x80 ∧ KeepsRest s { t with pm := s.pm })
  ∧ (∀ (s : State) (v : Word), PM_SC_CMD.KEY.of v = 0x5C01 → PM_SC_CMD.GO.of v ≠ 0 → s.flag PM_SC_STAT.BUSY = false →
    8 ≤ PM_SC_CMD.INDEX.of v → s.pmBlocked 5 = true → s.cpStopped = false → Runs (.pmScCmd v) s fun t =>
      t.flag PM_SC_STAT.BUSY = true ∧ t.pm = { s.pm with sc := some (Fin.ofNat 32 (PM_SC_CMD.INDEX.of v)) }
      ∧ KeepsRegs s t [PM_SC_STAT] ∧ KeepsMem s t ∧ KeepsRest s { t with pm := s.pm })
  ∧ (∀ (s : State), s.fld LCS_STAT.STATE ≠ 4 → s.pmBlocked 4 = false → Runs .ceHour s fun t =>
      let sum := ((s.pm.ceNow :: s.pm.ceHours).take 24).sum
      t.reg PM_CE_DAY = BitVec.ofNat 32 sum ∧ t.pm = { s.pm with ceNow := 0, ceHours := (s.pm.ceNow :: s.pm.ceHours).take 24 }
      ∧ bit (t.reg LCS_CAUSE).toNat 4 = decide (s.fld PM_CFG.CE_LIM < sum)
      ∧ (s.fld PM_CFG.CE_LIM < sum → t.flag PM_EVT.CE_LIM = true)
      ∧ KeepsRegs s t (PM_CE_DAY :: PM_EVT :: causeRegs 4) ∧ KeepsMemButPm s t ∧ KeepsRest s { t with pm := s.pm })

/-- R97, R310, R367 to R370, R438, R487: requests that a node answers in clear; PM words whose read is corrected on the way are
counted.
It rests on the model's choices of log entries 12, 15, 41, 59. -/
def Obligations.WaystationInClear : Prop :=
  (∀ (s : State) (c : Fin 10) (e : Fin 512) (q : WayReq), s.asksClear c e 1 q → Runs (.reqStatus c e) s fun t =>
      Answers s t q (s.wayHead q false Code.ok 0 ++ s.beatData ++ toBytes 4 (s.reg SYS_PAL_STAT).toNat
        ++ toBytes 4 (s.reg SYS_PROF_STAT).toNat ++ toBytes 4 (s.reg SYS_TOT_STAT).toNat ++ toBytes 4 (s.reg LCS_CAUSE).toNat)
      ∧ KeepsRegs s t [] ∧ KeepsMem s t ∧ KeepsRest s { t with net := s.net })
  ∧ (∀ (s : State) (c : Fin 10) (e : Fin 512) (q : WayReq), s.asksClear c e 2 q → s.cp.fw = true → 18 ≤ q.rec_.length →
    fieldKnown (q.num 12 2) (q.num 16 2) = true → q.num 14 2 < typeInstances (q.num 12 2) → Runs (.reqRead c e) s fun t =>
      (Config.dictPublic (q.num 12 2) (q.num 16 2) = true →
        Answers s t q (s.wayHead q false Code.ok 0 ++ toBytes 4 (s.fieldInUse (q.num 12 2) (q.num 14 2) (q.num 16 2))))
      ∧ (Config.dictPublic (q.num 12 2) (q.num 16 2) = false → AnswersCode s t q Code.refusedAuth)
      ∧ KeepsRegs s t [] ∧ KeepsMem s t ∧ KeepsRest s { t with net := s.net })
  ∧ (∀ (s : State) (c : Fin 10) (e : Fin 512) (q : WayReq), s.asksClear c e 5 q → 16 ≤ q.rec_.length →
    q.num 12 4 < s.reportBytes.length → Runs (.reqFetchReport c e) s fun t =>
      let l := (s.reportBytes.drop (q.num 12 4)).take 3584
      let n := s.pmSoft (0x4000 + q.num 12 4 / 8 * 8) (l.length + q.num 12 4 % 8)
      Answers s t q (s.wayHead q false Code.ok 0 ++ l)
      ∧ t.pm = { s.pm with ceNow := s.pm.ceNow + n } ∧ (n = 0 → t.reg PM_ECC = s.reg PM_ECC)
      ∧ KeepsRegs s t [PM_ECC] ∧ KeepsMem s t ∧ KeepsRest s { t with net := s.net, pm := s.pm })
  ∧ (∀ (s : State) (c : Fin 10) (e : Fin 512) (q : WayReq), s.asksClear c e 6 q → 16 ≤ q.rec_.length →
    Runs (.reqFetchLedger c e) s fun t =>
      let no := if q.num 12 4 = 0xFFFFFFFF then s.ackWord else q.num 12 4
      let n := s.ledgerSoft no (s.ledgerBytes no 112)
      Answers s t q (s.wayHead q false Code.ok 0 ++ s.ledgerBytes no 112)
      ∧ t.pm = { s.pm with ceNow := s.pm.ceNow + n } ∧ (n = 0 → t.reg PM_ECC = s.reg PM_ECC)
      ∧ KeepsRegs s t [PM_ECC] ∧ KeepsMem s t ∧ KeepsRest s { t with net := s.net, pm := s.pm })
  ∧ (∀ (s : State) (c : Fin 10) (e : Fin 512) (q : WayReq), s.asksClear c e 7 q → 48 ≤ q.rec_.length → s.zeroed = false →
    s.noRandom = false → s.flag VLT_STAT.ST_DONE = true → Runs (.reqFetchAttest c e) s fun t =>
      let st := s.attestation ((q.rec_.drop 12).take 32) (privOf s.freeValue)
      Answers s t q (if st.length ≤ q.num 44 4 then s.wayHead q false Code.length 0
        else s.wayHead q false Code.ok 0 ++ (st.drop (q.num 44 4)).take 3584)
      ∧ t.free = s.free + 1 ∧ KeepsRegs s t [] ∧ KeepsMem s t ∧ KeepsRest s { t with net := s.net, free := s.free })
  ∧ (∀ (s : State) (c : Fin 10) (e : Fin 512) (q : WayReq), s.asksClear c e 10 q → 93 ≤ q.rec_.length → s.wayIdle = false →
    s.zeroed = false → s.way.sess = none → (nth q.rec_ 92 0).toNat < 32 → s.noRandom = false → s.flag VLT_STAT.ST_DONE = true →
    Runs (.reqOpen c e) s fun t =>
      let qr := (q.rec_.drop 12).take 64
      (Config.onCurve false qr = false → AnswersCode s t q Code.range ∧ t.way = s.way)
      ∧ (Config.onCurve false qr = true → AnswersCode s t q Code.ok ∧ t.free = s.free + 3
        ∧ ∃ h, t.way.hand = some h ∧ h.slot = (nth q.rec_ 92 0).toNat ∧ h.qr = qr)
      ∧ t.way.sess = none ∧ KeepsRegs s t [] ∧ KeepsMem s t
      ∧ KeepsRest s { t with net := s.net, free := s.free, way := s.way })
  ∧ (∀ (s : State) (c : Fin 10) (e : Fin 512) (q : WayReq) (h : Handshake), s.asksClear c e 11 q → 76 ≤ q.rec_.length →
    s.way.hand = some h → s.way.sess = none → s.slotType h.slot = 4 → bit (s.slotPol h.slot) 15 = true → s.spent h.slot = false →
    Runs (.reqFinish c e) s fun t =>
      let ok := (s.credKey h.slot).any fun p =>
        Config.ecdsaVerify false p (Config.sha256 (h.hs ++ ascii "FINISH")) ((q.rec_.drop 12).take 64)
      t.way.hand = none
      ∧ (ok = true → AnswersCode s t q Code.ok ∧ t.mh.slot = h.slot
        ∧ ∃ x, t.way.sess = some x ∧ x.slot = h.slot ∧ x.rights = bits (t.slotPol h.slot) 21 16 ∧ x.last = s.le.tick
          ∧ t.flag TUNE_STAT.AUTH = bit x.rights 3 ∧ t.flag MH_STAT.MAUTH = bit x.rights 2)
      ∧ (ok = false → AnswersCode s t q Code.refusedAuth ∧ t.way.sess = none)
      ∧ KeepsBlocks s t [0x4005, 0x4008, 0x400F, 0x4010] ∧ KeepsMemButPm s t
      ∧ KeepsRest s { t with net := s.net, way := s.way, vlt := s.vlt, mh := { t.mh with slot := s.mh.slot },
                             pm := { t.pm with later := s.pm.later } })

/-- R369, R371, R372, R514 to R516: requests under a session. What a request does is done where its record opens under the
session; one that does not open is refused with none of its effect, and the third such in a row closes the session.
It rests on the model's choices of log entries 12, 40, 59. -/
def Obligations.WaystationSealed : Prop :=
  (∀ (s : State) (c : Fin 10) (e : Fin 512) (q : WayReq) (x : Session) (p : Nat × Instr), p ∈ sealedRequests c e →
    s.asksSealed c e p.1 q x → Runs p.2 s fun t => q.opened x = none →
      (AnswersCode s t q Code.refusedAuth
      ∧ (x.bad < 2 → t.way = { s.way with sess := some { x with bad := x.bad + 1 } } ∧ t.live = s.live ∧ t.tune = s.tune
          ∧ KeepsRegs s t [])
      ∧ (2 ≤ x.bad → t.way.sess = none ∧ t.live.set = [])
      ∧ KeepsBlocks s t [0x4005, 0x4008, 0x4010] ∧ KeepsMem s t
      ∧ KeepsRest s { t with net := s.net, way := s.way, live := s.live, tune := s.tune }))
  ∧ (∀ (s : State) (c : Fin 10) (e : Fin 512) (q : WayReq) (x : Session), s.asksSealed c e 3 q x → s.cp.fw = true →
    bit x.rights 0 = true → Runs (.reqWrite c e) s fun t =>
      (∀ b, q.opened x = some b → 14 ≤ b.length →
          (if s.live.setNo = ofBytes ((b.drop 10).take 4) then s.live.set.length else 0) < 64 →
          AnswersCode s t q Code.ok ∧ t.live.setNo = ofBytes ((b.drop 10).take 4)
          ∧ t.live.set = (if s.live.setNo = ofBytes ((b.drop 10).take 4) then s.live.set else [])
              ++ [(ofBytes (b.take 2), ofBytes ((b.drop 2).take 2), ofBytes ((b.drop 4).take 2), ofBytes ((b.drop 6).take 4))])
      ∧ KeepsBlocks s t [0x4005, 0x4008, 0x4010] ∧ KeepsMem s t
      ∧ KeepsRest s { t with net := s.net, way := s.way, live := s.live, tune := s.tune })
  ∧ (∀ (s : State) (c : Fin 10) (e : Fin 512) (q : WayReq) (x : Session), s.asksSealed c e 4 q x → bit x.rights 1 = true →
    Runs (.reqUpload c e) s fun t => ∀ b, q.opened x = some b →
      let k := (nth b 0 0).toNat
      let off := ofBytes ((b.drop 1).take 4)
      let n := ofBytes ((b.drop 5).take 2)
      n ≤ 3584 → 7 + n ≤ b.length → k ≤ 1 → off + n ≤ 2 ^ 32 → s.slotInUse k = false →
      AnswersCode s t q Code.ok ∧ (∀ i < 2, ∀ a < 2 ^ 32, t.flashByte i a
        = if i = k ∧ off ≤ a ∧ a < off + n then nth b (7 + (a - off)) 0 else s.flashByte i a)
      ∧ KeepsRegs s t [] ∧ KeepsMem s t ∧ KeepsRest s { t with net := s.net, way := s.way, flash := s.flash })
  ∧ (∀ (s : State) (c : Fin 10) (e : Fin 512) (q : WayReq) (x : Session), s.asksSealed c e 8 q x → s.cp.fw = true →
    bit x.rights 0 = true → Runs (.reqProfile c e) s fun t => ∀ b, q.opened x = some b → 1 ≤ b.length → (nth b 0 0).toNat < 8 →
      AnswersCode s t q Code.ok ∧ t.fld SYS_PROF_STAT.REQ = (nth b 0 0).toNat
      ∧ t.fld SYS_PROF_STAT.CODE = s.profCheck (nth b 0 0).toNat
      ∧ KeepsRegs s t [SYS_PROF_STAT, SYS_PROF_EVT] ∧ KeepsMem s t
      ∧ KeepsRest s { t with net := s.net, way := s.way, prof := s.prof })
  ∧ (∀ (s : State) (c : Fin 10) (e : Fin 512) (q : WayReq) (x : Session), s.asksSealed c e 9 q x → s.cp.fw = true →
    bit x.rights 0 = true → Runs (.reqCommit c e) s fun t => ∀ b, q.opened x = some b → 5 ≤ b.length →
      let no := ofBytes (b.take 4)
      let code := s.wayCommitCheck no (nth b 4 0).toNat
      (code ≠ Code.ok → AnswersCode s t q code ∧ KeepsRegs s t [] ∧ KeepsMem s t
        ∧ KeepsRest s { t with net := s.net, way := s.way })
      ∧ (code = Code.ok → (∃ w ∈ s.live.set, isMetrology w.1 = false) → s.wayBlocked (wayReqs s.live.set) = true →
          AnswersCode s t q Code.refusedState ∧ KeepsRegs s t [] ∧ KeepsMem s t
            ∧ KeepsRest s { t with net := s.net, way := s.way })
      ∧ (code = Code.ok → (∃ w ∈ s.live.set, isMetrology w.1 = false) → wayReqs s.live.set = [] →
          (nth b 4 0).toNat ≠ 0xFF → s.pmBlocked 4 = true →
          t.net.sent = s.net.sent ∧ t.live.commit = some ⟨q, (nth b 4 0).toNat, s.live.set⟩ ∧ t.live.set = []
          ∧ t.holding = true ∧ KeepsRegs s t [SYS_LIVE_STAT] ∧ KeepsMem s t
          ∧ KeepsRest s { t with way := s.way, live := s.live })
      ∧ (code = Code.ok → (∀ w ∈ s.live.set, isMetrology w.1 = true) → AnswersCode s t q Code.ok ∧ t.live.set = []
          ∧ t.mh.sealing.isSome = true ∧ KeepsBlocks s t [0x4008, 0x400E] ∧ KeepsMem s t
          ∧ KeepsRest s { t with net := s.net, way := s.way, live := s.live, mh := { t.mh with sealing := s.mh.sealing } }))
  ∧ (∀ (s : State) (c : Fin 10) (e : Fin 512) (q : WayReq) (x : Session), s.asksSealed c e 12 q x →
    Runs (.reqClose c e) s fun t =>
      ∀ b, q.opened x = some b → AnswersCode s t q Code.ok ∧ t.way.sess = none ∧ t.way.hand = none ∧ t.live.set = []
        ∧ t.flag TUNE_STAT.AUTH = false ∧ t.flag MH_STAT.MAUTH = false ∧ KeepsBlocks s t [0x4005, 0x4008, 0x4010] ∧ KeepsMem s t
        ∧ KeepsRest s { t with net := s.net, way := s.way, live := s.live, tune := s.tune })
  ∧ (∀ (s : State) (c : Fin 10) (e : Fin 512) (q : WayReq) (x : Session), s.asksSealed c e 13 q x → s.cp.fw = true →
    bit x.rights 2 = true → s.flag MH_STAT.MAUTH = true → Runs (.reqLedgerAck c e) s fun t => ∀ b, q.opened x = some b →
      4 ≤ b.length → AnswersCode s t q Code.ok ∧ t.ledgerHeld = (s.ledgerAck (ofBytes (b.take 4))).ledgerHeld
      ∧ KeepsRegs s t [MH_LEDGER_HELD, MH_STAT] ∧ KeepsMemOut s t (pmAddr 0x8808) 8
      ∧ KeepsRest s { t with net := s.net, way := s.way, pm := { t.pm with later := s.pm.later } })
  ∧ (∀ (s : State) (c : Fin 10) (e : Fin 512) (q : WayReq) (x : Session), s.asksSealed c e 14 q x → bit x.rights 1 = true →
    Runs (.reqBootSel c e) s fun t => ∀ b, q.opened x = some b → 2 ≤ b.length →
      ∀ w, s.waySel (nth b 0 0).toNat (nth b 1 0).toNat = some w →
      AnswersCode s t q Code.ok ∧ t.reg SYS_BOOT_SEL = BitVec.ofNat 32 (w.toNat % 4)
      ∧ KeepsRegs s t [SYS_BOOT_SEL] ∧ KeepsMemOut s t 0x38000000 8
      ∧ KeepsRest s { t with net := s.net, way := s.way, pm := { t.pm with later := s.pm.later } })
  ∧ (∀ (s : State) (c : Fin 10) (e : Fin 512) (q : WayReq) (x : Session), s.asksSealed c e 15 q x → bit x.rights 1 = true →
    Runs (.reqRestart c e) s fun t => ∀ b, q.opened x = some b →
      AnswersCode s t q Code.ok ∧ t.rst.sys = true ∧ t.rst.answer = some (s.net.msgs, s.le.tick)
      ∧ bit (t.reg SYS_RST_CAUSE).toNat 8 = true
      ∧ KeepsRegs s t [SYS_RST_CAUSE, SYS_TOT_STAT, PM_STAT] ∧ KeepsMem s t
      ∧ KeepsRest s { t with net := s.net, way := s.way, tot := s.tot, rst := { t.rst with sys := s.rst.sys, answer := s.rst.answer } })
  ∧ (∀ (s : State), s.wayIdle = true → Runs .sessionTimeout s fun t =>
      t.way.sess = none ∧ t.way.hand = none ∧ t.live.set = [] ∧ t.flag TUNE_STAT.AUTH = false ∧ t.flag MH_STAT.MAUTH = false
      ∧ t.flag LCS_STAT.SRV = false ∧ t.flag LCS_STAT.LCR = false ∧ KeepsBlocks s t [0x4005, 0x4008, 0x4010] ∧ KeepsMem s t
      ∧ KeepsRest s { t with way := s.way, live := s.live, tune := s.tune })

/-- R404 to R411: the field links. A cycle applies the commits that wait and polls its first module; a response is judged, and its
input words and state follow; a module that does not answer, or answers too late, is missed; a commit is checked; a CP write of an
output word counts where the words are the CP's.
It rests on the model's choices of log entry 47. -/
def Obligations.FieldLinks : Prop :=
  (∀ (s : State) (l : Fin 24) (m : Nat) (rest : List Nat), s.wflRuns l = true → s.le.tick % s.linkCycle l = 0 →
    (s.link l).start = none → l.val < s.wfl.length → (∀ k < 16, (s.wmod l k).stage = none) →
    (List.range 16).filter (fun k => recEn (s.wrec l k)) = m :: rest → Runs (.wflCycleInstant l) s fun t =>
      let cmd := if s.wstate l m = 2 ∧ (s.wmod l m).again = false then 0 else 1
      let out := if cmd = 0 then (List.range (recOut (s.wrec l m))).map fun i => s.reg (WFL_OUT (recObase (s.wrec l m) + i)) else []
      let fr := requestFrame m cmd (s.link l).seq (out.flatMap fun w => toBytes 4 w.toNat)
      (t.link l).req = some ⟨m, cmd, (s.link l).seq, false, fr, 1000 * s.le.tick, 1000 * s.le.tick + fr.length * s.charCycles l⟩
      ∧ (t.link l).todo = rest ∧ (t.link l).start = some (s.le.tick * 1000) ∧ (t.link l).seq = ((s.link l).seq + 1) % 256
      ∧ KeepsRegs s t [] ∧ KeepsMem s t ∧ KeepsRest s { t with wfl := s.wfl })
  ∧ (∀ (s : State) (l : Fin 24) (m : Nat) (r : List Nat), s.wflRuns l = true → s.le.tick % s.linkCycle l = 0 →
    (s.link l).start = none → l.val < s.wfl.length → m < 16 → m < (s.link l).mods.length → (s.wmod l m).stage = some r →
    Runs (.wflCycleInstant l) s fun t =>
      t.wrec l m = r ∧ (t.wmod l m).stage = none
      ∧ KeepsBlocks s t [0x400C] ∧ KeepsMem s t ∧ KeepsRest s { t with wfl := s.wfl })
  ∧ (∀ (s : State) (l : Fin 24) (f : List Byte) (parity : Bool) (cyc : Nat) (q : WflReq), (s.link l).req = some q →
    s.wflRuns l = true → q.addr < 16 → (∀ k < 16, (s.wmod l k).stage = none) →
    s.clk cyc ≤ s.respDue l q + f.length * s.charCycles l →
    (s.wjudge l q f parity = .crc ∨ s.wjudge l q f parity = .wrong) → Runs (.wflResponse l f parity cyc) s fun t =>
      t.fld (WFL_M_STAT.MISS l q.addr) = min 3 (s.fld (WFL_M_STAT.MISS l q.addr) + 1)
      ∧ (s.wjudge l q f parity = .crc → t.fld (WFL_L_MISS.CRC l) = satInc 0xFFFF (s.fld (WFL_L_MISS.CRC l)))
      ∧ (s.fld (WFL_M_STAT.MISS l q.addr) = 2 → s.wstate l q.addr = 2 → t.wstate l q.addr = 3)
      ∧ KeepsBlocks s t [0x400C] ∧ KeepsMem s t ∧ KeepsRest s { t with wfl := s.wfl })
  ∧ (∀ (s : State) (l : Fin 24) (f : List Byte) (parity : Bool) (cyc : Nat) (q : WflReq) (d : List Byte),
    (s.link l).req = some q → s.wflRuns l = true → q.addr < 16 → q.cmd ≠ 1 → (∀ k < 16, (s.wmod l k).stage = none) →
    s.clk cyc ≤ s.respDue l q + f.length * s.charCycles l →
    s.wjudge l q f parity = .good false d → Runs (.wflResponse l f parity cyc) s fun t =>
      (∀ k < recIn (s.wrec l q.addr),
        t.reg (WFL_IN (recIbase (s.wrec l q.addr) + k)) = BitVec.ofNat 32 (ofBytes ((d.drop (4 * k)).take 4)))
      ∧ t.fld (WFL_M_STAT.SEQ l q.addr) = (s.fld (WFL_M_STAT.SEQ l q.addr) + 1) % 2 ^ 16
      ∧ t.fld (WFL_M_STAT.MISS l q.addr) = 0
      ∧ KeepsBlocks s t [0x400C] ∧ KeepsMem s t ∧ KeepsRest s { t with wfl := s.wfl })
  ∧ (∀ (s : State) (l : Fin 24) (f : List Byte) (parity isNew : Bool) (cyc : Nat) (q : WflReq) (d : List Byte),
    (s.link l).req = some q → s.wflRuns l = true → q.addr < 16 → q.cmd = 1 → (∀ k < 16, (s.wmod l k).stage = none) →
    l.val < s.wfl.length → q.addr < (s.link l).mods.length →
    s.clk cyc ≤ s.respDue l q + f.length * s.charCycles l →
    s.wjudge l q f parity = .good isNew d → Runs (.wflResponse l f parity cyc) s fun t =>
      (t.wmod l q.addr).ident = some d
      ∧ t.wstate l q.addr = (if recEn (s.wrec l q.addr) && identMatches (s.wrec l q.addr) d then 2 else 4)
      ∧ KeepsBlocks s t [0x400C] ∧ KeepsMem s t ∧ KeepsRest s { t with wfl := s.wfl })
  ∧ (∀ (s : State) (l : Fin 24) (cyc : Nat) (q : WflReq), (s.link l).req = some q → s.wflRuns l = true → q.addr < 16 →
    (∀ k < 16, (s.wmod l k).stage = none) → s.respDue l q ≤ s.clk cyc → Runs (.responseTimeout l cyc) s fun t =>
      t.fld (WFL_L_MISS.TIMEOUT l) = satInc 0xFFFF (s.fld (WFL_L_MISS.TIMEOUT l))
      ∧ t.fld (WFL_M_STAT.MISS l q.addr) = min 3 (s.fld (WFL_M_STAT.MISS l q.addr) + 1)
      ∧ (s.fld (WFL_M_STAT.MISS l q.addr) = 2 → s.wstate l q.addr = 2 → t.wstate l q.addr = 3)
      ∧ KeepsBlocks s t [0x400C] ∧ KeepsMem s t ∧ KeepsRest s { t with wfl := s.wfl })
  ∧ (∀ (s : State) (l : Fin 24) (f : List Byte) (parity : Bool) (cyc : Nat) (q : WflReq), (s.link l).req = some q →
    s.wflRuns l = true → q.addr < 16 → (∀ k < 16, (s.wmod l k).stage = none) →
    s.respDue l q + f.length * s.charCycles l < s.clk cyc → Runs (.wflResponse l f parity cyc) s fun t =>
      t.fld (WFL_L_MISS.TIMEOUT l) = satInc 0xFFFF (s.fld (WFL_L_MISS.TIMEOUT l))
      ∧ t.fld (WFL_M_STAT.MISS l q.addr) = min 3 (s.fld (WFL_M_STAT.MISS l q.addr) + 1)
      ∧ KeepsBlocks s t [0x400C] ∧ KeepsMem s t ∧ KeepsRest s { t with wfl := s.wfl })
  ∧ (∀ (s : State) (v : Word), WFL_COMMIT.GO.of v = 1 → WFL_COMMIT.LINK.of v < 24 → s.holding = false → s.wfl.length = 24 →
    (s.link (WFL_COMMIT.LINK.of v)).mods.length = 16 → s.cpStopped = false → Runs (.wflCommit v) s fun t =>
      let l := WFL_COMMIT.LINK.of v
      let m := WFL_COMMIT.MOD.of v
      let code := s.wcheck l m (s.wshadow l m)
      t.fld WFL_CMT_STAT.CODE = code
      ∧ (code = Code.ok → (t.wmod l m).stage = some (s.wshadow l m) ∧ t.flag (WFL_M_STAT.PEND l m) = true
          ∧ KeepsRegs s t [WFL_CMT_STAT, WFL_M_STAT l m] ∧ KeepsMem s t ∧ KeepsRest s { t with wfl := s.wfl })
      ∧ (code ≠ Code.ok → t.wshadow l m = (List.range 5).map (fun i => recAt (s.wrec l m) i % 2 ^ 32)
          ∧ KeepsBlocks s t [0x400C] ∧ KeepsMem s t ∧ KeepsRest s t))
  ∧ (∀ (s : State) (e : BitVec 12) (v : Word), (∀ r, s.outOwner e.toNat = some r → recCp r = true) →
    s.cpStopped = false → Runs (.wflOutWrite e v) s fun t => t.reg (WFL_OUT e.toNat) = v ∧ OnlyRegs s t [WFL_OUT e.toNat])
  ∧ (∀ (s : State) (e : BitVec 12) (v : Word) (r : List Nat), s.outOwner e.toNat = some r → recCp r = false →
    s.cpStopped = false → Runs (.wflOutWrite e v) s (OnlyRegs s · []))

/-- R414 to R417, R429 to R435: the scan engine. A due cycle runs to its completion and then exchanges the program that waits; an
instant that comes too early is skipped; no instant is had twice; an exchange is checked; forces bind words while the node admits
them; CP writes take
effect where the area admits them.
It rests on the model's choices of log entry 48. -/
def Obligations.ScanEngine : Prop :=
  (∀ (s : State) (n x : Nat), s.seInstant = true → s.stalled = false → s.inSleep = false →
    s.se.ends ≤ s.le.tick * 1000 → Runs (.seCycle n x) s fun t =>
      t.flag SE_EVT.CYCLE = true ∧ t.se.had = some s.le.tick ∧ t.fld SE_TIME.LAST = min 0xFFFF (n / 100)
      ∧ (s.se.next = none → t.se.ends = s.le.tick * 1000 + n)
      ∧ (∀ b, s.se.next = some b → t.se.ends = s.le.tick * 1000 + (n + x) ∧ t.se.next = none ∧ t.fld SE_PROG.BASE = b % 2 ^ 16
          ∧ t.flag SE_STAT.XPEND = false ∧ t.flag SE_STAT.RUN = true ∧ t.flag SE_EVT.XCHG = true)
      ∧ (s.seRunning.ncmd = 0 → s.se.next = none →
          t.reg SE_MS = BitVec.ofNat 32 (s.le.tick / 100) ∧ t.fld SE_STAT.CODE = Code.ok
          ∧ KeepsRegs s t [SE_MS, SE_STAT, SE_EVT, SE_TIME, SE_XCHG_STAT] ∧ KeepsMemOut s t 0x34040000 0x40000
          ∧ KeepsRest s { t with se := s.se, le := s.le }))
  ∧ (∀ (s : State), s.seInstant = true → s.inSleep = false → (s.stalled = true ∨ s.le.tick * 1000 < s.se.ends) →
    Runs .seSkip s fun t =>
      t.fld SE_SKIP.VALUE = satInc 0xFFFFFFFF (s.fld SE_SKIP.VALUE) ∧ t.flag SE_EVT.SKIP = true
      ∧ t.fld SE_STAT.CODE = Code.skipped ∧ t.se = { s.se with had := some s.le.tick }
      ∧ KeepsRegs s t [SE_SKIP, SE_EVT, SE_STAT] ∧ KeepsMem s t ∧ KeepsRest s { t with se := s.se })
  ∧ (∀ (s : State) (n x : Nat), s.se.had = some s.le.tick ∨ s.seRuns = false → ∀ c ∈ [Instr.seCycle n x, .seSkip],
    Runs c s (OnlyRegs s · []))
  ∧ (∀ (s : State) (v : Word), SE_XCHG.GO.of v = 1 → s.holding = false → (s.seCheck (SE_XCHG.BASE.of v)).1 = Code.ok →
    s.cpStopped = false → Runs (.seXchg v) s fun t =>
      t.fld SE_XCHG_STAT.CODE = Code.ok ∧ t.se.next = some (SE_XCHG.BASE.of v) ∧ t.flag SE_STAT.XPEND = true
      ∧ KeepsRegs s t [SE_XCHG_STAT, SE_STAT] ∧ KeepsMem s t ∧ KeepsRest s { t with se := s.se })
  ∧ (∀ (s : State) (v : Word), SE_XCHG.GO.of v = 1 → (s.seCheck (SE_XCHG.BASE.of v)).1 ≠ Code.ok →
    s.cpStopped = false → Runs (.seXchg v) s fun t =>
      t.fld SE_XCHG_STAT.CODE = (s.seCheck (SE_XCHG.BASE.of v)).1 ∧ t.flag SE_EVT.XCHG = true ∧ t.se.next = s.se.next
      ∧ KeepsRegs s t [SE_XCHG_STAT, SE_EVT, SE_STAT] ∧ KeepsMem s t ∧ KeepsRest s { t with se := s.se })
  ∧ (∀ (s : State) (v : Word) (w : Nat), SE_FORCE_CMD.SET.of v = 1 → SE_FORCE_CMD.CLR.of v = 0 → s.forceAdmit = Code.ok →
    s.flag SE_STAT.RUN = true → s.seWordOf s.seRunning (bits (s.reg SE_FORCE_TAG).toNat 15 0) = some w →
    s.se.forces.length < 64 → s.cpStopped = false → Runs (.seForceSet v) s fun t =>
      let tag := bits (s.reg SE_FORCE_TAG).toNat 15 0
      let m := (s.reg SE_FORCE_MASK).toNat
      t.fld SE_FORCE_STAT.CODE = Code.ok ∧ t.sv w &&& m = (s.reg SE_FORCE_VAL).toNat &&& m
      ∧ t.se.forces = s.se.forces.filter (·.tag != tag)
          ++ [{ tag := tag, mask := m, value := (s.reg SE_FORCE_VAL).toNat, word := w }]
      ∧ KeepsBlocks s t [0x400D] ∧ KeepsMemOut s t (seVar w) 4 ∧ KeepsRest s { t with se := s.se })
  ∧ (∀ (s : State) (v : Word), SE_FORCE_CMD.CLR.of v = 1 → SE_FORCE_CMD.SET.of v = 0 → s.forceAdmit = Code.ok →
    s.cpStopped = false → Runs (.seForceClr v) s fun t =>
      t.fld SE_FORCE_STAT.CODE = Code.ok
      ∧ t.se.forces = s.se.forces.filter (·.tag != bits (s.reg SE_FORCE_TAG).toNat 15 0)
      ∧ KeepsBlocks s t [0x400D] ∧ KeepsMem s t
      ∧ KeepsRest s { t with se := s.se })
  ∧ (∀ (s : State) (off : BitVec 19) (size : Fin 3) (v : Word), off.toNat % 2 ^ size.val = 0 → off.toNat < 0x40000 →
    (∀ r ∈ s.seTaken, off.toNat / 8 < r.1 ∨ r.1 + r.2 ≤ off.toNat / 8) → s.cpStopped = false →
      Runs (.seAreaWrite off size v) s fun t =>
      (∀ i < 2 ^ size.val, t.rd8 (0x34000000 + off.toNat + i) = nth (toBytes 4 v.toNat) i 0)
      ∧ KeepsRegs s t [] ∧ KeepsMemOut s t (0x34000000 + off.toNat) (2 ^ size.val) ∧ KeepsRest s t)
  ∧ (∀ (s : State) (off : BitVec 19) (size : Fin 3) (v : Word), off.toNat % 2 ^ size.val = 0 →
    (off.toNat < 0x40000 ∧ (∃ r ∈ s.seTaken, r.1 ≤ off.toNat / 8 ∧ off.toNat / 8 < r.1 + r.2) ∨ 0x68000 ≤ off.toNat) →
    s.cpStopped = false → Runs (.seAreaWrite off size v) s (OnlyRegs s · []))
  ∧ (∀ (s : State) (off : BitVec 19) (v : Word), off.toNat % 4 = 0 → 0x40000 ≤ off.toNat → off.toNat < 0x68000 →
    s.cpStopped = false → Runs (.seAreaWrite off 2 v) s fun t =>
      let w := (off.toNat - 0x40000) / 4
      t.sv w = forced s.se.forces w v.toNat
      ∧ KeepsRegs s t [] ∧ KeepsMemOut s t (0x34000000 + off.toNat) 4 ∧ KeepsRest s t)

/-- R424 to R426: instructions of the scan engine. Integer arithmetic saturates; a division by zero gives 0 and MATH; a bit is
stored from RLO, and set or reset only where RLO is 1; the bit stack holds eight entries.
It rests on the model's choices of log entries 13, 48. -/
def Obligations.ScanInstructions : Prop :=
  (∀ (r : SeRun) (i : SeIns), r.s.se.forces = [] → i.c < 65536 → i.imm = false → i.flt = false →
    let x := signed 32 (r.s.sv i.a)
    let y := signed 32 (r.s.sv i.b)
    (i.op = 0x21 → (r.exec i).s.sv i.c = sat32 (x + y)) ∧ (i.op = 0x22 → (r.exec i).s.sv i.c = sat32 (x - y))
    ∧ (i.op = 0x23 → (r.exec i).s.sv i.c = sat32 (x * y))
    ∧ (i.op = 0x24 → y = 0 → (r.exec i).s.sv i.c = 0 ∧ (r.exec i).math = true)
    ∧ (i.op = 0x24 → y ≠ 0 → (r.exec i).s.sv i.c = sat32 (Int.tdiv x y))
    ∧ (0x20 ≤ i.op → i.op ≤ 0x2E → (r.exec i).rlo = r.rlo ∧ ∀ w < 65536, w ≠ i.c → (r.exec i).s.sv w = r.s.sv w))
  ∧ (∀ (r : SeRun) (i : SeIns), r.s.se.forces = [] → i.a < 65536 → i.bit < 32 →
    (i.op = 0x17 → bit ((r.exec i).s.sv i.a) i.bit = r.rlo) ∧ (i.op = 0x18 → bit ((r.exec i).s.sv i.a) i.bit = !r.rlo)
    ∧ (i.op = 0x19 → bit ((r.exec i).s.sv i.a) i.bit = (bit (r.s.sv i.a) i.bit || r.rlo))
    ∧ (i.op = 0x1A → bit ((r.exec i).s.sv i.a) i.bit = (bit (r.s.sv i.a) i.bit && !r.rlo))
    ∧ (i.op = 0x10 → (r.exec i).rlo = bit (r.s.sv i.a) i.bit ∧ (r.exec i).s = r.s))
  ∧ (∀ (r : SeRun) (i : SeIns), i.op = 0x1B → r.stack.length ≤ 8 →
    (r.exec i).stack.length ≤ 8 ∧ (r.exec i).stack.headD false = r.rlo ∧ (r.exec i).rlo = r.rlo
    ∧ ((r.exec i).stackBad = true ↔ r.stackBad = true ∨ r.stack.length = 8))

/-- R512, R513, R517: live change. A hold keeps requests back; GO releases them together, DROP and the time limit discard them.
It rests on the model's choices of log entry 49. -/
def Obligations.LiveChange : Prop :=
  (∀ (s : State) (v : Word), SYS_LIVE_CTL.KEY.of v = 0x71CE → SYS_LIVE_CTL.HOLD.of v = 1 → SYS_LIVE_CTL.GO.of v = 0 →
    SYS_LIVE_CTL.DROP.of v = 0 → s.holding = false → s.cpStopped = false → Runs (.liveHold v) s fun t =>
      t.holding = true ∧ t.live.held = [] ∧ t.live.since = s.le.tick ∧ t.fld SYS_LIVE_STAT.CODE = Code.ok
      ∧ KeepsRegs s t [SYS_LIVE_STAT] ∧ KeepsMem s t ∧ KeepsRest s { t with live := s.live })
  ∧ (∀ (s : State) (v : Word), SYS_LIVE_CTL.KEY.of v = 0x71CE → SYS_LIVE_CTL.GO.of v = 1 → SYS_LIVE_CTL.HOLD.of v = 0 →
    SYS_LIVE_CTL.DROP.of v = 0 → s.holding = true → s.cpStopped = false → Runs (.liveGo v) s fun t =>
      t.holding = false ∧ t.live.held = [] ∧ t.fld SYS_LIVE_STAT.HELD = 0
      ∧ (∀ n < 64, .swap n ∈ s.live.held → t.flag (LE_SLOT_CTL.SWAP n) = true)
      ∧ ((∀ n, .swap n ∈ s.live.held → n < 64) → KeepsBlocks s t [0x4000, 0x4003, 0x4006, 0x4007, 0x400C, 0x400D])
      ∧ KeepsMemOut s t (dirAt 0) 0x400
      ∧ KeepsRest s { t with live := s.live, sa := s.sa, pt := s.pt, wfl := s.wfl, se := s.se })
  ∧ (∀ (s : State) (v : Word), SYS_LIVE_CTL.KEY.of v = 0x71CE → SYS_LIVE_CTL.DROP.of v = 1 → SYS_LIVE_CTL.HOLD.of v = 0 →
    SYS_LIVE_CTL.GO.of v = 0 → s.holding = true → s.cpStopped = false → Runs (.liveDrop v) s fun t =>
      t.holding = false ∧ t.live.held = [] ∧ t.fld SYS_LIVE_STAT.HELD = 0 ∧ KeepsRegs s t [SYS_LIVE_STAT] ∧ KeepsMem s t
      ∧ KeepsRest s { t with live := s.live, pt := s.pt, wfl := s.wfl, se := s.se })
  ∧ (∀ (s : State), s.holding = true → s.live.since + 10000 ≤ s.le.tick → Runs .holdTimeout s fun t =>
      t.holding = false ∧ t.live.held = [] ∧ t.fld SYS_LIVE_STAT.CODE = Code.skipped ∧ KeepsRegs s t [SYS_LIVE_STAT]
      ∧ KeepsMem s t ∧ KeepsRest s { t with live := s.live, pt := s.pt, wfl := s.wfl, se := s.se })

/-- R475, R476: a write of VLT_CMD with the address of a well-placed block starts its command, whichever OP it holds: the block is
copied and BUSY reads 1. While a command is in progress the write is ignored and sets IGNORED; a block that lies elsewhere is
answered with RANGE (the model's choice, log entry 46). -/
def Obligations.VaultCommandsStart : Prop :=
  (∀ (s : State) (a : Word) (p : Nat × Instr), p ∈ vltCommands a → s.rd8 a.toNat = BitVec.ofNat 8 p.1 →
    s.flag VLT_CMD_STAT.BUSY = false → areaOk a.toNat 40 = true → s.cpStopped = false →
    Runs p.2 s fun t =>
      t.vlt = { s.vlt with cmd := some (s.words a.toNat 10) } ∧ t.flag VLT_CMD_STAT.BUSY = true
      ∧ KeepsRegs s t [VLT_CMD_STAT] ∧ KeepsMem s t ∧ KeepsRest s { t with vlt := s.vlt })
  ∧ (∀ (s : State) (a : Word) (p : Nat × Instr), p ∈ vltCommands a → s.flag VLT_CMD_STAT.BUSY = true → s.cpStopped = false →
    Runs p.2 s fun t => t.flag VLT_CMD_STAT.IGNORED = true ∧ t.flag VLT_CMD_STAT.BUSY = true ∧ OnlyRegs s t [VLT_CMD_STAT])
  ∧ (∀ (s : State) (a : Word) (p : Nat × Instr), p ∈ vltCommands a →
    s.flag VLT_CMD_STAT.BUSY = false → areaOk a.toNat 40 = false → s.cpStopped = false →
    Runs p.2 s fun t =>
      t.fld VLT_CMD_STAT.CODE = Code.range ∧ t.flag VLT_EVT.DONE = true
      ∧ KeepsRegs s t [VLT_CMD_STAT, VLT_EVT] ∧ KeepsMem s t ∧ KeepsRest s { t with vlt := s.vlt })

/-- R475 to R478: the end of a vault command. One that fails a check of R477 ends with its code and no effect; one that ends OK
has its output at OUT_ADDR and its words in the vault SRAM; HASH, HMAC, CMAC and GCM_SEAL output what their function gives of the
input; GCM_OPEN and VERIFY end with SIGNATURE_MISMATCH where their check fails.
It rests on the model's choices of log entries 12, 46. -/
def Obligations.VaultCommandEnds : Prop :=
  (∀ (s : State) (w : List Nat), s.vlt.cmd = some w → Runs .vltCommandEnd s fun t =>
      let c : VltCmd := ⟨w⟩
      let p := s.vltPlan c
      t.vlt.cmd = none ∧ t.flag VLT_CMD_STAT.BUSY = false ∧ t.flag VLT_EVT.DONE = true
      ∧ t.fld VLT_CMD_STAT.CODE = p.code ∧ t.vlt.sram = (s.vaultWriteAll p.writes).vlt.sram ∧ t.vlt.root = (s.vlt.root || p.root)
      ∧ t.free = s.free + p.frees
      ∧ (p.code ≠ Code.ok → KeepsMemButPm s t)
      ∧ (p.code = Code.ok → p.cert = none → areaOk (c.word 5) p.out.length = true →
      ¬((s.vlt.dropSram = true ∨ s.cp.cprst = true) ∧ c.word 5 < 0x20300000) →
          (∀ i < p.out.length, t.rd8 (c.word 5 + i) = nth p.out i 0)
          ∧ ∀ b, b < c.word 5 ∨ c.word 5 + p.out.length ≤ b → b < 0x38000000 ∨ 0x38080000 ≤ b → t.rd8 b = s.rd8 b)
      ∧ (s.vlt.dropSram = true ∨ s.cp.cprst = true → c.word 5 < 0x20300000 → KeepsMemButPm s t)
      ∧ KeepsRegs s t (VLT_CMD_STAT :: VLT_EVT :: vltShown)
      ∧ KeepsRest s { t with vlt := s.vlt, free := s.free, pm := { t.pm with later := s.pm.later } })
  ∧ (∀ (s : State) (w : List Nat), s.vltCheck ⟨w⟩ ≠ Code.ok →
      s.vltPlan ⟨w⟩ = { code := s.vltCheck ⟨w⟩ })
  ∧ (∀ (s : State) (w : List Nat), s.vlt.cmd = some w → s.vltCheck ⟨w⟩ = Code.ok → Runs .vltCommandEnd s fun t =>
      let c : VltCmd := ⟨w⟩
      let inp := s.rdBytes (c.word 1) c.inLen
      let aux := s.rdBytes (c.word 3) c.auxLen
      let outs (o : List Byte) : Prop := areaOk (c.word 5) o.length = true → s.cp.cprst = false → s.vlt.dropSram = false →
        ∀ i < o.length, t.rd8 (c.word 5 + i) = nth o i 0
      (c.op = 0x01 → c.alg = false → outs (Config.sha256 inp))
      ∧ (c.op = 0x01 → c.alg = true → outs (Config.sha384 inp))
      ∧ (∀ k, c.op = 0x02 → bit (s.slotPol c.slot) 5 = false → s.slotKey c.slot = some k → outs (Config.hmac k inp))
      ∧ (∀ k, c.op = 0x03 → bit (s.slotPol c.slot) 5 = false → s.slotKey c.slot = some k → outs (Config.cmac k inp))
      ∧ (∀ k, c.op = 0x04 → bit (s.slotPol c.slot) 5 = false → s.slotKey c.slot = some k →
          outs (Config.gcmSeal k (aux.take 12) (aux.drop 12) inp))
      ∧ (∀ k, c.op = 0x05 → bit (s.slotPol c.slot) 5 = false → s.slotKey c.slot = some k →
          Config.gcmOpen k (aux.take 12) (aux.drop 12) inp = none →
          t.fld VLT_CMD_STAT.CODE = Code.signatureMismatch ∧ KeepsMemButPm s t)
      ∧ (c.op = 0x07 → c.ksrc = true → Config.ecdsaVerify c.alg (aux.drop c.pt) inp (aux.take c.pt) = false →
          t.fld VLT_CMD_STAT.CODE = Code.signatureMismatch)
      ∧ (c.op = 0x07 → c.ksrc = true → Config.ecdsaVerify c.alg (aux.drop c.pt) inp (aux.take c.pt) = true →
          t.fld VLT_CMD_STAT.CODE = Code.ok)
      ∧ (c.op = 0x12 → t.vlt.root = true))

/-- R463, R465, R466, R479, R480, R484, R486: what the vault watches. A tamper detection leaves the root invalid and no session,
records its source
and its count; in BLANK the TAMP inputs do nothing; an open debug port sets DBGSEEN; the self-tests end with ST_DONE
and the measurement of the boot ROM; a failed health test of the TRNG is kept until a re-test passes, and ends the approved mode;
VLT_FW_ROLL starts, or is ignored.
It rests on the model's choices of log entry 3. -/
def Obligations.VaultWatch : Prop :=
  (∀ (s : State) (src : Fin 7), ¬((src.val = 1 ∨ src.val = 2) ∧ s.lcState = 0) → Runs (.tamper src) s fun t =>
      t.vlt.root = false ∧ t.vlt.cmd = none ∧ t.way.sess = none ∧ bit (t.reg VLT_TAMP).toNat src = true
      ∧ t.fld VLT_TAMP.COUNT = satInc 0xFFFF (s.fld VLT_TAMP.COUNT) ∧ t.flag VLT_EVT.TAMPER = true
      ∧ t.reg VLT_TAMP_TICK0 = BitVec.ofNat 32 s.aon.count ∧ (∀ i < 32, t.vaultBytes i 1 = [0])
      ∧ KeepsBlocks s t [0x4005, 0x4008, 0x400F, 0x4010] ∧ KeepsMemButPm s t
      ∧ KeepsRest s { t with vlt := s.vlt, way := s.way, live := s.live, tune := s.tune, pm := { t.pm with later := s.pm.later } })
  ∧ (∀ (s : State) (src : Fin 7), src.val = 1 ∨ src.val = 2 → s.lcState = 0 → Runs (.tamper src) s (OnlyRegs s · []))
  ∧ (∀ (s : State), s.debugOpen = true → s.flag VLT_STAT.DBGSEEN = false → Runs .dbgseen s fun t =>
      t.flag VLT_STAT.DBGSEEN = true ∧ t.flag VLT_STAT.APPROVED = false ∧ t.way.sess = none ∧ t.vlt.cmd = none
        ∧ t.vlt.sram = s.vlt.sram ∧ KeepsBlocks s t [0x4005, 0x4008, 0x400F, 0x4010] ∧ KeepsMemButPm s t
        ∧ KeepsRest s { t with vlt := s.vlt, way := s.way, live := s.live, tune := s.tune, pm := { t.pm with later := s.pm.later } })
  ∧ (∀ (s : State) (pass : Bool), s.flag SYS_CLK_STAT.PLL_LOCK = true → s.flag VLT_STAT.ST_DONE = false →
    Runs (.vltSelftestDone pass) s fun t =>
      t.flag VLT_STAT.ST_DONE = true ∧ t.flag VLT_STAT.ST_FAIL = !pass
      ∧ t.vlt = { s.vlt with mRom := some (Config.sha256 romImage) } ∧ KeepsRegs s t vltShown
      ∧ KeepsMemButPm s t ∧ KeepsRest s { t with vlt := s.vlt, pm := { t.pm with later := s.pm.later } })
  ∧ (∀ (s : State), Runs .trngHealthFail s fun t =>
      t.flag VLT_STAT.TRNG_FAIL = true ∧ t.flag VLT_STAT.APPROVED = false ∧ t.flag VLT_EVT.TRNG = true
        ∧ KeepsRegs s t (VLT_EVT :: vltShown)
      ∧ KeepsMemButPm s t ∧ KeepsRest s { t with pm := { t.pm with later := s.pm.later } })
  ∧ (∀ (s : State), s.flag VLT_STAT.TRNG_FAIL = true → Runs (.trngRetest true) s fun t =>
      t.flag VLT_STAT.TRNG_FAIL = false ∧ t.flag VLT_EVT.TRNG = true ∧ KeepsRegs s t (VLT_EVT :: vltShown)
      ∧ KeepsMemButPm s t ∧ KeepsRest s { t with pm := { t.pm with later := s.pm.later } })
  ∧ (∀ (s : State), Runs (.trngRetest false) s (OnlyRegs s · []))
  ∧ (∀ (s : State) (v : Word), VLT_FW_ROLL.KEY.of v = 0x7141 → VLT_FW_ROLL.GO.of v = 1 → s.flag VLT_STAT.FW_ROLL_BUSY = false →
    s.cp.fw = true → s.scValue 4 < (s.reg VLT_FW_VER).toNat → s.cpStopped = false → Runs (.vltFwRoll v) s fun t =>
      t.flag VLT_STAT.FW_ROLL_BUSY = true ∧ OnlyRegs s t [VLT_STAT])
  ∧ (∀ (s : State) (v : Word), VLT_FW_ROLL.KEY.of v ≠ 0x7141 ∨ s.flag VLT_STAT.FW_ROLL_BUSY = true ∨ s.cp.fw = false →
    s.cpStopped = false → Runs (.vltFwRoll v) s (OnlyRegs s · []))

/-- R490, R491, R493, R495, R496: life-cycle commands. One that fails a check ends with its code and nothing else; ENTER_SERVICE,
LEAVE_SERVICE and DEBUG_OPEN act at once; the fused operations act when their RESET save is done, program their fuses and ask for
a SYSRST.
It rests on the model's choices of log entry 50. -/
def Obligations.LifeCycleCommands : Prop :=
  (∀ (s : State) (v : Word) (p : Nat × Instr) (code : Nat), p ∈ lcsCommands v → s.lcsAsks v p.1 code → code ≠ Code.ok →
    s.cpStopped = false → Runs p.2 s fun t => t.fld LCS_CMD_STAT.CODE = code ∧ t.flag LCS_EVT.CMD = true
      ∧ OnlyRegs s t [LCS_CMD_STAT, LCS_EVT])
  ∧ (∀ (s : State) (v : Word) (p : Nat × Instr), p ∈ lcsCommands v → LCS_CMD.OP.of v = p.1 →
    LCS_CMD.KEY.of v ≠ 0x1C5A ∨ s.flag LCS_CMD_STAT.BUSY = true → Runs p.2 s (OnlyRegs s · []))
  ∧ (∀ (s : State) (v : Word) (p : Nat × Instr), p ∈ lcsCommands v → p.1 = 1 ∨ p.1 = 2 ∨ p.1 = 5 → s.lcsAsks v p.1 Code.ok →
    s.cpStopped = false → Runs p.2 s fun t => t.lcs = { s.lcs with op := some p.1 } ∧ t.flag LCS_CMD_STAT.BUSY = true
      ∧ KeepsRegs s t [LCS_CMD_STAT, SYS_TOT_STAT, PM_STAT] ∧ KeepsMem s t ∧ KeepsRest s { t with lcs := s.lcs, tot := s.tot })
  ∧ (∀ (s : State) (v : Word), s.lcsAsks v 3 Code.ok → s.cpStopped = false → Runs (.lcsEnterService v) s fun t =>
      t.lcs = { s.lcs with service := true } ∧ t.fld LCS_STAT.STATE = 3 ∧ t.flag LCS_EVT.STATE = true
      ∧ t.flag LCS_EVT.CMD = true ∧ t.fld LCS_CMD_STAT.CODE = Code.ok
      ∧ KeepsBlocks s t [0x400F, 0x4010] ∧ KeepsMem s t ∧ KeepsRest s { t with lcs := s.lcs })
  ∧ (∀ (s : State) (v : Word), s.lcsAsks v 4 Code.ok → s.cpStopped = false → Runs (.lcsLeaveService v) s fun t =>
      t.lcs.service = false ∧ t.lcs.debug = false ∧ t.se.forces = [] ∧ t.fld LCS_STAT.STATE = 2 ∧ t.flag TUNE_STAT.AUTH = false
      ∧ t.flag LCS_EVT.STATE = true ∧ t.fld LCS_CMD_STAT.CODE = Code.ok ∧ t.lcs.fuses = s.lcs.fuses
      ∧ (s.hasRight 3 = true → t.way.sess = none)
      ∧ KeepsBlocks s t [0x4005, 0x4008, 0x400D, 0x400F, 0x4010] ∧ KeepsMem s t
      ∧ KeepsRest s { t with lcs := s.lcs, se := s.se, way := s.way, live := s.live, tune := s.tune })
  ∧ (∀ (s : State) (v : Word), s.lcsAsks v 6 Code.ok → s.cpStopped = false → Runs (.lcsDebugOpen v) s fun t =>
      t.lcs = { s.lcs with debug := true } ∧ t.flag LCS_STAT.DEBUG = true ∧ t.flag VLT_STAT.DBGSEEN = true
      ∧ t.fld LCS_CMD_STAT.CODE = Code.ok ∧ KeepsBlocks s t [0x4005, 0x4008, 0x400F, 0x4010] ∧ KeepsMemButPm s t
      ∧ KeepsRest s { t with lcs := s.lcs, vlt := s.vlt, way := s.way, live := s.live, tune := s.tune,
                             pm := { t.pm with later := s.pm.later } })
  ∧ (∀ (s : State) (n : Nat), s.lcs.op = some n → n = 1 ∨ n = 2 ∨ n = 5 → s.resetSaving = false → s.lcs.fuses.length = 4 →
    Runs .lcsCommandEnd s fun t =>
      t.lcs.op = none ∧ t.rst.sys = true ∧ t.fld LCS_CMD_STAT.CODE = Code.ok ∧ t.flag LCS_CMD_STAT.BUSY = false
      ∧ t.lcs.fuses = (if n = 1 then [max 3 (nth s.lcs.fuses 0 0), nth s.lcs.fuses 1 0, nth s.lcs.fuses 2 0, nth s.lcs.fuses 3 0]
          else if n = 2 then [nth s.lcs.fuses 0 0, max 3 (nth s.lcs.fuses 1 0), nth s.lcs.fuses 2 0, nth s.lcs.fuses 3 0]
          else [nth s.lcs.fuses 0 0, nth s.lcs.fuses 1 0, max 3 (nth s.lcs.fuses 2 0), max 3 (nth s.lcs.fuses 3 0)])
      ∧ (n = 1 → t.lcs.owner = s.lcs.owner ∧ t.vlt.root = s.vlt.root)
      ∧ (n = 5 → t.vlt.root = false ∧ t.lcs.owner = s.lcs.owner)
      ∧ (n = 2 → s.lcs.owner.length = 8 → ∀ i < 256, bit (nth t.lcs.owner (i / 32) 0) (i % 32)
          = (bit (nth s.lcs.owner (i / 32) 0) (i % 32) || bit (nth s.lcs.staged (i / 32) 0) (i % 32)))
      ∧ KeepsBlocks s t [0x4000, 0x4005, 0x4008, 0x400F, 0x4010] ∧ KeepsMemButPm s t
      ∧ KeepsRest s { t with lcs := s.lcs, vlt := s.vlt, way := s.way, live := s.live, tune := s.tune, rst := s.rst,
                             pm := { t.pm with later := s.pm.later } })

/-- R497 to R505: self-tests on demand. A request that passes the checks takes the target; one that does not gives its code and
changes nothing else; ABORT cuts the run short; the run starts when the target is free; it ends INCOMPLETE where it was cut, with
the target back; OK clears the target's health bit and SIGNATURE_MISMATCH sets it. Transmit entries that have waited 4 ms on a
channel under test complete with REFUSED_SELFTEST.
It rests on the model's choices of log entry 50. -/
def Obligations.SelfTests : Prop :=
  (∀ (s : State) (v : Word), LCS_BIST_CMD.GO.of v = 1 → LCS_BIST_CMD.ABORT.of v = 0 → s.cpStopped = false →
    Runs (.bistRequest v) s fun t =>
      let b : BistRun := { kind := LCS_BIST_CMD.KIND.of v, index := LCS_BIST_CMD.INDEX.of v, count := LCS_BIST_CMD.COUNT.of v }
      (s.bistCheck b = Code.ok → t.lcs = { s.lcs with bist := some b } ∧ t.flag LCS_BIST_STAT.BUSY = true
        ∧ t.flag LCS_STAT.BIST = true
        ∧ t.fld LCS_BIST_STAT.KIND = b.kind ∧ t.fld LCS_BIST_STAT.INDEX = b.index
        ∧ KeepsBlocks s t [0x4003, 0x4006, 0x4009, 0x4010] ∧ KeepsMem s t
        ∧ KeepsRest s { t with lcs := s.lcs, net := s.net, sa := s.sa })
      ∧ (s.bistCheck b ≠ Code.ok → t.fld LCS_BIST_STAT.CODE = s.bistCheck b ∧ OnlyRegs s t [LCS_BIST_STAT]))
  ∧ (∀ (s : State) (v : Word) (b : BistRun), LCS_BIST_CMD.GO.of v = 0 → LCS_BIST_CMD.ABORT.of v = 1 → s.lcs.bist = some b →
    s.cpStopped = false → Runs (.bistAbort v) s fun t =>
      t.lcs = { s.lcs with bist := some { b with cut := true } } ∧ KeepsRegs s t [] ∧ KeepsMem s t
        ∧ KeepsRest s { t with lcs := s.lcs })
  ∧ (∀ (s : State) (b : BistRun), s.lcs.bist = some b → b.running = false → b.cut = false → s.bistFree b = true →
    Runs .bistRunStart s fun t =>
      t.lcs = { s.lcs with bist := some { b with running := true } }
      ∧ (b.kind = 1 → t.fld LE_STAT.CELL_EN = putBit (s.fld LE_STAT.CELL_EN) b.index false % 16)
      ∧ (b.kind = 3 → b.index < s.net.ch.length → (t.ch b.index).testing = some s.le.tick)
      ∧ (b.kind = 4 → t.flag ME_STAT.BIST = true)
      ∧ KeepsRegs s t [LE_STAT, ME_STAT] ∧ KeepsMem s t ∧ KeepsRest s { t with lcs := s.lcs, net := s.net })
  ∧ (∀ (s : State) (b : BistRun) (n : Nat) (sig : BitVec 64), s.lcs.bist = some b → b.cut = true → n ≤ b.total →
    b.running = true ∨ n = 0 →
    Runs (.bistRunEnd n sig) s fun t =>
      t.lcs.bist = none ∧ t.fld LCS_BIST_STAT.CODE = Code.incomplete ∧ t.flag LCS_BIST_STAT.BUSY = false
      ∧ t.flag LCS_BIST_STAT.CUT = true ∧ t.flag LCS_EVT.BIST = true ∧ t.reg LCS_BIST_PAT = BitVec.ofNat 32 n
      ∧ t.reg64 LCS_BIST_SIG_LO LCS_BIST_SIG_HI = sig.toNat
      ∧ (b.index < 8 → KeepsBlocks s t [0x4003, 0x4006, 0x4008, 0x4009, 0x400E, 0x4010]) ∧ KeepsMem s t
      ∧ KeepsRest s { t with lcs := s.lcs, le := s.le, sa := s.sa, net := s.net, mh := s.mh })
  ∧ (∀ (s : State) (b : BistRun) (sig : BitVec 64), s.lcs.bist = some b → b.running = true → b.cut = false → 0 < b.total →
    b.kind = 2 → b.index < 8 →
    Runs (.bistRunEnd b.total sig) s fun t =>
      t.lcs.bist = none ∧ t.flag LCS_BIST_STAT.BUSY = false ∧ t.reg LCS_BIST_PAT = BitVec.ofNat 32 b.total
      ∧ (sig = Config.bistSignature 2 (b.total / 65536) →
          t.fld LCS_BIST_STAT.CODE = Code.ok ∧ bit (t.reg LCS_HEALTH).toNat (4 + b.index) = false)
      ∧ (sig ≠ Config.bistSignature 2 (b.total / 65536) →
          t.fld LCS_BIST_STAT.CODE = Code.signatureMismatch ∧ bit (t.reg LCS_HEALTH).toNat (4 + b.index) = true
          ∧ bit (t.fld SA_GROUP.FAILED) b.index = true ∧ bit (t.fld SA_GROUP.BIST) b.index = false)
      ∧ KeepsBlocks s t [0x4006, 0x400F, 0x4010] ∧ KeepsMemButPm s t
      ∧ KeepsRest s { t with lcs := s.lcs, sa := s.sa, pm := { t.pm with later := s.pm.later } })
  ∧ (∀ (s : State) (c : Fin 8) (e n : Nat), c.val < s.net.ch.length → (s.ch c).testing = some n → e < 32 →
    s.txPending c e = true →
    max n (nth (s.ch c).reqAt e 0) + 400 ≤ s.le.tick → Runs .bistEntryTimeout s fun t =>
      t.txPending c e = false ∧ t.fld ⟨busBase c + 0x100 + 4 * e, 7, 0⟩ = Code.refusedSelftest ∧ KeepsBlocks s t [0x400A]
        ∧ KeepsMem s t
      ∧ KeepsRest s { t with net := s.net })

/-- R507, R509: a VBAT measurement shows its value; the second in a row below 2.30 V raises the VBAT cause, the second in a row at
or above 2.50 V clears it, and values between leave it. -/
def Obligations.BackupCellMeasured : Prop :=
  (∀ (s : State) (mv : Nat), s.pwr.on = true → s.pwr.stall = false → s.pmBlocked 4 = false → mv < 0x10000 →
    Runs (.vbatMeasurement mv) s fun t =>
    t.fld LCS_VBAT.MV = mv
    ∧ (mv < 2300 → 1 ≤ s.lcs.vbatLow → s.fld LCS_STAT.STATE ≠ 4 → bit (t.reg LCS_CAUSE).toNat 1 = true)
    ∧ (2500 ≤ mv → 1 ≤ s.lcs.vbatHigh → bit (t.reg LCS_CAUSE).toNat 1 = false)
    ∧ (2300 ≤ mv → mv < 2500 → t.reg LCS_CAUSE = s.reg LCS_CAUSE ∧ t.lcs = { s.lcs with vbatLow := 0, vbatHigh := 0 })
    ∧ KeepsRegs s t [LCS_VBAT, LCS_CAUSE, LCS_CAUSE_SEEN, LCS_EVT, LCS_CAUSE_TICK_LO 1, LCS_CAUSE_TICK_HI 1]
    ∧ KeepsMemButPm s t ∧ KeepsRest s { t with lcs := s.lcs })
  ∧ (∀ (s : State) (mv : Nat), s.pwr.on = false ∨ s.pwr.stall = true → Runs (.vbatMeasurement mv) s (OnlyRegs s · []))

/-- R3, R4, R101, R104, R107, R108, R396: a CP write of a register that has no rule of its own acts on each field by its access
code: RO and WO keep, RW
takes the bits, W1C clears and W1S and RWS set the bits written 1, LK takes them until the seal. Nothing else changes. A register
of the AON domain that is locked out keeps its value, and the write faults with trap cause 7; while the CP does not run none of
its writes acts.
It rests on the model's choices of log entry 64. -/
def Obligations.AccessCodes : Prop :=
  (∀ (s : State) (addr v : Word) (r : RegDesc), regDesc addr.toNat = some r → 0x40000000 ≤ addr.toNat → addr.toNat % 4 = 0 →
    (∀ w ∈ rowsAt addr.toNat, w.index addr.toNat = none) →
    ¬(s.aon.locked = true ∧ 0x40020000 ≤ addr.toNat ∧ addr.toNat < 0x40030000) → (∀ k < 3, addr.toNat ≠ INTC_PEND k) →
    s.cpStopped = false → Runs (.registerWrite addr v) s fun t =>
      (∀ f ∈ r.fields, f.lo ≤ f.hi → f.hi < 32 → (∀ g ∈ r.fields, g ≠ f → g.lo ≤ g.hi ∧ g.hi < 32 ∧ (g.hi < f.lo ∨ f.hi < g.lo)) →
        let old := bits (s.reg addr.toNat).toNat f.hi f.lo
        let put := bits v.toNat f.hi f.lo
        let new := bits (t.reg addr.toNat).toNat f.hi f.lo
        (f.acc = .ro ∨ f.acc = .wo → new = old) ∧ (f.acc = .rw → new = put) ∧ (f.acc = .w1s ∨ f.acc = .rws → new = old ||| put)
        ∧ (f.acc = .w1c → ∀ i ≤ f.hi - f.lo, bit new i = (bit old i && !bit put i))
        ∧ (f.acc = .w1cAll → new = if put = 0 then old else 0)
        ∧ (f.acc = .lk → new = if s.lkSealed then old else put))
      ∧ OnlyRegs s t [addr.toNat])
  ∧ (∀ (s : State) (addr v : Word), addr.toNat % 4 = 0 → s.aon.locked = true → 0x40020000 ≤ addr.toNat → addr.toNat < 0x40030000 →
    s.cpStopped = false → Runs (.registerWrite addr v) s fun t =>
      t.cp.trap = some 7 ∧ t.cp.machine = true ∧ KeepsRegs s t [] ∧ KeepsMem s t
      ∧ KeepsRest s { t with cp := { t.cp with trap := s.cp.trap, machine := s.cp.machine } })
  ∧ (∀ (s : State) (addr v : Word), s.cpStopped = true → Runs (.registerWrite addr v) s (OnlyRegs s · []))
  ∧ (∀ (s : State) (addr v : Word), addr.toNat % 4 = 0 →
    0x20000000 ≤ addr.toNat ∧ addr.toNat < 0x20300000 ∨ 0x31000000 ≤ addr.toNat ∧ addr.toNat < 0x31100000 →
      s.cpStopped = false → Runs (.registerWrite addr v) s fun t =>
      (∀ i < 4, t.rd8 (addr.toNat + i) = nth (toBytes 4 v.toNat) i 0)
      ∧ KeepsRegs s t [] ∧ KeepsMemOut s t addr.toNat 4 ∧ KeepsRest s t)

/-- R112, R115, R393, R443, R492, R510: registers whose own rules hold back a write: the watchdog's configuration once it is
enabled, enable bit 0 of the interrupt controller, an alarm's value while it is enabled, the page buffer while nothing is loaded,
and the owner words, which stage a hash in BLANK and PROVISIONED and while no owner fuse is programmed.
It rests on the model's choices of log entry 50. -/
def Obligations.WritesHeldBack : Prop :=
  (∀ (s : State) (v : Word), s.flag SYS_WDT_CFG.EN = true →
    s.cpStopped = false → Runs (.registerWrite (BitVec.ofNat 32 SYS_WDT_CFG) v) s (OnlyRegs s · []))
  ∧ (∀ (s : State) (v : Word), s.cpStopped = false → Runs (.registerWrite (BitVec.ofNat 32 (INTC_EN 0)) v) s fun t =>
      bit (t.reg (INTC_EN 0)).toNat 0 = false ∧ (∀ i, 0 < i → i < 32 → bit (t.reg (INTC_EN 0)).toNat i = bit v.toNat i)
      ∧ OnlyRegs s t [INTC_EN 0])
  ∧ (∀ (s : State) (n : Fin 2) (v : Word), s.flag (AON_ALM_CFG.EN n) = true → s.aon.locked = false →
    Runs (.registerWrite (BitVec.ofNat 32 (AON_ALM_VAL0 n)) v) s (OnlyRegs s · []))
  ∧ (∀ (s : State) (i : Fin 64) (v : Word), s.flag PM_STAT.BUF = false →
    Runs (.registerWrite (BitVec.ofNat 32 (PM_BUF i)) v) s (OnlyRegs s · []))
  ∧ (∀ (s : State) (i : Fin 64) (v : Word), s.flag PM_STAT.BUF = true → s.flag PM_STAT.BUSY = false → s.cpStopped = false →
    Runs (.registerWrite (BitVec.ofNat 32 (PM_BUF i)) v) s fun t => t.reg (PM_BUF i) = v ∧ OnlyRegs s t [PM_BUF i])
  ∧ (∀ (s : State) (i : Fin 8) (v : Word), 2 ≤ s.lcState → s.lcs.owner.any (· != 0) = true →
    Runs (.registerWrite (BitVec.ofNat 32 (LCS_OWNER i)) v) s (OnlyRegs s · []))
  ∧ (∀ (s : State) (i : Fin 8) (v : Word), s.lcState < 2 ∨ s.lcs.owner.any (· != 0) = false → i.val < s.lcs.staged.length →
    s.cpStopped = false →
    Runs (.registerWrite (BitVec.ofNat 32 (LCS_OWNER i)) v) s fun t =>
      t.lcs = { s.lcs with staged := putAt s.lcs.staged i v.toNat } ∧ t.reg (LCS_OWNER i) = v
      ∧ KeepsBlocks s t [0x400F, 0x4010] ∧ KeepsMem s t ∧ KeepsRest s { t with lcs := s.lcs })

/-- R108, R121, R148, R375, R389, R396: a read of the low word of a counter captures both words of it, and one of LE_STATE word 0
the slot's state words (R148); during the lockout a read of the AON domain faults with trap cause 5.
It rests on the model's choices of log entry 64. -/
def Obligations.CapturingReads : Prop :=
  (∀ s : State, s.cpStopped = false → Runs (.capturingRead (BitVec.ofNat 32 LE_TICK_LO)) s fun t =>
    t.readback = BitVec.ofNat 32 s.le.tick ∧ t.reg LE_TICK_LO = BitVec.ofNat 32 s.le.tick
    ∧ t.reg LE_TICK_HI = BitVec.ofNat 32 (s.le.tick / 2 ^ 32) ∧ KeepsRegs s t [LE_TICK_LO, LE_TICK_HI] ∧ KeepsMem s t
    ∧ KeepsRest s { t with readback := s.readback })
  ∧ (∀ s : State, s.cpStopped = false → Runs (.capturingRead (BitVec.ofNat 32 SYS_NT_LO)) s fun t =>
    t.readback = BitVec.ofNat 32 s.nt ∧ t.reg SYS_NT_HI = BitVec.ofNat 32 (s.nt / 2 ^ 32)
    ∧ KeepsRegs s t [SYS_NT_LO, SYS_NT_HI] ∧ KeepsMem s t ∧ KeepsRest s { t with readback := s.readback })
  ∧ (∀ s : State, s.aon.locked = false → s.cpStopped = false → Runs (.capturingRead (BitVec.ofNat 32 AON_TICK0)) s fun t =>
    t.readback = BitVec.ofNat 32 s.aon.count ∧ t.reg AON_TICK1 = BitVec.ofNat 32 (s.aon.count / 2 ^ 32)
    ∧ KeepsRegs s t [AON_TICK0, AON_TICK1] ∧ KeepsMem s t ∧ KeepsRest s { t with readback := s.readback })
  ∧ (∀ s : State, s.aon.locked = true → s.cpStopped = false → Runs (.capturingRead (BitVec.ofNat 32 AON_TICK0)) s fun t =>
    t.cp.trap = some 5 ∧ t.cp.machine = true ∧ KeepsRegs s t [] ∧ KeepsMem s t
    ∧ KeepsRest s { t with cp := { t.cp with trap := s.cp.trap, machine := s.cp.machine } })
  ∧ (∀ (s : State) (n : Fin 64), s.cpStopped = false → Runs (.capturingRead (BitVec.ofNat 32 (LE_STATE n 0))) s fun t =>
    (∀ k < 16, t.reg (LE_STATE n (k + 1)) = BitVec.ofInt 32 (nth (s.slot n).st k {}).m)
    ∧ KeepsRegs s t ((List.range 16).map fun k => LE_STATE n (k + 1)) ∧ KeepsMem s t
      ∧ KeepsRest s { t with readback := s.readback })

/-- R201, R438, R441, R450: reads of the canvas store and of the PM window. A word read well, or corrected, is its content; an
uncorrectable one reads all ones; errors are counted; a page that no map shows reads 0. -/
def Obligations.CountedReads : Prop :=
  (∀ (s : State) (addr n : Nat), 0x30000000 ≤ addr → addr < 0x30200000 → addr % 4 = 0 → s.cpStopped = false →
    Runs (.eccCountedRead addr .good n) s fun t =>
    t.readback = BitVec.ofNat 32 (s.rd32 addr) ∧ OnlyRegs s { t with readback := s.readback } [])
  ∧ (∀ (s : State) (addr n : Nat), 0x30000000 ≤ addr → addr < 0x30200000 → addr % 4 = 0 → s.cpStopped = false →
    Runs (.eccCountedRead addr .uncorrectable n) s fun t =>
      t.readback = 0xFFFFFFFF ∧ t.rd16 (canvasBase + 2) = min 0xFFFF (s.rd16 (canvasBase + 2) + 1)
      ∧ KeepsRegs s t [] ∧ KeepsMemOut s t (canvasBase + 2) 6 ∧ KeepsRest s { t with readback := s.readback })
  ∧ (∀ (s : State) (addr n : Nat), 0x30000000 ≤ addr → addr < 0x30200000 → addr % 4 = 0 → s.cpStopped = false →
    Runs (.eccCountedRead addr .corrected n) s fun t =>
      t.readback = BitVec.ofNat 32 (s.rd32 addr) ∧ t.rd32 (canvasBase + 4) = min 0xFFFFFFFF (s.rd32 (canvasBase + 4) + 1)
      ∧ KeepsRegs s t [] ∧ KeepsMemOut s t (canvasBase + 2) 6 ∧ KeepsRest s { t with readback := s.readback })
  ∧ (∀ (s : State) (addr : Nat) (e : EccKind), 0x38000000 ≤ addr → addr < 0x38080000 → addr % 4 = 0 →
    pmHidden (addr - 0x38000000) = true → s.cpStopped = false → Runs (.eccCountedRead addr e 0) s fun t =>
      t.readback = 0 ∧ OnlyRegs s { t with readback := s.readback } [])
  ∧ (∀ (s : State) (addr : Nat), 0x38000000 ≤ addr → addr < 0x38080000 → addr % 4 = 0 → pmHidden (addr - 0x38000000) = false →
    s.pmDenied (addr - 0x38000000) = false → s.cpStopped = false → Runs (.eccCountedRead addr .uncorrectable 0) s fun t =>
      t.readback = 0xFFFFFFFF ∧ t.fld PM_ECC.UE = satInc 0xFFFF (s.fld PM_ECC.UE) ∧ t.flag PM_EVT.UE = true
      ∧ t.fld PM_ECC_ADDR.ADDR = (addr - 0x38000000) / 8 * 8 ∧ (∀ a, t.rd8 a = s.rd8 a)
      ∧ (s.flag PM_STAT.BUSY = false → t.pmBad ((addr - 0x38000000) / 8 * 8) = true)
      ∧ KeepsRegs s t [PM_ECC, PM_ECC_ADDR, PM_EVT] ∧ KeepsRest s { t with readback := s.readback })

/-- One step takes the command at the front of the queue and runs it, first in, first out: step of s with c at the front of its
queue is exec of c on s with the queue's rest. With no command waiting, a step is one edge of the LFXO: the tick counter moves on
by
one where nothing pends on it. The queue is the model's choice, log entry 62, and so is the edge, log entry 4. -/
def Obligations.StepTakesTheFront : Prop :=
  (∀ (s : State) (c : Instr) (rest : List Instr), step { s with pending := c :: rest } = exec c { s with pending := rest })
  ∧ (∀ (s : State), s.pending = [] → s.aon.lost = false → s.aon.load = none → s.aon.shift = none → s.aon.count + 1 < 2 ^ 48 →
    ∃ t, step s = .next t ∧ t.aon.count = s.aon.count + 1 ∧ t.aon.edges = s.aon.edges + 1 ∧ KeepsAtEdge s t)

/-- R39: the OR-ing paths of the two feeds are never both closed. Every step from a state in which at most the path of the holding
feed is closed, or, while no feed holds the token, at most one path, leaves such a state. -/
def Obligations.FeedPathsStayApart : Prop := ∀ s t : State, PathsApart s → step s = .next t → PathsApart t
end

