-- ==== Sys2Proof/Laws/Sparse.lean ====
section
/-! SUPPORT. What the sparse maps read after a write, and that every operation keeps their canonical form. -/

namespace Sys2Proof.Machine

variable {α : Type}

theorem sparseGet_drop (d : Nat → α) (l : List (Nat × α)) (k j : Nat) :
    sparseGet d (sparseDrop k l) j = if j = k then d j else sparseGet d l j := by
  induction l with
  | nil => simp [sparseDrop, sparseGet]
  | cons p t ih =>
    obtain ⟨k', v⟩ := p
    by_cases h : k' = k
    · subst h
      by_cases hj : j = k'
      · subst hj; simpa [sparseDrop] using ih
      · simp [sparseDrop, sparseGet, ih, hj, Ne.symm hj]
    · by_cases hj : k' = j
      · subst hj; simp [sparseDrop, sparseGet, h]
      · simp [sparseDrop, sparseGet, h, hj, ih]

/-- Dropping entries lengthens nothing, so a list whose head is dropped is not what is left. -/
theorem sparseDrop_length (k : Nat) (l : List (Nat × α)) : (sparseDrop k l).length ≤ l.length := by
  induction l with
  | nil => simp [sparseDrop]
  | cons p t ih =>
    obtain ⟨k', v⟩ := p
    by_cases h : k' = k
    · subst h; simp only [sparseDrop, if_true, List.length_cons]; omega
    · simp only [sparseDrop, if_neg h, List.length_cons]; omega

theorem sparseDrop_head (k k' : Nat) (v : α) (t : List (Nat × α)) (h : sparseDrop k ((k', v) :: t) = (k', v) :: t) :
    k' ≠ k := by
  intro e
  have := sparseDrop_length k t
  rw [show sparseDrop k t = (k', v) :: t by simpa [sparseDrop, e] using h] at this
  simp at this

theorem sparseGet_insert (d : Nat → α) (l : List (Nat × α)) (k j : Nat) (v : α) (h : sparseDrop k l = l) :
    sparseGet d (sparseInsert k v l) j = if j = k then v else sparseGet d l j := by
  induction l with
  | nil =>
    simp only [sparseInsert, sparseGet]
    by_cases hj : j = k
    · simp [hj]
    · simp [hj, Ne.symm hj]
  | cons p t ih =>
    obtain ⟨k', w⟩ := p
    have hk := sparseDrop_head k k' w t h
    have ht : sparseDrop k t = t := by simpa [sparseDrop, hk] using h
    by_cases hlt : k < k'
    · simp only [sparseInsert, hlt, if_true, sparseGet]
      by_cases hj : j = k
      · simp [hj]
      · simp [hj, Ne.symm hj]
    · simp only [sparseInsert, hlt, if_false, sparseGet, ih ht]
      by_cases hj : k' = j
      · subst hj; simp [hk]
      · simp [hj]

theorem sparseDrop_idem (l : List (Nat × α)) (k : Nat) : sparseDrop k (sparseDrop k l) = sparseDrop k l := by
  induction l with
  | nil => rfl
  | cons p t ih =>
    obtain ⟨k', v⟩ := p
    by_cases h : k' = k
    · simp [sparseDrop, h, ih]
    · simp [sparseDrop, h, ih]

/-- A read after a write: the value written at its address, the former value elsewhere. -/
theorem sparseGet_set [DecidableEq α] (d : Nat → α) (l : List (Nat × α)) (k j : Nat) (v : α) :
    sparseGet d (sparseSet d l k v) j = if j = k then v else sparseGet d l j := by
  unfold sparseSet
  split
  · rename_i h
    rw [sparseGet_drop]
    by_cases hj : j = k
    · simp [hj, h]
    · simp [hj]
  · rw [sparseGet_insert _ _ _ _ _ (sparseDrop_idem l k), sparseGet_drop]
    by_cases hj : j = k <;> simp [hj]

/-- A read after a clearing: what an unlisted address reads as where `p` holds, the former value elsewhere. -/
theorem sparseGet_clear (d : Nat → α) (p : Nat → Bool) (l : List (Nat × α)) (j : Nat) :
    sparseGet d (sparseClear p l) j = if p j then d j else sparseGet d l j := by
  induction l with
  | nil => simp [sparseClear, sparseGet]
  | cons q t ih =>
    obtain ⟨k, v⟩ := q
    by_cases hp : p k = true
    · simp only [sparseClear, hp, if_true, ih, sparseGet]
      by_cases hj : k = j
      · subst hj; simp [hp]
      · simp [hj]
    · simp only [sparseClear, hp, sparseGet]
      by_cases hj : k = j
      · subst hj; simp [sparseGet, hp]
      · simp [sparseGet, ih, hj]

section wf
variable [DecidableEq α]

theorem sparseWfFrom_cons (d : Nat → α) (lo : Option Nat) (k : Nat) (v : α) (t : List (Nat × α)) :
    sparseWfFrom d lo ((k, v) :: t) = true
      ↔ (∀ b, lo = some b → b < k) ∧ v ≠ d k ∧ sparseWfFrom d (some k) t = true := by
  cases lo <;> simp [sparseWfFrom, and_assoc]

theorem sparseWfFrom_weaken (d : Nat → α) (a : Nat) (lo : Option Nat) (l : List (Nat × α))
    (h : sparseWfFrom d (some a) l = true) (hb : ∀ b, lo = some b → b ≤ a) : sparseWfFrom d lo l = true := by
  cases l with
  | nil => rfl
  | cons p t =>
    obtain ⟨k, v⟩ := p
    rw [sparseWfFrom_cons] at h ⊢
    exact ⟨fun b e => lt_of_le_of_lt (hb b e) (h.1 a rfl), h.2⟩

theorem sparseWfFrom_drop (d : Nat → α) (k : Nat) (l : List (Nat × α)) :
    ∀ lo, sparseWfFrom d lo l = true → sparseWfFrom d lo (sparseDrop k l) = true := by
  induction l with
  | nil => intro lo _; rfl
  | cons p t ih =>
    obtain ⟨k', v⟩ := p
    intro lo h
    rw [sparseWfFrom_cons] at h
    by_cases e : k' = k
    · simp only [sparseDrop, e, if_true]
      exact ih lo (sparseWfFrom_weaken d k' lo t h.2.2 fun b hb => le_of_lt (h.1 b hb))
    · simp only [sparseDrop, e, if_false, sparseWfFrom_cons]
      exact ⟨h.1, h.2.1, ih _ h.2.2⟩

theorem sparseWfFrom_insert (d : Nat → α) (k : Nat) (v : α) (l : List (Nat × α)) (hv : v ≠ d k) (hk : sparseDrop k l = l) :
    ∀ lo, (∀ b, lo = some b → b < k) → sparseWfFrom d lo l = true → sparseWfFrom d lo (sparseInsert k v l) = true := by
  induction l with
  | nil => intro lo hb _; simp only [sparseInsert, sparseWfFrom_cons]; exact ⟨hb, hv, rfl⟩
  | cons p t ih =>
    obtain ⟨k', w⟩ := p
    intro lo hb h
    rw [sparseWfFrom_cons] at h
    by_cases hlt : k < k'
    · simp only [sparseInsert, hlt, if_true, sparseWfFrom_cons]
      exact ⟨hb, hv, fun b e => by cases e; exact hlt, h.2⟩
    · have hne := sparseDrop_head k k' w t hk
      have ht : sparseDrop k t = t := by simpa [sparseDrop, hne] using hk
      simp only [sparseInsert, hlt, if_false, sparseWfFrom_cons]
      exact ⟨h.1, h.2.1, ih ht (some k') (fun b e => by cases e; omega) h.2.2⟩

/-- A write keeps the canonical form. -/
theorem sparseWf_set (d : Nat → α) (l : List (Nat × α)) (k : Nat) (v : α) (h : sparseWf d l = true) :
    sparseWf d (sparseSet d l k v) = true := by
  unfold sparseWf sparseSet at *
  split
  · exact sparseWfFrom_drop d k l none h
  · rename_i hv
    exact sparseWfFrom_insert d k v _ hv (sparseDrop_idem l k) none (fun b e => by cases e) (sparseWfFrom_drop d k l none h)

theorem sparseWfFrom_clear (d : Nat → α) (p : Nat → Bool) (l : List (Nat × α)) :
    ∀ lo, sparseWfFrom d lo l = true → sparseWfFrom d lo (sparseClear p l) = true := by
  induction l with
  | nil => intro lo _; rfl
  | cons q t ih =>
    obtain ⟨k, v⟩ := q
    intro lo h
    rw [sparseWfFrom_cons] at h
    by_cases e : p k = true
    · simp only [sparseClear, e, if_true]
      exact ih lo (sparseWfFrom_weaken d k lo t h.2.2 fun b hb => le_of_lt (h.1 b hb))
    · simp only [sparseClear, e]
      exact (sparseWfFrom_cons ..).2 ⟨h.1, h.2.1, ih _ h.2.2⟩

/-- A clearing keeps the canonical form. -/
theorem sparseWf_clear (d : Nat → α) (p : Nat → Bool) (l : List (Nat × α)) (h : sparseWf d l = true) :
    sparseWf d (sparseClear p l) = true := sparseWfFrom_clear d p l none h

end wf

end Sys2Proof.Machine
end

