-- ==== Sys2Proof/Laws/State.lean ====
section
/-! SUPPORT. What each update of the state leaves: one lemma for each field and update, true by unfolding the update. -/

namespace Sys2Proof.Machine

variable (s : State)

/-! `State.setReg` -/
@[simp] theorem State.setReg_mem (a : Nat) (v : Word) : (s.setReg a v).mem = s.mem := rfl
@[simp] theorem State.setReg_ecc (a : Nat) (v : Word) : (s.setReg a v).ecc = s.ecc := rfl
@[simp] theorem State.setReg_flash (a : Nat) (v : Word) : (s.setReg a v).flash = s.flash := rfl
@[simp] theorem State.setReg_readback (a : Nat) (v : Word) : (s.setReg a v).readback = s.readback := rfl
@[simp] theorem State.setReg_free (a : Nat) (v : Word) : (s.setReg a v).free = s.free := rfl
@[simp] theorem State.setReg_rst (a : Nat) (v : Word) : (s.setReg a v).rst = s.rst := rfl
@[simp] theorem State.setReg_boot (a : Nat) (v : Word) : (s.setReg a v).boot = s.boot := rfl
@[simp] theorem State.setReg_live (a : Nat) (v : Word) : (s.setReg a v).live = s.live := rfl
@[simp] theorem State.setReg_pwr (a : Nat) (v : Word) : (s.setReg a v).pwr = s.pwr := rfl
@[simp] theorem State.setReg_prof (a : Nat) (v : Word) : (s.setReg a v).prof = s.prof := rfl
@[simp] theorem State.setReg_pm (a : Nat) (v : Word) : (s.setReg a v).pm = s.pm := rfl
@[simp] theorem State.setReg_le (a : Nat) (v : Word) : (s.setReg a v).le = s.le := rfl
@[simp] theorem State.setReg_tune (a : Nat) (v : Word) : (s.setReg a v).tune = s.tune := rfl
@[simp] theorem State.setReg_sa (a : Nat) (v : Word) : (s.setReg a v).sa = s.sa := rfl
@[simp] theorem State.setReg_pt (a : Nat) (v : Word) : (s.setReg a v).pt = s.pt := rfl
@[simp] theorem State.setReg_cp (a : Nat) (v : Word) : (s.setReg a v).cp = s.cp := rfl
@[simp] theorem State.setReg_time (a : Nat) (v : Word) : (s.setReg a v).time = s.time := rfl
@[simp] theorem State.setReg_aon (a : Nat) (v : Word) : (s.setReg a v).aon = s.aon := rfl
@[simp] theorem State.setReg_net (a : Nat) (v : Word) : (s.setReg a v).net = s.net := rfl
@[simp] theorem State.setReg_rnd (a : Nat) (v : Word) : (s.setReg a v).rnd = s.rnd := rfl
@[simp] theorem State.setReg_wfl (a : Nat) (v : Word) : (s.setReg a v).wfl = s.wfl := rfl
@[simp] theorem State.setReg_se (a : Nat) (v : Word) : (s.setReg a v).se = s.se := rfl
@[simp] theorem State.setReg_way (a : Nat) (v : Word) : (s.setReg a v).way = s.way := rfl
@[simp] theorem State.setReg_vlt (a : Nat) (v : Word) : (s.setReg a v).vlt = s.vlt := rfl
@[simp] theorem State.setReg_lcs (a : Nat) (v : Word) : (s.setReg a v).lcs = s.lcs := rfl
@[simp] theorem State.setReg_ana (a : Nat) (v : Word) : (s.setReg a v).ana = s.ana := rfl
@[simp] theorem State.setReg_mh (a : Nat) (v : Word) : (s.setReg a v).mh = s.mh := rfl
@[simp] theorem State.setReg_me (a : Nat) (v : Word) : (s.setReg a v).me = s.me := rfl
@[simp] theorem State.setReg_tot (a : Nat) (v : Word) : (s.setReg a v).tot = s.tot := rfl
@[simp] theorem State.setReg_pending (a : Nat) (v : Word) : (s.setReg a v).pending = s.pending := rfl
@[simp] theorem State.setReg_rd8 (a : Nat) (v : Word) (r : Nat) : (s.setReg a v).rd8 r = s.rd8 r := rfl

/-! `State.setFld` -/
@[simp] theorem State.setFld_mem (f : Field) (v : Nat) : (s.setFld f v).mem = s.mem := rfl
@[simp] theorem State.setFld_ecc (f : Field) (v : Nat) : (s.setFld f v).ecc = s.ecc := rfl
@[simp] theorem State.setFld_flash (f : Field) (v : Nat) : (s.setFld f v).flash = s.flash := rfl
@[simp] theorem State.setFld_readback (f : Field) (v : Nat) : (s.setFld f v).readback = s.readback := rfl
@[simp] theorem State.setFld_free (f : Field) (v : Nat) : (s.setFld f v).free = s.free := rfl
@[simp] theorem State.setFld_rst (f : Field) (v : Nat) : (s.setFld f v).rst = s.rst := rfl
@[simp] theorem State.setFld_boot (f : Field) (v : Nat) : (s.setFld f v).boot = s.boot := rfl
@[simp] theorem State.setFld_live (f : Field) (v : Nat) : (s.setFld f v).live = s.live := rfl
@[simp] theorem State.setFld_pwr (f : Field) (v : Nat) : (s.setFld f v).pwr = s.pwr := rfl
@[simp] theorem State.setFld_prof (f : Field) (v : Nat) : (s.setFld f v).prof = s.prof := rfl
@[simp] theorem State.setFld_pm (f : Field) (v : Nat) : (s.setFld f v).pm = s.pm := rfl
@[simp] theorem State.setFld_le (f : Field) (v : Nat) : (s.setFld f v).le = s.le := rfl
@[simp] theorem State.setFld_tune (f : Field) (v : Nat) : (s.setFld f v).tune = s.tune := rfl
@[simp] theorem State.setFld_sa (f : Field) (v : Nat) : (s.setFld f v).sa = s.sa := rfl
@[simp] theorem State.setFld_pt (f : Field) (v : Nat) : (s.setFld f v).pt = s.pt := rfl
@[simp] theorem State.setFld_cp (f : Field) (v : Nat) : (s.setFld f v).cp = s.cp := rfl
@[simp] theorem State.setFld_time (f : Field) (v : Nat) : (s.setFld f v).time = s.time := rfl
@[simp] theorem State.setFld_aon (f : Field) (v : Nat) : (s.setFld f v).aon = s.aon := rfl
@[simp] theorem State.setFld_net (f : Field) (v : Nat) : (s.setFld f v).net = s.net := rfl
@[simp] theorem State.setFld_rnd (f : Field) (v : Nat) : (s.setFld f v).rnd = s.rnd := rfl
@[simp] theorem State.setFld_wfl (f : Field) (v : Nat) : (s.setFld f v).wfl = s.wfl := rfl
@[simp] theorem State.setFld_se (f : Field) (v : Nat) : (s.setFld f v).se = s.se := rfl
@[simp] theorem State.setFld_way (f : Field) (v : Nat) : (s.setFld f v).way = s.way := rfl
@[simp] theorem State.setFld_vlt (f : Field) (v : Nat) : (s.setFld f v).vlt = s.vlt := rfl
@[simp] theorem State.setFld_lcs (f : Field) (v : Nat) : (s.setFld f v).lcs = s.lcs := rfl
@[simp] theorem State.setFld_ana (f : Field) (v : Nat) : (s.setFld f v).ana = s.ana := rfl
@[simp] theorem State.setFld_mh (f : Field) (v : Nat) : (s.setFld f v).mh = s.mh := rfl
@[simp] theorem State.setFld_me (f : Field) (v : Nat) : (s.setFld f v).me = s.me := rfl
@[simp] theorem State.setFld_tot (f : Field) (v : Nat) : (s.setFld f v).tot = s.tot := rfl
@[simp] theorem State.setFld_pending (f : Field) (v : Nat) : (s.setFld f v).pending = s.pending := rfl
@[simp] theorem State.setFld_rd8 (f : Field) (v : Nat) (r : Nat) : (s.setFld f v).rd8 r = s.rd8 r := rfl

/-! `State.setFlag` -/
@[simp] theorem State.setFlag_mem (f : Field) (b : Bool) : (s.setFlag f b).mem = s.mem := rfl
@[simp] theorem State.setFlag_ecc (f : Field) (b : Bool) : (s.setFlag f b).ecc = s.ecc := rfl
@[simp] theorem State.setFlag_flash (f : Field) (b : Bool) : (s.setFlag f b).flash = s.flash := rfl
@[simp] theorem State.setFlag_readback (f : Field) (b : Bool) : (s.setFlag f b).readback = s.readback := rfl
@[simp] theorem State.setFlag_free (f : Field) (b : Bool) : (s.setFlag f b).free = s.free := rfl
@[simp] theorem State.setFlag_rst (f : Field) (b : Bool) : (s.setFlag f b).rst = s.rst := rfl
@[simp] theorem State.setFlag_boot (f : Field) (b : Bool) : (s.setFlag f b).boot = s.boot := rfl
@[simp] theorem State.setFlag_live (f : Field) (b : Bool) : (s.setFlag f b).live = s.live := rfl
@[simp] theorem State.setFlag_pwr (f : Field) (b : Bool) : (s.setFlag f b).pwr = s.pwr := rfl
@[simp] theorem State.setFlag_prof (f : Field) (b : Bool) : (s.setFlag f b).prof = s.prof := rfl
@[simp] theorem State.setFlag_pm (f : Field) (b : Bool) : (s.setFlag f b).pm = s.pm := rfl
@[simp] theorem State.setFlag_le (f : Field) (b : Bool) : (s.setFlag f b).le = s.le := rfl
@[simp] theorem State.setFlag_tune (f : Field) (b : Bool) : (s.setFlag f b).tune = s.tune := rfl
@[simp] theorem State.setFlag_sa (f : Field) (b : Bool) : (s.setFlag f b).sa = s.sa := rfl
@[simp] theorem State.setFlag_pt (f : Field) (b : Bool) : (s.setFlag f b).pt = s.pt := rfl
@[simp] theorem State.setFlag_cp (f : Field) (b : Bool) : (s.setFlag f b).cp = s.cp := rfl
@[simp] theorem State.setFlag_time (f : Field) (b : Bool) : (s.setFlag f b).time = s.time := rfl
@[simp] theorem State.setFlag_aon (f : Field) (b : Bool) : (s.setFlag f b).aon = s.aon := rfl
@[simp] theorem State.setFlag_net (f : Field) (b : Bool) : (s.setFlag f b).net = s.net := rfl
@[simp] theorem State.setFlag_rnd (f : Field) (b : Bool) : (s.setFlag f b).rnd = s.rnd := rfl
@[simp] theorem State.setFlag_wfl (f : Field) (b : Bool) : (s.setFlag f b).wfl = s.wfl := rfl
@[simp] theorem State.setFlag_se (f : Field) (b : Bool) : (s.setFlag f b).se = s.se := rfl
@[simp] theorem State.setFlag_way (f : Field) (b : Bool) : (s.setFlag f b).way = s.way := rfl
@[simp] theorem State.setFlag_vlt (f : Field) (b : Bool) : (s.setFlag f b).vlt = s.vlt := rfl
@[simp] theorem State.setFlag_lcs (f : Field) (b : Bool) : (s.setFlag f b).lcs = s.lcs := rfl
@[simp] theorem State.setFlag_ana (f : Field) (b : Bool) : (s.setFlag f b).ana = s.ana := rfl
@[simp] theorem State.setFlag_mh (f : Field) (b : Bool) : (s.setFlag f b).mh = s.mh := rfl
@[simp] theorem State.setFlag_me (f : Field) (b : Bool) : (s.setFlag f b).me = s.me := rfl
@[simp] theorem State.setFlag_tot (f : Field) (b : Bool) : (s.setFlag f b).tot = s.tot := rfl
@[simp] theorem State.setFlag_pending (f : Field) (b : Bool) : (s.setFlag f b).pending = s.pending := rfl
@[simp] theorem State.setFlag_rd8 (f : Field) (b : Bool) (r : Nat) : (s.setFlag f b).rd8 r = s.rd8 r := rfl

/-! `State.setBit` -/
@[simp] theorem State.setBit_mem (f : Field) (i : Nat) (b : Bool) : (s.setBit f i b).mem = s.mem := rfl
@[simp] theorem State.setBit_ecc (f : Field) (i : Nat) (b : Bool) : (s.setBit f i b).ecc = s.ecc := rfl
@[simp] theorem State.setBit_flash (f : Field) (i : Nat) (b : Bool) : (s.setBit f i b).flash = s.flash := rfl
@[simp] theorem State.setBit_readback (f : Field) (i : Nat) (b : Bool) : (s.setBit f i b).readback = s.readback := rfl
@[simp] theorem State.setBit_free (f : Field) (i : Nat) (b : Bool) : (s.setBit f i b).free = s.free := rfl
@[simp] theorem State.setBit_rst (f : Field) (i : Nat) (b : Bool) : (s.setBit f i b).rst = s.rst := rfl
@[simp] theorem State.setBit_boot (f : Field) (i : Nat) (b : Bool) : (s.setBit f i b).boot = s.boot := rfl
@[simp] theorem State.setBit_live (f : Field) (i : Nat) (b : Bool) : (s.setBit f i b).live = s.live := rfl
@[simp] theorem State.setBit_pwr (f : Field) (i : Nat) (b : Bool) : (s.setBit f i b).pwr = s.pwr := rfl
@[simp] theorem State.setBit_prof (f : Field) (i : Nat) (b : Bool) : (s.setBit f i b).prof = s.prof := rfl
@[simp] theorem State.setBit_pm (f : Field) (i : Nat) (b : Bool) : (s.setBit f i b).pm = s.pm := rfl
@[simp] theorem State.setBit_le (f : Field) (i : Nat) (b : Bool) : (s.setBit f i b).le = s.le := rfl
@[simp] theorem State.setBit_tune (f : Field) (i : Nat) (b : Bool) : (s.setBit f i b).tune = s.tune := rfl
@[simp] theorem State.setBit_sa (f : Field) (i : Nat) (b : Bool) : (s.setBit f i b).sa = s.sa := rfl
@[simp] theorem State.setBit_pt (f : Field) (i : Nat) (b : Bool) : (s.setBit f i b).pt = s.pt := rfl
@[simp] theorem State.setBit_cp (f : Field) (i : Nat) (b : Bool) : (s.setBit f i b).cp = s.cp := rfl
@[simp] theorem State.setBit_time (f : Field) (i : Nat) (b : Bool) : (s.setBit f i b).time = s.time := rfl
@[simp] theorem State.setBit_aon (f : Field) (i : Nat) (b : Bool) : (s.setBit f i b).aon = s.aon := rfl
@[simp] theorem State.setBit_net (f : Field) (i : Nat) (b : Bool) : (s.setBit f i b).net = s.net := rfl
@[simp] theorem State.setBit_rnd (f : Field) (i : Nat) (b : Bool) : (s.setBit f i b).rnd = s.rnd := rfl
@[simp] theorem State.setBit_wfl (f : Field) (i : Nat) (b : Bool) : (s.setBit f i b).wfl = s.wfl := rfl
@[simp] theorem State.setBit_se (f : Field) (i : Nat) (b : Bool) : (s.setBit f i b).se = s.se := rfl
@[simp] theorem State.setBit_way (f : Field) (i : Nat) (b : Bool) : (s.setBit f i b).way = s.way := rfl
@[simp] theorem State.setBit_vlt (f : Field) (i : Nat) (b : Bool) : (s.setBit f i b).vlt = s.vlt := rfl
@[simp] theorem State.setBit_lcs (f : Field) (i : Nat) (b : Bool) : (s.setBit f i b).lcs = s.lcs := rfl
@[simp] theorem State.setBit_ana (f : Field) (i : Nat) (b : Bool) : (s.setBit f i b).ana = s.ana := rfl
@[simp] theorem State.setBit_mh (f : Field) (i : Nat) (b : Bool) : (s.setBit f i b).mh = s.mh := rfl
@[simp] theorem State.setBit_me (f : Field) (i : Nat) (b : Bool) : (s.setBit f i b).me = s.me := rfl
@[simp] theorem State.setBit_tot (f : Field) (i : Nat) (b : Bool) : (s.setBit f i b).tot = s.tot := rfl
@[simp] theorem State.setBit_pending (f : Field) (i : Nat) (b : Bool) : (s.setBit f i b).pending = s.pending := rfl
@[simp] theorem State.setBit_rd8 (f : Field) (i : Nat) (b : Bool) (r : Nat) : (s.setBit f i b).rd8 r = s.rd8 r := rfl

/-! `State.orFld` -/
@[simp] theorem State.orFld_mem (f : Field) (v : Nat) : (s.orFld f v).mem = s.mem := rfl
@[simp] theorem State.orFld_ecc (f : Field) (v : Nat) : (s.orFld f v).ecc = s.ecc := rfl
@[simp] theorem State.orFld_flash (f : Field) (v : Nat) : (s.orFld f v).flash = s.flash := rfl
@[simp] theorem State.orFld_readback (f : Field) (v : Nat) : (s.orFld f v).readback = s.readback := rfl
@[simp] theorem State.orFld_free (f : Field) (v : Nat) : (s.orFld f v).free = s.free := rfl
@[simp] theorem State.orFld_rst (f : Field) (v : Nat) : (s.orFld f v).rst = s.rst := rfl
@[simp] theorem State.orFld_boot (f : Field) (v : Nat) : (s.orFld f v).boot = s.boot := rfl
@[simp] theorem State.orFld_live (f : Field) (v : Nat) : (s.orFld f v).live = s.live := rfl
@[simp] theorem State.orFld_pwr (f : Field) (v : Nat) : (s.orFld f v).pwr = s.pwr := rfl
@[simp] theorem State.orFld_prof (f : Field) (v : Nat) : (s.orFld f v).prof = s.prof := rfl
@[simp] theorem State.orFld_pm (f : Field) (v : Nat) : (s.orFld f v).pm = s.pm := rfl
@[simp] theorem State.orFld_le (f : Field) (v : Nat) : (s.orFld f v).le = s.le := rfl
@[simp] theorem State.orFld_tune (f : Field) (v : Nat) : (s.orFld f v).tune = s.tune := rfl
@[simp] theorem State.orFld_sa (f : Field) (v : Nat) : (s.orFld f v).sa = s.sa := rfl
@[simp] theorem State.orFld_pt (f : Field) (v : Nat) : (s.orFld f v).pt = s.pt := rfl
@[simp] theorem State.orFld_cp (f : Field) (v : Nat) : (s.orFld f v).cp = s.cp := rfl
@[simp] theorem State.orFld_time (f : Field) (v : Nat) : (s.orFld f v).time = s.time := rfl
@[simp] theorem State.orFld_aon (f : Field) (v : Nat) : (s.orFld f v).aon = s.aon := rfl
@[simp] theorem State.orFld_net (f : Field) (v : Nat) : (s.orFld f v).net = s.net := rfl
@[simp] theorem State.orFld_rnd (f : Field) (v : Nat) : (s.orFld f v).rnd = s.rnd := rfl
@[simp] theorem State.orFld_wfl (f : Field) (v : Nat) : (s.orFld f v).wfl = s.wfl := rfl
@[simp] theorem State.orFld_se (f : Field) (v : Nat) : (s.orFld f v).se = s.se := rfl
@[simp] theorem State.orFld_way (f : Field) (v : Nat) : (s.orFld f v).way = s.way := rfl
@[simp] theorem State.orFld_vlt (f : Field) (v : Nat) : (s.orFld f v).vlt = s.vlt := rfl
@[simp] theorem State.orFld_lcs (f : Field) (v : Nat) : (s.orFld f v).lcs = s.lcs := rfl
@[simp] theorem State.orFld_ana (f : Field) (v : Nat) : (s.orFld f v).ana = s.ana := rfl
@[simp] theorem State.orFld_mh (f : Field) (v : Nat) : (s.orFld f v).mh = s.mh := rfl
@[simp] theorem State.orFld_me (f : Field) (v : Nat) : (s.orFld f v).me = s.me := rfl
@[simp] theorem State.orFld_tot (f : Field) (v : Nat) : (s.orFld f v).tot = s.tot := rfl
@[simp] theorem State.orFld_pending (f : Field) (v : Nat) : (s.orFld f v).pending = s.pending := rfl
@[simp] theorem State.orFld_rd8 (f : Field) (v : Nat) (r : Nat) : (s.orFld f v).rd8 r = s.rd8 r := rfl

/-! `State.countUp` -/
@[simp] theorem State.countUp_mem (f : Field) : (s.countUp f).mem = s.mem := rfl
@[simp] theorem State.countUp_ecc (f : Field) : (s.countUp f).ecc = s.ecc := rfl
@[simp] theorem State.countUp_flash (f : Field) : (s.countUp f).flash = s.flash := rfl
@[simp] theorem State.countUp_readback (f : Field) : (s.countUp f).readback = s.readback := rfl
@[simp] theorem State.countUp_free (f : Field) : (s.countUp f).free = s.free := rfl
@[simp] theorem State.countUp_rst (f : Field) : (s.countUp f).rst = s.rst := rfl
@[simp] theorem State.countUp_boot (f : Field) : (s.countUp f).boot = s.boot := rfl
@[simp] theorem State.countUp_live (f : Field) : (s.countUp f).live = s.live := rfl
@[simp] theorem State.countUp_pwr (f : Field) : (s.countUp f).pwr = s.pwr := rfl
@[simp] theorem State.countUp_prof (f : Field) : (s.countUp f).prof = s.prof := rfl
@[simp] theorem State.countUp_pm (f : Field) : (s.countUp f).pm = s.pm := rfl
@[simp] theorem State.countUp_le (f : Field) : (s.countUp f).le = s.le := rfl
@[simp] theorem State.countUp_tune (f : Field) : (s.countUp f).tune = s.tune := rfl
@[simp] theorem State.countUp_sa (f : Field) : (s.countUp f).sa = s.sa := rfl
@[simp] theorem State.countUp_pt (f : Field) : (s.countUp f).pt = s.pt := rfl
@[simp] theorem State.countUp_cp (f : Field) : (s.countUp f).cp = s.cp := rfl
@[simp] theorem State.countUp_time (f : Field) : (s.countUp f).time = s.time := rfl
@[simp] theorem State.countUp_aon (f : Field) : (s.countUp f).aon = s.aon := rfl
@[simp] theorem State.countUp_net (f : Field) : (s.countUp f).net = s.net := rfl
@[simp] theorem State.countUp_rnd (f : Field) : (s.countUp f).rnd = s.rnd := rfl
@[simp] theorem State.countUp_wfl (f : Field) : (s.countUp f).wfl = s.wfl := rfl
@[simp] theorem State.countUp_se (f : Field) : (s.countUp f).se = s.se := rfl
@[simp] theorem State.countUp_way (f : Field) : (s.countUp f).way = s.way := rfl
@[simp] theorem State.countUp_vlt (f : Field) : (s.countUp f).vlt = s.vlt := rfl
@[simp] theorem State.countUp_lcs (f : Field) : (s.countUp f).lcs = s.lcs := rfl
@[simp] theorem State.countUp_ana (f : Field) : (s.countUp f).ana = s.ana := rfl
@[simp] theorem State.countUp_mh (f : Field) : (s.countUp f).mh = s.mh := rfl
@[simp] theorem State.countUp_me (f : Field) : (s.countUp f).me = s.me := rfl
@[simp] theorem State.countUp_tot (f : Field) : (s.countUp f).tot = s.tot := rfl
@[simp] theorem State.countUp_pending (f : Field) : (s.countUp f).pending = s.pending := rfl
@[simp] theorem State.countUp_rd8 (f : Field) (r : Nat) : (s.countUp f).rd8 r = s.rd8 r := rfl

/-! `State.countWrap` -/
@[simp] theorem State.countWrap_mem (f : Field) : (s.countWrap f).mem = s.mem := rfl
@[simp] theorem State.countWrap_ecc (f : Field) : (s.countWrap f).ecc = s.ecc := rfl
@[simp] theorem State.countWrap_flash (f : Field) : (s.countWrap f).flash = s.flash := rfl
@[simp] theorem State.countWrap_readback (f : Field) : (s.countWrap f).readback = s.readback := rfl
@[simp] theorem State.countWrap_free (f : Field) : (s.countWrap f).free = s.free := rfl
@[simp] theorem State.countWrap_rst (f : Field) : (s.countWrap f).rst = s.rst := rfl
@[simp] theorem State.countWrap_boot (f : Field) : (s.countWrap f).boot = s.boot := rfl
@[simp] theorem State.countWrap_live (f : Field) : (s.countWrap f).live = s.live := rfl
@[simp] theorem State.countWrap_pwr (f : Field) : (s.countWrap f).pwr = s.pwr := rfl
@[simp] theorem State.countWrap_prof (f : Field) : (s.countWrap f).prof = s.prof := rfl
@[simp] theorem State.countWrap_pm (f : Field) : (s.countWrap f).pm = s.pm := rfl
@[simp] theorem State.countWrap_le (f : Field) : (s.countWrap f).le = s.le := rfl
@[simp] theorem State.countWrap_tune (f : Field) : (s.countWrap f).tune = s.tune := rfl
@[simp] theorem State.countWrap_sa (f : Field) : (s.countWrap f).sa = s.sa := rfl
@[simp] theorem State.countWrap_pt (f : Field) : (s.countWrap f).pt = s.pt := rfl
@[simp] theorem State.countWrap_cp (f : Field) : (s.countWrap f).cp = s.cp := rfl
@[simp] theorem State.countWrap_time (f : Field) : (s.countWrap f).time = s.time := rfl
@[simp] theorem State.countWrap_aon (f : Field) : (s.countWrap f).aon = s.aon := rfl
@[simp] theorem State.countWrap_net (f : Field) : (s.countWrap f).net = s.net := rfl
@[simp] theorem State.countWrap_rnd (f : Field) : (s.countWrap f).rnd = s.rnd := rfl
@[simp] theorem State.countWrap_wfl (f : Field) : (s.countWrap f).wfl = s.wfl := rfl
@[simp] theorem State.countWrap_se (f : Field) : (s.countWrap f).se = s.se := rfl
@[simp] theorem State.countWrap_way (f : Field) : (s.countWrap f).way = s.way := rfl
@[simp] theorem State.countWrap_vlt (f : Field) : (s.countWrap f).vlt = s.vlt := rfl
@[simp] theorem State.countWrap_lcs (f : Field) : (s.countWrap f).lcs = s.lcs := rfl
@[simp] theorem State.countWrap_ana (f : Field) : (s.countWrap f).ana = s.ana := rfl
@[simp] theorem State.countWrap_mh (f : Field) : (s.countWrap f).mh = s.mh := rfl
@[simp] theorem State.countWrap_me (f : Field) : (s.countWrap f).me = s.me := rfl
@[simp] theorem State.countWrap_tot (f : Field) : (s.countWrap f).tot = s.tot := rfl
@[simp] theorem State.countWrap_pending (f : Field) : (s.countWrap f).pending = s.pending := rfl
@[simp] theorem State.countWrap_rd8 (f : Field) (r : Nat) : (s.countWrap f).rd8 r = s.rd8 r := rfl

/-! `State.setReg64` -/
@[simp] theorem State.setReg64_mem (lo hi v : Nat) : (s.setReg64 lo hi v).mem = s.mem := rfl
@[simp] theorem State.setReg64_ecc (lo hi v : Nat) : (s.setReg64 lo hi v).ecc = s.ecc := rfl
@[simp] theorem State.setReg64_flash (lo hi v : Nat) : (s.setReg64 lo hi v).flash = s.flash := rfl
@[simp] theorem State.setReg64_readback (lo hi v : Nat) : (s.setReg64 lo hi v).readback = s.readback := rfl
@[simp] theorem State.setReg64_free (lo hi v : Nat) : (s.setReg64 lo hi v).free = s.free := rfl
@[simp] theorem State.setReg64_rst (lo hi v : Nat) : (s.setReg64 lo hi v).rst = s.rst := rfl
@[simp] theorem State.setReg64_boot (lo hi v : Nat) : (s.setReg64 lo hi v).boot = s.boot := rfl
@[simp] theorem State.setReg64_live (lo hi v : Nat) : (s.setReg64 lo hi v).live = s.live := rfl
@[simp] theorem State.setReg64_pwr (lo hi v : Nat) : (s.setReg64 lo hi v).pwr = s.pwr := rfl
@[simp] theorem State.setReg64_prof (lo hi v : Nat) : (s.setReg64 lo hi v).prof = s.prof := rfl
@[simp] theorem State.setReg64_pm (lo hi v : Nat) : (s.setReg64 lo hi v).pm = s.pm := rfl
@[simp] theorem State.setReg64_le (lo hi v : Nat) : (s.setReg64 lo hi v).le = s.le := rfl
@[simp] theorem State.setReg64_tune (lo hi v : Nat) : (s.setReg64 lo hi v).tune = s.tune := rfl
@[simp] theorem State.setReg64_sa (lo hi v : Nat) : (s.setReg64 lo hi v).sa = s.sa := rfl
@[simp] theorem State.setReg64_pt (lo hi v : Nat) : (s.setReg64 lo hi v).pt = s.pt := rfl
@[simp] theorem State.setReg64_cp (lo hi v : Nat) : (s.setReg64 lo hi v).cp = s.cp := rfl
@[simp] theorem State.setReg64_time (lo hi v : Nat) : (s.setReg64 lo hi v).time = s.time := rfl
@[simp] theorem State.setReg64_aon (lo hi v : Nat) : (s.setReg64 lo hi v).aon = s.aon := rfl
@[simp] theorem State.setReg64_net (lo hi v : Nat) : (s.setReg64 lo hi v).net = s.net := rfl
@[simp] theorem State.setReg64_rnd (lo hi v : Nat) : (s.setReg64 lo hi v).rnd = s.rnd := rfl
@[simp] theorem State.setReg64_wfl (lo hi v : Nat) : (s.setReg64 lo hi v).wfl = s.wfl := rfl
@[simp] theorem State.setReg64_se (lo hi v : Nat) : (s.setReg64 lo hi v).se = s.se := rfl
@[simp] theorem State.setReg64_way (lo hi v : Nat) : (s.setReg64 lo hi v).way = s.way := rfl
@[simp] theorem State.setReg64_vlt (lo hi v : Nat) : (s.setReg64 lo hi v).vlt = s.vlt := rfl
@[simp] theorem State.setReg64_lcs (lo hi v : Nat) : (s.setReg64 lo hi v).lcs = s.lcs := rfl
@[simp] theorem State.setReg64_ana (lo hi v : Nat) : (s.setReg64 lo hi v).ana = s.ana := rfl
@[simp] theorem State.setReg64_mh (lo hi v : Nat) : (s.setReg64 lo hi v).mh = s.mh := rfl
@[simp] theorem State.setReg64_me (lo hi v : Nat) : (s.setReg64 lo hi v).me = s.me := rfl
@[simp] theorem State.setReg64_tot (lo hi v : Nat) : (s.setReg64 lo hi v).tot = s.tot := rfl
@[simp] theorem State.setReg64_pending (lo hi v : Nat) : (s.setReg64 lo hi v).pending = s.pending := rfl
@[simp] theorem State.setReg64_rd8 (lo hi v : Nat) (r : Nat) : (s.setReg64 lo hi v).rd8 r = s.rd8 r := rfl

/-! `State.resetRegs` -/
@[simp] theorem State.resetRegs_mem (p : Nat → Bool) : (s.resetRegs p).mem = s.mem := rfl
@[simp] theorem State.resetRegs_ecc (p : Nat → Bool) : (s.resetRegs p).ecc = s.ecc := rfl
@[simp] theorem State.resetRegs_flash (p : Nat → Bool) : (s.resetRegs p).flash = s.flash := rfl
@[simp] theorem State.resetRegs_readback (p : Nat → Bool) : (s.resetRegs p).readback = s.readback := rfl
@[simp] theorem State.resetRegs_free (p : Nat → Bool) : (s.resetRegs p).free = s.free := rfl
@[simp] theorem State.resetRegs_rst (p : Nat → Bool) : (s.resetRegs p).rst = s.rst := rfl
@[simp] theorem State.resetRegs_boot (p : Nat → Bool) : (s.resetRegs p).boot = s.boot := rfl
@[simp] theorem State.resetRegs_live (p : Nat → Bool) : (s.resetRegs p).live = s.live := rfl
@[simp] theorem State.resetRegs_pwr (p : Nat → Bool) : (s.resetRegs p).pwr = s.pwr := rfl
@[simp] theorem State.resetRegs_prof (p : Nat → Bool) : (s.resetRegs p).prof = s.prof := rfl
@[simp] theorem State.resetRegs_pm (p : Nat → Bool) : (s.resetRegs p).pm = s.pm := rfl
@[simp] theorem State.resetRegs_le (p : Nat → Bool) : (s.resetRegs p).le = s.le := rfl
@[simp] theorem State.resetRegs_tune (p : Nat → Bool) : (s.resetRegs p).tune = s.tune := rfl
@[simp] theorem State.resetRegs_sa (p : Nat → Bool) : (s.resetRegs p).sa = s.sa := rfl
@[simp] theorem State.resetRegs_pt (p : Nat → Bool) : (s.resetRegs p).pt = s.pt := rfl
@[simp] theorem State.resetRegs_cp (p : Nat → Bool) : (s.resetRegs p).cp = s.cp := rfl
@[simp] theorem State.resetRegs_time (p : Nat → Bool) : (s.resetRegs p).time = s.time := rfl
@[simp] theorem State.resetRegs_aon (p : Nat → Bool) : (s.resetRegs p).aon = s.aon := rfl
@[simp] theorem State.resetRegs_net (p : Nat → Bool) : (s.resetRegs p).net = s.net := rfl
@[simp] theorem State.resetRegs_rnd (p : Nat → Bool) : (s.resetRegs p).rnd = s.rnd := rfl
@[simp] theorem State.resetRegs_wfl (p : Nat → Bool) : (s.resetRegs p).wfl = s.wfl := rfl
@[simp] theorem State.resetRegs_se (p : Nat → Bool) : (s.resetRegs p).se = s.se := rfl
@[simp] theorem State.resetRegs_way (p : Nat → Bool) : (s.resetRegs p).way = s.way := rfl
@[simp] theorem State.resetRegs_vlt (p : Nat → Bool) : (s.resetRegs p).vlt = s.vlt := rfl
@[simp] theorem State.resetRegs_lcs (p : Nat → Bool) : (s.resetRegs p).lcs = s.lcs := rfl
@[simp] theorem State.resetRegs_ana (p : Nat → Bool) : (s.resetRegs p).ana = s.ana := rfl
@[simp] theorem State.resetRegs_mh (p : Nat → Bool) : (s.resetRegs p).mh = s.mh := rfl
@[simp] theorem State.resetRegs_me (p : Nat → Bool) : (s.resetRegs p).me = s.me := rfl
@[simp] theorem State.resetRegs_tot (p : Nat → Bool) : (s.resetRegs p).tot = s.tot := rfl
@[simp] theorem State.resetRegs_pending (p : Nat → Bool) : (s.resetRegs p).pending = s.pending := rfl
@[simp] theorem State.resetRegs_rd8 (p : Nat → Bool) (r : Nat) : (s.resetRegs p).rd8 r = s.rd8 r := rfl

/-! `State.wr8` -/
@[simp] theorem State.wr8_regs (a : Nat) (v : Byte) : (s.wr8 a v).regs = s.regs := rfl
@[simp] theorem State.wr8_ecc (a : Nat) (v : Byte) : (s.wr8 a v).ecc = s.ecc := rfl
@[simp] theorem State.wr8_flash (a : Nat) (v : Byte) : (s.wr8 a v).flash = s.flash := rfl
@[simp] theorem State.wr8_readback (a : Nat) (v : Byte) : (s.wr8 a v).readback = s.readback := rfl
@[simp] theorem State.wr8_free (a : Nat) (v : Byte) : (s.wr8 a v).free = s.free := rfl
@[simp] theorem State.wr8_rst (a : Nat) (v : Byte) : (s.wr8 a v).rst = s.rst := rfl
@[simp] theorem State.wr8_boot (a : Nat) (v : Byte) : (s.wr8 a v).boot = s.boot := rfl
@[simp] theorem State.wr8_live (a : Nat) (v : Byte) : (s.wr8 a v).live = s.live := rfl
@[simp] theorem State.wr8_pwr (a : Nat) (v : Byte) : (s.wr8 a v).pwr = s.pwr := rfl
@[simp] theorem State.wr8_prof (a : Nat) (v : Byte) : (s.wr8 a v).prof = s.prof := rfl
@[simp] theorem State.wr8_pm (a : Nat) (v : Byte) : (s.wr8 a v).pm = s.pm := rfl
@[simp] theorem State.wr8_le (a : Nat) (v : Byte) : (s.wr8 a v).le = s.le := rfl
@[simp] theorem State.wr8_tune (a : Nat) (v : Byte) : (s.wr8 a v).tune = s.tune := rfl
@[simp] theorem State.wr8_sa (a : Nat) (v : Byte) : (s.wr8 a v).sa = s.sa := rfl
@[simp] theorem State.wr8_pt (a : Nat) (v : Byte) : (s.wr8 a v).pt = s.pt := rfl
@[simp] theorem State.wr8_cp (a : Nat) (v : Byte) : (s.wr8 a v).cp = s.cp := rfl
@[simp] theorem State.wr8_time (a : Nat) (v : Byte) : (s.wr8 a v).time = s.time := rfl
@[simp] theorem State.wr8_aon (a : Nat) (v : Byte) : (s.wr8 a v).aon = s.aon := rfl
@[simp] theorem State.wr8_net (a : Nat) (v : Byte) : (s.wr8 a v).net = s.net := rfl
@[simp] theorem State.wr8_rnd (a : Nat) (v : Byte) : (s.wr8 a v).rnd = s.rnd := rfl
@[simp] theorem State.wr8_wfl (a : Nat) (v : Byte) : (s.wr8 a v).wfl = s.wfl := rfl
@[simp] theorem State.wr8_se (a : Nat) (v : Byte) : (s.wr8 a v).se = s.se := rfl
@[simp] theorem State.wr8_way (a : Nat) (v : Byte) : (s.wr8 a v).way = s.way := rfl
@[simp] theorem State.wr8_vlt (a : Nat) (v : Byte) : (s.wr8 a v).vlt = s.vlt := rfl
@[simp] theorem State.wr8_lcs (a : Nat) (v : Byte) : (s.wr8 a v).lcs = s.lcs := rfl
@[simp] theorem State.wr8_ana (a : Nat) (v : Byte) : (s.wr8 a v).ana = s.ana := rfl
@[simp] theorem State.wr8_mh (a : Nat) (v : Byte) : (s.wr8 a v).mh = s.mh := rfl
@[simp] theorem State.wr8_me (a : Nat) (v : Byte) : (s.wr8 a v).me = s.me := rfl
@[simp] theorem State.wr8_tot (a : Nat) (v : Byte) : (s.wr8 a v).tot = s.tot := rfl
@[simp] theorem State.wr8_pending (a : Nat) (v : Byte) : (s.wr8 a v).pending = s.pending := rfl
@[simp] theorem State.wr8_reg (a : Nat) (v : Byte) (r : Nat) : (s.wr8 a v).reg r = s.reg r := rfl
@[simp] theorem State.wr8_fld (a : Nat) (v : Byte) (g : Field) : (s.wr8 a v).fld g = s.fld g := rfl
@[simp] theorem State.wr8_flag (a : Nat) (v : Byte) (g : Field) : (s.wr8 a v).flag g = s.flag g := rfl

/-! `State.clearMem` -/
@[simp] theorem State.clearMem_regs (p : Nat → Bool) : (s.clearMem p).regs = s.regs := rfl
@[simp] theorem State.clearMem_ecc (p : Nat → Bool) : (s.clearMem p).ecc = s.ecc := rfl
@[simp] theorem State.clearMem_flash (p : Nat → Bool) : (s.clearMem p).flash = s.flash := rfl
@[simp] theorem State.clearMem_readback (p : Nat → Bool) : (s.clearMem p).readback = s.readback := rfl
@[simp] theorem State.clearMem_free (p : Nat → Bool) : (s.clearMem p).free = s.free := rfl
@[simp] theorem State.clearMem_rst (p : Nat → Bool) : (s.clearMem p).rst = s.rst := rfl
@[simp] theorem State.clearMem_boot (p : Nat → Bool) : (s.clearMem p).boot = s.boot := rfl
@[simp] theorem State.clearMem_live (p : Nat → Bool) : (s.clearMem p).live = s.live := rfl
@[simp] theorem State.clearMem_pwr (p : Nat → Bool) : (s.clearMem p).pwr = s.pwr := rfl
@[simp] theorem State.clearMem_prof (p : Nat → Bool) : (s.clearMem p).prof = s.prof := rfl
@[simp] theorem State.clearMem_pm (p : Nat → Bool) : (s.clearMem p).pm = s.pm := rfl
@[simp] theorem State.clearMem_le (p : Nat → Bool) : (s.clearMem p).le = s.le := rfl
@[simp] theorem State.clearMem_tune (p : Nat → Bool) : (s.clearMem p).tune = s.tune := rfl
@[simp] theorem State.clearMem_sa (p : Nat → Bool) : (s.clearMem p).sa = s.sa := rfl
@[simp] theorem State.clearMem_pt (p : Nat → Bool) : (s.clearMem p).pt = s.pt := rfl
@[simp] theorem State.clearMem_cp (p : Nat → Bool) : (s.clearMem p).cp = s.cp := rfl
@[simp] theorem State.clearMem_time (p : Nat → Bool) : (s.clearMem p).time = s.time := rfl
@[simp] theorem State.clearMem_aon (p : Nat → Bool) : (s.clearMem p).aon = s.aon := rfl
@[simp] theorem State.clearMem_net (p : Nat → Bool) : (s.clearMem p).net = s.net := rfl
@[simp] theorem State.clearMem_rnd (p : Nat → Bool) : (s.clearMem p).rnd = s.rnd := rfl
@[simp] theorem State.clearMem_wfl (p : Nat → Bool) : (s.clearMem p).wfl = s.wfl := rfl
@[simp] theorem State.clearMem_se (p : Nat → Bool) : (s.clearMem p).se = s.se := rfl
@[simp] theorem State.clearMem_way (p : Nat → Bool) : (s.clearMem p).way = s.way := rfl
@[simp] theorem State.clearMem_vlt (p : Nat → Bool) : (s.clearMem p).vlt = s.vlt := rfl
@[simp] theorem State.clearMem_lcs (p : Nat → Bool) : (s.clearMem p).lcs = s.lcs := rfl
@[simp] theorem State.clearMem_ana (p : Nat → Bool) : (s.clearMem p).ana = s.ana := rfl
@[simp] theorem State.clearMem_mh (p : Nat → Bool) : (s.clearMem p).mh = s.mh := rfl
@[simp] theorem State.clearMem_me (p : Nat → Bool) : (s.clearMem p).me = s.me := rfl
@[simp] theorem State.clearMem_tot (p : Nat → Bool) : (s.clearMem p).tot = s.tot := rfl
@[simp] theorem State.clearMem_pending (p : Nat → Bool) : (s.clearMem p).pending = s.pending := rfl
@[simp] theorem State.clearMem_reg (p : Nat → Bool) (r : Nat) : (s.clearMem p).reg r = s.reg r := rfl
@[simp] theorem State.clearMem_fld (p : Nat → Bool) (g : Field) : (s.clearMem p).fld g = s.fld g := rfl
@[simp] theorem State.clearMem_flag (p : Nat → Bool) (g : Field) : (s.clearMem p).flag g = s.flag g := rfl

/-! `State.takeFree` -/
@[simp] theorem State.takeFree_regs : (s.takeFree).regs = s.regs := rfl
@[simp] theorem State.takeFree_mem : (s.takeFree).mem = s.mem := rfl
@[simp] theorem State.takeFree_ecc : (s.takeFree).ecc = s.ecc := rfl
@[simp] theorem State.takeFree_flash : (s.takeFree).flash = s.flash := rfl
@[simp] theorem State.takeFree_readback : (s.takeFree).readback = s.readback := rfl
@[simp] theorem State.takeFree_rst : (s.takeFree).rst = s.rst := rfl
@[simp] theorem State.takeFree_boot : (s.takeFree).boot = s.boot := rfl
@[simp] theorem State.takeFree_live : (s.takeFree).live = s.live := rfl
@[simp] theorem State.takeFree_pwr : (s.takeFree).pwr = s.pwr := rfl
@[simp] theorem State.takeFree_prof : (s.takeFree).prof = s.prof := rfl
@[simp] theorem State.takeFree_pm : (s.takeFree).pm = s.pm := rfl
@[simp] theorem State.takeFree_le : (s.takeFree).le = s.le := rfl
@[simp] theorem State.takeFree_tune : (s.takeFree).tune = s.tune := rfl
@[simp] theorem State.takeFree_sa : (s.takeFree).sa = s.sa := rfl
@[simp] theorem State.takeFree_pt : (s.takeFree).pt = s.pt := rfl
@[simp] theorem State.takeFree_cp : (s.takeFree).cp = s.cp := rfl
@[simp] theorem State.takeFree_time : (s.takeFree).time = s.time := rfl
@[simp] theorem State.takeFree_aon : (s.takeFree).aon = s.aon := rfl
@[simp] theorem State.takeFree_net : (s.takeFree).net = s.net := rfl
@[simp] theorem State.takeFree_rnd : (s.takeFree).rnd = s.rnd := rfl
@[simp] theorem State.takeFree_wfl : (s.takeFree).wfl = s.wfl := rfl
@[simp] theorem State.takeFree_se : (s.takeFree).se = s.se := rfl
@[simp] theorem State.takeFree_way : (s.takeFree).way = s.way := rfl
@[simp] theorem State.takeFree_vlt : (s.takeFree).vlt = s.vlt := rfl
@[simp] theorem State.takeFree_lcs : (s.takeFree).lcs = s.lcs := rfl
@[simp] theorem State.takeFree_ana : (s.takeFree).ana = s.ana := rfl
@[simp] theorem State.takeFree_mh : (s.takeFree).mh = s.mh := rfl
@[simp] theorem State.takeFree_me : (s.takeFree).me = s.me := rfl
@[simp] theorem State.takeFree_tot : (s.takeFree).tot = s.tot := rfl
@[simp] theorem State.takeFree_pending : (s.takeFree).pending = s.pending := rfl
@[simp] theorem State.takeFree_reg (r : Nat) : (s.takeFree).reg r = s.reg r := rfl
@[simp] theorem State.takeFree_fld (g : Field) : (s.takeFree).fld g = s.fld g := rfl
@[simp] theorem State.takeFree_flag (g : Field) : (s.takeFree).flag g = s.flag g := rfl
@[simp] theorem State.takeFree_rd8 (r : Nat) : (s.takeFree).rd8 r = s.rd8 r := rfl

/-! `State.setCp` -/
@[simp] theorem State.setCp_regs (x : CpSt) : (s.setCp x).regs = s.regs := rfl
@[simp] theorem State.setCp_mem (x : CpSt) : (s.setCp x).mem = s.mem := rfl
@[simp] theorem State.setCp_ecc (x : CpSt) : (s.setCp x).ecc = s.ecc := rfl
@[simp] theorem State.setCp_flash (x : CpSt) : (s.setCp x).flash = s.flash := rfl
@[simp] theorem State.setCp_readback (x : CpSt) : (s.setCp x).readback = s.readback := rfl
@[simp] theorem State.setCp_free (x : CpSt) : (s.setCp x).free = s.free := rfl
@[simp] theorem State.setCp_rst (x : CpSt) : (s.setCp x).rst = s.rst := rfl
@[simp] theorem State.setCp_boot (x : CpSt) : (s.setCp x).boot = s.boot := rfl
@[simp] theorem State.setCp_live (x : CpSt) : (s.setCp x).live = s.live := rfl
@[simp] theorem State.setCp_pwr (x : CpSt) : (s.setCp x).pwr = s.pwr := rfl
@[simp] theorem State.setCp_prof (x : CpSt) : (s.setCp x).prof = s.prof := rfl
@[simp] theorem State.setCp_pm (x : CpSt) : (s.setCp x).pm = s.pm := rfl
@[simp] theorem State.setCp_le (x : CpSt) : (s.setCp x).le = s.le := rfl
@[simp] theorem State.setCp_tune (x : CpSt) : (s.setCp x).tune = s.tune := rfl
@[simp] theorem State.setCp_sa (x : CpSt) : (s.setCp x).sa = s.sa := rfl
@[simp] theorem State.setCp_pt (x : CpSt) : (s.setCp x).pt = s.pt := rfl
@[simp] theorem State.setCp_time (x : CpSt) : (s.setCp x).time = s.time := rfl
@[simp] theorem State.setCp_aon (x : CpSt) : (s.setCp x).aon = s.aon := rfl
@[simp] theorem State.setCp_net (x : CpSt) : (s.setCp x).net = s.net := rfl
@[simp] theorem State.setCp_rnd (x : CpSt) : (s.setCp x).rnd = s.rnd := rfl
@[simp] theorem State.setCp_wfl (x : CpSt) : (s.setCp x).wfl = s.wfl := rfl
@[simp] theorem State.setCp_se (x : CpSt) : (s.setCp x).se = s.se := rfl
@[simp] theorem State.setCp_way (x : CpSt) : (s.setCp x).way = s.way := rfl
@[simp] theorem State.setCp_vlt (x : CpSt) : (s.setCp x).vlt = s.vlt := rfl
@[simp] theorem State.setCp_lcs (x : CpSt) : (s.setCp x).lcs = s.lcs := rfl
@[simp] theorem State.setCp_ana (x : CpSt) : (s.setCp x).ana = s.ana := rfl
@[simp] theorem State.setCp_mh (x : CpSt) : (s.setCp x).mh = s.mh := rfl
@[simp] theorem State.setCp_me (x : CpSt) : (s.setCp x).me = s.me := rfl
@[simp] theorem State.setCp_tot (x : CpSt) : (s.setCp x).tot = s.tot := rfl
@[simp] theorem State.setCp_pending (x : CpSt) : (s.setCp x).pending = s.pending := rfl
@[simp] theorem State.setCp_cp (x : CpSt) : (s.setCp x).cp = x := rfl
@[simp] theorem State.setCp_reg (x : CpSt) (r : Nat) : (s.setCp x).reg r = s.reg r := rfl
@[simp] theorem State.setCp_fld (x : CpSt) (g : Field) : (s.setCp x).fld g = s.fld g := rfl
@[simp] theorem State.setCp_flag (x : CpSt) (g : Field) : (s.setCp x).flag g = s.flag g := rfl
@[simp] theorem State.setCp_rd8 (x : CpSt) (r : Nat) : (s.setCp x).rd8 r = s.rd8 r := rfl

/-! `State.setAon` -/
@[simp] theorem State.setAon_regs (x : AonSt) : (s.setAon x).regs = s.regs := rfl
@[simp] theorem State.setAon_mem (x : AonSt) : (s.setAon x).mem = s.mem := rfl
@[simp] theorem State.setAon_ecc (x : AonSt) : (s.setAon x).ecc = s.ecc := rfl
@[simp] theorem State.setAon_flash (x : AonSt) : (s.setAon x).flash = s.flash := rfl
@[simp] theorem State.setAon_readback (x : AonSt) : (s.setAon x).readback = s.readback := rfl
@[simp] theorem State.setAon_free (x : AonSt) : (s.setAon x).free = s.free := rfl
@[simp] theorem State.setAon_rst (x : AonSt) : (s.setAon x).rst = s.rst := rfl
@[simp] theorem State.setAon_boot (x : AonSt) : (s.setAon x).boot = s.boot := rfl
@[simp] theorem State.setAon_live (x : AonSt) : (s.setAon x).live = s.live := rfl
@[simp] theorem State.setAon_pwr (x : AonSt) : (s.setAon x).pwr = s.pwr := rfl
@[simp] theorem State.setAon_prof (x : AonSt) : (s.setAon x).prof = s.prof := rfl
@[simp] theorem State.setAon_pm (x : AonSt) : (s.setAon x).pm = s.pm := rfl
@[simp] theorem State.setAon_le (x : AonSt) : (s.setAon x).le = s.le := rfl
@[simp] theorem State.setAon_tune (x : AonSt) : (s.setAon x).tune = s.tune := rfl
@[simp] theorem State.setAon_sa (x : AonSt) : (s.setAon x).sa = s.sa := rfl
@[simp] theorem State.setAon_pt (x : AonSt) : (s.setAon x).pt = s.pt := rfl
@[simp] theorem State.setAon_cp (x : AonSt) : (s.setAon x).cp = s.cp := rfl
@[simp] theorem State.setAon_time (x : AonSt) : (s.setAon x).time = s.time := rfl
@[simp] theorem State.setAon_net (x : AonSt) : (s.setAon x).net = s.net := rfl
@[simp] theorem State.setAon_rnd (x : AonSt) : (s.setAon x).rnd = s.rnd := rfl
@[simp] theorem State.setAon_wfl (x : AonSt) : (s.setAon x).wfl = s.wfl := rfl
@[simp] theorem State.setAon_se (x : AonSt) : (s.setAon x).se = s.se := rfl
@[simp] theorem State.setAon_way (x : AonSt) : (s.setAon x).way = s.way := rfl
@[simp] theorem State.setAon_vlt (x : AonSt) : (s.setAon x).vlt = s.vlt := rfl
@[simp] theorem State.setAon_lcs (x : AonSt) : (s.setAon x).lcs = s.lcs := rfl
@[simp] theorem State.setAon_ana (x : AonSt) : (s.setAon x).ana = s.ana := rfl
@[simp] theorem State.setAon_mh (x : AonSt) : (s.setAon x).mh = s.mh := rfl
@[simp] theorem State.setAon_me (x : AonSt) : (s.setAon x).me = s.me := rfl
@[simp] theorem State.setAon_tot (x : AonSt) : (s.setAon x).tot = s.tot := rfl
@[simp] theorem State.setAon_pending (x : AonSt) : (s.setAon x).pending = s.pending := rfl
@[simp] theorem State.setAon_aon (x : AonSt) : (s.setAon x).aon = x := rfl
@[simp] theorem State.setAon_reg (x : AonSt) (r : Nat) : (s.setAon x).reg r = s.reg r := rfl
@[simp] theorem State.setAon_fld (x : AonSt) (g : Field) : (s.setAon x).fld g = s.fld g := rfl
@[simp] theorem State.setAon_flag (x : AonSt) (g : Field) : (s.setAon x).flag g = s.flag g := rfl
@[simp] theorem State.setAon_rd8 (x : AonSt) (r : Nat) : (s.setAon x).rd8 r = s.rd8 r := rfl

/-! `State.setProf` -/
@[simp] theorem State.setProf_regs (x : ProfSt) : (s.setProf x).regs = s.regs := rfl
@[simp] theorem State.setProf_mem (x : ProfSt) : (s.setProf x).mem = s.mem := rfl
@[simp] theorem State.setProf_ecc (x : ProfSt) : (s.setProf x).ecc = s.ecc := rfl
@[simp] theorem State.setProf_flash (x : ProfSt) : (s.setProf x).flash = s.flash := rfl
@[simp] theorem State.setProf_readback (x : ProfSt) : (s.setProf x).readback = s.readback := rfl
@[simp] theorem State.setProf_free (x : ProfSt) : (s.setProf x).free = s.free := rfl
@[simp] theorem State.setProf_rst (x : ProfSt) : (s.setProf x).rst = s.rst := rfl
@[simp] theorem State.setProf_boot (x : ProfSt) : (s.setProf x).boot = s.boot := rfl
@[simp] theorem State.setProf_live (x : ProfSt) : (s.setProf x).live = s.live := rfl
@[simp] theorem State.setProf_pwr (x : ProfSt) : (s.setProf x).pwr = s.pwr := rfl
@[simp] theorem State.setProf_pm (x : ProfSt) : (s.setProf x).pm = s.pm := rfl
@[simp] theorem State.setProf_le (x : ProfSt) : (s.setProf x).le = s.le := rfl
@[simp] theorem State.setProf_tune (x : ProfSt) : (s.setProf x).tune = s.tune := rfl
@[simp] theorem State.setProf_sa (x : ProfSt) : (s.setProf x).sa = s.sa := rfl
@[simp] theorem State.setProf_pt (x : ProfSt) : (s.setProf x).pt = s.pt := rfl
@[simp] theorem State.setProf_cp (x : ProfSt) : (s.setProf x).cp = s.cp := rfl
@[simp] theorem State.setProf_time (x : ProfSt) : (s.setProf x).time = s.time := rfl
@[simp] theorem State.setProf_aon (x : ProfSt) : (s.setProf x).aon = s.aon := rfl
@[simp] theorem State.setProf_net (x : ProfSt) : (s.setProf x).net = s.net := rfl
@[simp] theorem State.setProf_rnd (x : ProfSt) : (s.setProf x).rnd = s.rnd := rfl
@[simp] theorem State.setProf_wfl (x : ProfSt) : (s.setProf x).wfl = s.wfl := rfl
@[simp] theorem State.setProf_se (x : ProfSt) : (s.setProf x).se = s.se := rfl
@[simp] theorem State.setProf_way (x : ProfSt) : (s.setProf x).way = s.way := rfl
@[simp] theorem State.setProf_vlt (x : ProfSt) : (s.setProf x).vlt = s.vlt := rfl
@[simp] theorem State.setProf_lcs (x : ProfSt) : (s.setProf x).lcs = s.lcs := rfl
@[simp] theorem State.setProf_ana (x : ProfSt) : (s.setProf x).ana = s.ana := rfl
@[simp] theorem State.setProf_mh (x : ProfSt) : (s.setProf x).mh = s.mh := rfl
@[simp] theorem State.setProf_me (x : ProfSt) : (s.setProf x).me = s.me := rfl
@[simp] theorem State.setProf_tot (x : ProfSt) : (s.setProf x).tot = s.tot := rfl
@[simp] theorem State.setProf_pending (x : ProfSt) : (s.setProf x).pending = s.pending := rfl
@[simp] theorem State.setProf_prof (x : ProfSt) : (s.setProf x).prof = x := rfl
@[simp] theorem State.setProf_reg (x : ProfSt) (r : Nat) : (s.setProf x).reg r = s.reg r := rfl
@[simp] theorem State.setProf_fld (x : ProfSt) (g : Field) : (s.setProf x).fld g = s.fld g := rfl
@[simp] theorem State.setProf_flag (x : ProfSt) (g : Field) : (s.setProf x).flag g = s.flag g := rfl
@[simp] theorem State.setProf_rd8 (x : ProfSt) (r : Nat) : (s.setProf x).rd8 r = s.rd8 r := rfl

/-! `State.setTime` -/
@[simp] theorem State.setTime_regs (x : TimeSt) : (s.setTime x).regs = s.regs := rfl
@[simp] theorem State.setTime_mem (x : TimeSt) : (s.setTime x).mem = s.mem := rfl
@[simp] theorem State.setTime_ecc (x : TimeSt) : (s.setTime x).ecc = s.ecc := rfl
@[simp] theorem State.setTime_flash (x : TimeSt) : (s.setTime x).flash = s.flash := rfl
@[simp] theorem State.setTime_readback (x : TimeSt) : (s.setTime x).readback = s.readback := rfl
@[simp] theorem State.setTime_free (x : TimeSt) : (s.setTime x).free = s.free := rfl
@[simp] theorem State.setTime_rst (x : TimeSt) : (s.setTime x).rst = s.rst := rfl
@[simp] theorem State.setTime_boot (x : TimeSt) : (s.setTime x).boot = s.boot := rfl
@[simp] theorem State.setTime_live (x : TimeSt) : (s.setTime x).live = s.live := rfl
@[simp] theorem State.setTime_pwr (x : TimeSt) : (s.setTime x).pwr = s.pwr := rfl
@[simp] theorem State.setTime_prof (x : TimeSt) : (s.setTime x).prof = s.prof := rfl
@[simp] theorem State.setTime_pm (x : TimeSt) : (s.setTime x).pm = s.pm := rfl
@[simp] theorem State.setTime_le (x : TimeSt) : (s.setTime x).le = s.le := rfl
@[simp] theorem State.setTime_tune (x : TimeSt) : (s.setTime x).tune = s.tune := rfl
@[simp] theorem State.setTime_sa (x : TimeSt) : (s.setTime x).sa = s.sa := rfl
@[simp] theorem State.setTime_pt (x : TimeSt) : (s.setTime x).pt = s.pt := rfl
@[simp] theorem State.setTime_cp (x : TimeSt) : (s.setTime x).cp = s.cp := rfl
@[simp] theorem State.setTime_aon (x : TimeSt) : (s.setTime x).aon = s.aon := rfl
@[simp] theorem State.setTime_net (x : TimeSt) : (s.setTime x).net = s.net := rfl
@[simp] theorem State.setTime_rnd (x : TimeSt) : (s.setTime x).rnd = s.rnd := rfl
@[simp] theorem State.setTime_wfl (x : TimeSt) : (s.setTime x).wfl = s.wfl := rfl
@[simp] theorem State.setTime_se (x : TimeSt) : (s.setTime x).se = s.se := rfl
@[simp] theorem State.setTime_way (x : TimeSt) : (s.setTime x).way = s.way := rfl
@[simp] theorem State.setTime_vlt (x : TimeSt) : (s.setTime x).vlt = s.vlt := rfl
@[simp] theorem State.setTime_lcs (x : TimeSt) : (s.setTime x).lcs = s.lcs := rfl
@[simp] theorem State.setTime_ana (x : TimeSt) : (s.setTime x).ana = s.ana := rfl
@[simp] theorem State.setTime_mh (x : TimeSt) : (s.setTime x).mh = s.mh := rfl
@[simp] theorem State.setTime_me (x : TimeSt) : (s.setTime x).me = s.me := rfl
@[simp] theorem State.setTime_tot (x : TimeSt) : (s.setTime x).tot = s.tot := rfl
@[simp] theorem State.setTime_pending (x : TimeSt) : (s.setTime x).pending = s.pending := rfl
@[simp] theorem State.setTime_time (x : TimeSt) : (s.setTime x).time = x := rfl
@[simp] theorem State.setTime_reg (x : TimeSt) (r : Nat) : (s.setTime x).reg r = s.reg r := rfl
@[simp] theorem State.setTime_fld (x : TimeSt) (g : Field) : (s.setTime x).fld g = s.fld g := rfl
@[simp] theorem State.setTime_flag (x : TimeSt) (g : Field) : (s.setTime x).flag g = s.flag g := rfl
@[simp] theorem State.setTime_rd8 (x : TimeSt) (r : Nat) : (s.setTime x).rd8 r = s.rd8 r := rfl

/-! `State.setWay` -/
@[simp] theorem State.setWay_regs (x : WaySt) : (s.setWay x).regs = s.regs := rfl
@[simp] theorem State.setWay_mem (x : WaySt) : (s.setWay x).mem = s.mem := rfl
@[simp] theorem State.setWay_ecc (x : WaySt) : (s.setWay x).ecc = s.ecc := rfl
@[simp] theorem State.setWay_flash (x : WaySt) : (s.setWay x).flash = s.flash := rfl
@[simp] theorem State.setWay_readback (x : WaySt) : (s.setWay x).readback = s.readback := rfl
@[simp] theorem State.setWay_free (x : WaySt) : (s.setWay x).free = s.free := rfl
@[simp] theorem State.setWay_rst (x : WaySt) : (s.setWay x).rst = s.rst := rfl
@[simp] theorem State.setWay_boot (x : WaySt) : (s.setWay x).boot = s.boot := rfl
@[simp] theorem State.setWay_live (x : WaySt) : (s.setWay x).live = s.live := rfl
@[simp] theorem State.setWay_pwr (x : WaySt) : (s.setWay x).pwr = s.pwr := rfl
@[simp] theorem State.setWay_prof (x : WaySt) : (s.setWay x).prof = s.prof := rfl
@[simp] theorem State.setWay_pm (x : WaySt) : (s.setWay x).pm = s.pm := rfl
@[simp] theorem State.setWay_le (x : WaySt) : (s.setWay x).le = s.le := rfl
@[simp] theorem State.setWay_tune (x : WaySt) : (s.setWay x).tune = s.tune := rfl
@[simp] theorem State.setWay_sa (x : WaySt) : (s.setWay x).sa = s.sa := rfl
@[simp] theorem State.setWay_pt (x : WaySt) : (s.setWay x).pt = s.pt := rfl
@[simp] theorem State.setWay_cp (x : WaySt) : (s.setWay x).cp = s.cp := rfl
@[simp] theorem State.setWay_time (x : WaySt) : (s.setWay x).time = s.time := rfl
@[simp] theorem State.setWay_aon (x : WaySt) : (s.setWay x).aon = s.aon := rfl
@[simp] theorem State.setWay_net (x : WaySt) : (s.setWay x).net = s.net := rfl
@[simp] theorem State.setWay_rnd (x : WaySt) : (s.setWay x).rnd = s.rnd := rfl
@[simp] theorem State.setWay_wfl (x : WaySt) : (s.setWay x).wfl = s.wfl := rfl
@[simp] theorem State.setWay_se (x : WaySt) : (s.setWay x).se = s.se := rfl
@[simp] theorem State.setWay_vlt (x : WaySt) : (s.setWay x).vlt = s.vlt := rfl
@[simp] theorem State.setWay_lcs (x : WaySt) : (s.setWay x).lcs = s.lcs := rfl
@[simp] theorem State.setWay_ana (x : WaySt) : (s.setWay x).ana = s.ana := rfl
@[simp] theorem State.setWay_mh (x : WaySt) : (s.setWay x).mh = s.mh := rfl
@[simp] theorem State.setWay_me (x : WaySt) : (s.setWay x).me = s.me := rfl
@[simp] theorem State.setWay_tot (x : WaySt) : (s.setWay x).tot = s.tot := rfl
@[simp] theorem State.setWay_pending (x : WaySt) : (s.setWay x).pending = s.pending := rfl
@[simp] theorem State.setWay_way (x : WaySt) : (s.setWay x).way = x := rfl
@[simp] theorem State.setWay_reg (x : WaySt) (r : Nat) : (s.setWay x).reg r = s.reg r := rfl
@[simp] theorem State.setWay_fld (x : WaySt) (g : Field) : (s.setWay x).fld g = s.fld g := rfl
@[simp] theorem State.setWay_flag (x : WaySt) (g : Field) : (s.setWay x).flag g = s.flag g := rfl
@[simp] theorem State.setWay_rd8 (x : WaySt) (r : Nat) : (s.setWay x).rd8 r = s.rd8 r := rfl

/-! `State.setPwr` -/
@[simp] theorem State.setPwr_regs (x : PwrSt) : (s.setPwr x).regs = s.regs := rfl
@[simp] theorem State.setPwr_mem (x : PwrSt) : (s.setPwr x).mem = s.mem := rfl
@[simp] theorem State.setPwr_ecc (x : PwrSt) : (s.setPwr x).ecc = s.ecc := rfl
@[simp] theorem State.setPwr_flash (x : PwrSt) : (s.setPwr x).flash = s.flash := rfl
@[simp] theorem State.setPwr_readback (x : PwrSt) : (s.setPwr x).readback = s.readback := rfl
@[simp] theorem State.setPwr_free (x : PwrSt) : (s.setPwr x).free = s.free := rfl
@[simp] theorem State.setPwr_rst (x : PwrSt) : (s.setPwr x).rst = s.rst := rfl
@[simp] theorem State.setPwr_boot (x : PwrSt) : (s.setPwr x).boot = s.boot := rfl
@[simp] theorem State.setPwr_live (x : PwrSt) : (s.setPwr x).live = s.live := rfl
@[simp] theorem State.setPwr_prof (x : PwrSt) : (s.setPwr x).prof = s.prof := rfl
@[simp] theorem State.setPwr_pm (x : PwrSt) : (s.setPwr x).pm = s.pm := rfl
@[simp] theorem State.setPwr_le (x : PwrSt) : (s.setPwr x).le = s.le := rfl
@[simp] theorem State.setPwr_tune (x : PwrSt) : (s.setPwr x).tune = s.tune := rfl
@[simp] theorem State.setPwr_sa (x : PwrSt) : (s.setPwr x).sa = s.sa := rfl
@[simp] theorem State.setPwr_pt (x : PwrSt) : (s.setPwr x).pt = s.pt := rfl
@[simp] theorem State.setPwr_cp (x : PwrSt) : (s.setPwr x).cp = s.cp := rfl
@[simp] theorem State.setPwr_time (x : PwrSt) : (s.setPwr x).time = s.time := rfl
@[simp] theorem State.setPwr_aon (x : PwrSt) : (s.setPwr x).aon = s.aon := rfl
@[simp] theorem State.setPwr_net (x : PwrSt) : (s.setPwr x).net = s.net := rfl
@[simp] theorem State.setPwr_rnd (x : PwrSt) : (s.setPwr x).rnd = s.rnd := rfl
@[simp] theorem State.setPwr_wfl (x : PwrSt) : (s.setPwr x).wfl = s.wfl := rfl
@[simp] theorem State.setPwr_se (x : PwrSt) : (s.setPwr x).se = s.se := rfl
@[simp] theorem State.setPwr_way (x : PwrSt) : (s.setPwr x).way = s.way := rfl
@[simp] theorem State.setPwr_vlt (x : PwrSt) : (s.setPwr x).vlt = s.vlt := rfl
@[simp] theorem State.setPwr_lcs (x : PwrSt) : (s.setPwr x).lcs = s.lcs := rfl
@[simp] theorem State.setPwr_ana (x : PwrSt) : (s.setPwr x).ana = s.ana := rfl
@[simp] theorem State.setPwr_mh (x : PwrSt) : (s.setPwr x).mh = s.mh := rfl
@[simp] theorem State.setPwr_me (x : PwrSt) : (s.setPwr x).me = s.me := rfl
@[simp] theorem State.setPwr_tot (x : PwrSt) : (s.setPwr x).tot = s.tot := rfl
@[simp] theorem State.setPwr_pending (x : PwrSt) : (s.setPwr x).pending = s.pending := rfl
@[simp] theorem State.setPwr_pwr (x : PwrSt) : (s.setPwr x).pwr = x := rfl
@[simp] theorem State.setPwr_reg (x : PwrSt) (r : Nat) : (s.setPwr x).reg r = s.reg r := rfl
@[simp] theorem State.setPwr_fld (x : PwrSt) (g : Field) : (s.setPwr x).fld g = s.fld g := rfl
@[simp] theorem State.setPwr_flag (x : PwrSt) (g : Field) : (s.setPwr x).flag g = s.flag g := rfl
@[simp] theorem State.setPwr_rd8 (x : PwrSt) (r : Nat) : (s.setPwr x).rd8 r = s.rd8 r := rfl

/-! `State.setRnd` -/
@[simp] theorem State.setRnd_regs (x : RndSt) : (s.setRnd x).regs = s.regs := rfl
@[simp] theorem State.setRnd_mem (x : RndSt) : (s.setRnd x).mem = s.mem := rfl
@[simp] theorem State.setRnd_ecc (x : RndSt) : (s.setRnd x).ecc = s.ecc := rfl
@[simp] theorem State.setRnd_flash (x : RndSt) : (s.setRnd x).flash = s.flash := rfl
@[simp] theorem State.setRnd_readback (x : RndSt) : (s.setRnd x).readback = s.readback := rfl
@[simp] theorem State.setRnd_free (x : RndSt) : (s.setRnd x).free = s.free := rfl
@[simp] theorem State.setRnd_rst (x : RndSt) : (s.setRnd x).rst = s.rst := rfl
@[simp] theorem State.setRnd_boot (x : RndSt) : (s.setRnd x).boot = s.boot := rfl
@[simp] theorem State.setRnd_live (x : RndSt) : (s.setRnd x).live = s.live := rfl
@[simp] theorem State.setRnd_pwr (x : RndSt) : (s.setRnd x).pwr = s.pwr := rfl
@[simp] theorem State.setRnd_prof (x : RndSt) : (s.setRnd x).prof = s.prof := rfl
@[simp] theorem State.setRnd_pm (x : RndSt) : (s.setRnd x).pm = s.pm := rfl
@[simp] theorem State.setRnd_le (x : RndSt) : (s.setRnd x).le = s.le := rfl
@[simp] theorem State.setRnd_tune (x : RndSt) : (s.setRnd x).tune = s.tune := rfl
@[simp] theorem State.setRnd_sa (x : RndSt) : (s.setRnd x).sa = s.sa := rfl
@[simp] theorem State.setRnd_pt (x : RndSt) : (s.setRnd x).pt = s.pt := rfl
@[simp] theorem State.setRnd_cp (x : RndSt) : (s.setRnd x).cp = s.cp := rfl
@[simp] theorem State.setRnd_time (x : RndSt) : (s.setRnd x).time = s.time := rfl
@[simp] theorem State.setRnd_aon (x : RndSt) : (s.setRnd x).aon = s.aon := rfl
@[simp] theorem State.setRnd_net (x : RndSt) : (s.setRnd x).net = s.net := rfl
@[simp] theorem State.setRnd_wfl (x : RndSt) : (s.setRnd x).wfl = s.wfl := rfl
@[simp] theorem State.setRnd_se (x : RndSt) : (s.setRnd x).se = s.se := rfl
@[simp] theorem State.setRnd_way (x : RndSt) : (s.setRnd x).way = s.way := rfl
@[simp] theorem State.setRnd_vlt (x : RndSt) : (s.setRnd x).vlt = s.vlt := rfl
@[simp] theorem State.setRnd_lcs (x : RndSt) : (s.setRnd x).lcs = s.lcs := rfl
@[simp] theorem State.setRnd_ana (x : RndSt) : (s.setRnd x).ana = s.ana := rfl
@[simp] theorem State.setRnd_mh (x : RndSt) : (s.setRnd x).mh = s.mh := rfl
@[simp] theorem State.setRnd_me (x : RndSt) : (s.setRnd x).me = s.me := rfl
@[simp] theorem State.setRnd_tot (x : RndSt) : (s.setRnd x).tot = s.tot := rfl
@[simp] theorem State.setRnd_pending (x : RndSt) : (s.setRnd x).pending = s.pending := rfl
@[simp] theorem State.setRnd_rnd (x : RndSt) : (s.setRnd x).rnd = x := rfl
@[simp] theorem State.setRnd_reg (x : RndSt) (r : Nat) : (s.setRnd x).reg r = s.reg r := rfl
@[simp] theorem State.setRnd_fld (x : RndSt) (g : Field) : (s.setRnd x).fld g = s.fld g := rfl
@[simp] theorem State.setRnd_flag (x : RndSt) (g : Field) : (s.setRnd x).flag g = s.flag g := rfl
@[simp] theorem State.setRnd_rd8 (x : RndSt) (r : Nat) : (s.setRnd x).rd8 r = s.rd8 r := rfl

/-! `State.setLcs` -/
@[simp] theorem State.setLcs_regs (x : LcsSt) : (s.setLcs x).regs = s.regs := rfl
@[simp] theorem State.setLcs_mem (x : LcsSt) : (s.setLcs x).mem = s.mem := rfl
@[simp] theorem State.setLcs_ecc (x : LcsSt) : (s.setLcs x).ecc = s.ecc := rfl
@[simp] theorem State.setLcs_flash (x : LcsSt) : (s.setLcs x).flash = s.flash := rfl
@[simp] theorem State.setLcs_readback (x : LcsSt) : (s.setLcs x).readback = s.readback := rfl
@[simp] theorem State.setLcs_free (x : LcsSt) : (s.setLcs x).free = s.free := rfl
@[simp] theorem State.setLcs_rst (x : LcsSt) : (s.setLcs x).rst = s.rst := rfl
@[simp] theorem State.setLcs_boot (x : LcsSt) : (s.setLcs x).boot = s.boot := rfl
@[simp] theorem State.setLcs_live (x : LcsSt) : (s.setLcs x).live = s.live := rfl
@[simp] theorem State.setLcs_pwr (x : LcsSt) : (s.setLcs x).pwr = s.pwr := rfl
@[simp] theorem State.setLcs_prof (x : LcsSt) : (s.setLcs x).prof = s.prof := rfl
@[simp] theorem State.setLcs_pm (x : LcsSt) : (s.setLcs x).pm = s.pm := rfl
@[simp] theorem State.setLcs_le (x : LcsSt) : (s.setLcs x).le = s.le := rfl
@[simp] theorem State.setLcs_tune (x : LcsSt) : (s.setLcs x).tune = s.tune := rfl
@[simp] theorem State.setLcs_sa (x : LcsSt) : (s.setLcs x).sa = s.sa := rfl
@[simp] theorem State.setLcs_pt (x : LcsSt) : (s.setLcs x).pt = s.pt := rfl
@[simp] theorem State.setLcs_cp (x : LcsSt) : (s.setLcs x).cp = s.cp := rfl
@[simp] theorem State.setLcs_time (x : LcsSt) : (s.setLcs x).time = s.time := rfl
@[simp] theorem State.setLcs_aon (x : LcsSt) : (s.setLcs x).aon = s.aon := rfl
@[simp] theorem State.setLcs_net (x : LcsSt) : (s.setLcs x).net = s.net := rfl
@[simp] theorem State.setLcs_rnd (x : LcsSt) : (s.setLcs x).rnd = s.rnd := rfl
@[simp] theorem State.setLcs_wfl (x : LcsSt) : (s.setLcs x).wfl = s.wfl := rfl
@[simp] theorem State.setLcs_se (x : LcsSt) : (s.setLcs x).se = s.se := rfl
@[simp] theorem State.setLcs_way (x : LcsSt) : (s.setLcs x).way = s.way := rfl
@[simp] theorem State.setLcs_vlt (x : LcsSt) : (s.setLcs x).vlt = s.vlt := rfl
@[simp] theorem State.setLcs_ana (x : LcsSt) : (s.setLcs x).ana = s.ana := rfl
@[simp] theorem State.setLcs_mh (x : LcsSt) : (s.setLcs x).mh = s.mh := rfl
@[simp] theorem State.setLcs_me (x : LcsSt) : (s.setLcs x).me = s.me := rfl
@[simp] theorem State.setLcs_tot (x : LcsSt) : (s.setLcs x).tot = s.tot := rfl
@[simp] theorem State.setLcs_pending (x : LcsSt) : (s.setLcs x).pending = s.pending := rfl
@[simp] theorem State.setLcs_lcs (x : LcsSt) : (s.setLcs x).lcs = x := rfl
@[simp] theorem State.setLcs_reg (x : LcsSt) (r : Nat) : (s.setLcs x).reg r = s.reg r := rfl
@[simp] theorem State.setLcs_fld (x : LcsSt) (g : Field) : (s.setLcs x).fld g = s.fld g := rfl
@[simp] theorem State.setLcs_flag (x : LcsSt) (g : Field) : (s.setLcs x).flag g = s.flag g := rfl
@[simp] theorem State.setLcs_rd8 (x : LcsSt) (r : Nat) : (s.setLcs x).rd8 r = s.rd8 r := rfl

/-! `State.setSa` -/
@[simp] theorem State.setSa_regs (x : SaSt) : (s.setSa x).regs = s.regs := rfl
@[simp] theorem State.setSa_mem (x : SaSt) : (s.setSa x).mem = s.mem := rfl
@[simp] theorem State.setSa_ecc (x : SaSt) : (s.setSa x).ecc = s.ecc := rfl
@[simp] theorem State.setSa_flash (x : SaSt) : (s.setSa x).flash = s.flash := rfl
@[simp] theorem State.setSa_readback (x : SaSt) : (s.setSa x).readback = s.readback := rfl
@[simp] theorem State.setSa_free (x : SaSt) : (s.setSa x).free = s.free := rfl
@[simp] theorem State.setSa_rst (x : SaSt) : (s.setSa x).rst = s.rst := rfl
@[simp] theorem State.setSa_boot (x : SaSt) : (s.setSa x).boot = s.boot := rfl
@[simp] theorem State.setSa_live (x : SaSt) : (s.setSa x).live = s.live := rfl
@[simp] theorem State.setSa_pwr (x : SaSt) : (s.setSa x).pwr = s.pwr := rfl
@[simp] theorem State.setSa_prof (x : SaSt) : (s.setSa x).prof = s.prof := rfl
@[simp] theorem State.setSa_pm (x : SaSt) : (s.setSa x).pm = s.pm := rfl
@[simp] theorem State.setSa_le (x : SaSt) : (s.setSa x).le = s.le := rfl
@[simp] theorem State.setSa_tune (x : SaSt) : (s.setSa x).tune = s.tune := rfl
@[simp] theorem State.setSa_pt (x : SaSt) : (s.setSa x).pt = s.pt := rfl
@[simp] theorem State.setSa_cp (x : SaSt) : (s.setSa x).cp = s.cp := rfl
@[simp] theorem State.setSa_time (x : SaSt) : (s.setSa x).time = s.time := rfl
@[simp] theorem State.setSa_aon (x : SaSt) : (s.setSa x).aon = s.aon := rfl
@[simp] theorem State.setSa_net (x : SaSt) : (s.setSa x).net = s.net := rfl
@[simp] theorem State.setSa_rnd (x : SaSt) : (s.setSa x).rnd = s.rnd := rfl
@[simp] theorem State.setSa_wfl (x : SaSt) : (s.setSa x).wfl = s.wfl := rfl
@[simp] theorem State.setSa_se (x : SaSt) : (s.setSa x).se = s.se := rfl
@[simp] theorem State.setSa_way (x : SaSt) : (s.setSa x).way = s.way := rfl
@[simp] theorem State.setSa_vlt (x : SaSt) : (s.setSa x).vlt = s.vlt := rfl
@[simp] theorem State.setSa_lcs (x : SaSt) : (s.setSa x).lcs = s.lcs := rfl
@[simp] theorem State.setSa_ana (x : SaSt) : (s.setSa x).ana = s.ana := rfl
@[simp] theorem State.setSa_mh (x : SaSt) : (s.setSa x).mh = s.mh := rfl
@[simp] theorem State.setSa_me (x : SaSt) : (s.setSa x).me = s.me := rfl
@[simp] theorem State.setSa_tot (x : SaSt) : (s.setSa x).tot = s.tot := rfl
@[simp] theorem State.setSa_pending (x : SaSt) : (s.setSa x).pending = s.pending := rfl
@[simp] theorem State.setSa_sa (x : SaSt) : (s.setSa x).sa = x := rfl
@[simp] theorem State.setSa_reg (x : SaSt) (r : Nat) : (s.setSa x).reg r = s.reg r := rfl
@[simp] theorem State.setSa_fld (x : SaSt) (g : Field) : (s.setSa x).fld g = s.fld g := rfl
@[simp] theorem State.setSa_flag (x : SaSt) (g : Field) : (s.setSa x).flag g = s.flag g := rfl
@[simp] theorem State.setSa_rd8 (x : SaSt) (r : Nat) : (s.setSa x).rd8 r = s.rd8 r := rfl

/-! `State.setBoot` -/
@[simp] theorem State.setBoot_regs (x : BootSt) : (s.setBoot x).regs = s.regs := rfl
@[simp] theorem State.setBoot_mem (x : BootSt) : (s.setBoot x).mem = s.mem := rfl
@[simp] theorem State.setBoot_ecc (x : BootSt) : (s.setBoot x).ecc = s.ecc := rfl
@[simp] theorem State.setBoot_flash (x : BootSt) : (s.setBoot x).flash = s.flash := rfl
@[simp] theorem State.setBoot_readback (x : BootSt) : (s.setBoot x).readback = s.readback := rfl
@[simp] theorem State.setBoot_free (x : BootSt) : (s.setBoot x).free = s.free := rfl
@[simp] theorem State.setBoot_rst (x : BootSt) : (s.setBoot x).rst = s.rst := rfl
@[simp] theorem State.setBoot_live (x : BootSt) : (s.setBoot x).live = s.live := rfl
@[simp] theorem State.setBoot_pwr (x : BootSt) : (s.setBoot x).pwr = s.pwr := rfl
@[simp] theorem State.setBoot_prof (x : BootSt) : (s.setBoot x).prof = s.prof := rfl
@[simp] theorem State.setBoot_pm (x : BootSt) : (s.setBoot x).pm = s.pm := rfl
@[simp] theorem State.setBoot_le (x : BootSt) : (s.setBoot x).le = s.le := rfl
@[simp] theorem State.setBoot_tune (x : BootSt) : (s.setBoot x).tune = s.tune := rfl
@[simp] theorem State.setBoot_sa (x : BootSt) : (s.setBoot x).sa = s.sa := rfl
@[simp] theorem State.setBoot_pt (x : BootSt) : (s.setBoot x).pt = s.pt := rfl
@[simp] theorem State.setBoot_cp (x : BootSt) : (s.setBoot x).cp = s.cp := rfl
@[simp] theorem State.setBoot_time (x : BootSt) : (s.setBoot x).time = s.time := rfl
@[simp] theorem State.setBoot_aon (x : BootSt) : (s.setBoot x).aon = s.aon := rfl
@[simp] theorem State.setBoot_net (x : BootSt) : (s.setBoot x).net = s.net := rfl
@[simp] theorem State.setBoot_rnd (x : BootSt) : (s.setBoot x).rnd = s.rnd := rfl
@[simp] theorem State.setBoot_wfl (x : BootSt) : (s.setBoot x).wfl = s.wfl := rfl
@[simp] theorem State.setBoot_se (x : BootSt) : (s.setBoot x).se = s.se := rfl
@[simp] theorem State.setBoot_way (x : BootSt) : (s.setBoot x).way = s.way := rfl
@[simp] theorem State.setBoot_vlt (x : BootSt) : (s.setBoot x).vlt = s.vlt := rfl
@[simp] theorem State.setBoot_lcs (x : BootSt) : (s.setBoot x).lcs = s.lcs := rfl
@[simp] theorem State.setBoot_ana (x : BootSt) : (s.setBoot x).ana = s.ana := rfl
@[simp] theorem State.setBoot_mh (x : BootSt) : (s.setBoot x).mh = s.mh := rfl
@[simp] theorem State.setBoot_me (x : BootSt) : (s.setBoot x).me = s.me := rfl
@[simp] theorem State.setBoot_tot (x : BootSt) : (s.setBoot x).tot = s.tot := rfl
@[simp] theorem State.setBoot_pending (x : BootSt) : (s.setBoot x).pending = s.pending := rfl
@[simp] theorem State.setBoot_boot (x : BootSt) : (s.setBoot x).boot = x := rfl
@[simp] theorem State.setBoot_reg (x : BootSt) (r : Nat) : (s.setBoot x).reg r = s.reg r := rfl
@[simp] theorem State.setBoot_fld (x : BootSt) (g : Field) : (s.setBoot x).fld g = s.fld g := rfl
@[simp] theorem State.setBoot_flag (x : BootSt) (g : Field) : (s.setBoot x).flag g = s.flag g := rfl
@[simp] theorem State.setBoot_rd8 (x : BootSt) (r : Nat) : (s.setBoot x).rd8 r = s.rd8 r := rfl

/-! `State.setSe` -/
@[simp] theorem State.setSe_regs (x : SeSt) : (s.setSe x).regs = s.regs := rfl
@[simp] theorem State.setSe_mem (x : SeSt) : (s.setSe x).mem = s.mem := rfl
@[simp] theorem State.setSe_ecc (x : SeSt) : (s.setSe x).ecc = s.ecc := rfl
@[simp] theorem State.setSe_flash (x : SeSt) : (s.setSe x).flash = s.flash := rfl
@[simp] theorem State.setSe_readback (x : SeSt) : (s.setSe x).readback = s.readback := rfl
@[simp] theorem State.setSe_free (x : SeSt) : (s.setSe x).free = s.free := rfl
@[simp] theorem State.setSe_rst (x : SeSt) : (s.setSe x).rst = s.rst := rfl
@[simp] theorem State.setSe_boot (x : SeSt) : (s.setSe x).boot = s.boot := rfl
@[simp] theorem State.setSe_live (x : SeSt) : (s.setSe x).live = s.live := rfl
@[simp] theorem State.setSe_pwr (x : SeSt) : (s.setSe x).pwr = s.pwr := rfl
@[simp] theorem State.setSe_prof (x : SeSt) : (s.setSe x).prof = s.prof := rfl
@[simp] theorem State.setSe_pm (x : SeSt) : (s.setSe x).pm = s.pm := rfl
@[simp] theorem State.setSe_le (x : SeSt) : (s.setSe x).le = s.le := rfl
@[simp] theorem State.setSe_tune (x : SeSt) : (s.setSe x).tune = s.tune := rfl
@[simp] theorem State.setSe_sa (x : SeSt) : (s.setSe x).sa = s.sa := rfl
@[simp] theorem State.setSe_pt (x : SeSt) : (s.setSe x).pt = s.pt := rfl
@[simp] theorem State.setSe_cp (x : SeSt) : (s.setSe x).cp = s.cp := rfl
@[simp] theorem State.setSe_time (x : SeSt) : (s.setSe x).time = s.time := rfl
@[simp] theorem State.setSe_aon (x : SeSt) : (s.setSe x).aon = s.aon := rfl
@[simp] theorem State.setSe_net (x : SeSt) : (s.setSe x).net = s.net := rfl
@[simp] theorem State.setSe_rnd (x : SeSt) : (s.setSe x).rnd = s.rnd := rfl
@[simp] theorem State.setSe_wfl (x : SeSt) : (s.setSe x).wfl = s.wfl := rfl
@[simp] theorem State.setSe_way (x : SeSt) : (s.setSe x).way = s.way := rfl
@[simp] theorem State.setSe_vlt (x : SeSt) : (s.setSe x).vlt = s.vlt := rfl
@[simp] theorem State.setSe_lcs (x : SeSt) : (s.setSe x).lcs = s.lcs := rfl
@[simp] theorem State.setSe_ana (x : SeSt) : (s.setSe x).ana = s.ana := rfl
@[simp] theorem State.setSe_mh (x : SeSt) : (s.setSe x).mh = s.mh := rfl
@[simp] theorem State.setSe_me (x : SeSt) : (s.setSe x).me = s.me := rfl
@[simp] theorem State.setSe_tot (x : SeSt) : (s.setSe x).tot = s.tot := rfl
@[simp] theorem State.setSe_pending (x : SeSt) : (s.setSe x).pending = s.pending := rfl
@[simp] theorem State.setSe_se (x : SeSt) : (s.setSe x).se = x := rfl
@[simp] theorem State.setSe_reg (x : SeSt) (r : Nat) : (s.setSe x).reg r = s.reg r := rfl
@[simp] theorem State.setSe_fld (x : SeSt) (g : Field) : (s.setSe x).fld g = s.fld g := rfl
@[simp] theorem State.setSe_flag (x : SeSt) (g : Field) : (s.setSe x).flag g = s.flag g := rfl
@[simp] theorem State.setSe_rd8 (x : SeSt) (r : Nat) : (s.setSe x).rd8 r = s.rd8 r := rfl

/-! `State.setVlt` -/
@[simp] theorem State.setVlt_regs (x : VltSt) : (s.setVlt x).regs = s.regs := rfl
@[simp] theorem State.setVlt_mem (x : VltSt) : (s.setVlt x).mem = s.mem := rfl
@[simp] theorem State.setVlt_ecc (x : VltSt) : (s.setVlt x).ecc = s.ecc := rfl
@[simp] theorem State.setVlt_flash (x : VltSt) : (s.setVlt x).flash = s.flash := rfl
@[simp] theorem State.setVlt_readback (x : VltSt) : (s.setVlt x).readback = s.readback := rfl
@[simp] theorem State.setVlt_free (x : VltSt) : (s.setVlt x).free = s.free := rfl
@[simp] theorem State.setVlt_rst (x : VltSt) : (s.setVlt x).rst = s.rst := rfl
@[simp] theorem State.setVlt_boot (x : VltSt) : (s.setVlt x).boot = s.boot := rfl
@[simp] theorem State.setVlt_live (x : VltSt) : (s.setVlt x).live = s.live := rfl
@[simp] theorem State.setVlt_pwr (x : VltSt) : (s.setVlt x).pwr = s.pwr := rfl
@[simp] theorem State.setVlt_prof (x : VltSt) : (s.setVlt x).prof = s.prof := rfl
@[simp] theorem State.setVlt_pm (x : VltSt) : (s.setVlt x).pm = s.pm := rfl
@[simp] theorem State.setVlt_le (x : VltSt) : (s.setVlt x).le = s.le := rfl
@[simp] theorem State.setVlt_tune (x : VltSt) : (s.setVlt x).tune = s.tune := rfl
@[simp] theorem State.setVlt_sa (x : VltSt) : (s.setVlt x).sa = s.sa := rfl
@[simp] theorem State.setVlt_pt (x : VltSt) : (s.setVlt x).pt = s.pt := rfl
@[simp] theorem State.setVlt_cp (x : VltSt) : (s.setVlt x).cp = s.cp := rfl
@[simp] theorem State.setVlt_time (x : VltSt) : (s.setVlt x).time = s.time := rfl
@[simp] theorem State.setVlt_aon (x : VltSt) : (s.setVlt x).aon = s.aon := rfl
@[simp] theorem State.setVlt_net (x : VltSt) : (s.setVlt x).net = s.net := rfl
@[simp] theorem State.setVlt_rnd (x : VltSt) : (s.setVlt x).rnd = s.rnd := rfl
@[simp] theorem State.setVlt_wfl (x : VltSt) : (s.setVlt x).wfl = s.wfl := rfl
@[simp] theorem State.setVlt_se (x : VltSt) : (s.setVlt x).se = s.se := rfl
@[simp] theorem State.setVlt_way (x : VltSt) : (s.setVlt x).way = s.way := rfl
@[simp] theorem State.setVlt_lcs (x : VltSt) : (s.setVlt x).lcs = s.lcs := rfl
@[simp] theorem State.setVlt_ana (x : VltSt) : (s.setVlt x).ana = s.ana := rfl
@[simp] theorem State.setVlt_mh (x : VltSt) : (s.setVlt x).mh = s.mh := rfl
@[simp] theorem State.setVlt_me (x : VltSt) : (s.setVlt x).me = s.me := rfl
@[simp] theorem State.setVlt_tot (x : VltSt) : (s.setVlt x).tot = s.tot := rfl
@[simp] theorem State.setVlt_pending (x : VltSt) : (s.setVlt x).pending = s.pending := rfl
@[simp] theorem State.setVlt_vlt (x : VltSt) : (s.setVlt x).vlt = x := rfl
@[simp] theorem State.setVlt_reg (x : VltSt) (r : Nat) : (s.setVlt x).reg r = s.reg r := rfl
@[simp] theorem State.setVlt_fld (x : VltSt) (g : Field) : (s.setVlt x).fld g = s.fld g := rfl
@[simp] theorem State.setVlt_flag (x : VltSt) (g : Field) : (s.setVlt x).flag g = s.flag g := rfl
@[simp] theorem State.setVlt_rd8 (x : VltSt) (r : Nat) : (s.setVlt x).rd8 r = s.rd8 r := rfl

/-! `State.setCalc` -/
@[simp] theorem State.setCalc_regs (c : Nat) (x : MhCalc) : (s.setCalc c x).regs = s.regs := rfl
@[simp] theorem State.setCalc_mem (c : Nat) (x : MhCalc) : (s.setCalc c x).mem = s.mem := rfl
@[simp] theorem State.setCalc_ecc (c : Nat) (x : MhCalc) : (s.setCalc c x).ecc = s.ecc := rfl
@[simp] theorem State.setCalc_flash (c : Nat) (x : MhCalc) : (s.setCalc c x).flash = s.flash := rfl
@[simp] theorem State.setCalc_readback (c : Nat) (x : MhCalc) : (s.setCalc c x).readback = s.readback := rfl
@[simp] theorem State.setCalc_free (c : Nat) (x : MhCalc) : (s.setCalc c x).free = s.free := rfl
@[simp] theorem State.setCalc_rst (c : Nat) (x : MhCalc) : (s.setCalc c x).rst = s.rst := rfl
@[simp] theorem State.setCalc_boot (c : Nat) (x : MhCalc) : (s.setCalc c x).boot = s.boot := rfl
@[simp] theorem State.setCalc_live (c : Nat) (x : MhCalc) : (s.setCalc c x).live = s.live := rfl
@[simp] theorem State.setCalc_pwr (c : Nat) (x : MhCalc) : (s.setCalc c x).pwr = s.pwr := rfl
@[simp] theorem State.setCalc_prof (c : Nat) (x : MhCalc) : (s.setCalc c x).prof = s.prof := rfl
@[simp] theorem State.setCalc_pm (c : Nat) (x : MhCalc) : (s.setCalc c x).pm = s.pm := rfl
@[simp] theorem State.setCalc_le (c : Nat) (x : MhCalc) : (s.setCalc c x).le = s.le := rfl
@[simp] theorem State.setCalc_tune (c : Nat) (x : MhCalc) : (s.setCalc c x).tune = s.tune := rfl
@[simp] theorem State.setCalc_sa (c : Nat) (x : MhCalc) : (s.setCalc c x).sa = s.sa := rfl
@[simp] theorem State.setCalc_pt (c : Nat) (x : MhCalc) : (s.setCalc c x).pt = s.pt := rfl
@[simp] theorem State.setCalc_cp (c : Nat) (x : MhCalc) : (s.setCalc c x).cp = s.cp := rfl
@[simp] theorem State.setCalc_time (c : Nat) (x : MhCalc) : (s.setCalc c x).time = s.time := rfl
@[simp] theorem State.setCalc_aon (c : Nat) (x : MhCalc) : (s.setCalc c x).aon = s.aon := rfl
@[simp] theorem State.setCalc_net (c : Nat) (x : MhCalc) : (s.setCalc c x).net = s.net := rfl
@[simp] theorem State.setCalc_rnd (c : Nat) (x : MhCalc) : (s.setCalc c x).rnd = s.rnd := rfl
@[simp] theorem State.setCalc_wfl (c : Nat) (x : MhCalc) : (s.setCalc c x).wfl = s.wfl := rfl
@[simp] theorem State.setCalc_se (c : Nat) (x : MhCalc) : (s.setCalc c x).se = s.se := rfl
@[simp] theorem State.setCalc_way (c : Nat) (x : MhCalc) : (s.setCalc c x).way = s.way := rfl
@[simp] theorem State.setCalc_vlt (c : Nat) (x : MhCalc) : (s.setCalc c x).vlt = s.vlt := rfl
@[simp] theorem State.setCalc_lcs (c : Nat) (x : MhCalc) : (s.setCalc c x).lcs = s.lcs := rfl
@[simp] theorem State.setCalc_ana (c : Nat) (x : MhCalc) : (s.setCalc c x).ana = s.ana := rfl
@[simp] theorem State.setCalc_me (c : Nat) (x : MhCalc) : (s.setCalc c x).me = s.me := rfl
@[simp] theorem State.setCalc_tot (c : Nat) (x : MhCalc) : (s.setCalc c x).tot = s.tot := rfl
@[simp] theorem State.setCalc_pending (c : Nat) (x : MhCalc) : (s.setCalc c x).pending = s.pending := rfl
@[simp] theorem State.setCalc_reg (c : Nat) (x : MhCalc) (r : Nat) : (s.setCalc c x).reg r = s.reg r := rfl
@[simp] theorem State.setCalc_fld (c : Nat) (x : MhCalc) (g : Field) : (s.setCalc c x).fld g = s.fld g := rfl
@[simp] theorem State.setCalc_flag (c : Nat) (x : MhCalc) (g : Field) : (s.setCalc c x).flag g = s.flag g := rfl
@[simp] theorem State.setCalc_rd8 (c : Nat) (x : MhCalc) (r : Nat) : (s.setCalc c x).rd8 r = s.rd8 r := rfl

/-! `State.setSlot` -/
@[simp] theorem State.setSlot_regs (n : Nat) (x : LeSlot) : (s.setSlot n x).regs = s.regs := rfl
@[simp] theorem State.setSlot_mem (n : Nat) (x : LeSlot) : (s.setSlot n x).mem = s.mem := rfl
@[simp] theorem State.setSlot_ecc (n : Nat) (x : LeSlot) : (s.setSlot n x).ecc = s.ecc := rfl
@[simp] theorem State.setSlot_flash (n : Nat) (x : LeSlot) : (s.setSlot n x).flash = s.flash := rfl
@[simp] theorem State.setSlot_readback (n : Nat) (x : LeSlot) : (s.setSlot n x).readback = s.readback := rfl
@[simp] theorem State.setSlot_free (n : Nat) (x : LeSlot) : (s.setSlot n x).free = s.free := rfl
@[simp] theorem State.setSlot_rst (n : Nat) (x : LeSlot) : (s.setSlot n x).rst = s.rst := rfl
@[simp] theorem State.setSlot_boot (n : Nat) (x : LeSlot) : (s.setSlot n x).boot = s.boot := rfl
@[simp] theorem State.setSlot_live (n : Nat) (x : LeSlot) : (s.setSlot n x).live = s.live := rfl
@[simp] theorem State.setSlot_pwr (n : Nat) (x : LeSlot) : (s.setSlot n x).pwr = s.pwr := rfl
@[simp] theorem State.setSlot_prof (n : Nat) (x : LeSlot) : (s.setSlot n x).prof = s.prof := rfl
@[simp] theorem State.setSlot_pm (n : Nat) (x : LeSlot) : (s.setSlot n x).pm = s.pm := rfl
@[simp] theorem State.setSlot_tune (n : Nat) (x : LeSlot) : (s.setSlot n x).tune = s.tune := rfl
@[simp] theorem State.setSlot_sa (n : Nat) (x : LeSlot) : (s.setSlot n x).sa = s.sa := rfl
@[simp] theorem State.setSlot_pt (n : Nat) (x : LeSlot) : (s.setSlot n x).pt = s.pt := rfl
@[simp] theorem State.setSlot_cp (n : Nat) (x : LeSlot) : (s.setSlot n x).cp = s.cp := rfl
@[simp] theorem State.setSlot_time (n : Nat) (x : LeSlot) : (s.setSlot n x).time = s.time := rfl
@[simp] theorem State.setSlot_aon (n : Nat) (x : LeSlot) : (s.setSlot n x).aon = s.aon := rfl
@[simp] theorem State.setSlot_net (n : Nat) (x : LeSlot) : (s.setSlot n x).net = s.net := rfl
@[simp] theorem State.setSlot_rnd (n : Nat) (x : LeSlot) : (s.setSlot n x).rnd = s.rnd := rfl
@[simp] theorem State.setSlot_wfl (n : Nat) (x : LeSlot) : (s.setSlot n x).wfl = s.wfl := rfl
@[simp] theorem State.setSlot_se (n : Nat) (x : LeSlot) : (s.setSlot n x).se = s.se := rfl
@[simp] theorem State.setSlot_way (n : Nat) (x : LeSlot) : (s.setSlot n x).way = s.way := rfl
@[simp] theorem State.setSlot_vlt (n : Nat) (x : LeSlot) : (s.setSlot n x).vlt = s.vlt := rfl
@[simp] theorem State.setSlot_lcs (n : Nat) (x : LeSlot) : (s.setSlot n x).lcs = s.lcs := rfl
@[simp] theorem State.setSlot_ana (n : Nat) (x : LeSlot) : (s.setSlot n x).ana = s.ana := rfl
@[simp] theorem State.setSlot_mh (n : Nat) (x : LeSlot) : (s.setSlot n x).mh = s.mh := rfl
@[simp] theorem State.setSlot_me (n : Nat) (x : LeSlot) : (s.setSlot n x).me = s.me := rfl
@[simp] theorem State.setSlot_tot (n : Nat) (x : LeSlot) : (s.setSlot n x).tot = s.tot := rfl
@[simp] theorem State.setSlot_pending (n : Nat) (x : LeSlot) : (s.setSlot n x).pending = s.pending := rfl
@[simp] theorem State.setSlot_reg (n : Nat) (x : LeSlot) (r : Nat) : (s.setSlot n x).reg r = s.reg r := rfl
@[simp] theorem State.setSlot_fld (n : Nat) (x : LeSlot) (g : Field) : (s.setSlot n x).fld g = s.fld g := rfl
@[simp] theorem State.setSlot_flag (n : Nat) (x : LeSlot) (g : Field) : (s.setSlot n x).flag g = s.flag g := rfl
@[simp] theorem State.setSlot_rd8 (n : Nat) (x : LeSlot) (r : Nat) : (s.setSlot n x).rd8 r = s.rd8 r := rfl

/-! `State.setDrive` -/
@[simp] theorem State.setDrive_regs (d : Nat) (x : PdSt) : (s.setDrive d x).regs = s.regs := rfl
@[simp] theorem State.setDrive_mem (d : Nat) (x : PdSt) : (s.setDrive d x).mem = s.mem := rfl
@[simp] theorem State.setDrive_ecc (d : Nat) (x : PdSt) : (s.setDrive d x).ecc = s.ecc := rfl
@[simp] theorem State.setDrive_flash (d : Nat) (x : PdSt) : (s.setDrive d x).flash = s.flash := rfl
@[simp] theorem State.setDrive_readback (d : Nat) (x : PdSt) : (s.setDrive d x).readback = s.readback := rfl
@[simp] theorem State.setDrive_free (d : Nat) (x : PdSt) : (s.setDrive d x).free = s.free := rfl
@[simp] theorem State.setDrive_rst (d : Nat) (x : PdSt) : (s.setDrive d x).rst = s.rst := rfl
@[simp] theorem State.setDrive_boot (d : Nat) (x : PdSt) : (s.setDrive d x).boot = s.boot := rfl
@[simp] theorem State.setDrive_live (d : Nat) (x : PdSt) : (s.setDrive d x).live = s.live := rfl
@[simp] theorem State.setDrive_pwr (d : Nat) (x : PdSt) : (s.setDrive d x).pwr = s.pwr := rfl
@[simp] theorem State.setDrive_prof (d : Nat) (x : PdSt) : (s.setDrive d x).prof = s.prof := rfl
@[simp] theorem State.setDrive_pm (d : Nat) (x : PdSt) : (s.setDrive d x).pm = s.pm := rfl
@[simp] theorem State.setDrive_tune (d : Nat) (x : PdSt) : (s.setDrive d x).tune = s.tune := rfl
@[simp] theorem State.setDrive_sa (d : Nat) (x : PdSt) : (s.setDrive d x).sa = s.sa := rfl
@[simp] theorem State.setDrive_pt (d : Nat) (x : PdSt) : (s.setDrive d x).pt = s.pt := rfl
@[simp] theorem State.setDrive_cp (d : Nat) (x : PdSt) : (s.setDrive d x).cp = s.cp := rfl
@[simp] theorem State.setDrive_time (d : Nat) (x : PdSt) : (s.setDrive d x).time = s.time := rfl
@[simp] theorem State.setDrive_aon (d : Nat) (x : PdSt) : (s.setDrive d x).aon = s.aon := rfl
@[simp] theorem State.setDrive_net (d : Nat) (x : PdSt) : (s.setDrive d x).net = s.net := rfl
@[simp] theorem State.setDrive_rnd (d : Nat) (x : PdSt) : (s.setDrive d x).rnd = s.rnd := rfl
@[simp] theorem State.setDrive_wfl (d : Nat) (x : PdSt) : (s.setDrive d x).wfl = s.wfl := rfl
@[simp] theorem State.setDrive_se (d : Nat) (x : PdSt) : (s.setDrive d x).se = s.se := rfl
@[simp] theorem State.setDrive_way (d : Nat) (x : PdSt) : (s.setDrive d x).way = s.way := rfl
@[simp] theorem State.setDrive_vlt (d : Nat) (x : PdSt) : (s.setDrive d x).vlt = s.vlt := rfl
@[simp] theorem State.setDrive_lcs (d : Nat) (x : PdSt) : (s.setDrive d x).lcs = s.lcs := rfl
@[simp] theorem State.setDrive_ana (d : Nat) (x : PdSt) : (s.setDrive d x).ana = s.ana := rfl
@[simp] theorem State.setDrive_mh (d : Nat) (x : PdSt) : (s.setDrive d x).mh = s.mh := rfl
@[simp] theorem State.setDrive_me (d : Nat) (x : PdSt) : (s.setDrive d x).me = s.me := rfl
@[simp] theorem State.setDrive_tot (d : Nat) (x : PdSt) : (s.setDrive d x).tot = s.tot := rfl
@[simp] theorem State.setDrive_pending (d : Nat) (x : PdSt) : (s.setDrive d x).pending = s.pending := rfl
@[simp] theorem State.setDrive_reg (d : Nat) (x : PdSt) (r : Nat) : (s.setDrive d x).reg r = s.reg r := rfl
@[simp] theorem State.setDrive_fld (d : Nat) (x : PdSt) (g : Field) : (s.setDrive d x).fld g = s.fld g := rfl
@[simp] theorem State.setDrive_flag (d : Nat) (x : PdSt) (g : Field) : (s.setDrive d x).flag g = s.flag g := rfl
@[simp] theorem State.setDrive_rd8 (d : Nat) (x : PdSt) (r : Nat) : (s.setDrive d x).rd8 r = s.rd8 r := rfl

/-! `State.setPg` -/
@[simp] theorem State.setPg_regs (c : Nat) (x : PgCh) : (s.setPg c x).regs = s.regs := rfl
@[simp] theorem State.setPg_mem (c : Nat) (x : PgCh) : (s.setPg c x).mem = s.mem := rfl
@[simp] theorem State.setPg_ecc (c : Nat) (x : PgCh) : (s.setPg c x).ecc = s.ecc := rfl
@[simp] theorem State.setPg_flash (c : Nat) (x : PgCh) : (s.setPg c x).flash = s.flash := rfl
@[simp] theorem State.setPg_readback (c : Nat) (x : PgCh) : (s.setPg c x).readback = s.readback := rfl
@[simp] theorem State.setPg_free (c : Nat) (x : PgCh) : (s.setPg c x).free = s.free := rfl
@[simp] theorem State.setPg_rst (c : Nat) (x : PgCh) : (s.setPg c x).rst = s.rst := rfl
@[simp] theorem State.setPg_boot (c : Nat) (x : PgCh) : (s.setPg c x).boot = s.boot := rfl
@[simp] theorem State.setPg_live (c : Nat) (x : PgCh) : (s.setPg c x).live = s.live := rfl
@[simp] theorem State.setPg_pwr (c : Nat) (x : PgCh) : (s.setPg c x).pwr = s.pwr := rfl
@[simp] theorem State.setPg_prof (c : Nat) (x : PgCh) : (s.setPg c x).prof = s.prof := rfl
@[simp] theorem State.setPg_pm (c : Nat) (x : PgCh) : (s.setPg c x).pm = s.pm := rfl
@[simp] theorem State.setPg_tune (c : Nat) (x : PgCh) : (s.setPg c x).tune = s.tune := rfl
@[simp] theorem State.setPg_sa (c : Nat) (x : PgCh) : (s.setPg c x).sa = s.sa := rfl
@[simp] theorem State.setPg_pt (c : Nat) (x : PgCh) : (s.setPg c x).pt = s.pt := rfl
@[simp] theorem State.setPg_cp (c : Nat) (x : PgCh) : (s.setPg c x).cp = s.cp := rfl
@[simp] theorem State.setPg_time (c : Nat) (x : PgCh) : (s.setPg c x).time = s.time := rfl
@[simp] theorem State.setPg_aon (c : Nat) (x : PgCh) : (s.setPg c x).aon = s.aon := rfl
@[simp] theorem State.setPg_net (c : Nat) (x : PgCh) : (s.setPg c x).net = s.net := rfl
@[simp] theorem State.setPg_rnd (c : Nat) (x : PgCh) : (s.setPg c x).rnd = s.rnd := rfl
@[simp] theorem State.setPg_wfl (c : Nat) (x : PgCh) : (s.setPg c x).wfl = s.wfl := rfl
@[simp] theorem State.setPg_se (c : Nat) (x : PgCh) : (s.setPg c x).se = s.se := rfl
@[simp] theorem State.setPg_way (c : Nat) (x : PgCh) : (s.setPg c x).way = s.way := rfl
@[simp] theorem State.setPg_vlt (c : Nat) (x : PgCh) : (s.setPg c x).vlt = s.vlt := rfl
@[simp] theorem State.setPg_lcs (c : Nat) (x : PgCh) : (s.setPg c x).lcs = s.lcs := rfl
@[simp] theorem State.setPg_ana (c : Nat) (x : PgCh) : (s.setPg c x).ana = s.ana := rfl
@[simp] theorem State.setPg_mh (c : Nat) (x : PgCh) : (s.setPg c x).mh = s.mh := rfl
@[simp] theorem State.setPg_me (c : Nat) (x : PgCh) : (s.setPg c x).me = s.me := rfl
@[simp] theorem State.setPg_tot (c : Nat) (x : PgCh) : (s.setPg c x).tot = s.tot := rfl
@[simp] theorem State.setPg_pending (c : Nat) (x : PgCh) : (s.setPg c x).pending = s.pending := rfl
@[simp] theorem State.setPg_reg (c : Nat) (x : PgCh) (r : Nat) : (s.setPg c x).reg r = s.reg r := rfl
@[simp] theorem State.setPg_fld (c : Nat) (x : PgCh) (g : Field) : (s.setPg c x).fld g = s.fld g := rfl
@[simp] theorem State.setPg_flag (c : Nat) (x : PgCh) (g : Field) : (s.setPg c x).flag g = s.flag g := rfl
@[simp] theorem State.setPg_rd8 (c : Nat) (x : PgCh) (r : Nat) : (s.setPg c x).rd8 r = s.rd8 r := rfl

/-! `State.setCh` -/
@[simp] theorem State.setCh_regs (c : Nat) (x : BusCh) : (s.setCh c x).regs = s.regs := rfl
@[simp] theorem State.setCh_mem (c : Nat) (x : BusCh) : (s.setCh c x).mem = s.mem := rfl
@[simp] theorem State.setCh_ecc (c : Nat) (x : BusCh) : (s.setCh c x).ecc = s.ecc := rfl
@[simp] theorem State.setCh_flash (c : Nat) (x : BusCh) : (s.setCh c x).flash = s.flash := rfl
@[simp] theorem State.setCh_readback (c : Nat) (x : BusCh) : (s.setCh c x).readback = s.readback := rfl
@[simp] theorem State.setCh_free (c : Nat) (x : BusCh) : (s.setCh c x).free = s.free := rfl
@[simp] theorem State.setCh_rst (c : Nat) (x : BusCh) : (s.setCh c x).rst = s.rst := rfl
@[simp] theorem State.setCh_boot (c : Nat) (x : BusCh) : (s.setCh c x).boot = s.boot := rfl
@[simp] theorem State.setCh_live (c : Nat) (x : BusCh) : (s.setCh c x).live = s.live := rfl
@[simp] theorem State.setCh_pwr (c : Nat) (x : BusCh) : (s.setCh c x).pwr = s.pwr := rfl
@[simp] theorem State.setCh_prof (c : Nat) (x : BusCh) : (s.setCh c x).prof = s.prof := rfl
@[simp] theorem State.setCh_pm (c : Nat) (x : BusCh) : (s.setCh c x).pm = s.pm := rfl
@[simp] theorem State.setCh_le (c : Nat) (x : BusCh) : (s.setCh c x).le = s.le := rfl
@[simp] theorem State.setCh_tune (c : Nat) (x : BusCh) : (s.setCh c x).tune = s.tune := rfl
@[simp] theorem State.setCh_sa (c : Nat) (x : BusCh) : (s.setCh c x).sa = s.sa := rfl
@[simp] theorem State.setCh_pt (c : Nat) (x : BusCh) : (s.setCh c x).pt = s.pt := rfl
@[simp] theorem State.setCh_cp (c : Nat) (x : BusCh) : (s.setCh c x).cp = s.cp := rfl
@[simp] theorem State.setCh_time (c : Nat) (x : BusCh) : (s.setCh c x).time = s.time := rfl
@[simp] theorem State.setCh_aon (c : Nat) (x : BusCh) : (s.setCh c x).aon = s.aon := rfl
@[simp] theorem State.setCh_rnd (c : Nat) (x : BusCh) : (s.setCh c x).rnd = s.rnd := rfl
@[simp] theorem State.setCh_wfl (c : Nat) (x : BusCh) : (s.setCh c x).wfl = s.wfl := rfl
@[simp] theorem State.setCh_se (c : Nat) (x : BusCh) : (s.setCh c x).se = s.se := rfl
@[simp] theorem State.setCh_way (c : Nat) (x : BusCh) : (s.setCh c x).way = s.way := rfl
@[simp] theorem State.setCh_vlt (c : Nat) (x : BusCh) : (s.setCh c x).vlt = s.vlt := rfl
@[simp] theorem State.setCh_lcs (c : Nat) (x : BusCh) : (s.setCh c x).lcs = s.lcs := rfl
@[simp] theorem State.setCh_ana (c : Nat) (x : BusCh) : (s.setCh c x).ana = s.ana := rfl
@[simp] theorem State.setCh_mh (c : Nat) (x : BusCh) : (s.setCh c x).mh = s.mh := rfl
@[simp] theorem State.setCh_me (c : Nat) (x : BusCh) : (s.setCh c x).me = s.me := rfl
@[simp] theorem State.setCh_tot (c : Nat) (x : BusCh) : (s.setCh c x).tot = s.tot := rfl
@[simp] theorem State.setCh_pending (c : Nat) (x : BusCh) : (s.setCh c x).pending = s.pending := rfl
@[simp] theorem State.setCh_reg (c : Nat) (x : BusCh) (r : Nat) : (s.setCh c x).reg r = s.reg r := rfl
@[simp] theorem State.setCh_fld (c : Nat) (x : BusCh) (g : Field) : (s.setCh c x).fld g = s.fld g := rfl
@[simp] theorem State.setCh_flag (c : Nat) (x : BusCh) (g : Field) : (s.setCh c x).flag g = s.flag g := rfl
@[simp] theorem State.setCh_rd8 (c : Nat) (x : BusCh) (r : Nat) : (s.setCh c x).rd8 r = s.rd8 r := rfl

/-! `State.setRtd` -/
@[simp] theorem State.setRtd_regs (n : Nat) (x : RtdSt) : (s.setRtd n x).regs = s.regs := rfl
@[simp] theorem State.setRtd_mem (n : Nat) (x : RtdSt) : (s.setRtd n x).mem = s.mem := rfl
@[simp] theorem State.setRtd_ecc (n : Nat) (x : RtdSt) : (s.setRtd n x).ecc = s.ecc := rfl
@[simp] theorem State.setRtd_flash (n : Nat) (x : RtdSt) : (s.setRtd n x).flash = s.flash := rfl
@[simp] theorem State.setRtd_readback (n : Nat) (x : RtdSt) : (s.setRtd n x).readback = s.readback := rfl
@[simp] theorem State.setRtd_free (n : Nat) (x : RtdSt) : (s.setRtd n x).free = s.free := rfl
@[simp] theorem State.setRtd_rst (n : Nat) (x : RtdSt) : (s.setRtd n x).rst = s.rst := rfl
@[simp] theorem State.setRtd_boot (n : Nat) (x : RtdSt) : (s.setRtd n x).boot = s.boot := rfl
@[simp] theorem State.setRtd_live (n : Nat) (x : RtdSt) : (s.setRtd n x).live = s.live := rfl
@[simp] theorem State.setRtd_pwr (n : Nat) (x : RtdSt) : (s.setRtd n x).pwr = s.pwr := rfl
@[simp] theorem State.setRtd_prof (n : Nat) (x : RtdSt) : (s.setRtd n x).prof = s.prof := rfl
@[simp] theorem State.setRtd_pm (n : Nat) (x : RtdSt) : (s.setRtd n x).pm = s.pm := rfl
@[simp] theorem State.setRtd_le (n : Nat) (x : RtdSt) : (s.setRtd n x).le = s.le := rfl
@[simp] theorem State.setRtd_tune (n : Nat) (x : RtdSt) : (s.setRtd n x).tune = s.tune := rfl
@[simp] theorem State.setRtd_sa (n : Nat) (x : RtdSt) : (s.setRtd n x).sa = s.sa := rfl
@[simp] theorem State.setRtd_pt (n : Nat) (x : RtdSt) : (s.setRtd n x).pt = s.pt := rfl
@[simp] theorem State.setRtd_cp (n : Nat) (x : RtdSt) : (s.setRtd n x).cp = s.cp := rfl
@[simp] theorem State.setRtd_time (n : Nat) (x : RtdSt) : (s.setRtd n x).time = s.time := rfl
@[simp] theorem State.setRtd_aon (n : Nat) (x : RtdSt) : (s.setRtd n x).aon = s.aon := rfl
@[simp] theorem State.setRtd_net (n : Nat) (x : RtdSt) : (s.setRtd n x).net = s.net := rfl
@[simp] theorem State.setRtd_rnd (n : Nat) (x : RtdSt) : (s.setRtd n x).rnd = s.rnd := rfl
@[simp] theorem State.setRtd_wfl (n : Nat) (x : RtdSt) : (s.setRtd n x).wfl = s.wfl := rfl
@[simp] theorem State.setRtd_se (n : Nat) (x : RtdSt) : (s.setRtd n x).se = s.se := rfl
@[simp] theorem State.setRtd_way (n : Nat) (x : RtdSt) : (s.setRtd n x).way = s.way := rfl
@[simp] theorem State.setRtd_vlt (n : Nat) (x : RtdSt) : (s.setRtd n x).vlt = s.vlt := rfl
@[simp] theorem State.setRtd_lcs (n : Nat) (x : RtdSt) : (s.setRtd n x).lcs = s.lcs := rfl
@[simp] theorem State.setRtd_mh (n : Nat) (x : RtdSt) : (s.setRtd n x).mh = s.mh := rfl
@[simp] theorem State.setRtd_me (n : Nat) (x : RtdSt) : (s.setRtd n x).me = s.me := rfl
@[simp] theorem State.setRtd_tot (n : Nat) (x : RtdSt) : (s.setRtd n x).tot = s.tot := rfl
@[simp] theorem State.setRtd_pending (n : Nat) (x : RtdSt) : (s.setRtd n x).pending = s.pending := rfl
@[simp] theorem State.setRtd_reg (n : Nat) (x : RtdSt) (r : Nat) : (s.setRtd n x).reg r = s.reg r := rfl
@[simp] theorem State.setRtd_fld (n : Nat) (x : RtdSt) (g : Field) : (s.setRtd n x).fld g = s.fld g := rfl
@[simp] theorem State.setRtd_flag (n : Nat) (x : RtdSt) (g : Field) : (s.setRtd n x).flag g = s.flag g := rfl
@[simp] theorem State.setRtd_rd8 (n : Nat) (x : RtdSt) (r : Nat) : (s.setRtd n x).rd8 r = s.rd8 r := rfl

/-! `State.setPort` -/
@[simp] theorem State.setPort_regs (p : Nat) (x : MePort) : (s.setPort p x).regs = s.regs := rfl
@[simp] theorem State.setPort_mem (p : Nat) (x : MePort) : (s.setPort p x).mem = s.mem := rfl
@[simp] theorem State.setPort_ecc (p : Nat) (x : MePort) : (s.setPort p x).ecc = s.ecc := rfl
@[simp] theorem State.setPort_flash (p : Nat) (x : MePort) : (s.setPort p x).flash = s.flash := rfl
@[simp] theorem State.setPort_readback (p : Nat) (x : MePort) : (s.setPort p x).readback = s.readback := rfl
@[simp] theorem State.setPort_free (p : Nat) (x : MePort) : (s.setPort p x).free = s.free := rfl
@[simp] theorem State.setPort_rst (p : Nat) (x : MePort) : (s.setPort p x).rst = s.rst := rfl
@[simp] theorem State.setPort_boot (p : Nat) (x : MePort) : (s.setPort p x).boot = s.boot := rfl
@[simp] theorem State.setPort_live (p : Nat) (x : MePort) : (s.setPort p x).live = s.live := rfl
@[simp] theorem State.setPort_pwr (p : Nat) (x : MePort) : (s.setPort p x).pwr = s.pwr := rfl
@[simp] theorem State.setPort_prof (p : Nat) (x : MePort) : (s.setPort p x).prof = s.prof := rfl
@[simp] theorem State.setPort_pm (p : Nat) (x : MePort) : (s.setPort p x).pm = s.pm := rfl
@[simp] theorem State.setPort_le (p : Nat) (x : MePort) : (s.setPort p x).le = s.le := rfl
@[simp] theorem State.setPort_tune (p : Nat) (x : MePort) : (s.setPort p x).tune = s.tune := rfl
@[simp] theorem State.setPort_sa (p : Nat) (x : MePort) : (s.setPort p x).sa = s.sa := rfl
@[simp] theorem State.setPort_pt (p : Nat) (x : MePort) : (s.setPort p x).pt = s.pt := rfl
@[simp] theorem State.setPort_cp (p : Nat) (x : MePort) : (s.setPort p x).cp = s.cp := rfl
@[simp] theorem State.setPort_time (p : Nat) (x : MePort) : (s.setPort p x).time = s.time := rfl
@[simp] theorem State.setPort_aon (p : Nat) (x : MePort) : (s.setPort p x).aon = s.aon := rfl
@[simp] theorem State.setPort_net (p : Nat) (x : MePort) : (s.setPort p x).net = s.net := rfl
@[simp] theorem State.setPort_rnd (p : Nat) (x : MePort) : (s.setPort p x).rnd = s.rnd := rfl
@[simp] theorem State.setPort_wfl (p : Nat) (x : MePort) : (s.setPort p x).wfl = s.wfl := rfl
@[simp] theorem State.setPort_se (p : Nat) (x : MePort) : (s.setPort p x).se = s.se := rfl
@[simp] theorem State.setPort_way (p : Nat) (x : MePort) : (s.setPort p x).way = s.way := rfl
@[simp] theorem State.setPort_vlt (p : Nat) (x : MePort) : (s.setPort p x).vlt = s.vlt := rfl
@[simp] theorem State.setPort_lcs (p : Nat) (x : MePort) : (s.setPort p x).lcs = s.lcs := rfl
@[simp] theorem State.setPort_ana (p : Nat) (x : MePort) : (s.setPort p x).ana = s.ana := rfl
@[simp] theorem State.setPort_mh (p : Nat) (x : MePort) : (s.setPort p x).mh = s.mh := rfl
@[simp] theorem State.setPort_tot (p : Nat) (x : MePort) : (s.setPort p x).tot = s.tot := rfl
@[simp] theorem State.setPort_pending (p : Nat) (x : MePort) : (s.setPort p x).pending = s.pending := rfl
@[simp] theorem State.setPort_reg (p : Nat) (x : MePort) (r : Nat) : (s.setPort p x).reg r = s.reg r := rfl
@[simp] theorem State.setPort_fld (p : Nat) (x : MePort) (g : Field) : (s.setPort p x).fld g = s.fld g := rfl
@[simp] theorem State.setPort_flag (p : Nat) (x : MePort) (g : Field) : (s.setPort p x).flag g = s.flag g := rfl
@[simp] theorem State.setPort_rd8 (p : Nat) (x : MePort) (r : Nat) : (s.setPort p x).rd8 r = s.rd8 r := rfl

/-! `State.setLink` -/
@[simp] theorem State.setLink_regs (l : Nat) (x : WflLink) : (s.setLink l x).regs = s.regs := rfl
@[simp] theorem State.setLink_mem (l : Nat) (x : WflLink) : (s.setLink l x).mem = s.mem := rfl
@[simp] theorem State.setLink_ecc (l : Nat) (x : WflLink) : (s.setLink l x).ecc = s.ecc := rfl
@[simp] theorem State.setLink_flash (l : Nat) (x : WflLink) : (s.setLink l x).flash = s.flash := rfl
@[simp] theorem State.setLink_readback (l : Nat) (x : WflLink) : (s.setLink l x).readback = s.readback := rfl
@[simp] theorem State.setLink_free (l : Nat) (x : WflLink) : (s.setLink l x).free = s.free := rfl
@[simp] theorem State.setLink_rst (l : Nat) (x : WflLink) : (s.setLink l x).rst = s.rst := rfl
@[simp] theorem State.setLink_boot (l : Nat) (x : WflLink) : (s.setLink l x).boot = s.boot := rfl
@[simp] theorem State.setLink_live (l : Nat) (x : WflLink) : (s.setLink l x).live = s.live := rfl
@[simp] theorem State.setLink_pwr (l : Nat) (x : WflLink) : (s.setLink l x).pwr = s.pwr := rfl
@[simp] theorem State.setLink_prof (l : Nat) (x : WflLink) : (s.setLink l x).prof = s.prof := rfl
@[simp] theorem State.setLink_pm (l : Nat) (x : WflLink) : (s.setLink l x).pm = s.pm := rfl
@[simp] theorem State.setLink_le (l : Nat) (x : WflLink) : (s.setLink l x).le = s.le := rfl
@[simp] theorem State.setLink_tune (l : Nat) (x : WflLink) : (s.setLink l x).tune = s.tune := rfl
@[simp] theorem State.setLink_sa (l : Nat) (x : WflLink) : (s.setLink l x).sa = s.sa := rfl
@[simp] theorem State.setLink_pt (l : Nat) (x : WflLink) : (s.setLink l x).pt = s.pt := rfl
@[simp] theorem State.setLink_cp (l : Nat) (x : WflLink) : (s.setLink l x).cp = s.cp := rfl
@[simp] theorem State.setLink_time (l : Nat) (x : WflLink) : (s.setLink l x).time = s.time := rfl
@[simp] theorem State.setLink_aon (l : Nat) (x : WflLink) : (s.setLink l x).aon = s.aon := rfl
@[simp] theorem State.setLink_net (l : Nat) (x : WflLink) : (s.setLink l x).net = s.net := rfl
@[simp] theorem State.setLink_rnd (l : Nat) (x : WflLink) : (s.setLink l x).rnd = s.rnd := rfl
@[simp] theorem State.setLink_se (l : Nat) (x : WflLink) : (s.setLink l x).se = s.se := rfl
@[simp] theorem State.setLink_way (l : Nat) (x : WflLink) : (s.setLink l x).way = s.way := rfl
@[simp] theorem State.setLink_vlt (l : Nat) (x : WflLink) : (s.setLink l x).vlt = s.vlt := rfl
@[simp] theorem State.setLink_lcs (l : Nat) (x : WflLink) : (s.setLink l x).lcs = s.lcs := rfl
@[simp] theorem State.setLink_ana (l : Nat) (x : WflLink) : (s.setLink l x).ana = s.ana := rfl
@[simp] theorem State.setLink_mh (l : Nat) (x : WflLink) : (s.setLink l x).mh = s.mh := rfl
@[simp] theorem State.setLink_me (l : Nat) (x : WflLink) : (s.setLink l x).me = s.me := rfl
@[simp] theorem State.setLink_tot (l : Nat) (x : WflLink) : (s.setLink l x).tot = s.tot := rfl
@[simp] theorem State.setLink_pending (l : Nat) (x : WflLink) : (s.setLink l x).pending = s.pending := rfl
@[simp] theorem State.setLink_reg (l : Nat) (x : WflLink) (r : Nat) : (s.setLink l x).reg r = s.reg r := rfl
@[simp] theorem State.setLink_fld (l : Nat) (x : WflLink) (g : Field) : (s.setLink l x).fld g = s.fld g := rfl
@[simp] theorem State.setLink_flag (l : Nat) (x : WflLink) (g : Field) : (s.setLink l x).flag g = s.flag g := rfl
@[simp] theorem State.setLink_rd8 (l : Nat) (x : WflLink) (r : Nat) : (s.setLink l x).rd8 r = s.rd8 r := rfl

/-! `State.setPtSeg` -/
@[simp] theorem State.setPtSeg_regs (i : Nat) (x : PtSeg) : (s.setPtSeg i x).regs = s.regs := rfl
@[simp] theorem State.setPtSeg_mem (i : Nat) (x : PtSeg) : (s.setPtSeg i x).mem = s.mem := rfl
@[simp] theorem State.setPtSeg_ecc (i : Nat) (x : PtSeg) : (s.setPtSeg i x).ecc = s.ecc := rfl
@[simp] theorem State.setPtSeg_flash (i : Nat) (x : PtSeg) : (s.setPtSeg i x).flash = s.flash := rfl
@[simp] theorem State.setPtSeg_readback (i : Nat) (x : PtSeg) : (s.setPtSeg i x).readback = s.readback := rfl
@[simp] theorem State.setPtSeg_free (i : Nat) (x : PtSeg) : (s.setPtSeg i x).free = s.free := rfl
@[simp] theorem State.setPtSeg_rst (i : Nat) (x : PtSeg) : (s.setPtSeg i x).rst = s.rst := rfl
@[simp] theorem State.setPtSeg_boot (i : Nat) (x : PtSeg) : (s.setPtSeg i x).boot = s.boot := rfl
@[simp] theorem State.setPtSeg_live (i : Nat) (x : PtSeg) : (s.setPtSeg i x).live = s.live := rfl
@[simp] theorem State.setPtSeg_pwr (i : Nat) (x : PtSeg) : (s.setPtSeg i x).pwr = s.pwr := rfl
@[simp] theorem State.setPtSeg_prof (i : Nat) (x : PtSeg) : (s.setPtSeg i x).prof = s.prof := rfl
@[simp] theorem State.setPtSeg_pm (i : Nat) (x : PtSeg) : (s.setPtSeg i x).pm = s.pm := rfl
@[simp] theorem State.setPtSeg_le (i : Nat) (x : PtSeg) : (s.setPtSeg i x).le = s.le := rfl
@[simp] theorem State.setPtSeg_tune (i : Nat) (x : PtSeg) : (s.setPtSeg i x).tune = s.tune := rfl
@[simp] theorem State.setPtSeg_sa (i : Nat) (x : PtSeg) : (s.setPtSeg i x).sa = s.sa := rfl
@[simp] theorem State.setPtSeg_cp (i : Nat) (x : PtSeg) : (s.setPtSeg i x).cp = s.cp := rfl
@[simp] theorem State.setPtSeg_time (i : Nat) (x : PtSeg) : (s.setPtSeg i x).time = s.time := rfl
@[simp] theorem State.setPtSeg_aon (i : Nat) (x : PtSeg) : (s.setPtSeg i x).aon = s.aon := rfl
@[simp] theorem State.setPtSeg_net (i : Nat) (x : PtSeg) : (s.setPtSeg i x).net = s.net := rfl
@[simp] theorem State.setPtSeg_rnd (i : Nat) (x : PtSeg) : (s.setPtSeg i x).rnd = s.rnd := rfl
@[simp] theorem State.setPtSeg_wfl (i : Nat) (x : PtSeg) : (s.setPtSeg i x).wfl = s.wfl := rfl
@[simp] theorem State.setPtSeg_se (i : Nat) (x : PtSeg) : (s.setPtSeg i x).se = s.se := rfl
@[simp] theorem State.setPtSeg_way (i : Nat) (x : PtSeg) : (s.setPtSeg i x).way = s.way := rfl
@[simp] theorem State.setPtSeg_vlt (i : Nat) (x : PtSeg) : (s.setPtSeg i x).vlt = s.vlt := rfl
@[simp] theorem State.setPtSeg_lcs (i : Nat) (x : PtSeg) : (s.setPtSeg i x).lcs = s.lcs := rfl
@[simp] theorem State.setPtSeg_ana (i : Nat) (x : PtSeg) : (s.setPtSeg i x).ana = s.ana := rfl
@[simp] theorem State.setPtSeg_mh (i : Nat) (x : PtSeg) : (s.setPtSeg i x).mh = s.mh := rfl
@[simp] theorem State.setPtSeg_me (i : Nat) (x : PtSeg) : (s.setPtSeg i x).me = s.me := rfl
@[simp] theorem State.setPtSeg_tot (i : Nat) (x : PtSeg) : (s.setPtSeg i x).tot = s.tot := rfl
@[simp] theorem State.setPtSeg_pending (i : Nat) (x : PtSeg) : (s.setPtSeg i x).pending = s.pending := rfl
@[simp] theorem State.setPtSeg_reg (i : Nat) (x : PtSeg) (r : Nat) : (s.setPtSeg i x).reg r = s.reg r := rfl
@[simp] theorem State.setPtSeg_fld (i : Nat) (x : PtSeg) (g : Field) : (s.setPtSeg i x).fld g = s.fld g := rfl
@[simp] theorem State.setPtSeg_flag (i : Nat) (x : PtSeg) (g : Field) : (s.setPtSeg i x).flag g = s.flag g := rfl
@[simp] theorem State.setPtSeg_rd8 (i : Nat) (x : PtSeg) (r : Nat) : (s.setPtSeg i x).rd8 r = s.rd8 r := rfl

/-! `State.wrBytes` -/
@[simp] theorem State.wrBytes_regs (a : Nat) (l : List Byte) : (s.wrBytes a l).regs = s.regs := by
  induction l generalizing s a with
  | nil => rfl
  | cons b t ih => exact ih (s.wr8 a b) (a + 1)
@[simp] theorem State.wrBytes_ecc (a : Nat) (l : List Byte) : (s.wrBytes a l).ecc = s.ecc := by
  induction l generalizing s a with
  | nil => rfl
  | cons b t ih => exact ih (s.wr8 a b) (a + 1)
@[simp] theorem State.wrBytes_flash (a : Nat) (l : List Byte) : (s.wrBytes a l).flash = s.flash := by
  induction l generalizing s a with
  | nil => rfl
  | cons b t ih => exact ih (s.wr8 a b) (a + 1)
@[simp] theorem State.wrBytes_readback (a : Nat) (l : List Byte) : (s.wrBytes a l).readback = s.readback := by
  induction l generalizing s a with
  | nil => rfl
  | cons b t ih => exact ih (s.wr8 a b) (a + 1)
@[simp] theorem State.wrBytes_free (a : Nat) (l : List Byte) : (s.wrBytes a l).free = s.free := by
  induction l generalizing s a with
  | nil => rfl
  | cons b t ih => exact ih (s.wr8 a b) (a + 1)
@[simp] theorem State.wrBytes_rst (a : Nat) (l : List Byte) : (s.wrBytes a l).rst = s.rst := by
  induction l generalizing s a with
  | nil => rfl
  | cons b t ih => exact ih (s.wr8 a b) (a + 1)
@[simp] theorem State.wrBytes_boot (a : Nat) (l : List Byte) : (s.wrBytes a l).boot = s.boot := by
  induction l generalizing s a with
  | nil => rfl
  | cons b t ih => exact ih (s.wr8 a b) (a + 1)
@[simp] theorem State.wrBytes_live (a : Nat) (l : List Byte) : (s.wrBytes a l).live = s.live := by
  induction l generalizing s a with
  | nil => rfl
  | cons b t ih => exact ih (s.wr8 a b) (a + 1)
@[simp] theorem State.wrBytes_pwr (a : Nat) (l : List Byte) : (s.wrBytes a l).pwr = s.pwr := by
  induction l generalizing s a with
  | nil => rfl
  | cons b t ih => exact ih (s.wr8 a b) (a + 1)
@[simp] theorem State.wrBytes_prof (a : Nat) (l : List Byte) : (s.wrBytes a l).prof = s.prof := by
  induction l generalizing s a with
  | nil => rfl
  | cons b t ih => exact ih (s.wr8 a b) (a + 1)
@[simp] theorem State.wrBytes_pm (a : Nat) (l : List Byte) : (s.wrBytes a l).pm = s.pm := by
  induction l generalizing s a with
  | nil => rfl
  | cons b t ih => exact ih (s.wr8 a b) (a + 1)
@[simp] theorem State.wrBytes_le (a : Nat) (l : List Byte) : (s.wrBytes a l).le = s.le := by
  induction l generalizing s a with
  | nil => rfl
  | cons b t ih => exact ih (s.wr8 a b) (a + 1)
@[simp] theorem State.wrBytes_tune (a : Nat) (l : List Byte) : (s.wrBytes a l).tune = s.tune := by
  induction l generalizing s a with
  | nil => rfl
  | cons b t ih => exact ih (s.wr8 a b) (a + 1)
@[simp] theorem State.wrBytes_sa (a : Nat) (l : List Byte) : (s.wrBytes a l).sa = s.sa := by
  induction l generalizing s a with
  | nil => rfl
  | cons b t ih => exact ih (s.wr8 a b) (a + 1)
@[simp] theorem State.wrBytes_pt (a : Nat) (l : List Byte) : (s.wrBytes a l).pt = s.pt := by
  induction l generalizing s a with
  | nil => rfl
  | cons b t ih => exact ih (s.wr8 a b) (a + 1)
@[simp] theorem State.wrBytes_cp (a : Nat) (l : List Byte) : (s.wrBytes a l).cp = s.cp := by
  induction l generalizing s a with
  | nil => rfl
  | cons b t ih => exact ih (s.wr8 a b) (a + 1)
@[simp] theorem State.wrBytes_time (a : Nat) (l : List Byte) : (s.wrBytes a l).time = s.time := by
  induction l generalizing s a with
  | nil => rfl
  | cons b t ih => exact ih (s.wr8 a b) (a + 1)
@[simp] theorem State.wrBytes_aon (a : Nat) (l : List Byte) : (s.wrBytes a l).aon = s.aon := by
  induction l generalizing s a with
  | nil => rfl
  | cons b t ih => exact ih (s.wr8 a b) (a + 1)
@[simp] theorem State.wrBytes_net (a : Nat) (l : List Byte) : (s.wrBytes a l).net = s.net := by
  induction l generalizing s a with
  | nil => rfl
  | cons b t ih => exact ih (s.wr8 a b) (a + 1)
@[simp] theorem State.wrBytes_rnd (a : Nat) (l : List Byte) : (s.wrBytes a l).rnd = s.rnd := by
  induction l generalizing s a with
  | nil => rfl
  | cons b t ih => exact ih (s.wr8 a b) (a + 1)
@[simp] theorem State.wrBytes_wfl (a : Nat) (l : List Byte) : (s.wrBytes a l).wfl = s.wfl := by
  induction l generalizing s a with
  | nil => rfl
  | cons b t ih => exact ih (s.wr8 a b) (a + 1)
@[simp] theorem State.wrBytes_se (a : Nat) (l : List Byte) : (s.wrBytes a l).se = s.se := by
  induction l generalizing s a with
  | nil => rfl
  | cons b t ih => exact ih (s.wr8 a b) (a + 1)
@[simp] theorem State.wrBytes_way (a : Nat) (l : List Byte) : (s.wrBytes a l).way = s.way := by
  induction l generalizing s a with
  | nil => rfl
  | cons b t ih => exact ih (s.wr8 a b) (a + 1)
@[simp] theorem State.wrBytes_vlt (a : Nat) (l : List Byte) : (s.wrBytes a l).vlt = s.vlt := by
  induction l generalizing s a with
  | nil => rfl
  | cons b t ih => exact ih (s.wr8 a b) (a + 1)
@[simp] theorem State.wrBytes_lcs (a : Nat) (l : List Byte) : (s.wrBytes a l).lcs = s.lcs := by
  induction l generalizing s a with
  | nil => rfl
  | cons b t ih => exact ih (s.wr8 a b) (a + 1)
@[simp] theorem State.wrBytes_ana (a : Nat) (l : List Byte) : (s.wrBytes a l).ana = s.ana := by
  induction l generalizing s a with
  | nil => rfl
  | cons b t ih => exact ih (s.wr8 a b) (a + 1)
@[simp] theorem State.wrBytes_mh (a : Nat) (l : List Byte) : (s.wrBytes a l).mh = s.mh := by
  induction l generalizing s a with
  | nil => rfl
  | cons b t ih => exact ih (s.wr8 a b) (a + 1)
@[simp] theorem State.wrBytes_me (a : Nat) (l : List Byte) : (s.wrBytes a l).me = s.me := by
  induction l generalizing s a with
  | nil => rfl
  | cons b t ih => exact ih (s.wr8 a b) (a + 1)
@[simp] theorem State.wrBytes_tot (a : Nat) (l : List Byte) : (s.wrBytes a l).tot = s.tot := by
  induction l generalizing s a with
  | nil => rfl
  | cons b t ih => exact ih (s.wr8 a b) (a + 1)
@[simp] theorem State.wrBytes_pending (a : Nat) (l : List Byte) : (s.wrBytes a l).pending = s.pending := by
  induction l generalizing s a with
  | nil => rfl
  | cons b t ih => exact ih (s.wr8 a b) (a + 1)

/-! The gateways change the pending registers and the request of a DIO edge, and nothing else. -/
@[simp] theorem State.gateway_mem (n : Nat) : (s.gateway n).mem = s.mem := by
  unfold State.gateway; split <;> (try split) <;> rfl
@[simp] theorem State.gateway_ecc (n : Nat) : (s.gateway n).ecc = s.ecc := by
  unfold State.gateway; split <;> (try split) <;> rfl
@[simp] theorem State.gateway_flash (n : Nat) : (s.gateway n).flash = s.flash := by
  unfold State.gateway; split <;> (try split) <;> rfl
@[simp] theorem State.gateway_readback (n : Nat) : (s.gateway n).readback = s.readback := by
  unfold State.gateway; split <;> (try split) <;> rfl
@[simp] theorem State.gateway_free (n : Nat) : (s.gateway n).free = s.free := by
  unfold State.gateway; split <;> (try split) <;> rfl
@[simp] theorem State.gateway_rst (n : Nat) : (s.gateway n).rst = s.rst := by
  unfold State.gateway; split <;> (try split) <;> rfl
@[simp] theorem State.gateway_boot (n : Nat) : (s.gateway n).boot = s.boot := by
  unfold State.gateway; split <;> (try split) <;> rfl
@[simp] theorem State.gateway_live (n : Nat) : (s.gateway n).live = s.live := by
  unfold State.gateway; split <;> (try split) <;> rfl
@[simp] theorem State.gateway_pwr (n : Nat) : (s.gateway n).pwr = s.pwr := by
  unfold State.gateway; split <;> (try split) <;> rfl
@[simp] theorem State.gateway_prof (n : Nat) : (s.gateway n).prof = s.prof := by
  unfold State.gateway; split <;> (try split) <;> rfl
@[simp] theorem State.gateway_pm (n : Nat) : (s.gateway n).pm = s.pm := by
  unfold State.gateway; split <;> (try split) <;> rfl
@[simp] theorem State.gateway_le (n : Nat) : (s.gateway n).le = s.le := by
  unfold State.gateway; split <;> (try split) <;> rfl
@[simp] theorem State.gateway_tune (n : Nat) : (s.gateway n).tune = s.tune := by
  unfold State.gateway; split <;> (try split) <;> rfl
@[simp] theorem State.gateway_sa (n : Nat) : (s.gateway n).sa = s.sa := by
  unfold State.gateway; split <;> (try split) <;> rfl
@[simp] theorem State.gateway_pt (n : Nat) : (s.gateway n).pt = s.pt := by
  unfold State.gateway; split <;> (try split) <;> rfl
@[simp] theorem State.gateway_time (n : Nat) : (s.gateway n).time = s.time := by
  unfold State.gateway; split <;> (try split) <;> rfl
@[simp] theorem State.gateway_aon (n : Nat) : (s.gateway n).aon = s.aon := by
  unfold State.gateway; split <;> (try split) <;> rfl
@[simp] theorem State.gateway_net (n : Nat) : (s.gateway n).net = s.net := by
  unfold State.gateway; split <;> (try split) <;> rfl
@[simp] theorem State.gateway_rnd (n : Nat) : (s.gateway n).rnd = s.rnd := by
  unfold State.gateway; split <;> (try split) <;> rfl
@[simp] theorem State.gateway_wfl (n : Nat) : (s.gateway n).wfl = s.wfl := by
  unfold State.gateway; split <;> (try split) <;> rfl
@[simp] theorem State.gateway_se (n : Nat) : (s.gateway n).se = s.se := by
  unfold State.gateway; split <;> (try split) <;> rfl
@[simp] theorem State.gateway_way (n : Nat) : (s.gateway n).way = s.way := by
  unfold State.gateway; split <;> (try split) <;> rfl
@[simp] theorem State.gateway_vlt (n : Nat) : (s.gateway n).vlt = s.vlt := by
  unfold State.gateway; split <;> (try split) <;> rfl
@[simp] theorem State.gateway_lcs (n : Nat) : (s.gateway n).lcs = s.lcs := by
  unfold State.gateway; split <;> (try split) <;> rfl
@[simp] theorem State.gateway_ana (n : Nat) : (s.gateway n).ana = s.ana := by
  unfold State.gateway; split <;> (try split) <;> rfl
@[simp] theorem State.gateway_mh (n : Nat) : (s.gateway n).mh = s.mh := by
  unfold State.gateway; split <;> (try split) <;> rfl
@[simp] theorem State.gateway_me (n : Nat) : (s.gateway n).me = s.me := by
  unfold State.gateway; split <;> (try split) <;> rfl
@[simp] theorem State.gateway_tot (n : Nat) : (s.gateway n).tot = s.tot := by
  unfold State.gateway; split <;> (try split) <;> rfl
@[simp] theorem State.gateway_pending (n : Nat) : (s.gateway n).pending = s.pending := by
  unfold State.gateway; split <;> (try split) <;> rfl

/-- A property of states that every `f i` keeps is kept by `forN f`. -/
theorem forN_keeps {σ β : Type} (p : σ → β) (f : Nat → σ → σ) (h : ∀ i x, p (f i x) = p x) (n : Nat) (x : σ) :
    p (forN f n x) = p x := by
  induction n with
  | zero => rfl
  | succ n ih => exact (h n _).trans ih

@[simp] theorem State.intcLatch_mem : s.intcLatch.mem = s.mem := forN_keeps State.mem _ (fun i x => x.gateway_mem i) 80 s
@[simp] theorem State.intcLatch_ecc : s.intcLatch.ecc = s.ecc := forN_keeps State.ecc _ (fun i x => x.gateway_ecc i) 80 s
@[simp] theorem State.intcLatch_flash : s.intcLatch.flash = s.flash := forN_keeps State.flash _ (fun i x => x.gateway_flash i) 80 s
@[simp] theorem State.intcLatch_readback : s.intcLatch.readback = s.readback := forN_keeps State.readback _ (fun i x => x.gateway_readback i) 80 s
@[simp] theorem State.intcLatch_free : s.intcLatch.free = s.free := forN_keeps State.free _ (fun i x => x.gateway_free i) 80 s
@[simp] theorem State.intcLatch_rst : s.intcLatch.rst = s.rst := forN_keeps State.rst _ (fun i x => x.gateway_rst i) 80 s
@[simp] theorem State.intcLatch_boot : s.intcLatch.boot = s.boot := forN_keeps State.boot _ (fun i x => x.gateway_boot i) 80 s
@[simp] theorem State.intcLatch_live : s.intcLatch.live = s.live := forN_keeps State.live _ (fun i x => x.gateway_live i) 80 s
@[simp] theorem State.intcLatch_pwr : s.intcLatch.pwr = s.pwr := forN_keeps State.pwr _ (fun i x => x.gateway_pwr i) 80 s
@[simp] theorem State.intcLatch_prof : s.intcLatch.prof = s.prof := forN_keeps State.prof _ (fun i x => x.gateway_prof i) 80 s
@[simp] theorem State.intcLatch_pm : s.intcLatch.pm = s.pm := forN_keeps State.pm _ (fun i x => x.gateway_pm i) 80 s
@[simp] theorem State.intcLatch_le : s.intcLatch.le = s.le := forN_keeps State.le _ (fun i x => x.gateway_le i) 80 s
@[simp] theorem State.intcLatch_tune : s.intcLatch.tune = s.tune := forN_keeps State.tune _ (fun i x => x.gateway_tune i) 80 s
@[simp] theorem State.intcLatch_sa : s.intcLatch.sa = s.sa := forN_keeps State.sa _ (fun i x => x.gateway_sa i) 80 s
@[simp] theorem State.intcLatch_pt : s.intcLatch.pt = s.pt := forN_keeps State.pt _ (fun i x => x.gateway_pt i) 80 s
@[simp] theorem State.intcLatch_time : s.intcLatch.time = s.time := forN_keeps State.time _ (fun i x => x.gateway_time i) 80 s
@[simp] theorem State.intcLatch_aon : s.intcLatch.aon = s.aon := forN_keeps State.aon _ (fun i x => x.gateway_aon i) 80 s
@[simp] theorem State.intcLatch_net : s.intcLatch.net = s.net := forN_keeps State.net _ (fun i x => x.gateway_net i) 80 s
@[simp] theorem State.intcLatch_rnd : s.intcLatch.rnd = s.rnd := forN_keeps State.rnd _ (fun i x => x.gateway_rnd i) 80 s
@[simp] theorem State.intcLatch_wfl : s.intcLatch.wfl = s.wfl := forN_keeps State.wfl _ (fun i x => x.gateway_wfl i) 80 s
@[simp] theorem State.intcLatch_se : s.intcLatch.se = s.se := forN_keeps State.se _ (fun i x => x.gateway_se i) 80 s
@[simp] theorem State.intcLatch_way : s.intcLatch.way = s.way := forN_keeps State.way _ (fun i x => x.gateway_way i) 80 s
@[simp] theorem State.intcLatch_vlt : s.intcLatch.vlt = s.vlt := forN_keeps State.vlt _ (fun i x => x.gateway_vlt i) 80 s
@[simp] theorem State.intcLatch_lcs : s.intcLatch.lcs = s.lcs := forN_keeps State.lcs _ (fun i x => x.gateway_lcs i) 80 s
@[simp] theorem State.intcLatch_ana : s.intcLatch.ana = s.ana := forN_keeps State.ana _ (fun i x => x.gateway_ana i) 80 s
@[simp] theorem State.intcLatch_mh : s.intcLatch.mh = s.mh := forN_keeps State.mh _ (fun i x => x.gateway_mh i) 80 s
@[simp] theorem State.intcLatch_me : s.intcLatch.me = s.me := forN_keeps State.me _ (fun i x => x.gateway_me i) 80 s
@[simp] theorem State.intcLatch_tot : s.intcLatch.tot = s.tot := forN_keeps State.tot _ (fun i x => x.gateway_tot i) 80 s
@[simp] theorem State.intcLatch_pending : s.intcLatch.pending = s.pending := forN_keeps State.pending _ (fun i x => x.gateway_pending i) 80 s

end Sys2Proof.Machine
end

