-- ==== Sys2Proof/Laws/Ops.lean ====
section
/-! SUPPORT. What the shared operations over registers and memory do. -/

namespace Sys2Proof.Machine

/-- A register read after a register write. -/
theorem State.reg_setReg (s : State) (a b : Nat) (v : Word) : (s.setReg a v).reg b = if b = a then v else s.reg b :=
  sparseGet_set regReset s.regs a b v

@[simp] theorem State.reg_setReg_self (s : State) (a : Nat) (v : Word) : (s.setReg a v).reg a = v := by
  simp [State.reg_setReg]

theorem State.reg_setReg_ne (s : State) (a b : Nat) (v : Word) (h : b ≠ a) : (s.setReg a v).reg b = s.reg b := by
  simp [State.reg_setReg, h]

theorem State.reg_setFld_ne (s : State) (f : Field) (v b : Nat) (h : b ≠ f.addr) : (s.setFld f v).reg b = s.reg b :=
  s.reg_setReg_ne _ _ _ h

theorem State.reg_setFlag_ne (s : State) (f : Field) (v : Bool) (b : Nat) (h : b ≠ f.addr) :
    (s.setFlag f v).reg b = s.reg b := s.reg_setReg_ne _ _ _ h

theorem State.reg_setBit_ne (s : State) (f : Field) (i : Nat) (v : Bool) (b : Nat) (h : b ≠ f.addr) :
    (s.setBit f i v).reg b = s.reg b := s.reg_setReg_ne _ _ _ h

/-- A register read after registers are reset. -/
theorem State.reg_resetRegs (s : State) (p : Nat → Bool) (a : Nat) :
    (s.resetRegs p).reg a = if p a then regReset a else s.reg a := sparseGet_clear regReset p s.regs a

/-- A byte read after a byte write. -/
theorem State.rd8_wr8 (s : State) (a b : Nat) (v : Byte) : (s.wr8 a v).rd8 b = if b = a then v else s.rd8 b :=
  sparseGet_set memDefault s.mem a b v

/-- A byte read after memory is cleared. -/
theorem State.rd8_clearMem (s : State) (p : Nat → Bool) (a : Nat) :
    (s.clearMem p).rd8 a = if p a then memDefault a else s.rd8 a := sparseGet_clear memDefault p s.mem a

/-- Bytes written leave every byte outside them. -/
theorem State.rd8_wrBytes_out (s : State) (a : Nat) (l : List Byte) (b : Nat) (h : b < a ∨ a + l.length ≤ b) :
    (s.wrBytes a l).rd8 b = s.rd8 b := by
  induction l generalizing s a with
  | nil => rfl
  | cons x t ih =>
    simp only [List.length_cons] at h
    rw [State.wrBytes, ih _ _ (by omega), State.rd8_wr8]
    simp; omega

/-- Bytes written are the bytes read. -/
theorem State.rd8_wrBytes_in (s : State) (a : Nat) (l : List Byte) (i : Nat) (h : i < l.length) :
    (s.wrBytes a l).rd8 (a + i) = l[i] := by
  induction l generalizing s a i with
  | nil => simp at h
  | cons x t ih =>
    cases i with
    | zero =>
      rw [State.wrBytes, State.rd8_wrBytes_out _ _ _ _ (by omega)]
      simp [State.rd8_wr8]
    | succ i =>
      have := ih (s.wr8 a x) (a + 1) i (by simpa using h)
      rw [State.wrBytes, show a + (i + 1) = a + 1 + i by omega, this]
      simp

/-- Every memory operation keeps the canonical form. -/
theorem Memory.wf_wr8 (s : State) (a : Nat) (v : Byte) (h : Memory.wf s.mem = true) : Memory.wf (s.wr8 a v).mem = true :=
  sparseWf_set memDefault s.mem a v h

theorem Memory.wf_clearMem (s : State) (p : Nat → Bool) (h : Memory.wf s.mem = true) :
    Memory.wf (s.clearMem p).mem = true := sparseWf_clear memDefault p s.mem h

theorem Memory.wf_wrBytes (s : State) (a : Nat) (l : List Byte) (h : Memory.wf s.mem = true) :
    Memory.wf (s.wrBytes a l).mem = true := by
  induction l generalizing s a with
  | nil => exact h
  | cons b t ih => exact ih _ _ (Memory.wf_wr8 s a b h)

/-- Every register operation keeps the canonical form. -/
theorem State.regsWf_setReg (s : State) (a : Nat) (v : Word) (h : s.regsWf = true) : (s.setReg a v).regsWf = true :=
  sparseWf_set regReset s.regs a v h

theorem State.regsWf_setFld (s : State) (f : Field) (v : Nat) (h : s.regsWf = true) : (s.setFld f v).regsWf = true :=
  s.regsWf_setReg _ _ h

theorem State.regsWf_setFlag (s : State) (f : Field) (v : Bool) (h : s.regsWf = true) : (s.setFlag f v).regsWf = true :=
  s.regsWf_setReg _ _ h

theorem State.regsWf_resetRegs (s : State) (p : Nat → Bool) (h : s.regsWf = true) : (s.resetRegs p).regsWf = true :=
  sparseWf_clear regReset p s.regs h

/-- The memory of the reset state has the canonical form. -/
theorem Memory.wf_reset : Memory.wf State.reset.mem = true := rfl

/-- A field put into a word and read from it. -/
theorem Field.bits_put (f : Field) (w : Word) (v : Nat) (h : f.lo ≤ f.hi) (h' : f.hi < 32) :
    bits (f.put w v).toNat f.hi f.lo = v % 2 ^ (f.hi + 1 - f.lo) := by
  apply Nat.eq_of_testBit_eq
  intro i
  simp only [bits, Nat.testBit_mod_two_pow, Nat.testBit_div_two_pow, Field.put, BitVec.testBit_toNat, BitVec.getLsbD_or,
    BitVec.getLsbD_and, BitVec.getLsbD_not, BitVec.getLsbD_ofNat, Field.mask, Nat.testBit_mul_two_pow,
    Nat.testBit_two_pow_sub_one]
  by_cases hi : i < f.hi + 1 - f.lo
  · have h2 : i + f.lo < 32 := by omega
    simp [hi, h2]
  · simp [hi]

theorem State.fld_setFld_self (s : State) (f : Field) (v : Nat) (h : f.lo ≤ f.hi) (h' : f.hi < 32) :
    (s.setFld f v).fld f = v % 2 ^ (f.hi + 1 - f.lo) := by
  simp only [State.fld, State.setFld, State.reg_setReg_self]
  exact f.bits_put _ v h h'

theorem State.fld_setFld_ne (s : State) (f g : Field) (v : Nat) (h : g.addr ≠ f.addr) : (s.setFld f v).fld g = s.fld g := by
  simp only [State.fld, State.reg_setFld_ne s f v g.addr h]

/-- A field read after another field of the same register is set, where the two share no bit. -/
theorem State.fld_setFld_disjoint (s : State) (f g : Field) (v : Nat) (h : g.hi < f.lo ∨ f.hi < g.lo) (h' : g.hi < 32) :
    (s.setFld f v).fld g = s.fld g := by
  by_cases e : g.addr = f.addr
  · simp only [State.fld, State.setFld, e, State.reg_setReg_self]
    apply Nat.eq_of_testBit_eq
    intro i
    simp only [bits, Nat.testBit_mod_two_pow, Nat.testBit_div_two_pow, Field.put, BitVec.testBit_toNat, BitVec.getLsbD_or,
      BitVec.getLsbD_and, BitVec.getLsbD_not, BitVec.getLsbD_ofNat, Field.mask, Nat.testBit_mul_two_pow,
      Nat.testBit_two_pow_sub_one]
    by_cases hi : i < g.hi + 1 - g.lo
    · have h2 : i + g.lo < 32 := by omega
      rcases h with h | h
      · have h3 : ¬ f.lo ≤ i + g.lo := by omega
        simp [hi, h2, h3]
      · have h3 : ¬ (i + g.lo - f.lo < f.hi + 1 - f.lo) := by omega
        simp [hi, h2, h3]
    · simp [hi]
  · exact s.fld_setFld_ne f g v e

/-! The same for flags. -/

theorem State.flag_setFlag_self (s : State) (f : Field) (b : Bool) (h : f.lo = f.hi) (h' : f.hi < 32) :
    (s.setFlag f b).flag f = b := by
  unfold State.flag State.setFlag
  rw [State.fld_setFld_self _ _ _ (by omega) h', h]
  cases b <;> simp [b2n]

theorem State.fld_setFlag_ne (s : State) (f g : Field) (v : Bool) (h : g.addr ≠ f.addr) : (s.setFlag f v).fld g = s.fld g :=
  s.fld_setFld_ne _ _ _ h

theorem State.fld_setFlag_disjoint (s : State) (f g : Field) (v : Bool) (h : g.hi < f.lo ∨ f.hi < g.lo) (h' : g.hi < 32) :
    (s.setFlag f v).fld g = s.fld g := s.fld_setFld_disjoint _ _ _ h h'

theorem State.flag_setFld_ne (s : State) (f g : Field) (v : Nat) (h : g.addr ≠ f.addr) : (s.setFld f v).flag g = s.flag g := by
  simp only [State.flag, s.fld_setFld_ne f g v h]

theorem State.flag_setFld_disjoint (s : State) (f g : Field) (v : Nat) (h : g.hi < f.lo ∨ f.hi < g.lo) (h' : g.hi < 32) :
    (s.setFld f v).flag g = s.flag g := by simp only [State.flag, s.fld_setFld_disjoint f g v h h']

theorem State.flag_setFlag_ne (s : State) (f g : Field) (v : Bool) (h : g.addr ≠ f.addr) : (s.setFlag f v).flag g = s.flag g :=
  s.flag_setFld_ne _ _ _ h

theorem State.flag_setFlag_disjoint (s : State) (f g : Field) (v : Bool) (h : g.hi < f.lo ∨ f.hi < g.lo) (h' : g.hi < 32) :
    (s.setFlag f v).flag g = s.flag g := s.flag_setFld_disjoint _ _ _ h h'

theorem State.fld_setReg_ne (s : State) (a : Nat) (v : Word) (g : Field) (h : g.addr ≠ a) : (s.setReg a v).fld g = s.fld g := by
  simp only [State.fld, s.reg_setReg_ne a g.addr v h]

theorem State.flag_setReg_ne (s : State) (a : Nat) (v : Word) (g : Field) (h : g.addr ≠ a) : (s.setReg a v).flag g = s.flag g := by
  simp only [State.flag, s.fld_setReg_ne a v g h]

theorem State.fld_setBit_ne (s : State) (f g : Field) (i : Nat) (v : Bool) (h : g.addr ≠ f.addr) : (s.setBit f i v).fld g = s.fld g :=
  s.fld_setFld_ne _ _ _ h

theorem State.flag_setBit_ne (s : State) (f g : Field) (i : Nat) (v : Bool) (h : g.addr ≠ f.addr) :
    (s.setBit f i v).flag g = s.flag g := s.flag_setFld_ne _ _ _ h

end Sys2Proof.Machine
end

