-- ==== Sys2Proof/Laws/Cp.lean ====
section
/-! SUPPORT. What an access by the control processor can do (R104, R105, R108). -/

namespace Sys2Proof.Machine

/-- All that a command of the CP can do: nothing while the CP does not run, else its effect. -/
theorem State.cpDoes_cases (s : State) (f : State → State) :
    (s.cpStopped = true ∧ s.cpDoes f = State.out s) ∨ (s.cpStopped = false ∧ s.cpDoes f = State.out (f s)) := by
  cases h : s.cpStopped <;> simp [State.cpDoes, h]

/-- All that an access can do: nothing while the CP does not run, else the fault it takes, else its effect. -/
theorem State.cpAccess_cases (s : State) (a : Word) (k : AccessKind) (n : Fin 3) (f : State → State) :
    (s.cpStopped = true ∧ s.cpAccess a k n f = State.out s) ∨
    (s.cpStopped = false ∧ s.accessFaults { addr := a, kind := k, size := n, who := .machine } false = true ∧
      s.cpAccess a k n f = State.out (s.takeFault { addr := a, kind := k, size := n, who := .machine })) ∨
    (s.cpStopped = false ∧ s.accessFaults { addr := a, kind := k, size := n, who := .machine } false = false ∧
      s.cpAccess a k n f = State.out (f s)) := by
  cases h : s.cpStopped <;>
    cases h' : s.accessFaults { addr := a, kind := k, size := n, who := .machine } false <;>
      simp [State.cpAccess, State.cpDoes, h, h']

@[simp] theorem State.trapTaken_trap (s : State) (c : Nat) : (s.trapTaken c).cp.trap = some c := rfl
@[simp] theorem State.trapTaken_machine (s : State) (c : Nat) : (s.trapTaken c).cp.machine = true := rfl
@[simp] theorem State.trapTaken_reg (s : State) (c a : Nat) : (s.trapTaken c).reg a = s.reg a := rfl
@[simp] theorem State.trapTaken_mem (s : State) (c : Nat) : (s.trapTaken c).mem = s.mem := rfl

/-- A fault that the firewall does not deny takes the trap of its kind and changes nothing else. -/
theorem State.takeFault_trap (s : State) (x : CpAccess) (h : cpDenied x = false) (h' : x.who ≠ .debug) :
    s.takeFault x = s.trapTaken (faultCause x.kind) := by simp [State.takeFault, h, h']

/-- A fault of the debugger that the firewall does not deny shows in `sberror` alone. -/
theorem State.takeFault_debug (s : State) (x : CpAccess) (h : cpDenied x = false) (h' : x.who = .debug) :
    s.takeFault x = s.setCp { s.cp with sberror := if cpMisaligned x then 3 else 2 } := by simp [State.takeFault, h, h']

end Sys2Proof.Machine
end

