-- ==== Sys2Proof/Laws/Intc.lean ====
section
/-! SUPPORT. What the interrupt gateways at the end of every command change (R112). -/

namespace Sys2Proof.Machine

/-- The addresses of the pending registers. -/
theorem intcPend_addr (k : Nat) (h : k < 3) : INTC_PEND k = 0x40131000 ∨ INTC_PEND k = 0x40131004 ∨ INTC_PEND k = 0x40131008 := by
  simp only [INTC_PEND]; omega

/-- A gateway writes a pending register only. -/
theorem State.reg_gateway (s : State) (n a : Nat) (h : a ≠ INTC_PEND (n / 32)) : (s.gateway n).reg a = s.reg a := by
  unfold State.gateway
  split
  · split
    · exact (State.setCp_reg _ _ _).trans (s.reg_setBit_ne _ _ _ _ h)
    · exact s.reg_setBit_ne _ _ _ _ h
  · rfl

/-- The gateways write pending registers only. -/
theorem State.reg_intcLatch_ne (s : State) (a : Nat) (h : ∀ k < 3, a ≠ INTC_PEND k) : s.intcLatch.reg a = s.reg a := by
  have key : ∀ m ≤ 80, (forN (fun n (x : State) => x.gateway n) m s).reg a = s.reg a := by
    intro m
    induction m with
    | zero => intro _; rfl
    | succ m ih =>
      intro hm
      simp only [forN]
      rw [State.reg_gateway _ _ _ (h _ (by omega)), ih (by omega)]
  exact key 80 (by omega)

theorem State.reg_intcLatch (s : State) (a : Nat) (h : a < 0x40131000 ∨ 0x4013100C ≤ a) : s.intcLatch.reg a = s.reg a :=
  s.reg_intcLatch_ne a fun k hk => by simp only [INTC_PEND]; omega

theorem State.fld_intcLatch (s : State) (f : Field) (h : f.addr < 0x40131000 ∨ 0x4013100C ≤ f.addr) :
    s.intcLatch.fld f = s.fld f := by simp only [State.fld, s.reg_intcLatch f.addr h]

theorem State.flag_intcLatch (s : State) (f : Field) (h : f.addr < 0x40131000 ∨ 0x4013100C ≤ f.addr) :
    s.intcLatch.flag f = s.flag f := by simp only [State.flag, s.fld_intcLatch f h]

@[simp] theorem State.intcLatch_rd8 (s : State) (a : Nat) : s.intcLatch.rd8 a = s.rd8 a := by
  simp only [State.rd8, State.intcLatch_mem]

/-- A gateway keeps the control processor's state but for the request of a DIO edge. -/
theorem State.cp_gateway (s : State) (n : Nat) : (s.gateway n).cp = { s.cp with dioReq := (s.gateway n).cp.dioReq } := by
  unfold State.gateway
  split
  · split <;> rfl
  · rfl

/-- The gateways keep the control processor's state but for the request of a DIO edge. -/
theorem State.cp_intcLatch (s : State) : s.intcLatch.cp = { s.cp with dioReq := s.intcLatch.cp.dioReq } := by
  have key : ∀ m, (forN (fun n (x : State) => x.gateway n) m s).cp
      = { s.cp with dioReq := (forN (fun n (x : State) => x.gateway n) m s).cp.dioReq } := by
    intro m
    induction m with
    | zero => rfl
    | succ m ih =>
      simp only [forN]
      rw [State.cp_gateway, ih]
  exact key 80

/-- A state is its fields. -/
theorem State.eta (t : State) : t = ⟨t.regs, t.mem, t.ecc, t.flash, t.readback, t.free, t.rst, t.boot, t.live, t.pwr, t.prof, t.pm, t.le,
    t.tune, t.sa, t.pt, t.cp, t.time, t.aon, t.net, t.rnd, t.wfl, t.se, t.way, t.vlt, t.lcs, t.ana, t.mh, t.me, t.tot, t.pending⟩ := rfl

/-- Everything the gateways can change. -/
theorem State.intcLatch_eq (s : State) :
    s.intcLatch = { s with regs := s.intcLatch.regs, cp := { s.cp with dioReq := s.intcLatch.cp.dioReq } } := by
  rw [← State.cp_intcLatch, State.eta s.intcLatch]
  simp

/-- Every meaning answers through `State.out`: its next state is what its effect leaves, with the requests forwarded. -/
theorem State.out_next (s t : State) : s.out = .next t ↔ t = s.intcLatch := by
  unfold State.out
  constructor
  · intro h; injection h with h; exact h.symm
  · rintro rfl; rfl

end Sys2Proof.Machine
end

