-- ==== Sys2Proof/Tests/Slice0.lean ====
section
/-! SUPPORT. Tests: terms that are not well formed, worked examples of the manual, and for every statement states and operands
that meet its hypotheses. -/

namespace Sys2Proof.Tests

open Sys2Proof.Machine

-- Elaborated one after the other: the kernel evaluates every witness, and the threads that wait for it would pile up.
set_option Elab.async false

/-! Each check of `Instr.wf` refuses a term. -/

theorem test_wf_two_ports : Instr.wf (.meteringSample [[0, 0, 0, 0, 0, 0, 0, 0]] false) = false := by decide
theorem test_wf_eight_codes : Instr.wf (.meteringSample [[0, 0, 0], List.replicate 8 0] false) = false := by decide
theorem test_wf_code_range : Instr.wf (.meteringSample [List.replicate 8 (2 ^ 23), List.replicate 8 0] false) = false := by decide
theorem test_wf_base_identifier : Instr.wf (.canFrameReceived 0 ⟨0x800, false, false, false, false, false, 0, []⟩ 0) = false := by decide
theorem test_wf_classical_bits : Instr.wf (.canFrameReceived 0 ⟨1, false, false, false, true, false, 0, []⟩ 0) = false := by decide
theorem test_wf_no_remote_fd : Instr.wf (.canFrameReceived 0 ⟨1, false, true, true, false, false, 0, []⟩ 0) = false := by decide
theorem test_wf_frame_length : Instr.wf (.canFrameReceived 0 ⟨1, false, false, false, false, false, 8, List.replicate 9 0⟩ 0) = false := by
  decide
theorem test_wf_canvas_offset : Instr.wf (.canvasStoreWrite 2 2 0) = false := by decide
theorem test_wf_plug_offset : Instr.wf (.plugStoreWrite 1 1 0) = false := by decide
theorem test_wf_area_offset : Instr.wf (.seAreaWrite 3 2 0) = false := by decide
theorem test_wf_register_address : Instr.wf (.registerWrite 0x40000002 0) = false := by decide
theorem test_wf_read_address : Instr.wf (.capturingRead 0x40000001) = false := by decide
theorem test_wf_counted_address : Instr.wf (.eccCountedRead 0x20000002 .corrected 0) = false := by decide
theorem test_wf_ethernet_length : Instr.wf (.ethDatagram 0 [1, 2, 3] 0) = false := by decide
theorem test_wf_ref_length : Instr.wf (.refReceive 0 0 [1, 2, 3] 0) = false := by decide
theorem test_wf_response_length : Instr.wf (.wflResponse 0 (List.replicate 263 0) false 0) = false := by decide +kernel
theorem test_wf_rtd_channel : Instr.wf (.wakePerSample ⟨0, [], [(16, 0)], 0, 0, false⟩) = false := by decide
theorem test_wf_millivolts : Instr.wf (.vbatMeasurement 65536) = false := by decide

/-! Worked examples of the manual. -/

/-- Chapter 07, "renormalising an output stage". -/
theorem test_renormalise :
    renorm [⟨3 * 2 ^ 40 + 2 ^ 18 + 1, -41⟩, ⟨-(2 ^ 39), -41⟩, ⟨3 * 2 ^ 18, -41⟩]
      = [⟨6291457, 1, false⟩, ⟨-1048576, 1, false⟩, ⟨2, 1, false⟩] := by decide +kernel

/-- Chapter 07, "converting two targets". -/
theorem test_two_targets : renorm [⟨9483059, -17⟩, ⟨15518925, -23⟩] = [⟨4741530, 7, false⟩, ⟨121242, 7, false⟩] := by decide +kernel

/-- Chapter 17, "a price caravan, whole and cut short". -/
theorem test_caravan_header : carHeader 0x5A 6 true 324 = 0x0144465A := by decide

/-- The check value of the CRC-32 of R358 over the digits 1 to 9. -/
theorem test_crc32 : crc32 (ascii "123456789") = 0xCBF43926 := by decide +kernel

/-- The check value of the CRC-16 of R402 over the digits 1 to 9. -/
theorem test_crc16 : crc16 (ascii "123456789") = 0x29B1 := by decide +kernel

/-- Chapter 08, "a valve target raised during acceleration": the durations of the first move, 0.5, 1.5, 0.5, 3.5, 0.5, 1.5 and
0.5 s in binary64, its limits 10, 5 and 10. -/
theorem test_whole_move :
    (pgPlan 0x4024000000000000 0x4014000000000000 0x4024000000000000 0x4034000000000000 0 0 0x4054000000000000).map Prod.snd
      = [0x3FE0000000000000, 0x3FF8000000000000, 0x3FE0000000000000, 0x400C000000000000, 0x3FE0000000000000, 0x3FF8000000000000,
        0x3FE0000000000000] := by decide +kernel

/-- The block before step 2 of the example of chapter 18, "a shift and a load past two alarms": both alarms set, the shift armed. -/
def wShift (a : AonSt) : State :=
  let s := (({ State.reset with aon := a } : State).setReg64 (AON_ALM_VAL0 0) (AON_ALM_VAL1 0) 0x12349000).setReg (AON_ALM_CFG 0) 0x7F
  (s.setReg64 (AON_ALM_VAL0 1) (AON_ALM_VAL1 1) 0x12347000).setReg (AON_ALM_CFG 1) 0x7F

/-- Step 2: the second boundary applies the shift, and alarm 1 does not fire again. -/
theorem test_shift_at_boundary :
    (match exec .secondBoundary (wShift { count := 0x12347FFF, high := 0x12347FFF, shift := some (-8192) }) with
      | .next t => t.aon.count == 0x12346000 && t.aon.high == 0x12347FFF && !t.flag (AON_ALM_CFG.FIRED 1)
      | _ => false) = true := by decide +kernel

/-- Step 4: the load skips past alarm 0, which fires with SKIPPED; alarm 1 lies at or below H. -/
theorem test_load_past_alarms :
    (match exec .loadEffect (wShift { count := 0x12346801, high := 0x12347FFF, load := some 0x1234A000, aged := true }) with
      | .next t => t.aon.count == 0x1234A000 && t.fld (AON_ALM_CFG.CODE 0) == Code.skipped && !t.flag (AON_ALM_CFG.FIRED 1)
      | _ => false) = true := by decide +kernel

/-- The worked example of chapter 2: WF12_DE is C14, PD2_VL is M25, DIO20 is G2. -/
theorem test_three_balls :
    ballSignal 3 14 = some (.wfDe 12) ∧ ballSignal 12 25 = some (.pdLow 2 1) ∧ ballSignal 7 2 = some (.dio 20)
    ∧ ballCentre 3 14 = (1, 21) := by decide

/-- How many balls carry a signal. -/
def ballCount (x : Signal) : Nat :=
  (List.range 26).foldl (fun n r => (List.range 26).foldl (fun n c => if ballSignal (r + 1) (c + 1) = some x then n + 1 else n) n) 0

/-- The supply balls of chapter 2. -/
theorem test_supply_balls : ballCount .vdd08 = 96 ∧ ballCount .vdd33 = 36 ∧ ballCount .vdda18 = 16 ∧ ballCount .vhold = 3
    ∧ ballCount .vbat = 1 ∧ ballCount .vss = 135 ∧ ballCount .vssa = 38 := by decide +kernel

/-! States for the witnesses. -/

/-- The state after reset with the AON domain as given. -/
def wAon (a : AonSt) : State := { State.reset with aon := a }
/-- The state after reset with the start sequence as given. -/
def wBoot (b : BootSt) : State := { State.reset with boot := b }
/-- The state after reset with the supply as given and PF_WARN deasserted. -/
def wPwr (p : PwrSt) : State := { State.reset.setFlag PWR_STAT.PFW false with pwr := p }
/-- A running state: rails good, clocks locked, started, not in the ground configuration. -/
def wRun : State :=
  let s : State := { State.reset with pwr := { on := true, holder := some 0, reg := true, rails := true }, boot := { step := 10 } }
  (((s.setFlag SYS_CLK_STAT.PLL_LOCK true).setFlag SYS_CLK_STAT.HFXO_ON true).setFlag PWR_STAT.PFW false).setFlag SYS_ROLE.GROUND
    false
/-- A running state in profile `p`. -/
def wProf (p : Nat) : State := wRun.setFld SYS_PROF_STAT.CUR p
/-- A cut that falls before anything has been written. -/
def noCut : CutPoint := ⟨0, 0, 0, 0, 0, 0, 0⟩
/-- A check at which both feeds and VHOLD are well. -/
def goodCheck : SupervisorSample :=
  { vfa := 24000, vfb := 24000, vhold := 12000, faultA := false, faultB := false, phase := 0, vdd33 := 3300, vdd08 := 800, vdda18 := 1800, closed := true }
/-- The running state in the clocks of SLEEP. -/
def wSleep : State := { wProf 4 with prof := { sleep := true } }
/-- The running state within a hold window. -/
def wHold : State := wRun.setFlag PWR_STAT.HOLD true
/-- The running state with PF_WARN asserted and HOLDUP forced. -/
def wPfw : State := (wRun.setFlag PWR_STAT.PFW true).setFlag SYS_PROF_STAT.FORCED true
/-- The running state with the loop engine on and slot `n` admitted and enabled. -/
def wSlot (n : Nat) : State :=
  ((wRun.setFlag LE_CTL.EN true).setFlag (LE_SLOT_CFG.ADM n) true).setFlag (LE_SLOT_CTL.EN n) true
/-- The running state with the loop engine on. -/
def wLe : State := wRun.setFlag LE_CTL.EN true
/-- The running state with drive `d` on, its slot 5 admitted. -/
def wDrive (d : Nat) : State :=
  let s := (((wSlot 5).setFlag (PD_CFG.EN d) true).setFlag (PD_STAT.FIRST d) false).setFld (LE_SLOT_CFG.DST 5) (0x200 + d)
  { s with le := { s.le with pd := putAt s.le.pd d { stepped := true } } }
/-- The running state with an injection authorised into slot 5. -/
def wInj : State :=
  (((wSlot 5).setFlag TUNE_STAT.AUTH true).setFld LCS_STAT.STATE 3).setReg TUNE_INJ_CFG 0x00700005
/-- The running state with canvas entry `i` in state `st`: of order 1, one problem, at 0x800 · (i + 1). -/
def wCanvas (i st : Nat) : State :=
  (((wRun.wr32 (dirAt i) (st + 0x10000)).wr32 (dirAt i + 4) 1).wr32 (dirAt i + 8) (0x800 * (i + 1))).wr32
    (canvasBase + 0x800 * (i + 1)) 256
/-- The descriptor of a job on slot 0 with a deadline of 1,000 ticks. -/
def wDesc : List Nat := [1, 0x10000, 1000, 0, 7, 0, 0, 0, 0x20000100, 0, 0, 0, 0, 0, 0, 0]
/-- The job it describes, waiting since tick 0. -/
def wJob : SaJob := { id := 0, prio := 0, desc := wDesc, accept := 0 }
/-- A state with that descriptor in CP SRAM, slot 0 ready and the solver on. -/
def wSubmit : State :=
  ((wCanvas 0 3).setFlag SA_CTL.EN true).wrBytes 0x20000000 (wDesc.flatMap (toBytes 4))
/-- A running node in role `r` whose Network Time is valid and past a boundary and a sixteenth. -/
def wNode (r : Nat) : State :=
  let s := ((((wRun.setFld SYS_ROLE.ROLE r).setFlag SYS_NT_STAT.VALID true).setFld SYS_RND_CFG.PERIOD 1000)).setFlag
    SYS_COORD_STAT.HOLD true
  { s with time := { s.time with now := 3 * 2 ^ 71, top := 3 * 2 ^ 71 }, cp := { s.cp with fw := true } }
/-- The running state with bus channel `c` enabled: queues of four entries, 16 contexts, its areas in bus RAM. -/
def wBus (c : Nat) : State :=
  let b := busBase c
  let s := (wRun.setReg b 1).setReg (b + 0x1C) (BitVec.ofNat 32 (4 + 2 ^ 18 * 16 + 2 ^ 23 * 4))
  let s := (s.setReg (b + 0x20) 0x31000000).setReg (b + 0x28) 0x31010000
  ((s.setReg (b + 0x2C) 0x31020000).setReg (b + 0x24) 0x31030000).setFlag (CAN_STAT.RESTR c) false
/-- The channel with entry `e` pending: a classic frame, one-shot where asked. -/
def wTx (c e : Nat) (oneshot : Bool) : State :=
  ((wBus c).setReg (busBase c + 0x4C) (BitVec.ofNat 32 (2 ^ e))).wr32 (0x31020000 + 80 * e + 4) (64 * b2n oneshot + 3)
/-- The channel `c` with the bus state changed. -/
def wCh (c : Nat) (f : BusCh → BusCh) : State := (wBus c).setCh c (f ((wBus c).ch c))
/-- A classic frame of three bytes. -/
def wFrame : CanFrame := ⟨5, false, false, false, false, false, 3, [1, 2, 3]⟩
/-- A caravan header frame. -/
def wCarFrame : CanFrame := ⟨0x0140_0001, true, false, true, true, false, 8, List.replicate 8 0⟩
/-- A port that is up. -/
def wPort (k : Nat) : State := (wBus (8 + k)).setFlag (ETH_STAT.UP k) true
/-- A running node with calculator 7 in heat mode on RTD 14 and 15. -/
def wHeat : State :=
  ((((wRun.setFlag MH_CTL.EN true).setReg (MH_C_FIELD 7 0) 1).setReg (MH_C_FIELD 7 1) 14).setReg (MH_C_FIELD 7 2) 15).setReg
    (MH_C_FIELD 7 3) 1
/-- A running node with calculator 7 replaced. -/
def wCalc (f : MhCalc → MhCalc) : State :=
  { wHeat with mh := { wHeat.mh with calcs := putAt wHeat.mh.calcs 7 (f (wHeat.calculator 7)) } }
/-- A running node with port 1 metering. -/
def wMeter : State := (wRun.setFlag ME_CTL.EN true).setReg (ME_P_FIELD 1 0) 1
/-- A running node whose totals are merged, an hour after its start. -/
def wTot (v : Option SaveSt) : State := { wRun with tot := { save := v, merged := true }, le := { wRun.le with tick := 360000000 } }
/-- A running node with firmware as its time source. -/
def wFwTime : State := wRun.setFld SYS_NT_CFG.SRC 9
/-- A running node whose caravan queue of port 1 holds a WAY_REQ of record `r` in its first entry. -/
def wAsk (r : List Byte) : State :=
  let s := ((wBus 9).setFld (busField 9 0x38 28 16) 1).setFld (busField 9 0x38 12 0) 1
  let s := (s.wr32 0x31010000 (4 * 2 ^ 20)).wr32 0x31010008 r.length
  { s.wrBytes 0x31030000 r with cp := { s.cp with fw := true } }.setFlag VLT_STAT.ST_DONE true
/-- A record of service `n`, sealed where asked, with its body. -/
def wRec (n : Nat) (sec : Bool) (b : List Byte) : List Byte := [1, BitVec.ofNat 8 n, BitVec.ofNat 8 (b2n sec), 0, 0xFF, 0x1F, 0, 0,
  BitVec.ofNat 8 (b2n sec), 0, 0, 0] ++ b
/-- The request that it is. -/
def wReq (n : Nat) (sec : Bool) (b : List Byte) : WayReq := ⟨9, wRec n sec b, []⟩
/-- A session with every right. -/
def wSess : Session := { slot := 31, rights := 63, keyIn := [], keyOut := [] }
/-- A sealed request of service `n` under that session. -/
def wSealed (n : Nat) : State :=
  let s := wAsk (wRec n true (List.replicate 20 0))
  { s with way := { s.way with sess := some wSess } }
/-- The same, with the request. -/
def wSealedReq (n : Nat) : WayReq := wReq n true (List.replicate 20 0)
/-- A running node with field link 23 on, its module 15 enabled with one input word. -/
def wLink (f : WflLink → WflLink) : State :=
  let s := (wRun.setFlag WFL_CTL.EN true).setFlag (WFL_L_CFG.EN 23) true
  s.setLink 23 (f { s.link 23 with mods := putAt (s.link 23).mods 15 { rec_ := [2 ^ 31 + 2 ^ 7 + 1, 0, 0, 0, 0] } })
/-- A response of module `m`. -/
def wResp (m cmd : Nat) (d : List Byte) : List Byte :=
  let b := toBytes 4 (m + 16 + 64 * cmd + 2 ^ 16 * d.length) ++ d
  b ++ toBytesBE 2 (crc16 b)
/-- A running node whose scan engine runs an empty program at 0. -/
def wScan : State :=
  (((wRun.setFlag SE_CTL.EN true).setFlag SE_STAT.RUN true).wr32 (seProg 0 + 12) 0x10000).wr32 (seProg 8) 0x10005
/-- A running node with a program of one instruction, END, at 8. -/
def wProgram : State :=
  let s := (((wRun.wr32 (seProg 8) 0x14553).wr32 (seProg 8 + 4) 1).wr32 (seProg 8 + 24) 9).wr32 (seProg 16) 1
  s.wr32 (seProg 8 + 0x3C) (crc32 (s.seBytes (s.seHdr 8)))
/-- A running node whose PM is ready, with one partition from page 1024 on. -/
def wPm : State :=
  let s : State := { wRun with pm := { parts := [{ defined := true, base := 1024, size := 16 }] } }
  s.setFlag PM_STAT.READY true
/-- A running node in life-cycle fuses `f`. -/
def wLife (f : List Nat) (service : Bool) : State := { wRun with lcs := { fuses := f, service := service } }
/-- The same under a session with every right. -/
def wLifeAuth (f : List Nat) (service : Bool) : State :=
  let s := wLife f service
  { s with way := { s.way with sess := some wSess } }
/-- A running node with self-test `b` under way. -/
def wBist (b : BistRun) : State := { wRun with lcs := { bist := some b } }
/-- A HASH of nothing whose output goes to CP SRAM. -/
def wHash : List Nat := [1, 0x20000000, 0, 0, 0, 0x20000100, 32, 0, 0, 0]
/-- A running node with that command in progress. -/
def wVault : State := let s := wRun.setFlag VLT_STAT.ST_DONE true; { s with vlt := { s.vlt with cmd := some wHash } }
/-- A channel whose REF waits and whose period has passed. -/
def wRefQ : State := let s := wCh 7 fun b => { b with ref := some [1] }; { s with le := { s.le with tick := 50 * s.refMs } }
theorem wRefQ_cur : (wRefQ.ch ((7 : Fin 8) : Nat)).cur = none := by decide +kernel

/-! The witnesses. -/

/-- States and operands that meet the hypotheses of AonCounterWrites. -/
theorem witness_AonCounterWrites :
    (∃ (s : State) (v : Word), AON_CTL.LOAD.of v = 1 ∧ s.aon.locked = false ∧ s.aon.load = none ∧ s.cpStopped = false)
    ∧ (∃ (s : State) (v : Word) (b : Nat), AON_CTL.LOAD.of v = 1 ∧ s.aon.locked = false ∧ s.aon.load = some b ∧ s.cpStopped = false)
    ∧ (∃ (s : State), s.aon.locked = false ∧ s.aon.load = none ∧ s.cpStopped = false)
    ∧ (∃ (s : State) (b : Nat), s.aon.locked = false ∧ s.aon.load = some b ∧ s.cpStopped = false)
    ∧ (∃ (s : State) (v : Word), AON_CTL.CLRHI.of v = 1 ∧ AON_CTL.LOAD.of v = 0 ∧ s.aon.locked = false ∧ s.cpStopped = false)
    ∧ (∃ (s : State) (v : Word) (c : Instr), s.aon.locked = true ∧ s.cpStopped = false ∧ (c = .aonShift v ∨ c = .load v
        ∧ AON_CTL.LOAD.of v = 1 ∨ c = .clrhi v ∧ AON_CTL.CLRHI.of v = 1)) :=
  ⟨⟨State.reset, 1, by decide +kernel⟩,
   ⟨wAon { load := some 5 }, 1, 5, by decide +kernel⟩,
   ⟨State.reset, by decide +kernel⟩,
   ⟨wAon { load := some 5 }, 5, by decide +kernel⟩,
   ⟨State.reset, 2, by decide +kernel⟩,
   ⟨wAon { locked := true }, 1, .load 1, by decide +kernel⟩⟩

/-- States and operands that meet the hypotheses of AonCounterEdges. -/
theorem witness_AonCounterEdges :
    (∃ (s : State) (b : Nat), s.aon.lost = false ∧ s.aon.load = some b)
    ∧ (∃ (s : State) (k : Int), s.aon.lost = false ∧ s.aon.load = none ∧ s.aon.count % 32768 = 32767 ∧ s.aon.shift = some k)
    ∧ (∃ (s : State), s.aon.lost = false ∧ s.aon.load = none ∧ s.aon.count % 32768 = 32767 ∧ s.aon.count + 1 < 2 ^ 48
        ∧ s.aon.shift = none)
    ∧ (∃ (s : State), s.aon.lost = false ∧ s.aon.load = none ∧ s.aon.shift = none ∧ s.aon.count + 1 = 2 ^ 48)
    ∧ (∃ (s : State) (n : Fin 2), s.aon.lost = false ∧ s.aon.load = none ∧ s.aon.count % 32768 ≠ 32767
        ∧ s.almMatches n (s.aon.count + 1) = true ∧ s.aon.high < s.aon.count + 1) :=
  ⟨⟨wAon { load := some 5 }, 5, by decide +kernel⟩,
   ⟨wAon { count := 32767, shift := some (-32768) }, -32768, by decide +kernel⟩,
   ⟨wAon { count := 2 ^ 48 - 32769 }, by decide +kernel⟩,
   ⟨wAon { count := 2 ^ 48 - 1 }, by decide +kernel⟩,
   ⟨((wAon { count := 255, high := 255 }).setReg (AON_ALM_VAL0 1) 256).setReg (AON_ALM_CFG 1) 0x7F, 1, by decide +kernel⟩⟩

/-- States and operands that meet the hypotheses of LoadAndShiftExclude. -/
theorem witness_LoadAndShiftExclude :
    (∃ (s : State), (s.aon.load = none ∨ s.aon.shift = none))
    ∧ (∃ (s : State) (v : Word), AON_CTL.LOAD.of v = 1 ∧ s.aon.locked = false ∧ s.aon.load = none ∧ s.aon.shift.isSome = true
        ∧ s.cpStopped = false)
    ∧ (∃ (s : State) (b : Nat), s.aon.locked = false ∧ s.aon.load = some b ∧ s.cpStopped = false)
    ∧ (∃ (s : State) (b : Nat), s.aon.lost = false ∧ s.aon.load = some b) :=
  ⟨⟨wAon { shift := some 3 }, by decide +kernel⟩,
   ⟨wAon { shift := some 3 }, 1, by decide +kernel⟩,
   ⟨wAon { load := some 5 }, 5, by decide +kernel⟩,
   ⟨wAon { load := some 5, shift := some 3 }, 5, by decide +kernel⟩⟩

/-- States and operands that meet the hypotheses of AonSupplyAndPulses. -/
theorem witness_AonSupplyAndPulses :
    (∃ (s : State), s.aon.locked = true)
    ∧ (∃ (s : State) (n : Fin 16), s.aon.lost = false ∧ s.fld (AON_PLS_CFG.FILT n) = 0 ∧ n.val < s.aon.pulses.length
        ∧ (s.inSleep && s.flag SYS_SLEEP_CFG.PLS) = false)
    ∧ (∃ (s : State) (n : Fin 16) (level : Bool), s.aon.lost = false ∧ n.val < s.aon.pulses.length
        ∧ s.fld (AON_PLS_CFG.FILT n) ≠ 0 ∧ level ≠ (s.pulseIn n).taken ∧ s.fld (AON_PLS_CFG.FILT n) ≤ (s.pulseIn n).run + 1)
    ∧ (∃ (s : State) (n : Fin 16) (level : Bool), s.fld (AON_PLS_CFG.FILT n) ≠ 0
        ∧ (level = (s.pulseIn n).taken ∨ (s.pulseIn n).run + 1 < s.fld (AON_PLS_CFG.FILT n))
        ∧ (s.inSleep && s.flag SYS_SLEEP_CFG.PLS) = false)
    ∧ (∃ (s : State) (n : Fin 16), s.pending = [] ∧ s.aon.lost = false ∧ n.val < s.aon.pulses.length
        ∧ s.fld (AON_PLS_CFG.FILT n) ≠ 0)
    ∧ (∃ (s : State) (n : Fin 16) (level : Bool), s.inSleep = true ∧ s.flag SYS_SLEEP_CFG.PLS = true
        ∧ level ≠ (s.pulseIn n).level) :=
  ⟨⟨wAon { locked := true }, by decide +kernel⟩,
   ⟨(State.reset.setReg (AON_PLS_CFG 15) 1).setReg (AON_PLS_CNT 15) 0xFFFFFFFF, 15, by decide +kernel⟩,
   ⟨((wAon { pulses := putAt State.reset.aon.pulses 15 { level := true, run := 2 } }).setFlag (AON_PLS_CFG.EN 15) true).setFld (AON_PLS_CFG.FILT 15) 3, 15, true, by decide +kernel⟩,
   ⟨(wAon { pulses := putAt State.reset.aon.pulses 15 { level := true, run := 1 } }).setFld (AON_PLS_CFG.FILT 15) 3, 15, true,
       by decide +kernel⟩,
   ⟨(wAon { pulses := putAt State.reset.aon.pulses 15 { level := true, run := 2 } }).setFld (AON_PLS_CFG.FILT 15) 3, 15,
       by decide +kernel⟩,
   ⟨wSleep.setFlag SYS_SLEEP_CFG.PLS true, 15, true, by decide +kernel⟩⟩

/-- States and operands that meet the hypotheses of SoftwareResetRequests. -/
theorem witness_SoftwareResetRequests :
    (∃ (s : State) (v : Word), SYS_RST_REQ.KEY.of v ≠ 0xC0DE ∧ s.cpStopped = false)
    ∧ (∃ (s : State) (v : Word), SYS_RST_REQ.KEY.of v = 0xC0DE ∧ SYS_RST_REQ.KIND.of v = 1 ∧ s.rst.sys = false ∧ s.rst.cp = false
        ∧ s.cpStopped = false)
    ∧ (∃ (s : State) (v : Word), SYS_RST_REQ.KEY.of v = 0xC0DE ∧ SYS_RST_REQ.KIND.of v = 2 ∧ s.rst.sys = false
        ∧ s.cpStopped = false)
    ∧ (∃ (s : State) (v : Word), SYS_RST_REQ.KEY.of v = 0xC0DE ∧ (SYS_RST_REQ.KIND.of v = 0 ∨ SYS_RST_REQ.KIND.of v = 3)
        ∧ s.cpStopped = false) :=
  ⟨⟨State.reset, 0xC0DF0001, by decide +kernel⟩,
   ⟨State.reset, 0xC0DE0001, by decide +kernel⟩,
   ⟨State.reset, 0xC0DE0002, by decide +kernel⟩,
   ⟨State.reset, 0xC0DE0003, by decide +kernel⟩⟩

/-- States and operands that meet the hypotheses of ResetsTakeEffect. -/
theorem witness_ResetsTakeEffect :
    (∃ (s : State), s.rst.sys = true ∧ ((s.resetSaving = false ∧ s.answering = false) ∨ s.rst.now = true))
    ∧ (∃ (s : State), s.rst.cp = true ∧ s.rst.sys = false)
    ∧ (∃ (s : State), s.aon.lost = true)
    ∧ (∃ (s : State), s.aon.onVbat = true)
    ∧ (∃ (s : State), s.rst.sys = false) :=
  ⟨⟨{ wRun with rst := { sys := true } }, by decide +kernel⟩,
   ⟨{ wRun with rst := { cp := true } }, by decide +kernel⟩,
   ⟨wAon { lost := true, onVbat := true }, by decide +kernel⟩,
   ⟨wAon { onVbat := true, count := 5 }, by decide +kernel⟩,
   ⟨wRun, by decide +kernel⟩⟩

/-- States and operands that meet the hypotheses of BallStates. -/
theorem witness_BallStates :
    (∃ (s : State), s.rst.sys = true ∧ s.resetSaving = false ∧ s.pwr.on = true)
    ∧ (∃ (s : State), s.rst.cp = true ∧ s.rst.sys = false)
    ∧ (∃ (s : State), s.pwr.stall = true ∧ s.pwr.relock = false ∧ 80 ≤ s.pwr.stallAt)
    ∧ (∃ (s : State) (m : SupervisorSample), s.pwr.on = true ∧ s.pwr.stall = false ∧ s.started = true ∧ m.vhold < 5000) :=
  ⟨⟨{ wRun with rst := { sys := true } }, by decide +kernel⟩,
   ⟨{ wRun with rst := { cp := true } }, by decide +kernel⟩,
   ⟨wPwr { stall := true, stallAt := 80 }, by decide +kernel⟩,
   ⟨wRun, { goodCheck with vhold := 4999 }, by decide +kernel⟩⟩

/-- States and operands that meet the hypotheses of SupervisorChecks. -/
theorem witness_SupervisorChecks :
    (∃ (s : State) (m : SupervisorSample) (f : Fin 2), s.pwr.holder = some f.val ∧ s.pwr.on = true ∧ s.pwr.stall = false
        ∧ s.pwr.ho = none ∧ s.pwr.req = false ∧ s.pwr.regAfter = none ∧ m.faultA = false ∧ m.faultB = false ∧ FeedSound s m f
        ∧ HoldSound s m)
    ∧ (∃ (s : State) (m : SupervisorSample) (f : Fin 2) (c : Nat), s.pwr.holder = some f.val ∧ s.pwr.ho = none ∧ (c = 1
        ∧ feedMv m f < s.uvMv ∧ 1 ≤ s.pwr.uv ∨ c = 2 ∧ 40000 < feedMv m f ∨ c = 3 ∧ s.uvMv ≤ feedMv m f ∧ feedMv m f ≤ 40000
        ∧ s.ocMa < m.phase ∨ c = 4 ∧ s.uvMv ≤ feedMv m f ∧ feedMv m f ≤ 40000 ∧ m.phase ≤ s.ocMa ∧ feedFault m f = true))
    ∧ (∃ (s : State) (m : SupervisorSample) (f : Fin 2), s.pwr.holder = some f.val ∧ s.pwr.ho = none ∧ s.pwr.req = true
        ∧ FeedSound s m f)
    ∧ (∃ (s : State) (h : Handover), s.pwr.holder = none ∧ s.pwr.ho = some h ∧ h.granted = none)
    ∧ (∃ (s : State) (m : SupervisorSample) (f : Fin 2), ¬ FeedGood s m f)
    ∧ (∃ (s : State) (m : SupervisorSample) (f : Fin 2), s.pwr.holder ≠ some f.val ∧ s.pwr.ho = none ∧ f.val < s.pwr.good.length
        ∧ 99 ≤ nth s.pwr.good f 0 ∧ FeedGood s m f)
    ∧ (∃ (s : State) (m : SupervisorSample) (f : Fin 2), s.pwr.holder = none ∧ s.pwr.ho = none ∧ s.pwr.lease ≤ 1
        ∧ s.pwr.guard ≤ 1 ∧ f.val < s.pwr.good.length ∧ 99 ≤ nth s.pwr.good f 0 ∧ FeedGood s m f
        ∧ (f.val = 0 ∨ nth s.pwr.good 0 0 < 99 ∨ ¬ FeedGood s m 0))
    ∧ (∃ (s : State) (m : SupervisorSample) (h : Handover) (n : Nat), s.pwr.holder = some h.inn ∧ s.pwr.ho = some h
        ∧ h.recovery = false ∧ h.sup = false ∧ h.inn < 2 ∧ h.granted = some n ∧ 13 ≤ n ∧ railBand m = false)
    ∧ (∃ (s : State) (m : SupervisorSample), s.pwr.on = true ∧ s.flag PWR_STAT.PFW = false ∧ m.vhold < s.warnMv ∧ 1 ≤ s.pwr.low) :=
  ⟨⟨wPwr { on := true, holder := some 1, reg := true, rails := true, uv := 9 }, { goodCheck with vfb := 40000 }, 1,
      by unfold FeedSound HoldSound; decide +kernel⟩,
   ⟨wPwr { on := true, holder := some 1, rails := true, uv := 1 }, { goodCheck with vfb := 9999 }, 1, 1, by decide +kernel⟩,
   ⟨{ wRun with pwr := { wRun.pwr with req := true } }, goodCheck, 0, by unfold FeedSound; decide +kernel⟩,
   ⟨wPwr { on := true, lease := 4, ho := some { inn := 1, since := 3 } }, { inn := 1, since := 3 }, by decide +kernel⟩,
   ⟨wPwr { good := [0, 100] }, { goodCheck with vfb := 10499 }, 1, by unfold FeedGood; decide +kernel⟩,
   ⟨wPwr { good := [0, 99] }, { goodCheck with vfb := 10500 }, 1, by unfold FeedGood; decide +kernel⟩,
   ⟨wPwr { good := [0, 99] }, goodCheck, 1, by unfold FeedGood; decide +kernel⟩,
   ⟨wPwr { on := true, holder := some 1, ho := some { inn := 1, granted := some 13 } }, { goodCheck with vdd33 := 3134 },
       { inn := 1, granted := some 13 }, 13, by decide +kernel⟩,
   ⟨wPwr { on := true, holder := some 0, low := 1 }, { goodCheck with vhold := 5000 }, by decide +kernel⟩⟩

/-- States and operands that meet the hypotheses of TokenAndHandover. -/
theorem witness_TokenAndHandover :
    (∃ (s : State) (f : Fin 2), s.pwr.holder ≠ some f.val)
    ∧ (∃ (s : State) (h : Handover), s.pwr.ho = some h ∧ h.granted = none ∧ 4 ≤ h.since ∧ h.inn < 2 ∧ s.feedElig h.inn = true)
    ∧ (∃ (s : State) (h : Handover), s.pwr.ho = some h ∧ h.granted = none ∧ 4 ≤ h.since ∧ h.back = false ∧ s.feedElig h.inn = false)
    ∧ (∃ (s : State) (v : Word) (f : Nat), PWR_HO_CMD.KEY.of v = 0xA5C3 ∧ PWR_HO_CMD.GO.of v = 1 ∧ s.pwr.holder = some f
        ∧ s.feedElig (1 - f) = true ∧ s.pwr.ho = none ∧ s.pwr.req = false ∧ s.inHold = false ∧ s.flag PWR_STAT.PFW = false
        ∧ 100000 ≤ s.pwr.sinceHold ∧ s.cpStopped = false)
    ∧ (∃ (s : State) (v : Word), PWR_HO_CMD.KEY.of v = 0xA5C3 ∧ PWR_HO_CMD.GO.of v = 1
        ∧ (s.pwr.holder = none ∨ (∃ f, s.pwr.holder = some f
        ∧ s.feedElig (1 - f) = false) ∨ s.pwr.ho.isSome = true ∨ s.inHold = true ∨ s.flag PWR_STAT.PFW = true ∨ s.pwr.sinceHold < 100000) ∧ s.cpStopped = false)
    ∧ (∃ (s : State) (f : Fin 2), 360000000 ≤ nth s.pwr.bad f 0 ∧ nth s.pwr.fired f false = false) :=
  ⟨⟨wRun, 1, by decide +kernel⟩,
   ⟨wPwr { ho := some { inn := 1, since := 4 }, good := [0, 100] }, { inn := 1, since := 4 }, by decide +kernel⟩,
   ⟨wPwr { ho := some { inn := 1, since := 4 } }, { inn := 1, since := 4 }, by decide +kernel⟩,
   ⟨wPwr { holder := some 0, good := [100, 100] }, 0xA5C30001, 0, by decide +kernel⟩,
   ⟨wHold, 0xA5C30001, by decide +kernel⟩,
   ⟨wPwr { bad := [0, 360000000] }, 1, by decide +kernel⟩⟩

/-- States and operands that meet the hypotheses of HoldStallAndWarning. -/
theorem witness_HoldStallAndWarning :
    (∃ (s : State) (n : Nat), s.inHold = true ∧ s.pwr.stall = false ∧ s.pwr.resume = false ∧ s.pwr.closeAt = some n
        ∧ n ≤ s.pwr.window)
    ∧ (∃ (s : State), s.pwr.stall = true ∧ s.pwr.relock = true)
    ∧ (∃ (s : State), s.pwr.resume = true ∧ s.pwr.stall = false)
    ∧ (∃ (s : State), s.pwr.stall = true ∧ s.pwr.relock = false ∧ 80 ≤ s.pwr.stallAt)
    ∧ (∃ (s : State), s.flag PWR_STAT.PFW = true ∧ s.pwr.holder.isSome = true ∧ s.pwr.reg = true ∧ s.pwr.rails = true
        ∧ 100 ≤ s.pwr.clear ∧ s.pwr.stall = false ∧ s.boot.step ≠ 5)
    ∧ (∃ (s : State), s.flag PWR_STAT.PFW = true ∧ s.pwr.holder.isSome = true ∧ s.pwr.reg = true ∧ s.pwr.rails = true
        ∧ 100 ≤ s.pwr.clear ∧ s.pwr.stall = false ∧ s.boot.step = 5 ∧ s.lcState ≠ 4) :=
  ⟨⟨{ wHold with pwr := { wHold.pwr with closeAt := some 7, window := 7 } }, 7, by decide +kernel⟩,
   ⟨wPwr { stall := true, relock := true, missed := 3 }, by decide +kernel⟩,
   ⟨wPwr { resume := true, missed := 3 }, by decide +kernel⟩,
   ⟨wPwr { stall := true, stallAt := 80 }, by decide +kernel⟩,
   ⟨{ wPfw with pwr := { wPfw.pwr with clear := 100 } }, by decide +kernel⟩,
   ⟨{ wPfw with pwr := { wPfw.pwr with clear := 100 }, boot := { step := 5 } }, by decide +kernel⟩⟩

/-- States and operands that meet the hypotheses of ProfileChanges. -/
theorem witness_ProfileChanges :
    (∃ (s : State) (v : Word), s.profCheck (SYS_PROF_REQ.PROF.of v) = Code.ok ∧ s.cpStopped = false)
    ∧ (∃ (s : State) (v : Word), s.profCheck (SYS_PROF_REQ.PROF.of v) ≠ Code.ok ∧ s.cpStopped = false)
    ∧ (∃ (s : State), s.flag SYS_PROF_STAT.PEND = true ∧ s.inSleep = false ∧ s.pwr.stall = false ∧ s.prof.req < 8)
    ∧ (∃ (s : State), s.flag SYS_PROF_STAT.FORCED = true ∧ s.inHoldup = false ∧ s.pwr.stall = false)
    ∧ (∃ (s : State), s.flag PWR_STAT.PFW = false ∧ s.flag SYS_PROF_STAT.FORCED = true ∧ s.inHoldup = true ∧ s.pwr.stall = false
        ∧ ((s.inSleep = true → s.prof.woke = false)))
    ∧ (∃ (s : State), s.flag SYS_PROF_STAT.FORCED = true ∧ s.inHoldup = true ∧ s.inSleep = true ∧ s.prof.woke = true
        ∧ s.flag PWR_STAT.PFW = false ∧ s.pwr.stall = false)
    ∧ (∃ (s : State), s.flag SYS_CLK_STAT.HFXO_ON = true) :=
  ⟨⟨wRun, 1, by decide +kernel⟩,
   ⟨wRun, 3, by decide +kernel⟩,
   ⟨{ (wRun.setFlag SYS_PROF_STAT.PEND true) with prof := { req := 1 } }, by decide +kernel⟩,
   ⟨wPfw, by decide +kernel⟩,
   ⟨(wProf 3).setFlag SYS_PROF_STAT.FORCED true, by decide +kernel⟩,
   ⟨{ (wProf 3).setFlag SYS_PROF_STAT.FORCED true with prof := { sleep := true, woke := true } }, by decide +kernel⟩,
   ⟨wRun, by decide +kernel⟩⟩

/-- States and operands that meet the hypotheses of SleepAndWake. -/
theorem witness_SleepAndWake :
    (∃ (s : State) (w : WakeInput), s.inSleep = true ∧ s.flag PWR_STAT.PFW = false ∧ s.wakeInstant w.tick = true
        ∧ s.wakePlace w.tick = true ∧ s.stalled = false)
    ∧ (∃ (s : State) (src : Fin 5) (dio : Fin 32), s.inSleep = true ∧ bit (s.reg SYS_SLEEP_CFG).toNat src = true
        ∧ ((src ≠ 3 ∨ bit (s.reg SYS_WAKE_DIO).toNat dio = true)))
    ∧ (∃ (s : State), s.inSleep = true ∧ s.prof.woke = true ∧ s.flag PWR_STAT.PFW = false ∧ s.flag SYS_PROF_STAT.FORCED = false
        ∧ s.pwr.stall = false) :=
  ⟨⟨(wSleep.setReg (MH_C_FIELD 0 0) 1).setReg (MH_C_FIELD 0 13) 1, ⟨1, [], [], 0, 0, false⟩, by decide +kernel⟩,
   ⟨(wSleep.setReg SYS_SLEEP_CFG 8).setReg SYS_WAKE_DIO 0x80000000, 3, 31, by decide +kernel⟩,
   ⟨{ wSleep with prof := { sleep := true, woke := true } }, by decide +kernel⟩⟩

/-- States and operands that meet the hypotheses of StewardStarts. -/
theorem witness_StewardStarts :
    (∃ (s : State), s.boot.step = 1)
    ∧ (∃ (s : State), s.boot.step = 2 ∧ s.pwr.stall = false)
    ∧ (∃ (s : State), s.boot.step = 3 ∧ s.boot.tested = false)
    ∧ (∃ (s : State), s.boot.step = 3 ∧ s.boot.tested = false ∧ s.flag PM_STAT.READY = false)
    ∧ (∃ (s : State), s.boot.step = 3 ∧ s.boot.tested = false ∧ s.flag PM_STAT.READY = true)
    ∧ (∃ (s : State), s.boot.step = 3 ∧ s.boot.tested = false ∧ s.flag PM_STAT.READY = false)
    ∧ (∃ (s : State), s.boot.step = 3 ∧ s.boot.tested = true ∧ s.flag PM_STAT.READY = false) :=
  ⟨⟨wBoot { step := 1 }, by decide +kernel⟩,
   ⟨wBoot { step := 2 }, by decide +kernel⟩,
   ⟨wBoot { step := 3 }, by decide +kernel⟩,
   ⟨wBoot { step := 3 }, by decide +kernel⟩,
   ⟨(wBoot { step := 3 }).setFlag PM_STAT.READY true, by decide +kernel⟩,
   ⟨wBoot { step := 3 }, by decide +kernel⟩,
   ⟨wBoot { step := 3, tested := true }, by decide +kernel⟩⟩

/-- States and operands that meet the hypotheses of StewardEvaluates. -/
theorem witness_StewardEvaluates :
    (∃ (s : State), s.boot.step = 6 ∧ s.boot.second = false)
    ∧ (∃ (s : State), s.boot.step = 6 ∧ s.boot.second = true)
    ∧ (∃ (s : State), s.boot.step = 6)
    ∧ (∃ (s : State), s.boot.step = 7 ∧ s.flag VLT_STAT.ST_DONE = true)
    ∧ (∃ (s : State), s.boot.step = 9 ∧ s.flag PWR_STAT.PFW = false ∧ s.tot.save = none)
    ∧ (∃ (s : State) (k : Nat), s.boot.fwSlot = some k ∧ s.flag VLT_STAT.ST_DONE = true ∧ (s.boot.rpt = [] ∨ s.reportWaits = false))
    ∧ (∃ (s : State), s.pmBlocked 4 = false ∧ s.cpStopped = false)
    ∧ (∃ (s : State) (v : Word), SYS_PAL_ROLL.KEY.of v = 0x7140 ∧ SYS_PAL_ROLL.GO.of v = 1
        ∧ s.flag SYS_PAL_STAT.ROLL_BUSY = false ∧ s.flag SYS_ROLE.GROUND = false ∧ s.cpStopped = false)
    ∧ (∃ (s : State), s.flag SYS_PAL_STAT.ROLL_BUSY = true ∧ s.pmBlocked 5 = false)
    ∧ (∃ (s : State), s.flag VLT_STAT.FW_ROLL_BUSY = true ∧ s.pmBlocked 5 = false) :=
  ⟨⟨wBoot { step := 6 }, by decide +kernel⟩,
   ⟨wBoot { step := 6, second := true }, by decide +kernel⟩,
   ⟨wBoot { step := 6 }, by decide +kernel⟩,
   ⟨(wBoot { step := 7 }).setFlag VLT_STAT.ST_DONE true, by decide +kernel⟩,
   ⟨(wBoot { step := 9 }).setFlag PWR_STAT.PFW false, by decide +kernel⟩,
   ⟨(wBoot { fwSlot := some 1 }).setFlag VLT_STAT.ST_DONE true, 1, by decide +kernel⟩,
   ⟨wRun, by decide +kernel⟩,
   ⟨wRun, 0x71400001, by decide +kernel⟩,
   ⟨wRun.setFlag SYS_PAL_STAT.ROLL_BUSY true, by decide +kernel⟩,
   ⟨wRun.setFlag VLT_STAT.FW_ROLL_BUSY true, by decide +kernel⟩⟩

/-- States and operands that meet the hypotheses of CpFaults. -/
theorem witness_CpFaults :
    (∃ (s : State), s.rst.sys = false ∧ s.rst.cp = false)
    ∧ (∃ (s : State) (x : CpAccess) (ue : Bool), s.accessFaults x ue = true ∧ x.who = .debug ∧ s.inSleep = false)
    ∧ (∃ (s : State) (x : CpAccess) (ue : Bool), (s.accessFaults x ue = true ∨ (s.hartAs x).pmpDenies x = true) ∧ x.who ≠ .debug
        ∧ s.cpStopped = false)
    ∧ (∃ (s : State) (x : CpAccess) (ue : Bool), s.accessFaults x ue = false ∧ (s.hartAs x).pmpDenies x = false)
    ∧ (∃ (s : State) (x : CpAccess), inBlocks x.addr.toNat = true ∧ cpDenied x = true ∧ s.inSleep = false
        ∧ (s.cp.mismatch = false ∨ x.who = .debug))
    ∧ (∃ (s : State) (v : Word), SYS_FW_STAT.CLEAR.of v = 1 ∧ s.cpStopped = false)
    ∧ (∃ (s : State) (c : Instr), cpCommand c = true ∧ s.cpStopped = true) :=
  ⟨⟨wRun, by decide +kernel⟩,
   ⟨{ wRun with cp := { wRun.cp with mismatch := true } }, ⟨0x40000000, .fetch, 2, .debug, []⟩, false, by decide +kernel⟩,
   ⟨wRun, ⟨0x20000000, .read, 2, .user, []⟩, false, by decide +kernel⟩,
   ⟨wRun, ⟨0x20000000, .read, 2, .machine, []⟩, false, by decide +kernel⟩,
   ⟨{ wRun with cp := { wRun.cp with mismatch := true } }, ⟨0x400F0000, .write, 2, .debug, []⟩, by decide +kernel⟩,
   ⟨wRun, 0x1000, by decide +kernel⟩,
   ⟨wSleep, .plugStoreWrite 0 0 1, by decide +kernel⟩⟩

/-- States and operands that meet the hypotheses of InterruptClaims. -/
theorem witness_InterruptClaims :
    (∃ (s : State), s.claimBest 97 = none ∧ s.cpStopped = false)
    ∧ (∃ (s : State) (n : Nat) (p : Nat), s.claimBest 97 = some (n, p) ∧ n < 96 ∧ s.cpStopped = false)
    ∧ (∃ (s : State) (v : Word), bit (s.reg (INTC_EN (INTC_CLAIM.ID.of v / 32))).toNat (INTC_CLAIM.ID.of v % 32) = true
        ∧ s.cpStopped = false)
    ∧ (∃ (s : State) (d : Fin 32) (level : Bool), nth s.ana.dioOut d false = false ∧ nth s.ana.dio d false ≠ level) :=
  ⟨⟨State.reset, by decide +kernel⟩,
   ⟨((State.reset.setReg (INTC_PEND 2) 0x800).setReg (INTC_EN 2) 0x800).setReg (INTC_PRIO 75) 1, 75, 1, by decide +kernel⟩,
   ⟨State.reset.setReg (INTC_EN 2) 0x800, 75, by decide +kernel⟩,
   ⟨State.reset, 31, true, by decide +kernel⟩⟩

/-- States and operands that meet the hypotheses of EveryRequestIsForwarded. -/
theorem witness_EveryRequestIsForwarded :
    ∃ (s : State) (t : State), step s = .next t :=
  ⟨State.reset, (State.reset.aonEdge false).intcLatch, rfl⟩

/-- States and operands that meet the hypotheses of WatchdogAndTick. -/
theorem witness_WatchdogAndTick :
    (∃ (s : State) (v : Word), SYS_WDT_KICK.KEY.of v = 0x6B1C ∧ s.cpStopped = false)
    ∧ (∃ (s : State) (v : Word), SYS_WDT_KICK.KEY.of v ≠ 0x6B1C ∧ s.cpStopped = false)
    ∧ (∃ (s : State), s.flag SYS_WDT_CFG.EN = true ∧ 2 * s.fld SYS_WDT_STAT.REMAIN ≤ max 1 (s.fld SYS_WDT_CFG.TIMEOUT))
    ∧ (∃ (s : State), s.wdtExpired = true ∧ s.flag SYS_WDT_CFG.ESCALATE = true ∧ s.flag SYS_WDT_STAT.STAGE = false
        ∧ s.rst.sys = false ∧ s.rst.cp = false)
    ∧ (∃ (s : State), s.wdtExpired = true ∧ (s.flag SYS_WDT_STAT.STAGE = true ∨ s.flag SYS_WDT_CFG.ESCALATE = false)
        ∧ s.rst.sys = false)
    ∧ (∃ (s : State), s.flag SYS_CLK_STAT.PLL_LOCK = true ∧ s.pwr.stall = false ∧ s.live.commit = none) :=
  ⟨⟨wRun, 0x6B1C0000, by decide +kernel⟩,
   ⟨wRun, 0x6B1D0000, by decide +kernel⟩,
   ⟨wRun.setFlag SYS_WDT_CFG.EN true, by decide +kernel⟩,
   ⟨(wRun.setFlag SYS_WDT_CFG.EN true).setFlag SYS_WDT_CFG.ESCALATE true, by decide +kernel⟩,
   ⟨(wRun.setFlag SYS_WDT_CFG.EN true).setFlag SYS_WDT_STAT.STAGE true, by decide +kernel⟩,
   ⟨wRun, by decide +kernel⟩⟩

/-- States and operands that meet the hypotheses of LoopWindows. -/
theorem witness_LoopWindows :
    (∃ (s : State), s.started = true ∧ s.pwr.stall = false ∧ s.inSleep = false)
    ∧ (∃ (s : State) (d : Fin 4) (level : Int), s.started = true ∧ s.pwr.stall = false ∧ s.inSleep = false
        ∧ (s.fld (PD_OCL.LIMIT d) = 0 ∨ (phaseCode level).natAbs ≤ s.fld (PD_OCL.LIMIT d)))
    ∧ (∃ (s : State) (d : Fin 4) (level : Int), s.started = true ∧ s.pwr.stall = false ∧ s.inSleep = false
        ∧ s.fld (PD_OCL.LIMIT d) ≠ 0 ∧ s.fld (PD_OCL.LIMIT d) < (phaseCode level).natAbs)
    ∧ (∃ (s : State), (s.started = false ∨ s.pwr.stall = true ∨ s.inSleep = true))
    ∧ (∃ (s : State) (n : Fin 64), s.windowDue n = true ∧ n < s.le.slots.length)
    ∧ (∃ (s : State) (n : Fin 64), s.windowDue n = true ∧ (s.slot n).move = none ∧ (s.slot n).cmd = none
        ∧ s.flag (LE_SLOT_CTL.SWAP n) = false ∧ s.flag TUNE_STAT.INJ_RUN = false ∧ s.tripNow n = false ∧ s.slotRuns n = true
        ∧ s.inputFlagged n = false)
    ∧ (∃ (s : State) (n : Fin 64), s.windowDue n = true ∧ (s.slot n).move = none ∧ (s.slot n).cmd = none
        ∧ s.flag (LE_SLOT_CTL.SWAP n) = false ∧ s.flag TUNE_STAT.INJ_RUN = false ∧ s.tripNow n = false ∧ s.slotRuns n = true
        ∧ s.inputFlagged n = true)
    ∧ (∃ (s : State) (n : Fin 64), s.windowDue n = true ∧ (s.slot n).move = none ∧ (s.slot n).cmd = none
        ∧ s.flag (LE_SLOT_CTL.SWAP n) = false ∧ s.tripNow n = false ∧ s.slotRuns n = true ∧ s.inputFlagged n = false) :=
  ⟨⟨wLe, by decide +kernel⟩,
   ⟨wLe, 3, 1800000000, by decide +kernel⟩,
   ⟨wLe.setFld (PD_OCL.LIMIT 3) 32767, 3, 0, by decide +kernel⟩,
   ⟨wSleep, by decide +kernel⟩,
   ⟨wSlot 63, 63, by decide +kernel⟩,
   ⟨wSlot 63, 63, by decide +kernel⟩,
   ⟨let s := (wSlot 63).setFld (LE_SLOT_IN.SRC_LO 63 0) 0x1000; { s with le := { s.le with conv := putAt s.le.conv 0 { flagged := true } } }, 63, by decide +kernel⟩,
   ⟨wSlot 0, 0, by decide +kernel⟩⟩

/-- States and operands that meet the hypotheses of TripsAndFaults. -/
theorem witness_TripsAndFaults :
    (∃ (s : State) (i : Fin 8), s.flag (LE_TRIP_CFG.EN i) = true ∧ bit (s.fld LE_TRIP_STAT.LEVEL) i = true
        ∧ bit (s.fld LE_TRIP_STAT.LATCH) i = false ∧ s.stalled = false ∧ s.inSleep = false)
    ∧ (∃ (s : State), s.cpStopped = false)
    ∧ (∃ (s : State) (n : Fin 64) (v : Word), (LE_SLOT_STAT.FAULT n).of v = 1 ∧ s.cpStopped = false)
    ∧ (∃ (s : State) (d : Fin 4) (v : Word), (PD_CLR.OC d).of v = 1
        ∧ ((∀ c ∈ (s.drive d).codes, s.fld (PD_OCL.LIMIT d) = 0 ∨ c.natAbs ≤ s.fld (PD_OCL.LIMIT d))) ∧ s.cpStopped = false)
    ∧ (∃ (s : State) (d : Fin 4) (v : Word), (PD_CLR.HU d).of v = 1 ∧ s.cpStopped = false) :=
  ⟨⟨(wLe.setFlag (LE_TRIP_CFG.EN 7) true).setFld LE_TRIP_STAT.LEVEL 128, 7, by decide +kernel⟩,
   ⟨wLe, by decide +kernel⟩,
   ⟨(wSlot 63).setFlag (LE_SLOT_STAT.FAULT 63) true, 63, (BitVec.ofNat 32 (2 ^ (LE_SLOT_STAT.FAULT 63).lo)), by decide +kernel⟩,
   ⟨wDrive 3, 3, 1, by decide +kernel⟩,
   ⟨wDrive 3, 3, 2, by decide +kernel⟩⟩

/-- States and operands that meet the hypotheses of SlotWrites. -/
theorem witness_SlotWrites :
    (∃ (s : State) (n : Fin 64) (v : Word), (LE_SLOT_CTL.SWAP n).of v = 1 ∧ s.holding = false ∧ s.cpStopped = false)
    ∧ (∃ (s : State) (n : Fin 64) (v : Word), (LE_SLOT_CTL.SWAP n).of v = 1 ∧ s.holding = true ∧ s.cpStopped = false)
    ∧ (∃ (s : State) (n : Fin 64), s.flag (LE_SLOT_CTL.SWAP n) = false ∧ s.cpStopped = false)
    ∧ (∃ (s : State) (n : Fin 64), s.flag (LE_SLOT_CTL.SWAP n) = true ∧ s.cpStopped = false)
    ∧ (∃ (s : State) (n : Fin 64) (k : Fin 17), s.flag (LE_SLOT_CTL.EN n) = false ∧ s.seOwned n = false ∧ k ≠ 0
        ∧ s.cpStopped = false)
    ∧ (∃ (s : State) (n : Fin 64), s.flag (LE_SLOT_CTL.EN n) = false ∧ s.seOwned n = false ∧ s.cpStopped = false)
    ∧ (∃ (s : State) (n : Fin 64), (s.flag (LE_SLOT_CTL.EN n) = true ∨ s.seOwned n = true) ∧ s.cpStopped = false)
    ∧ (∃ (s : State) (c : Fin 4), s.flag (LE_CELL_STAT.BIST c) = false ∧ s.flag (LE_CELL_STAT.DIS c) = true
        ∧ bit (s.fld LE_STAT.CELL_EN) c = true)
    ∧ (∃ (s : State) (c : Fin 4), s.flag (LE_CELL_STAT.BIST c) = true ∧ bit (s.fld LE_STAT.CELL_EN) c = true
        ∧ (s.replan c false).refused = [])
    ∧ (∃ (s : State) (c : Fin 4), ((s.flag (LE_CELL_STAT.BIST c) = true
        ∧ (s.replan c false).refused ≠ []) ∨ (s.flag (LE_CELL_STAT.BIST c) = false
        ∧ s.flag (LE_CELL_STAT.DIS c) = false) ∨ bit (s.fld LE_STAT.CELL_EN) c = false)) :=
  ⟨⟨wSlot 63, 63, 0x10, by decide +kernel⟩,
   ⟨((wSlot 63).setFlag SYS_LIVE_STAT.HOLD true).setFlag (LE_SLOT_CFG.SE_OWN 63) true, 63, 0x10, by decide +kernel⟩,
   ⟨wSlot 63, 63, by decide +kernel⟩,
   ⟨(wSlot 0).setFlag (LE_SLOT_CTL.SWAP 0) true, 0, by decide +kernel⟩,
   ⟨wLe, 63, 16, by decide +kernel⟩,
   ⟨wLe, 63, by decide +kernel⟩,
   ⟨wSlot 63, 63, by decide +kernel⟩,
   ⟨(wLe.setFlag (LE_CELL_STAT.DIS 3) true).setFld LE_STAT.CELL_EN 15, 3, by decide +kernel⟩,
   ⟨(wLe.setFlag (LE_CELL_STAT.BIST 3) true).setFld LE_STAT.CELL_EN 15, 3, by decide +kernel⟩,
   ⟨wLe, 3, by decide +kernel⟩⟩

/-- States and operands that meet the hypotheses of PlansAndProfiles. -/
theorem witness_PlansAndProfiles :
    (∃ (s : State), s.flag LE_CTL.EN = true ∧ s.flag LE_PB_CFG.EN = true ∧ s.pwr.stall = false ∧ s.pbDue = true)
    ∧ (∃ (s : State) (c : Fin 16), s.flag LE_CTL.EN = true ∧ s.flag (PG_CTL.EN c) = true ∧ s.le.tick % s.pgPeriod c = 0
        ∧ s.pgFrozen = false)
    ∧ (∃ (s : State) (c : Fin 16) (v : Word), s.pgFed c = false ∧ fisFin b32 v.toNat = true ∧ s.cpStopped = false)
    ∧ (∃ (s : State) (c : Fin 16) (v : Word), (s.pgFed c = true ∨ fisFin b32 v.toNat = false) ∧ s.cpStopped = false)
    ∧ (∃ (s : State) (c : Fin 16) (r : PgReq) (rest : List (Nat × Nat × PgReq)) (tick : Nat), s.le.queue = (tick, c.val,
        r) :: rest ∧ c < s.le.pg.length)
    ∧ (∃ (s : State) (c : Fin 16) (v : Word), (PG_CTL.STOP c).of v = 1 ∧ (PG_CTL.EN c).of v = 1 ∧ s.flag (PG_CTL.EN c) = true
        ∧ s.flag LE_CTL.EN = true ∧ s.cpStopped = false)
    ∧ (∃ (s : State) (c : Fin 16), s.flag (PG_CTL.EN c) = false ∧ c < s.le.pg.length ∧ s.cpStopped = false)
    ∧ (∃ (s : State), s.cpStopped = false)
    ∧ (∃ (s : State) (d : Fin 4) (n : Nat), s.flag LE_CTL.EN = true ∧ s.flag (PD_CFG.EN d) = true ∧ s.pwr.stall = false
        ∧ s.inSleep = false ∧ s.le.tick % s.halfPeriod d = 0 ∧ s.inHold = false ∧ s.driveSlot d 64 = some n
        ∧ s.flag (PD_STAT.FIRST d) = false ∧ s.flag (PD_STAT.OC d) = false ∧ s.flag (PD_STAT.HU d) = false
        ∧ s.flag (LE_SLOT_STAT.TRIPPED n) = false ∧ (s.drive d).stepped = true) :=
  ⟨⟨let s := (wLe.setFlag LE_PB_CFG.EN true).setFld LE_PB_CFG.STEP 60; { s with le := { s.le with tick := 6000000 } },
      by decide +kernel⟩,
   ⟨(wLe.setFlag (PG_CTL.EN 15) true), 15, by decide +kernel⟩,
   ⟨wLe, 15, 0x3F800000, by decide +kernel⟩,
   ⟨wLe, 15, 0x7F800000, by decide +kernel⟩,
   ⟨{ wLe with le := { wLe.le with queue := [(0, 15, .stop)] } }, 15, .stop, [], 0, by decide +kernel⟩,
   ⟨wLe.setFlag (PG_CTL.EN 15) true, 15, 5, by decide +kernel⟩,
   ⟨wLe, 15, by decide +kernel⟩,
   ⟨wLe, by decide +kernel⟩,
   ⟨wDrive 3, 3, 5, by decide +kernel⟩⟩

/-- States and operands that meet the hypotheses of TuneCommands. -/
theorem witness_TuneCommands :
    (∃ (s : State) (v : Word), TUNE_INJ_CTL.GO.of v = 1 ∧ TUNE_INJ_CTL.STOP.of v = 0 ∧ s.injCheck ≠ Code.ok ∧ s.cpStopped = false)
    ∧ (∃ (s : State) (v : Word), TUNE_INJ_CTL.GO.of v = 1 ∧ TUNE_INJ_CTL.STOP.of v = 0 ∧ s.injCheck = Code.ok ∧ s.cpStopped = false)
    ∧ (∃ (s : State) (v : Word), TUNE_INJ_CTL.STOP.of v = 1 ∧ TUNE_INJ_CTL.GO.of v = 0 ∧ s.flag TUNE_STAT.AUTH = true
        ∧ s.cpStopped = false)
    ∧ (∃ (s : State) (v : Word), TUNE_TRC_CTL.ARMED.of v = 1 ∧ TUNE_TRC_CTL.STOP.of v = 0 ∧ s.flag TUNE_TRC_CTL.ARMED = false
        ∧ s.armOk = true ∧ s.cpStopped = false)
    ∧ (∃ (s : State) (v : Word), TUNE_TRC_CTL.STOP.of v = 1 ∧ s.cpStopped = false) :=
  ⟨⟨wLe, 1, by decide +kernel⟩,
   ⟨wInj, 1, by decide +kernel⟩,
   ⟨wInj, 2, by decide +kernel⟩,
   ⟨wInj, 1, by decide +kernel⟩,
   ⟨wInj, 2, by decide +kernel⟩⟩

/-- States and operands that meet the hypotheses of CanvasStore. -/
theorem witness_CanvasStore :
    (∃ (s : State) (e : Fin 16) (v : Word), (s.canvas e).state = 1 ∧ v.toNat % 8 = 2
        ∧ (let w := s.wr32 (dirAt e) (v.toNat - v.toNat % 8 + 1); let c := w.canvas e; w.readyCheck e c (fun p => w.rd32 (canvasBase + c.base + p * footprint c.kind c.n c.m)) = Code.ok) ∧ s.cpStopped = false)
    ∧ (∃ (s : State) (e : Fin 16) (v : Word), (s.canvas e).state = 2 ∧ v.toNat % 8 = 0 ∧ s.cpStopped = false)
    ∧ (∃ (s : State) (off : BitVec 21) (size : Fin 3), off.toNat % 2 ^ size.val = 0 ∧ 0x440 ≤ off.toNat
        ∧ (∃ i < 16, (s.canvas i).state = 1 ∧ (s.canvas i).region.1 ≤ off.toNat
        ∧ off.toNat + 2 ^ size.val ≤ (s.canvas i).region.1 + (s.canvas i).region.2) ∧ s.cpStopped = false)
    ∧ (∃ (s : State) (off : BitVec 21) (size : Fin 3), off.toNat < 0x40 ∧ off.toNat % 2 ^ size.val = 0 ∧ s.cpStopped = false) :=
  ⟨⟨wCanvas 15 1, 15, 0x10002, by decide +kernel⟩,
   ⟨wCanvas 15 2, 15, 0, by decide +kernel⟩,
   ⟨(wCanvas 0 1).wr32 (dirAt 0 + 12) 84, 0x852, 1, by decide +kernel⟩,
   ⟨wCanvas 0 3, 63, 0, by decide +kernel⟩⟩

/-- States and operands that meet the hypotheses of SolverJobs. -/
theorem witness_SolverJobs :
    (∃ (s : State) (prio : Fin 4) (v : Word) (cyc : Nat) (code : Nat) (tag : Nat), s.submitOutcome prio v.toNat cyc = (code, tag,
        none) ∧ tag < 2 ^ 16 ∧ code < 2 ^ 8 ∧ s.cpStopped = false)
    ∧ (∃ (s : State) (prio : Fin 4) (v : Word) (cyc : Nat) (tag : Nat) (e : Nat) (j : SaJob),
        s.submitOutcome prio v.toNat cyc = (Code.ok, tag, some (j, e)) ∧ tag < 2 ^ 16 ∧ s.cpStopped = false)
    ∧ (∃ (s : State), s.cpStopped = false)
    ∧ (∃ (s : State) (p : Nat) (j : SaJob), s.sa.run = none ∧ s.saClock = true ∧ p < 4 ∧ s.saOldest p = some j
        ∧ (∀ q < p, s.saOldest q = none) ∧ ((0 < p → s.sa.pre = none)) ∧ j.dead = false
        ∧ rtCode ((s.rtAddrs j).map s.rtPacket) = Code.ok)
    ∧ (∃ (s : State) (j : SaJob), s.sa.run = some j ∧ s.saClock = true ∧ j.prio < 4)
    ∧ (∃ (s : State) (cut : WaveCut) (cmd : Instr) (j : SaJob), (cmd = .jobDeadline cut ∨ cmd = .saClockRestart cut)
        ∧ s.saClock = true ∧ s.saDue = [j] ∧ s.sa.run = none ∧ s.sa.pre = none ∧ j.prio < 4)
    ∧ (∃ (s : State) (j : SaJob), s.saClock = true ∧ s.saDue = [j] ∧ s.sa.run = some j ∧ j.prio < 4)
    ∧ (∃ (s : State), s.saClock = true ∧ s.saDue = []) :=
  ⟨⟨wSubmit, 3, 0x20000004, 0, Code.range, 0, by decide +kernel⟩,
   ⟨wSubmit, 0, 0x20000000, 0, 7, 1, { wJob with est := 0 }, by decide +kernel⟩,
   ⟨wSubmit, by decide +kernel⟩,
   ⟨{ wSubmit with sa := { queue := [wJob] } }, 0, wJob, by decide +kernel⟩,
   ⟨{ wSubmit with sa := { run := some wJob } }, wJob, by decide +kernel⟩,
   ⟨let s := wSubmit; { s with sa := { queue := [wJob] }, le := { s.le with tick := 1000 } }, ⟨0, [], 0⟩, .jobDeadline ⟨0, [], 0⟩,
       wJob, by decide +kernel⟩,
   ⟨let s := wSubmit; { s with sa := { run := some wJob }, le := { s.le with tick := 1000 } }, wJob, by decide +kernel⟩,
   ⟨wSubmit, by decide +kernel⟩⟩

/-- States and operands that meet the hypotheses of CanvasSwaps. -/
theorem witness_CanvasSwaps :
    (∃ (s : State) (v : Word), SA_SWAP.GO.of v = 1 ∧ (s.slotHalf (SA_SWAP.SLOT.of v) 2).isSome
        ∧ (s.fld SA_SWAP_STAT.PEND).testBit (SA_SWAP.SLOT.of v) = false ∧ s.holding = false
        ∧ (s.slotHalf (SA_SWAP.SLOT.of v) 3).isSome ∧ s.cpStopped = false)
    ∧ (∃ (s : State) (v : Word) (r : Nat), SA_SWAP.GO.of v = 1 ∧ s.slotHalf (SA_SWAP.SLOT.of v) 2 = some r
        ∧ (s.fld SA_SWAP_STAT.PEND).testBit (SA_SWAP.SLOT.of v) = false ∧ s.holding = false
        ∧ (s.slotHalf (SA_SWAP.SLOT.of v) 3).isNone ∧ s.cpStopped = false)
    ∧ (∃ (s : State) (v : Word), SA_SWAP.GO.of v = 1
        ∧ (((s.slotHalf (SA_SWAP.SLOT.of v) 2).isNone ∨ (s.fld SA_SWAP_STAT.PEND).testBit (SA_SWAP.SLOT.of v) = true))
        ∧ s.cpStopped = false)
    ∧ (∃ (s : State) (slot : Fin 8) (r : Nat), (s.fld SA_SWAP_STAT.PEND).testBit slot.val = true ∧ s.slotHalf slot 2 = some r
        ∧ ((∀ j ∈ s.sa.run.toList ++ s.sa.pre.toList ++ s.sa.queue, j.slot = slot.val → j.wait = true ∧ j.dead = false))) :=
  ⟨⟨(wCanvas 14 2).wr32 (dirAt 15) 0x10003, 0xF, by decide +kernel⟩,
   ⟨wCanvas 14 2, 0xF, 14, by decide +kernel⟩,
   ⟨wCanvas 14 3, 0xF, by decide +kernel⟩,
   ⟨(wCanvas 14 2).setFld SA_SWAP_STAT.PEND 128, 7, 14, by decide +kernel⟩⟩

/-- States and operands that meet the hypotheses of PlugTracker. -/
theorem witness_PlugTracker :
    (∃ (s : State), s.flag PT_CTL.EN = true ∧ s.inHoldup = false ∧ s.inSleep = false ∧ s.pwr.stall = false
        ∧ s.le.tick % s.ptPeriod = 0 ∧ s.pt.last ≠ some s.le.tick)
    ∧ (∃ (s : State) (v : Word), PT_COMMIT.GO.of v = 1 ∧ s.ptCheck (ptKey v) = Code.ok ∧ s.holding = false ∧ s.cpStopped = false)
    ∧ (∃ (s : State) (v : Word), PT_COMMIT.GO.of v = 1 ∧ s.ptCheck (ptKey v) ≠ Code.ok ∧ s.cpStopped = false)
    ∧ (∃ (s : State) (off : BitVec 19) (size : Fin 3), off.toNat % 2 ^ size.val = 0
        ∧ (s.flag PT_CTL.EN = false ∨ s.plugHeld off.toNat = false) ∧ s.cpStopped = false)
    ∧ (∃ (s : State) (off : BitVec 19) (size : Fin 3), off.toNat % 2 ^ size.val = 0 ∧ s.flag PT_CTL.EN = true
        ∧ s.plugHeld off.toNat = true ∧ s.cpStopped = false) :=
  ⟨⟨wRun.setFlag PT_CTL.EN true, by decide +kernel⟩,
   ⟨wRun, 0x2FF, by decide +kernel⟩,
   ⟨wRun.setReg (PT_SEG_RING 255) 0xFFFFFFFF, 0x2FF, by decide +kernel⟩,
   ⟨wRun, 0x7FFFC, 2, by decide +kernel⟩,
   ⟨(wRun.setFlag PT_CTL.EN true).setFld PT_POOL.SIZE 1, 7, 0, by decide +kernel⟩⟩

/-- States and operands that meet the hypotheses of PlanningRounds. -/
theorem witness_PlanningRounds :
    (∃ (s : State), s.ntReached s.roundMs = true ∧ s.ntIndex s.roundMs ≠ s.rnd.index)
    ∧ (∃ (s : State), s.phaseCome (s.fld SYS_RND_CFG.SOLVE_END) = true ∧ s.rnd.job = none ∧ s.isParticipant = true
        ∧ s.rnd.named = true ∧ s.rnd.replied = false ∧ s.canSend = true ∧ s.rnd.refused.getD Code.stale < 256 ∧ s.rnd.cfg.com < 2)
    ∧ (∃ (s : State), s.isHead = true ∧ s.canSend = true ∧ s.rnd.summed = false ∧ s.phaseCome (s.fld SYS_RND_CFG.REPLY_END) = true)
    ∧ (∃ (s : State), s.isHead = true ∧ s.canSend = true ∧ s.rnd.collected = false
        ∧ s.phaseCome (s.fld SYS_RND_CFG.COLLECT) = true ∧ s.flag SYS_COORD_STAT.HOLD = true)
    ∧ (∃ (s : State), s.coordValid = true ∧ s.fld SYS_COORD_STAT.LEASE = 0)
    ∧ (∃ (s : State), s.isHead = true ∧ s.canSend = true ∧ ((s.flag SYS_RND_CFG2.CAND = true ∨ 0 < s.fld SYS_NT_CFG.HEADS))) :=
  ⟨⟨wNode 1, by decide +kernel⟩,
   ⟨let s := wNode 1; { s with rnd := { s.rnd with named := true } }, by decide +kernel⟩,
   ⟨wNode 3, by decide +kernel⟩,
   ⟨wNode 3, by decide +kernel⟩,
   ⟨(wNode 1).setReg SYS_COORD 0x10001, by decide +kernel⟩,
   ⟨(wNode 3).setFlag SYS_RND_CFG2.CAND true, by decide +kernel⟩⟩

/-- States and operands that meet the hypotheses of HeatCalculators. -/
theorem witness_HeatCalculators :
    (∃ (s : State) (c : Fin 8), s.stalled = false ∧ s.inSleep = false ∧ s.flag MH_CTL.EN = true ∧ s.atInstant c = true
        ∧ (s.calculator c).newFields = none ∧ s.mhField c 0 ≠ 0 ∧ c.val < s.mh.calcs.length ∧ s.mhField c 1 < s.ana.rtd.length
        ∧ s.mhField c 2 < s.ana.rtd.length)
    ∧ (∃ (s : State) (c : Fin 8) (vals : List Nat), s.stalled = false ∧ s.inSleep = false ∧ s.flag MH_CTL.EN = true
        ∧ s.atInstant c = true ∧ (s.calculator c).newFields = some vals ∧ c.val < s.mh.calcs.length)
    ∧ (∃ (s : State) (n : Fin 16) (overlap : Bool), (s.rtd n).conv = true ∧ n.val < s.ana.rtd.length
        ∧ ((overlap = true ∨ s.inHold = true)))
    ∧ (∃ (s : State) (n : Fin 16) (ohms : BitVec 64) (v : Nat), (s.rtd n).conv = true ∧ n.val < s.ana.rtd.length
        ∧ s.inHold = false ∧ s.rtdPair n = none ∧ rtdTemp (f64 (rtdNominal (s.fld (ANA_RTD_CFG.TYPE n)))) ohms.toNat = some v)
    ∧ (∃ (s : State) (n : Fin 16), s.stalled = false ∧ s.inSleep = false ∧ s.flag (ANA_RTD_CFG.EN n) = true
        ∧ s.flag (ANA_RTD_STAT.PAIRED n) = false ∧ s.le.tick % min 1000000 (max 10000 (s.fld (ANA_RTD_CFG.PERIOD n))) = 0
        ∧ n.val < s.ana.rtd.length)
    ∧ (∃ (s : State) (c : Fin 8), s.mhField c 0 ≠ 0 ∧ s.mhField c 3 ≠ 0 ∧ s.flag MH_CTL.EN = true ∧ s.inHold = false
        ∧ c.val < s.mh.calcs.length ∧ (s.calculator c).closing = false ∧ s.stalled = false ∧ s.inSleep = false
        ∧ s.le.tick % 1000 = 0 ∧ (s.calculator c).flowAt ≠ some s.le.tick)
    ∧ (∃ (s : State) (c : Fin 8), (s.calculator c).running = true ∧ (s.calculator c).closing = false
        ∧ (s.rtd (s.mhField c 1)).conv = false ∧ (s.rtd (s.mhField c 2)).conv = false ∧ c.val < s.mh.calcs.length) :=
  ⟨⟨wHeat, 7, by decide +kernel⟩,
   ⟨wCalc fun c => { c with newFields := some (List.range 22) }, 7, List.range 22, by decide +kernel⟩,
   ⟨wRun.setRtd 15 { conv := true }, 15, true, by decide +kernel⟩,
   ⟨(wRun.setFld (ANA_RTD_CFG.TYPE 15) 0).setRtd 15 { conv := true }, 15, BitVec.ofNat 64 (f64 100), 0x8000000000000000,
       by decide +kernel⟩,
   ⟨wRun.setFlag (ANA_RTD_CFG.EN 15) true, 15, by decide +kernel⟩,
   ⟨wHeat, 7, by decide +kernel⟩,
   ⟨wCalc fun c => { c with running := true }, 7, by decide +kernel⟩⟩

/-- States and operands that meet the hypotheses of SealedCommits. -/
theorem witness_SealedCommits :
    (∃ (s : State) (v : Word), MH_SEAL_CMD.KEY.of v = 0x5EA1 ∧ MH_SEAL_CMD.GO.of v ≠ 0 ∧ s.cpStopped = false)
    ∧ (∃ (s : State) (c : SealSt), s.mh.sealing = some c ∧ c.waiting = false ∧ s.tot.save = none ∧ s.pwr.stall = false
        ∧ s.rst.sys = false)
    ∧ (∃ (s : State), s.flag MH_STAT.MAUTH = true)
    ∧ (∃ (s : State) (c : SealSt), s.mh.sealing = some c ∧ c.waiting = true) :=
  ⟨⟨wRun, 0x5EA10001, by decide +kernel⟩,
   ⟨{ wRun with mh := { wRun.mh with sealing := some {} } }, {}, by decide +kernel⟩,
   ⟨(wRun.setFlag MH_STAT.MAUTH true).setFld MH_LEDGER_HELD.COUNT 1, by decide +kernel⟩,
   ⟨{ wRun with mh := { wRun.mh with sealing := some { waiting := true } } }, { waiting := true }, by decide +kernel⟩⟩

/-- States and operands that meet the hypotheses of ElectricalMetering. -/
theorem witness_ElectricalMetering :
    (∃ (s : State) (p : Nat), s.flag ME_CTL.EN = true ∧ s.inHold = false ∧ p < 2 ∧ s.me.ports.length = 2 ∧ s.meField p 0 ≠ 0)
    ∧ (∃ (s : State), s.flag ME_CTL.EN = true ∧ s.meField 0 0 = 0 ∧ s.meField 1 0 = 0)
    ∧ (∃ (s : State) (p : Fin 2), s.flag ME_CTL.EN = true ∧ s.me.ports.length = 2 ∧ s.meField p 0 ≠ 0 ∧ (s.port p).acc.length = 7
        ∧ (s.port p).sums.n = 80 ∧ (s.port p).due = 0 ∧ (s.port p).frames.length = 1)
    ∧ (∃ (s : State) (p : Fin 2), s.flag ME_CTL.EN = true ∧ s.meField p 0 ≠ 0 ∧ (s.port p).due = 0
        ∧ (s.port p).sums.n + (s.port p).frames.length ≤ 80) :=
  ⟨⟨wMeter, 1, by decide +kernel⟩,
   ⟨wRun.setFlag ME_CTL.EN true, by decide +kernel⟩,
   ⟨wMeter.setPort 1 { sums := { n := 80 } }, 1, by decide +kernel⟩,
   ⟨wMeter, 1, by decide +kernel⟩⟩

/-- States and operands that meet the hypotheses of TotalsSaves. -/
theorem witness_TotalsSaves :
    (∃ (s : State), s.inSleep = false ∧ s.pwr.stall = false ∧ s.tot.merged = true ∧ s.tot.barred = false ∧ s.tot.save = none
        ∧ s.tot.periods < (s.le.tick - s.tot.origin) / (100000 * min 3600 (max 10 (s.fld SYS_TOT_CFG.PERIOD))))
    ∧ (∃ (s : State), (s.le.tick - s.tot.origin) / (100000 * min 3600 (max 10 (s.fld SYS_TOT_CFG.PERIOD))) ≤ s.tot.periods)
    ∧ (∃ (s : State) (v : SaveSt), s.inSleep = false ∧ s.pwr.stall = false ∧ s.tot.merged = true ∧ s.tot.barred = false
        ∧ s.tot.save = some v ∧ s.tot.periods < s.intervals s.savePeriod)
    ∧ (∃ (s : State) (v : SaveSt), s.tot.save = some v ∧ s.pwr.stall = false ∧ v.kind ≠ .warning)
    ∧ (∃ (s : State), s.inSleep = false ∧ s.pwr.stall = false ∧ s.boot.step = 10 ∧ s.tot.barred = false ∧ s.tot.save = none
        ∧ s.tot.marks < (s.le.tick - s.tot.origin) / 100000)
    ∧ (∃ (s : State) (v : SaveSt), s.inSleep = false ∧ s.pwr.stall = false ∧ s.boot.step = 10 ∧ s.tot.barred = false
        ∧ s.tot.save = some v ∧ s.tot.marks < (s.le.tick - s.tot.origin) / 100000)
    ∧ (∃ (s : State), (s.inSleep = true ∨ s.pwr.stall = true ∨ s.boot.step ≠ 10)) :=
  ⟨⟨wTot none, by decide +kernel⟩,
   ⟨wRun, by decide +kernel⟩,
   ⟨wTot (some ⟨.warning, 1, [], 0⟩), ⟨.warning, 1, [], 0⟩, by decide +kernel⟩,
   ⟨wTot (some ⟨.periodic, 1, [], 0⟩), ⟨.periodic, 1, [], 0⟩, by decide +kernel⟩,
   ⟨wTot none, by decide +kernel⟩,
   ⟨wTot (some ⟨.warning, 1, [], 0⟩), ⟨.warning, 1, [], 0⟩, by decide +kernel⟩,
   ⟨wSleep, by decide +kernel⟩⟩

/-- States and operands that meet the hypotheses of BusReception. -/
theorem witness_BusReception :
    (∃ (s : State) (c : Fin 8) (f : CanFrame), s.busRuns c = true ∧ s.canState c < 2 ∧ s.isCaravan c f = false
        ∧ s.qOwned c 0x30 < s.rxDepth c ∧ c.val < s.net.ch.length)
    ∧ (∃ (s : State) (c : Fin 8) (f : CanFrame), s.busRuns c = true ∧ s.canState c < 2 ∧ s.isCaravan c f = true
        ∧ c.val < s.net.ch.length)
    ∧ (∃ (s : State) (c : Fin 10) (v : Word) (n : Nat), s.ackCount c 0x30 (s.rxDepth c) (v.toNat % 2 ^ 13) = some n
        ∧ s.cpStopped = false)
    ∧ (∃ (s : State) (c : Fin 10) (v : Word), s.ackCount c 0x30 (s.rxDepth c) (v.toNat % 2 ^ 13) = none ∧ s.cpStopped = false)
    ∧ (∃ (s : State) (c : Fin 10) (v : Word) (n : Nat), s.ackCount c 0x38 (s.cqDepth c) (v.toNat % 2 ^ 13) = some n
        ∧ c.val < s.net.ch.length ∧ s.cpStopped = false)
    ∧ (∃ (s : State) (c : Fin 10) (x : Fin 16) (k : BusCtx), s.busRuns c = true ∧ nth (s.ch c).ctx x none = some k
        ∧ k.owned = false ∧ k.opened + 100 * max 1 (s.fld (busField c 0x44 9 0)) ≤ s.le.tick ∧ c.val < s.net.ch.length
        ∧ x.val < (s.ch c).ctx.length) :=
  ⟨⟨(wBus 7).setFld (busField 7 0x30 28 16) 3, 7, wFrame, by decide +kernel⟩,
   ⟨(wBus 7).setFlag (CAN_CTL.RASM 7) true, 7, wCarFrame, by decide +kernel⟩,
   ⟨(wBus 9).setFld (busField 9 0x30 28 16) 4, 9, 3, 4, by decide +kernel⟩,
   ⟨wBus 9, 9, 4, by decide +kernel⟩,
   ⟨((wBus 9).setFld (busField 9 0x38 28 16) 1).setFld (busField 9 0x38 12 0) 1, 9, 0, 1, by decide +kernel⟩,
   ⟨let s := wCh 9 fun b => { b with ctx := putAt b.ctx 15 (some { key := 0, car := 1, header := 0 }) }; { s with le := { s.le with tick := 100 * max 1 (s.fld (busField 9 0x44 9 0)) } }, 9, 15, { key := 0, car := 1, header := 0 }, by decide +kernel⟩⟩

/-- States and operands that meet the hypotheses of FullReceiveQueue. -/
theorem witness_FullReceiveQueue :
    (∃ (s : State) (c : Fin 8) (f : CanFrame), s.busRuns c = true ∧ s.canState c < 2 ∧ s.isCaravan c f = false
        ∧ s.qOwned c 0x30 = s.rxDepth c ∧ c.val < s.net.ch.length) :=
  ⟨(wBus 7).setFld (busField 7 0x30 28 16) 4, 7, wFrame, by decide +kernel⟩

/-- States and operands that meet the hypotheses of BusTransmission. -/
theorem witness_BusTransmission :
    (∃ (s : State) (c : Fin 10) (v : Word) (e : Nat), e < busEntries c ∧ bit v.toNat e = true ∧ s.txPending c e = false
        ∧ s.flag (busField c 0 0 0) = true ∧ s.canFailed c = false ∧ s.cpStopped = false)
    ∧ (∃ (s : State) (c : Fin 10) (v : Word) (e : Nat), e < busEntries c ∧ bit v.toNat e = false ∧ s.cpStopped = false)
    ∧ (∃ (s : State) (c : Fin 8) (d : List Byte), s.canMayStart c = true ∧ s.inHoldup = false ∧ (s.ch c).ref = some d
        ∧ c.val < s.net.ch.length)
    ∧ (∃ (s : State) (c : Fin 8) (id : Nat) (e : Nat), s.canMayStart c = true ∧ ((s.inHoldup = true ∨ (s.ch c).ref = none))
        ∧ lowestId (s.canReady c) = some (id, .entry e) ∧ (bit (s.txWord c e 0) 29 && s.priceBarred id) = false
        ∧ c.val < s.net.ch.length)
    ∧ (∃ (s : State) (c : Fin 8) (e : Nat) (f : CanFrame), (s.ch c).cur = some (.entry e, f) ∧ s.busRuns c = true ∧ e < 32
        ∧ c.val < s.net.ch.length ∧ e < (s.ch c).sent.length ∧ nth (s.ch c).abort e false = false ∧ s.canState c < 2)
    ∧ (∃ (s : State) (c : Fin 8) (e : Nat) (f : CanFrame), (s.ch c).cur = some (.entry e, f) ∧ s.busRuns c = true ∧ e < 32
        ∧ c.val < s.net.ch.length ∧ s.txOneshot c e = false ∧ nth (s.ch c).abort e false = false)
    ∧ (∃ (s : State) (c : Fin 8) (e : Nat) (f : CanFrame) (ty : Fin 5), (s.ch c).cur = some (.entry e, f) ∧ s.busRuns c = true
        ∧ e < 32 ∧ c.val < s.net.ch.length ∧ s.txOneshot c e = true ∧ nth (s.ch c).abort e false = false ∧ s.canState c < 2
        ∧ ty ≠ 4 ∧ s.tec c + 8 ≤ 255)
    ∧ (∃ (s : State) (c : Fin 10) (v : Word) (e : Nat), e < busEntries c ∧ bit v.toNat e = true ∧ s.txPending c e = true
        ∧ c.val < s.net.ch.length ∧ e < (s.ch c).abort.length ∧ s.cpStopped = false) :=
  ⟨⟨wBus 9, 9, 0x8000, 15, by decide +kernel⟩,
   ⟨wBus 7, 7, 0, 31, by decide +kernel⟩,
   ⟨wCh 7 fun b => { b with ref := some [1] }, 7, [1], by decide +kernel⟩,
   ⟨wTx 7 31 false, 7, 0, 31, by decide +kernel⟩,
   ⟨(wTx 7 31 false).setCh 7 { (wTx 7 31 false).ch 7 with cur := some (.entry 31, wFrame) }, 7, 31, wFrame, by decide +kernel⟩,
   ⟨(wTx 7 31 false).setCh 7 { (wTx 7 31 false).ch 7 with cur := some (.entry 31, wFrame) }, 7, 31, wFrame, by decide +kernel⟩,
   ⟨((wTx 7 31 true).setCh 7 { (wTx 7 31 true).ch 7 with cur := some (.entry 31, wFrame) }).setFld (CAN_STAT.TEC 7) 247, 7, 31,
       wFrame, 1, by decide +kernel⟩,
   ⟨wTx 9 15 false, 9, 0x8000, 15, by decide +kernel⟩⟩

/-- States and operands that meet the hypotheses of CanModesAndErrors. -/
theorem witness_CanModesAndErrors :
    (∃ (s : State) (c : Fin 8) (v : Word), (CAN_CTL.RECOVER c).of v = 1 ∧ s.canState c = 2 ∧ s.cpStopped = false)
    ∧ (∃ (s : State) (c : Fin 8), s.busRuns c = true ∧ s.canState c = 3)
    ∧ (∃ (s : State), s.cpStopped = false)
    ∧ (∃ (s : State) (c : Fin 8), s.busRuns c = true ∧ (s.ch c).cur = none)
    ∧ (∃ (s : State) (c : Fin 8) (v : Word), (CAN_CTL.WUP c).of v = 1 ∧ s.flag (CAN_STAT.RESTR c) = false ∧ s.cpStopped = false)
    ∧ (∃ (s : State) (c : Fin 8), s.canMayStart c = true ∧ s.inHoldup = false ∧ s.canReady c = [] ∧ (s.ch c).ref = none
        ∧ s.reg (CAN_TX_PEND c) = 0 ∧ s.flag (CAN_CTL.WUP c) = true)
    ∧ (∃ (s : State) (c : Fin 8), (s.canReady c ≠ [] ∨ (s.ch c).ref ≠ none ∨ s.reg (CAN_TX_PEND c) ≠ 0))
    ∧ (∃ (s : State) (c : Fin 8), s.busRuns c = false)
    ∧ (∃ (s : State) (c : Fin 8), s.busRuns c = true ∧ s.flag (CAN_HB_CFG.EN c) = true ∧ c.val < s.net.ch.length)
    ∧ (∃ (s : State) (c : Fin 8), s.busRuns c = true ∧ s.canState c < 2 ∧ s.flag (CAN_STAT.RESTR c) = false) :=
  ⟨⟨(wBus 7).setFld (CAN_STAT.STATE 7) 2, 7, 0x20, by decide +kernel⟩,
   ⟨(wBus 7).setFld (CAN_STAT.STATE 7) 3, 7, by decide +kernel⟩,
   ⟨wBus 7, by decide +kernel⟩,
   ⟨wBus 7, 7, by decide +kernel⟩,
   ⟨wBus 7, 7, 0x41, by decide +kernel⟩,
   ⟨(wBus 7).setFlag (CAN_CTL.WUP 7) true, 7, by decide +kernel⟩,
   ⟨let s := (wBus 7).setFlag (CAN_CTL.WUP 7) true; s.setCh 7 { s.ch 7 with ref := some [1] }, 7, by decide +kernel⟩,
   ⟨wSleep, 7, by decide +kernel⟩,
   ⟨(wBus 7).setFlag (CAN_HB_CFG.EN 7) true, 7, by decide +kernel⟩,
   ⟨(wBus 7).setFld (CAN_STAT.REC 7) 127, 7, by decide +kernel⟩⟩

/-- States and operands that meet the hypotheses of BackbonePorts. -/
theorem witness_BackbonePorts :
    (∃ (s : State) (k : Fin 2) (f : List Byte), s.busRuns (8 + k) = true ∧ s.macMine k f = false)
    ∧ (∃ (s : State) (k : Fin 2) (f : List Byte), s.busRuns (8 + k) = true ∧ s.macMine k f = true ∧ slice f 12 2 ≠ [0x86, 0xDD]
        ∧ s.qOwned (8 + k) 0x30 < s.rxDepth (8 + k))
    ∧ (∃ (s : State) (k : Fin 2) (f : List Byte), s.busRuns (8 + k) = true ∧ s.macMine k f = true ∧ slice f 12 2 = [0x86, 0xDD]
        ∧ (nth f 14 0).toNat / 16 = 6 ∧ nth f 20 0 = 17
        ∧ sum6 (slice f 22 16) (slice f 38 16) 17 ((f.drop 54).take (ofBytesBE (slice f 18 2))) ≠ 65535)
    ∧ (∃ (s : State) (k : Fin 2) (d : List Byte), s.ethMaySend k = true ∧ s.inHoldup = false ∧ nth s.net.ptp k none = none
        ∧ (s.ch (8 + k)).ref = some d ∧ 8 + k.val < s.net.ch.length)
    ∧ (∃ (s : State) (k : Fin 2) (d : List Byte), s.ethMaySend k = true ∧ ((s.inHoldup = true ∨ nth s.net.ptp k none = none))
        ∧ ((s.inHoldup = true ∨ (s.ch (8 + k)).ref = none)) ∧ (s.ch (8 + k)).pfail = some d ∧ 8 + k.val < s.net.ch.length)
    ∧ (∃ (s : State) (k : Fin 2) (id : Nat) (e : Nat), s.ethMaySend k = true ∧ s.inHoldup = false ∧ nth s.net.ptp k none = none
        ∧ (s.ch (8 + k)).ref = none ∧ (s.ch (8 + k)).pfail = none
        ∧ lowestId ((((List.range 16).filter (s.txPending (8 + k))).map fun e => (s.txId (8 + k) e,
        BusSrc.entry e)) ++ s.msgsOf (8 + k)) = some (id, .entry e) ∧ s.priceBarred (bits (s.txWord (8 + k) e 0) 28 0) = false
        ∧ s.txCaravan (8 + k) e = false ∧ e < 16 ∧ 8 + k.val < s.net.ch.length)
    ∧ (∃ (s : State) (k : Fin 2) (a : Nat) (n : Nat), s.ethMaySend k = true ∧ s.inHoldup = false
        ∧ nth s.net.ptp k none = some (a, n) ∧ 8 + k.val < s.net.ch.length) :=
  ⟨⟨wPort 1, 1, [2], by decide +kernel⟩,
   ⟨(wPort 1).setFld (busField 9 0x30 28 16) 3, 1, [1], by decide +kernel⟩,
   ⟨wPort 1, 1, List.replicate 12 1 ++ [0x86, 0xDD, 0x60] ++ List.replicate 5 0 ++ [17], by decide +kernel⟩,
   ⟨(wPort 1).setCh 9 { (wPort 1).ch 9 with ref := some [1] }, 1, [1], by decide +kernel⟩,
   ⟨(wPort 1).setCh 9 { (wPort 1).ch 9 with pfail := some [1] }, 1, [1], by decide +kernel⟩,
   ⟨(wTx 9 15 false).setFlag (ETH_STAT.UP 1) true, 1, 0, 15, by decide +kernel⟩,
   ⟨let s := wPort 1; { s with net := { s.net with ptp := [none, some (0x31000000, 1514)] } }, 1, 0x31000000, 1514,
       by decide +kernel⟩⟩

/-- States and operands that meet the hypotheses of ReferenceMessages. -/
theorem witness_ReferenceMessages :
    (∃ (s : State) (c : Nat), s.isHead = true ∧ s.ntReached s.refMs = true ∧ s.inHoldup = false ∧ s.inSleep = false
        ∧ s.net.instAt ≠ some s.le.tick ∧ c < 8 ∧ bit (s.fld SYS_NT_REF.CHAN) c = true ∧ s.busRuns c = true ∧ c < s.net.ch.length)
    ∧ (∃ (s : State) (c : Fin 8), (s.ch c).refSof = none ∧ (∀ f, (s.ch c).cur ≠ some (.ref, f))
      ∧ 2 * (s.ch c).refAt + s.refTicks ≤ 2 * s.le.tick ∧ c.val < s.net.ch.length)
    ∧ (∃ (s : State) (c : Fin 10) (d : List Byte), s.busRuns c = true ∧ 24 ≤ d.length ∧ nth d 0 0 = 1
        ∧ ((c.val < 8 → s.canState c < 2)) ∧ c.val < s.net.ch.length) :=
  ⟨⟨let s := (wBus 7).setFld SYS_NT_REF.CHAN 128; { (((s.setFld SYS_ROLE.ROLE 3).setFlag SYS_NT_STAT.VALID true)) with time := (wNode 3).time }, 7, by decide +kernel⟩,
   ⟨wRefQ, 7, by decide +kernel, by intro f; rw [wRefQ_cur]; exact (fun h => nomatch h), by decide +kernel⟩,
   ⟨wBus 7, 7, 1 :: List.replicate 23 0, by decide +kernel⟩⟩

/-- States and operands that meet the hypotheses of NetworkTime. -/
theorem witness_NetworkTime :
    (∃ (s : State), s.ntFirmware = true ∧ s.cpStopped = false)
    ∧ (∃ (s : State), s.ntFirmware = true ∧ s.cpStopped = false)
    ∧ (∃ (s : State), s.ntFirmware = false ∧ s.cpStopped = false)
    ∧ (∃ (s : State) (v : Word), SYS_NT_CTL.FW_VALID.of v = 1 ∧ SYS_NT_CTL.INVAL.of v = 0 ∧ s.ntFirmware = true
        ∧ s.cpStopped = false)
    ∧ (∃ (s : State) (v : Word), SYS_NT_CTL.INVAL.of v = 1 ∧ s.cpStopped = false)
    ∧ (∃ (s : State), s.flag SYS_NT_STAT.VALID = true ∧ s.time.lastAcc + s.holdTicks ≤ s.le.tick)
    ∧ (∃ (s : State) (k : Fin 2) (v : Word), (ETH_PTP_TXLEN.GO k).of v = 1 ∧ s.flag (ETH_PTP_STAT.BUSY k) = false
        ∧ 60 ≤ (ETH_PTP_TXLEN.LEN k).of v ∧ (ETH_PTP_TXLEN.LEN k).of v ≤ 1514 ∧ k.val < s.net.ptp.length ∧ s.cpStopped = false)
    ∧ (∃ (s : State) (k : Fin 2), s.flag (ETH_PTP_STAT.BUSY k) = true ∧ k.val < s.net.ptp.length ∧ k.val < s.net.ptpTs.length) :=
  ⟨⟨wFwTime, by decide +kernel⟩,
   ⟨wFwTime, by decide +kernel⟩,
   ⟨wRun, by decide +kernel⟩,
   ⟨wFwTime, 1, by decide +kernel⟩,
   ⟨wRun.setFlag SYS_NT_STAT.VALID true, 2, by decide +kernel⟩,
   ⟨let s := wRun.setFlag SYS_NT_STAT.VALID true; { s with le := { s.le with tick := s.holdTicks } }, by decide +kernel⟩,
   ⟨wPort 1, 1, 0x800005EA, by decide +kernel⟩,
   ⟨(wPort 1).setFlag (ETH_PTP_STAT.BUSY 1) true, 1, by decide +kernel⟩⟩

/-- States and operands that meet the hypotheses of PmPageCommands. -/
theorem witness_PmPageCommands :
    (∃ (s : State) (v : Word), pmCmdIs v 1 = true ∧ s.pageRefusal (PM_CMD.PAGE.of v) false = none ∧ s.cpStopped = false)
    ∧ (∃ (s : State) (v : Word) (c : Nat), pmCmdIs v 1 = true ∧ s.pageRefusal (PM_CMD.PAGE.of v) false = some c
        ∧ s.cpStopped = false)
    ∧ (∃ (s : State) (v : Word) (p : Nat × PmPart), pmCmdIs v 2 = true ∧ s.pageRefusal (s.pm.loaded.getD 0) true = none
        ∧ partOf (s.pm.loaded.getD 0) 0 s.pm.parts = some p ∧ s.cpStopped = false)
    ∧ (∃ (s : State) (v : Word), pmCmdIs v 3 = true ∧ s.flag PM_STAT.READY = true ∧ s.flag PM_STAT.BUSY = false
        ∧ s.cpStopped = false)
    ∧ (∃ (s : State), s.flag PM_STAT.BUSY = true ∧ s.pmBlocked 6 = false ∧ s.rst.sys = false) :=
  ⟨⟨wPm, 0x9A3E1400, by decide +kernel⟩,
   ⟨wPm, 0x9A3E13FF, 0x14, by decide +kernel⟩,
   ⟨{ wPm with pm := { wPm.pm with loaded := some 1039 } }, 0x9A3E2000, (0, { defined := true, base := 1024, size := 16 }),
       by decide +kernel⟩,
   ⟨wPm, 0x9A3E3000, by decide +kernel⟩,
   ⟨wPm.setFlag PM_STAT.BUSY true, by decide +kernel⟩⟩

/-- States and operands that meet the hypotheses of PmPasswordsAndCounters. -/
theorem witness_PmPasswordsAndCounters :
    (∃ (s : State) (v : Word), PM_UNLOCK.GO.of v ≠ 0 ∧ PM_UNLOCK.LOCK.of v ≠ 1
        ∧ s.flag (PM_PART_STAT.LOCKED (PM_UNLOCK.PART.of v)) = false
        ∧ (if PM_UNLOCK.KIND.of v = 1 then (nth s.pm.parts (PM_UNLOCK.PART.of v) {}).wpw else (nth s.pm.parts (PM_UNLOCK.PART.of v) {}).rpw) = none ∧ s.cpStopped = false)
    ∧ (∃ (s : State) (v : Word) (h : List Byte), PM_UNLOCK.GO.of v ≠ 0 ∧ PM_UNLOCK.LOCK.of v ≠ 1 ∧ PM_UNLOCK.KIND.of v = 1
        ∧ (nth s.pm.parts (PM_UNLOCK.PART.of v) {}).wpw = some h ∧ s.flag (PM_PART_STAT.LOCKED (PM_UNLOCK.PART.of v)) = false
        ∧ s.fld (PM_PART_STAT.WAIT (PM_UNLOCK.PART.of v)) = 0 ∧ s.fld (PM_PART_STAT.FAILS (PM_UNLOCK.PART.of v)) < 7
        ∧ s.cpStopped = false)
    ∧ (∃ (s : State) (v : Word), PM_UNLOCK.LOCK.of v = 1 ∧ s.cpStopped = false)
    ∧ (∃ (s : State) (v : Word), PM_SC_CMD.KEY.of v = 0x5C01 ∧ PM_SC_CMD.GO.of v ≠ 0 ∧ s.flag PM_SC_STAT.BUSY = false
        ∧ 8 ≤ PM_SC_CMD.INDEX.of v ∧ s.scCheck (PM_SC_CMD.INDEX.of v) = .done ∧ s.pmBlocked 5 = false
        ∧ s.scValue (PM_SC_CMD.INDEX.of v) + 1 < 4252017622 ∧ s.cpStopped = false)
    ∧ (∃ (s : State) (v : Word), PM_SC_CMD.KEY.of v = 0x5C01 ∧ PM_SC_CMD.GO.of v ≠ 0 ∧ s.flag PM_SC_STAT.BUSY = false
        ∧ 8 ≤ PM_SC_CMD.INDEX.of v ∧ s.pmBlocked 5 = true ∧ s.cpStopped = false)
    ∧ (∃ (s : State), s.fld LCS_STAT.STATE ≠ 4 ∧ s.pmBlocked 4 = false) :=
  ⟨⟨wPm, 0x4F, by decide +kernel⟩,
   ⟨{ wPm with pm := { wPm.pm with parts := [{ defined := true, wpw := some [] }] } }, 0x50, [], by decide +kernel⟩,
   ⟨wPm, 0x2F, by decide +kernel⟩,
   ⟨wPm, 0x5C01003F, by decide +kernel⟩,
   ⟨{ wPm with tot := { wPm.tot with save := some ⟨.periodic, 1, [], 0⟩ } }, 0x5C01003F, by decide +kernel⟩,
   ⟨wPm, by decide +kernel⟩⟩

/-- States and operands that meet the hypotheses of WaystationInClear. -/
theorem witness_WaystationInClear :
    (∃ (s : State) (c : Fin 10) (e : Fin 512) (q : WayReq), s.asksClear c e 1 q)
    ∧ (∃ (s : State) (c : Fin 10) (e : Fin 512) (q : WayReq), s.asksClear c e 2 q ∧ s.cp.fw = true ∧ 18 ≤ q.rec_.length
        ∧ fieldKnown (q.num 12 2) (q.num 16 2) = true ∧ q.num 14 2 < typeInstances (q.num 12 2))
    ∧ (∃ (s : State) (c : Fin 10) (e : Fin 512) (q : WayReq), s.asksClear c e 5 q ∧ 16 ≤ q.rec_.length
        ∧ q.num 12 4 < s.reportBytes.length)
    ∧ (∃ (s : State) (c : Fin 10) (e : Fin 512) (q : WayReq), s.asksClear c e 6 q ∧ 16 ≤ q.rec_.length)
    ∧ (∃ (s : State) (c : Fin 10) (e : Fin 512) (q : WayReq), s.asksClear c e 7 q ∧ 48 ≤ q.rec_.length ∧ s.zeroed = false
        ∧ s.noRandom = false ∧ s.flag VLT_STAT.ST_DONE = true)
    ∧ (∃ (s : State) (c : Fin 10) (e : Fin 512) (q : WayReq), s.asksClear c e 10 q ∧ 93 ≤ q.rec_.length ∧ s.wayIdle = false
        ∧ s.zeroed = false ∧ s.way.sess = none ∧ (nth q.rec_ 92 0).toNat < 32 ∧ s.noRandom = false ∧ s.flag VLT_STAT.ST_DONE = true)
    ∧ (∃ (s : State) (c : Fin 10) (e : Fin 512) (q : WayReq) (h : Handshake), s.asksClear c e 11 q ∧ 76 ≤ q.rec_.length
        ∧ s.way.hand = some h ∧ s.way.sess = none ∧ s.slotType h.slot = 4 ∧ bit (s.slotPol h.slot) 15 = true
        ∧ s.spent h.slot = false) :=
  ⟨⟨wAsk (wRec 1 false (List.replicate 0 0)), 9, 0, wReq 1 false (List.replicate 0 0),
      by unfold State.asksClear State.asks; decide +kernel⟩,
   ⟨wAsk (wRec 2 false [1,8,0,0,1,8]), 9, 0, wReq 2 false [1,8,0,0,1,8], by unfold State.asksClear State.asks; decide +kernel⟩,
   ⟨wAsk (wRec 5 false (List.replicate 4 0)), 9, 0, wReq 5 false (List.replicate 4 0),
       by unfold State.asksClear State.asks; decide +kernel⟩,
   ⟨wAsk (wRec 6 false (List.replicate 4 0)), 9, 0, wReq 6 false (List.replicate 4 0),
       by unfold State.asksClear State.asks; decide +kernel⟩,
   ⟨wAsk (wRec 7 false (List.replicate 36 0)), 9, 0, wReq 7 false (List.replicate 36 0),
       by unfold State.asksClear State.asks; decide +kernel⟩,
   ⟨wAsk (wRec 10 false (List.replicate 81 0)), 9, 0, wReq 10 false (List.replicate 81 0),
       by unfold State.asksClear State.asks; decide +kernel⟩,
   ⟨let s := wAsk (wRec 11 false (List.replicate 64 0)); { s.vaultWriteAll (s.updateWords 31 0x8004 0 []) with way := { s.way with hand := some ⟨31, [], 0, []⟩ } }, 9, 0, wReq 11 false (List.replicate 64 0), ⟨31, [], 0, []⟩, by unfold State.asksClear State.asks; decide +kernel⟩⟩

/-- States and operands that meet the hypotheses of WaystationSealed. -/
theorem witness_WaystationSealed :
    (∃ (s : State) (c : Fin 10) (e : Fin 512) (q : WayReq) (x : Session) (p : Nat × Instr), p ∈ sealedRequests c e
        ∧ s.asksSealed c e p.1 q x)
    ∧ (∃ (s : State) (c : Fin 10) (e : Fin 512) (q : WayReq) (x : Session), s.asksSealed c e 3 q x ∧ s.cp.fw = true
        ∧ bit x.rights 0 = true)
    ∧ (∃ (s : State) (c : Fin 10) (e : Fin 512) (q : WayReq) (x : Session), s.asksSealed c e 4 q x ∧ bit x.rights 1 = true)
    ∧ (∃ (s : State) (c : Fin 10) (e : Fin 512) (q : WayReq) (x : Session), s.asksSealed c e 8 q x ∧ s.cp.fw = true
        ∧ bit x.rights 0 = true)
    ∧ (∃ (s : State) (c : Fin 10) (e : Fin 512) (q : WayReq) (x : Session), s.asksSealed c e 9 q x ∧ s.cp.fw = true
        ∧ bit x.rights 0 = true)
    ∧ (∃ (s : State) (c : Fin 10) (e : Fin 512) (q : WayReq) (x : Session), s.asksSealed c e 12 q x)
    ∧ (∃ (s : State) (c : Fin 10) (e : Fin 512) (q : WayReq) (x : Session), s.asksSealed c e 13 q x ∧ s.cp.fw = true
        ∧ bit x.rights 2 = true ∧ s.flag MH_STAT.MAUTH = true)
    ∧ (∃ (s : State) (c : Fin 10) (e : Fin 512) (q : WayReq) (x : Session), s.asksSealed c e 14 q x ∧ bit x.rights 1 = true)
    ∧ (∃ (s : State) (c : Fin 10) (e : Fin 512) (q : WayReq) (x : Session), s.asksSealed c e 15 q x ∧ bit x.rights 1 = true)
    ∧ (∃ (s : State), s.wayIdle = true) :=
  ⟨⟨wSealed 15, 9, 0, wSealedReq 15, wSess, (15, .reqRestart 9 0), by unfold State.asksSealed State.asks; decide +kernel⟩,
   ⟨wSealed 3, 9, 0, wSealedReq 3, wSess, by unfold State.asksSealed State.asks; decide +kernel⟩,
   ⟨wSealed 4, 9, 0, wSealedReq 4, wSess, by unfold State.asksSealed State.asks; decide +kernel⟩,
   ⟨wSealed 8, 9, 0, wSealedReq 8, wSess, by unfold State.asksSealed State.asks; decide +kernel⟩,
   ⟨wSealed 9, 9, 0, wSealedReq 9, wSess, by unfold State.asksSealed State.asks; decide +kernel⟩,
   ⟨wSealed 12, 9, 0, wSealedReq 12, wSess, by unfold State.asksSealed State.asks; decide +kernel⟩,
   ⟨(wSealed 13).setFlag MH_STAT.MAUTH true, 9, 0, wSealedReq 13, wSess, by unfold State.asksSealed State.asks; decide +kernel⟩,
   ⟨wSealed 14, 9, 0, wSealedReq 14, wSess, by unfold State.asksSealed State.asks; decide +kernel⟩,
   ⟨wSealed 15, 9, 0, wSealedReq 15, wSess, by unfold State.asksSealed State.asks; decide +kernel⟩,
   ⟨let s := wSealed 1; { s with le := { s.le with tick := 100000 * s.way.timeout + 1 } }, by decide +kernel⟩⟩

/-- States and operands that meet the hypotheses of FieldLinks. -/
theorem witness_FieldLinks :
    (∃ (s : State) (l : Fin 24) (m : Nat) (rest : List Nat), s.wflRuns l = true ∧ s.le.tick % s.linkCycle l = 0
        ∧ (s.link l).start = none ∧ l.val < s.wfl.length ∧ (∀ k < 16, (s.wmod l k).stage = none)
        ∧ (List.range 16).filter (fun k => recEn (s.wrec l k)) = m :: rest)
    ∧ (∃ (s : State) (l : Fin 24) (m : Nat) (r : List Nat), s.wflRuns l = true ∧ s.le.tick % s.linkCycle l = 0
        ∧ (s.link l).start = none ∧ l.val < s.wfl.length ∧ m < 16 ∧ m < (s.link l).mods.length ∧ (s.wmod l m).stage = some r)
    ∧ (∃ (s : State) (l : Fin 24) (f : List Byte) (parity : Bool) (cyc : Nat) (q : WflReq), (s.link l).req = some q
        ∧ s.wflRuns l = true ∧ q.addr < 16 ∧ (∀ k < 16, (s.wmod l k).stage = none)
        ∧ s.clk cyc ≤ s.respDue l q + f.length * s.charCycles l ∧ ((s.wjudge l q f parity = .crc ∨ s.wjudge l q f parity = .wrong)))
    ∧ (∃ (s : State) (l : Fin 24) (f : List Byte) (parity : Bool) (cyc : Nat) (q : WflReq) (d : List Byte),
        (s.link l).req = some q ∧ s.wflRuns l = true ∧ q.addr < 16 ∧ q.cmd ≠ 1 ∧ (∀ k < 16, (s.wmod l k).stage = none)
        ∧ s.clk cyc ≤ s.respDue l q + f.length * s.charCycles l ∧ s.wjudge l q f parity = .good false d)
    ∧ (∃ (s : State) (l : Fin 24) (f : List Byte) (parity : Bool) (isNew : Bool) (cyc : Nat) (q : WflReq) (d : List Byte),
        (s.link l).req = some q ∧ s.wflRuns l = true ∧ q.addr < 16 ∧ q.cmd = 1 ∧ (∀ k < 16, (s.wmod l k).stage = none)
        ∧ l.val < s.wfl.length ∧ q.addr < (s.link l).mods.length ∧ s.clk cyc ≤ s.respDue l q + f.length * s.charCycles l
        ∧ s.wjudge l q f parity = .good isNew d)
    ∧ (∃ (s : State) (l : Fin 24) (cyc : Nat) (q : WflReq), (s.link l).req = some q ∧ s.wflRuns l = true ∧ q.addr < 16
        ∧ (∀ k < 16, (s.wmod l k).stage = none) ∧ s.respDue l q ≤ s.clk cyc)
    ∧ (∃ (s : State) (l : Fin 24) (f : List Byte) (cyc : Nat) (q : WflReq), (s.link l).req = some q ∧ s.wflRuns l = true
        ∧ q.addr < 16 ∧ (∀ k < 16, (s.wmod l k).stage = none) ∧ s.respDue l q + f.length * s.charCycles l < s.clk cyc)
    ∧ (∃ (s : State) (v : Word), WFL_COMMIT.GO.of v = 1 ∧ WFL_COMMIT.LINK.of v < 24 ∧ s.holding = false ∧ s.wfl.length = 24
        ∧ (s.link (WFL_COMMIT.LINK.of v)).mods.length = 16 ∧ s.cpStopped = false)
    ∧ (∃ (s : State) (e : BitVec 12), ((∀ r, s.outOwner e.toNat = some r → recCp r = true)) ∧ s.cpStopped = false)
    ∧ (∃ (s : State) (e : BitVec 12) (r : List Nat), s.outOwner e.toNat = some r ∧ recCp r = false ∧ s.cpStopped = false) :=
  ⟨⟨wLink id, 23, 15, [], by decide +kernel⟩,
   ⟨wLink fun x => { x with mods := putAt x.mods 15 { stage := some [0, 0, 0, 0, 0] } }, 23, 15, [0, 0, 0, 0, 0],
       by decide +kernel⟩,
   ⟨wLink fun x => { x with req := some { addr := 15, cmd := 0, seq := 0, probe := false } }, 23, [], false, 0,
       { addr := 15, cmd := 0, seq := 0, probe := false }, by decide +kernel⟩,
   ⟨wLink fun x => { x with req := some { addr := 15, cmd := 0, seq := 0, probe := false } }, 23, wResp 15 0 [1, 2, 3, 4], false,
       0, { addr := 15, cmd := 0, seq := 0, probe := false }, [1, 2, 3, 4], by decide +kernel⟩,
   ⟨wLink fun x => { x with req := some { addr := 15, cmd := 1, seq := 0, probe := false } }, 23,
       wResp 15 1 (List.replicate 16 0), false, false, 0, { addr := 15, cmd := 1, seq := 0, probe := false }, List.replicate 16 0,
       by decide +kernel⟩,
   ⟨wLink fun x => { x with req := some { addr := 15, cmd := 0, seq := 0, probe := false } }, 23, 1000000,
       { addr := 15, cmd := 0, seq := 0, probe := false }, by decide +kernel⟩,
   ⟨wLink fun x => { x with req := some { addr := 15, cmd := 0, seq := 0, probe := false } }, 23, [], 1000000,
       { addr := 15, cmd := 0, seq := 0, probe := false }, by decide +kernel⟩,
   ⟨wRun, 0x37F, by decide +kernel⟩,
   ⟨wRun, 0xFFF, by decide +kernel⟩,
   ⟨wLink id, 0, [2 ^ 31 + 2 ^ 7 + 1, 0, 0, 0, 0], by decide +kernel⟩⟩

/-- States and operands that meet the hypotheses of ScanEngine. -/
theorem witness_ScanEngine :
    (∃ (s : State), s.seInstant = true ∧ s.stalled = false ∧ s.inSleep = false ∧ s.se.ends ≤ s.le.tick * 1000)
    ∧ (∃ (s : State), s.seInstant = true ∧ s.inSleep = false ∧ ((s.stalled = true ∨ s.le.tick * 1000 < s.se.ends)))
    ∧ (∃ (s : State), (s.se.had = some s.le.tick ∨ s.seRuns = false))
    ∧ (∃ (s : State) (v : Word), SE_XCHG.GO.of v = 1 ∧ s.holding = false ∧ (s.seCheck (SE_XCHG.BASE.of v)).1 = Code.ok
        ∧ s.cpStopped = false)
    ∧ (∃ (s : State) (v : Word), SE_XCHG.GO.of v = 1 ∧ (s.seCheck (SE_XCHG.BASE.of v)).1 ≠ Code.ok ∧ s.cpStopped = false)
    ∧ (∃ (s : State) (v : Word) (w : Nat), SE_FORCE_CMD.SET.of v = 1 ∧ SE_FORCE_CMD.CLR.of v = 0 ∧ s.forceAdmit = Code.ok
        ∧ s.flag SE_STAT.RUN = true ∧ s.seWordOf s.seRunning (bits (s.reg SE_FORCE_TAG).toNat 15 0) = some w
        ∧ s.se.forces.length < 64 ∧ s.cpStopped = false)
    ∧ (∃ (s : State) (v : Word), SE_FORCE_CMD.CLR.of v = 1 ∧ SE_FORCE_CMD.SET.of v = 0 ∧ s.forceAdmit = Code.ok
        ∧ s.cpStopped = false)
    ∧ (∃ (s : State) (off : BitVec 19) (size : Fin 3), off.toNat % 2 ^ size.val = 0 ∧ off.toNat < 0x40000
        ∧ ((∀ r ∈ s.seTaken, off.toNat / 8 < r.1 ∨ r.1 + r.2 ≤ off.toNat / 8)) ∧ s.cpStopped = false)
    ∧ (∃ (s : State) (off : BitVec 19) (size : Fin 3), off.toNat % 2 ^ size.val = 0 ∧ ((off.toNat < 0x40000
        ∧ (∃ r ∈ s.seTaken, r.1 ≤ off.toNat / 8 ∧ off.toNat / 8 < r.1 + r.2) ∨ 0x68000 ≤ off.toNat)) ∧ s.cpStopped = false)
    ∧ (∃ (s : State) (off : BitVec 19), off.toNat % 4 = 0 ∧ 0x40000 ≤ off.toNat ∧ off.toNat < 0x68000 ∧ s.cpStopped = false) :=
  ⟨⟨wScan, by decide +kernel⟩,
   ⟨wScan.setSe { wScan.se with ends := 1 }, by decide +kernel⟩,
   ⟨wRun, by decide +kernel⟩,
   ⟨wProgram, 0x80000008, by decide +kernel⟩,
   ⟨wRun, 0x80000000, by decide +kernel⟩,
   ⟨(wScan.setReg SE_FORCE_TAG 5).setReg SE_FORCE_MASK 0xFF, 1, 1, by decide +kernel⟩,
   ⟨wScan, 2, by decide +kernel⟩,
   ⟨wScan, 0x3FFFE, 1, by decide +kernel⟩,
   ⟨wScan, 0x7FFFC, 2, by decide +kernel⟩,
   ⟨wScan, 0x67FFC, by decide +kernel⟩⟩

/-- States and operands that meet the hypotheses of ScanInstructions. -/
theorem witness_ScanInstructions :
    (∃ (r : SeRun) (i : SeIns), r.s.se.forces = [] ∧ i.c < 65536 ∧ i.imm = false ∧ i.flt = false)
    ∧ (∃ (r : SeRun) (i : SeIns), r.s.se.forces = [] ∧ i.a < 65536 ∧ i.bit < 32)
    ∧ (∃ (r : SeRun) (i : SeIns), i.op = 0x1B ∧ r.stack.length ≤ 8) :=
  ⟨⟨{ s := wScan }, { op := 0x21, bit := 0, imm := false, flt := false, cond := false, a := 0, b := 1, c := 65535 },
      by decide +kernel⟩,
   ⟨{ s := wScan }, { op := 0x17, bit := 31, imm := false, flt := false, cond := false, a := 65535, b := 1, c := 0 },
       by decide +kernel⟩,
   ⟨{ s := wScan, stack := List.replicate 8 true },
       { op := 0x1B, bit := 31, imm := false, flt := false, cond := false, a := 65535, b := 1, c := 0 }, by decide +kernel⟩⟩

/-- States and operands that meet the hypotheses of LiveChange. -/
theorem witness_LiveChange :
    (∃ (s : State) (v : Word), SYS_LIVE_CTL.KEY.of v = 0x71CE ∧ SYS_LIVE_CTL.HOLD.of v = 1 ∧ SYS_LIVE_CTL.GO.of v = 0
        ∧ SYS_LIVE_CTL.DROP.of v = 0 ∧ s.holding = false ∧ s.cpStopped = false)
    ∧ (∃ (s : State) (v : Word), SYS_LIVE_CTL.KEY.of v = 0x71CE ∧ SYS_LIVE_CTL.GO.of v = 1 ∧ SYS_LIVE_CTL.HOLD.of v = 0
        ∧ SYS_LIVE_CTL.DROP.of v = 0 ∧ s.holding = true ∧ s.cpStopped = false)
    ∧ (∃ (s : State) (v : Word), SYS_LIVE_CTL.KEY.of v = 0x71CE ∧ SYS_LIVE_CTL.DROP.of v = 1 ∧ SYS_LIVE_CTL.HOLD.of v = 0
        ∧ SYS_LIVE_CTL.GO.of v = 0 ∧ s.holding = true ∧ s.cpStopped = false)
    ∧ (∃ (s : State), s.holding = true ∧ s.live.since + 10000 ≤ s.le.tick) :=
  ⟨⟨wRun, 0x71CE0001, by decide +kernel⟩,
   ⟨wRun.setFlag SYS_LIVE_STAT.HOLD true, 0x71CE0002, by decide +kernel⟩,
   ⟨wRun.setFlag SYS_LIVE_STAT.HOLD true, 0x71CE0004, by decide +kernel⟩,
   ⟨let s := wRun.setFlag SYS_LIVE_STAT.HOLD true; { s with le := { s.le with tick := 10000 } }, by decide +kernel⟩⟩

/-- States and operands that meet the hypotheses of VaultCommandsStart. -/
theorem witness_VaultCommandsStart :
    (∃ (s : State) (a : Word) (p : Nat × Instr), p ∈ vltCommands a ∧ s.rd8 a.toNat = BitVec.ofNat 8 p.1
        ∧ s.flag VLT_CMD_STAT.BUSY = false ∧ areaOk a.toNat 40 = true ∧ s.cpStopped = false)
    ∧ (∃ (s : State) (a : Word) (p : Nat × Instr), p ∈ vltCommands a ∧ s.flag VLT_CMD_STAT.BUSY = true ∧ s.cpStopped = false)
    ∧ (∃ (s : State) (a : Word) (p : Nat × Instr), p ∈ vltCommands a ∧ s.flag VLT_CMD_STAT.BUSY = false
        ∧ areaOk a.toNat 40 = false ∧ s.cpStopped = false) :=
  ⟨⟨wRun.wr8 0x202FFFD8 0x13, 0x202FFFD8, (0x13, .vltCert 0x202FFFD8), by decide +kernel⟩,
   ⟨(wRun.wr8 0x20000000 1).setFlag VLT_CMD_STAT.BUSY true, 0x20000000, (1, .vltHash 0x20000000), by decide +kernel⟩,
   ⟨wRun.wr8 0x202FFFDC 1, 0x202FFFDC, (1, .vltHash 0x202FFFDC), by decide +kernel⟩⟩

/-- States and operands that meet the hypotheses of VaultCommandEnds. -/
theorem witness_VaultCommandEnds :
    (∃ (s : State) (w : List Nat), s.vlt.cmd = some w)
    ∧ (∃ (s : State) (w : List Nat), s.vltCheck ⟨w⟩ ≠ Code.ok)
    ∧ (∃ (s : State) (w : List Nat), s.vlt.cmd = some w ∧ s.vltCheck ⟨w⟩ = Code.ok) :=
  ⟨⟨wVault, wHash, by decide +kernel⟩,
   ⟨wRun, wHash, by decide +kernel⟩,
   ⟨wVault, wHash, by decide +kernel⟩⟩

/-- States and operands that meet the hypotheses of VaultWatch. -/
theorem witness_VaultWatch :
    (∃ (s : State) (src : Fin 7), (¬((src.val = 1 ∨ src.val = 2) ∧ s.lcState = 0)))
    ∧ (∃ (s : State) (src : Fin 7), (src.val = 1 ∨ src.val = 2) ∧ s.lcState = 0)
    ∧ (∃ (s : State), s.debugOpen = true ∧ s.flag VLT_STAT.DBGSEEN = false)
    ∧ (∃ (s : State), s.flag SYS_CLK_STAT.PLL_LOCK = true ∧ s.flag VLT_STAT.ST_DONE = false)
    ∧ (∃ (s : State), s.flag VLT_STAT.TRNG_FAIL = true)
    ∧ (∃ (s : State) (v : Word), VLT_FW_ROLL.KEY.of v = 0x7141 ∧ VLT_FW_ROLL.GO.of v = 1 ∧ s.flag VLT_STAT.FW_ROLL_BUSY = false
        ∧ s.cp.fw = true ∧ s.scValue 4 < (s.reg VLT_FW_VER).toNat ∧ s.cpStopped = false)
    ∧ (∃ (s : State) (v : Word), (VLT_FW_ROLL.KEY.of v ≠ 0x7141 ∨ s.flag VLT_STAT.FW_ROLL_BUSY = true ∨ s.cp.fw = false)
        ∧ s.cpStopped = false) :=
  ⟨⟨wRun, 6, by decide +kernel⟩,
   ⟨wRun, 2, by decide +kernel⟩,
   ⟨wRun.setFlag VLT_STAT.DBGSEEN false, by decide +kernel⟩,
   ⟨wRun, by decide +kernel⟩,
   ⟨wRun.setFlag VLT_STAT.TRNG_FAIL true, by decide +kernel⟩,
   ⟨{ wRun.setReg VLT_FW_VER 1 with cp := { wRun.cp with fw := true } }, 0x71410001, by decide +kernel⟩,
   ⟨wRun, 0x71410001, by decide +kernel⟩⟩

/-- States and operands that meet the hypotheses of LifeCycleCommands. -/
theorem witness_LifeCycleCommands :
    (∃ (s : State) (v : Word) (p : Nat × Instr) (code : Nat), p ∈ lcsCommands v ∧ s.lcsAsks v p.1 code ∧ code ≠ Code.ok
        ∧ s.cpStopped = false)
    ∧ (∃ (s : State) (v : Word) (p : Nat × Instr), p ∈ lcsCommands v ∧ LCS_CMD.OP.of v = p.1
        ∧ (LCS_CMD.KEY.of v ≠ 0x1C5A ∨ s.flag LCS_CMD_STAT.BUSY = true))
    ∧ (∃ (s : State) (v : Word) (p : Nat × Instr), p ∈ lcsCommands v ∧ (p.1 = 1 ∨ p.1 = 2 ∨ p.1 = 5) ∧ s.lcsAsks v p.1 Code.ok
        ∧ s.cpStopped = false)
    ∧ (∃ (s : State) (v : Word), s.lcsAsks v 3 Code.ok ∧ s.cpStopped = false)
    ∧ (∃ (s : State) (v : Word), s.lcsAsks v 4 Code.ok ∧ s.cpStopped = false)
    ∧ (∃ (s : State) (v : Word), s.lcsAsks v 6 Code.ok ∧ s.cpStopped = false)
    ∧ (∃ (s : State) (n : Nat), s.lcs.op = some n ∧ (n = 1 ∨ n = 2 ∨ n = 5) ∧ s.resetSaving = false ∧ s.lcs.fuses.length = 4) :=
  ⟨⟨wRun, 0x1C5A0001, (1, .lcsProvisioned 0x1C5A0001), Code.refusedState, by unfold State.lcsAsks; decide +kernel⟩,
   ⟨wRun, 0x1C5B0001, (1, .lcsProvisioned 0x1C5B0001), by decide +kernel⟩,
   ⟨let s := wRun.setFlag VLT_STAT.CERT true; { s with vlt := { s.vlt with root := true } }, 0x1C5A0001, (1,
       .lcsProvisioned 0x1C5A0001), by unfold State.lcsAsks; decide +kernel⟩,
   ⟨wLifeAuth [3, 3, 0, 0] false, 0x1C5A0003, by unfold State.lcsAsks; decide +kernel⟩,
   ⟨wLifeAuth [2, 2, 1, 1] true, 0x1C5A0004, by unfold State.lcsAsks; decide +kernel⟩,
   ⟨wLifeAuth [3, 0, 0, 0] false, 0x1C5A0006, by unfold State.lcsAsks; decide +kernel⟩,
   ⟨{ wRun with lcs := { op := some 5, fuses := [3, 2, 0, 1] } }, 5, by decide +kernel⟩⟩

/-- States and operands that meet the hypotheses of SelfTests. -/
theorem witness_SelfTests :
    (∃ (s : State) (v : Word), LCS_BIST_CMD.GO.of v = 1 ∧ LCS_BIST_CMD.ABORT.of v = 0 ∧ s.cpStopped = false)
    ∧ (∃ (s : State) (v : Word) (b : BistRun), LCS_BIST_CMD.GO.of v = 0 ∧ LCS_BIST_CMD.ABORT.of v = 1 ∧ s.lcs.bist = some b
        ∧ s.cpStopped = false)
    ∧ (∃ (s : State) (b : BistRun), s.lcs.bist = some b ∧ b.running = false ∧ b.cut = false ∧ s.bistFree b = true)
    ∧ (∃ (s : State) (b : BistRun) (n : Nat), s.lcs.bist = some b ∧ b.cut = true ∧ n ≤ b.total ∧ (b.running = true ∨ n = 0))
    ∧ (∃ (s : State) (b : BistRun), s.lcs.bist = some b ∧ b.running = true ∧ b.cut = false ∧ 0 < b.total ∧ b.kind = 2 ∧ b.index < 8)
    ∧ (∃ (s : State) (c : Fin 8) (e : Nat) (n : Nat), c.val < s.net.ch.length ∧ (s.ch c).testing = some n ∧ e < 32
        ∧ s.txPending c e = true ∧ max n (nth (s.ch c).reqAt e 0) + 400 ≤ s.le.tick) :=
  ⟨⟨wRun, 0x801F0103, by decide +kernel⟩,
   ⟨wBist { kind := 4, index := 0, count := 31 }, 0x40000000, { kind := 4, index := 0, count := 31 }, by decide +kernel⟩,
   ⟨wBist { kind := 3, index := 7, count := 1 }, { kind := 3, index := 7, count := 1 }, by decide +kernel⟩,
   ⟨wBist { kind := 2, index := 7, count := 31, cut := true, running := true },
       { kind := 2, index := 7, count := 31, cut := true, running := true }, 1048575, by decide +kernel⟩,
   ⟨wBist { kind := 2, index := 7, count := 16, running := true }, { kind := 2, index := 7, count := 16, running := true },
       by decide +kernel⟩,
   ⟨let s := (wTx 7 31 false).setCh 7 { (wTx 7 31 false).ch 7 with testing := some 0 }; { s with le := { s.le with tick := 400 } }, 7, 31, 0, by decide +kernel⟩⟩

/-- States and operands that meet the hypotheses of BackupCellMeasured. -/
theorem witness_BackupCellMeasured :
    (∃ (s : State) (mv : Nat), s.pwr.on = true ∧ s.pwr.stall = false ∧ s.pmBlocked 4 = false ∧ mv < 0x10000)
    ∧ (∃ (s : State), (s.pwr.on = false ∨ s.pwr.stall = true)) :=
  ⟨⟨{ wRun with lcs := { vbatLow := 1 } }, 2299, by decide +kernel⟩,
   ⟨State.reset, by decide +kernel⟩⟩

/-- States and operands that meet the hypotheses of AccessCodes. -/
theorem witness_AccessCodes :
    (∃ (s : State) (addr : Word) (r : RegDesc), regDesc addr.toNat = some r ∧ 0x40000000 ≤ addr.toNat ∧ addr.toNat % 4 = 0
        ∧ (∀ w ∈ rowsAt addr.toNat, w.index addr.toNat = none) ∧ ¬(s.aon.locked = true ∧ 0x40020000 ≤ addr.toNat
        ∧ addr.toNat < 0x40030000) ∧ (∀ k < 3, addr.toNat ≠ INTC_PEND k) ∧ s.cpStopped = false)
    ∧ (∃ (s : State) (addr : Word), addr.toNat % 4 = 0 ∧ s.aon.locked = true ∧ 0x40020000 ≤ addr.toNat ∧ addr.toNat < 0x40030000
        ∧ s.cpStopped = false)
    ∧ (∃ (s : State), s.cpStopped = true)
    ∧ (∃ (s : State) (addr : Word), addr.toNat % 4 = 0 ∧ (0x20000000 ≤ addr.toNat
        ∧ addr.toNat < 0x20300000 ∨ 0x31000000 ≤ addr.toNat ∧ addr.toNat < 0x31100000) ∧ s.cpStopped = false) :=
  ⟨⟨wRun, 0x40100010, (regDesc 0x40100010).getD ⟨0, [], []⟩, by decide +kernel⟩,
   ⟨wAon { locked := true }, 0x4002FFFC, by decide +kernel⟩,
   ⟨wSleep, by decide +kernel⟩,
   ⟨wRun, 0x310FFFFC, by decide +kernel⟩⟩

/-- States and operands that meet the hypotheses of WritesHeldBack. -/
theorem witness_WritesHeldBack :
    (∃ (s : State), s.flag SYS_WDT_CFG.EN = true ∧ s.cpStopped = false)
    ∧ (∃ (s : State), s.cpStopped = false)
    ∧ (∃ (s : State) (n : Fin 2), s.flag (AON_ALM_CFG.EN n) = true ∧ s.aon.locked = false)
    ∧ (∃ (s : State), s.flag PM_STAT.BUF = false)
    ∧ (∃ (s : State), s.flag PM_STAT.BUF = true ∧ s.flag PM_STAT.BUSY = false ∧ s.cpStopped = false)
    ∧ (∃ (s : State), 2 ≤ s.lcState ∧ s.lcs.owner.any (· != 0) = true)
    ∧ (∃ (s : State) (i : Fin 8), (s.lcState < 2 ∨ s.lcs.owner.any (· != 0) = false) ∧ i.val < s.lcs.staged.length
        ∧ s.cpStopped = false) :=
  ⟨⟨wRun.setFlag SYS_WDT_CFG.EN true, by decide +kernel⟩,
   ⟨wRun, by decide +kernel⟩,
   ⟨wRun.setFlag (AON_ALM_CFG.EN 1) true, 1, by decide +kernel⟩,
   ⟨wRun, by decide +kernel⟩,
   ⟨wRun.setFlag PM_STAT.BUF true, by decide +kernel⟩,
   ⟨{ wRun with lcs := { fuses := [3, 3, 0, 0], owner := [0, 0, 0, 0, 0, 0, 0, 1] } }, by decide +kernel⟩,
   ⟨wLife [3, 0, 0, 0] false, 7, by decide +kernel⟩⟩

/-- States and operands that meet the hypotheses of CapturingReads. -/
theorem witness_CapturingReads :
    (∃ (s : State), s.cpStopped = false)
    ∧ (∃ (s : State), s.cpStopped = false)
    ∧ (∃ (s : State), s.aon.locked = false ∧ s.cpStopped = false)
    ∧ (∃ (s : State), s.aon.locked = true ∧ s.cpStopped = false)
    ∧ (∃ (s : State), s.cpStopped = false) :=
  ⟨⟨wRun, by decide +kernel⟩,
   ⟨wRun, by decide +kernel⟩,
   ⟨wAon { count := 2 ^ 40 + 5 }, by decide +kernel⟩,
   ⟨wAon { locked := true }, by decide +kernel⟩,
   ⟨wRun, by decide +kernel⟩⟩

/-- States and operands that meet the hypotheses of CountedReads. -/
theorem witness_CountedReads :
    (∃ (s : State) (addr : Nat), 0x30000000 ≤ addr ∧ addr < 0x30200000 ∧ addr % 4 = 0 ∧ s.cpStopped = false)
    ∧ (∃ (s : State) (addr : Nat), 0x30000000 ≤ addr ∧ addr < 0x30200000 ∧ addr % 4 = 0 ∧ s.cpStopped = false)
    ∧ (∃ (s : State) (addr : Nat), 0x30000000 ≤ addr ∧ addr < 0x30200000 ∧ addr % 4 = 0 ∧ s.cpStopped = false)
    ∧ (∃ (s : State) (addr : Nat), 0x38000000 ≤ addr ∧ addr < 0x38080000 ∧ addr % 4 = 0 ∧ pmHidden (addr - 0x38000000) = true
        ∧ s.cpStopped = false)
    ∧ (∃ (s : State) (addr : Nat), 0x38000000 ≤ addr ∧ addr < 0x38080000 ∧ addr % 4 = 0 ∧ pmHidden (addr - 0x38000000) = false
        ∧ s.pmDenied (addr - 0x38000000) = false ∧ s.cpStopped = false) :=
  ⟨⟨wRun, 0x301FFFFC, by decide +kernel⟩,
   ⟨wRun, 0x30000000, by decide +kernel⟩,
   ⟨wRun, 0x30000000, by decide +kernel⟩,
   ⟨wRun, 0x38003FFC, by decide +kernel⟩,
   ⟨wPm, 0x3807FFFC, by decide +kernel⟩⟩

/-- States and operands that meet the hypotheses of StepTakesTheFront. -/
theorem witness_StepTakesTheFront :
    (∃ (s : State), s.pending = [] ∧ s.aon.lost = false ∧ s.aon.load = none ∧ s.aon.shift = none ∧ s.aon.count + 1 < 2 ^ 48) :=
  ⟨wAon { count := 2 ^ 48 - 2 }, by decide +kernel⟩

end Sys2Proof.Tests
end

section
/-! SUPPORT. How a command that answers through `State.out` meets a statement: the gateways (R112) keep every frame that the
command's own effect keeps. -/

namespace Sys2Proof.Machine

/-- A command whose effect leaves `u` completes, and its next state is `u` with the requests forwarded. -/
theorem Runs.of_out {c : Instr} {s u : State} {p : State → Prop} (h : exec c s = u.out) (hp : p u.intcLatch) : Runs c s p :=
  ⟨u.intcLatch, h, hp⟩

/-- The gateways change the registers and the request of a DIO edge alone. -/
theorem State.intcLatch_updates (u : State) : ∃ r d, u.intcLatch = { u with regs := r, cp := { u.cp with dioReq := d } } :=
  ⟨_, _, u.intcLatch_eq⟩

theorem KeepsRegs.intcLatch {s u : State} {l : List Nat} (h : KeepsRegs s u l) : KeepsRegs s u.intcLatch l :=
  fun a ha hp => (u.reg_intcLatch_ne a hp).trans (h a ha hp)

theorem KeepsMem.intcLatch {s u : State} (h : KeepsMem s u) : KeepsMem s u.intcLatch := by
  simpa only [KeepsMem, State.intcLatch_ecc, State.intcLatch_rd8] using h

theorem KeepsMemOut.intcLatch {s u : State} {a n : Nat} (h : KeepsMemOut s u a n) : KeepsMemOut s u.intcLatch a n := by
  simpa only [KeepsMemOut, State.intcLatch_ecc, State.intcLatch_rd8] using h

theorem KeepsRest.intcLatch {s u : State} (h : KeepsRest s u) : KeepsRest s u.intcLatch := by
  obtain ⟨r, d, hu⟩ := u.intcLatch_updates
  rw [hu]
  exact h

@[simp] theorem State.intcLatch_trap (u : State) : u.intcLatch.cp.trap = u.cp.trap := by rw [State.cp_intcLatch]

@[simp] theorem State.intcLatch_machine (u : State) : u.intcLatch.cp.machine = u.cp.machine := by rw [State.cp_intcLatch]

/-- A trap taken changes the trap cause and the mode alone. -/
theorem KeepsRest.trapTaken (s : State) (c : Nat) :
    let t := (s.trapTaken c).intcLatch
    KeepsRest s { t with cp := { t.cp with trap := s.cp.trap, machine := s.cp.machine } } := by
  obtain ⟨r, d, h⟩ := (s.trapTaken c).intcLatch_updates
  rw [h]
  rfl

theorem OnlyRegs.intcLatch {s u : State} {l : List Nat} : OnlyRegs s u l → OnlyRegs s u.intcLatch l
  | ⟨regs, mem, rest⟩ => ⟨regs.intcLatch, mem.intcLatch, rest.intcLatch⟩

theorem OnlyRegs.refl (s : State) (l : List Nat) : OnlyRegs s s l := ⟨fun _ _ _ => rfl, ⟨rfl, fun _ => rfl⟩, rfl⟩

theorem OnlyRegs.setReg (s : State) (a : Nat) (v : Word) : OnlyRegs s (s.setReg a v) [a] :=
  ⟨fun b hb _ => s.reg_setReg_ne a b v (by simpa using hb), ⟨rfl, fun _ => rfl⟩, rfl⟩

/-! SUPPORT. The bits of a number field by field: what `bits` and `mergeBits` hold at each bit. -/

theorem bit_eq_testBit (x i : Nat) : bit x i = x.testBit i := by
  rw [bit, Nat.testBit_eq_decide_div_mod_eq]
  rfl

theorem testBit_bits (x hi lo i : Nat) : (bits x hi lo).testBit i = (decide (i < hi + 1 - lo) && x.testBit (i + lo)) := by
  simp only [bits, Nat.testBit_mod_two_pow, Nat.testBit_div_two_pow]

theorem bits_lt (x hi lo : Nat) : bits x hi lo < 2 ^ (hi + 1 - lo) := Nat.mod_lt _ (Nat.two_pow_pos _)

/-- Numbers that agree on the bits [hi:lo] hold the same field there. -/
theorem bits_congr {x y hi lo : Nat} (h : ∀ i, lo ≤ i → i ≤ hi → x.testBit i = y.testBit i) : bits x hi lo = bits y hi lo := by
  apply Nat.eq_of_testBit_eq
  intro i
  rw [testBit_bits, testBit_bits]
  by_cases hw : i < hi + 1 - lo
  · rw [h (i + lo) (by omega) (by omega)]
  · simp [hw]

theorem bits_mul_two_pow (x hi lo : Nat) : bits (x * 2 ^ lo) hi lo = x % 2 ^ (hi + 1 - lo) := by
  rw [bits, Nat.mul_div_cancel _ (Nat.two_pow_pos lo)]

/-- A word keeps the fields that lie in its 32 bits. -/
theorem bits_toNat_ofNat (x : Nat) {hi lo : Nat} (h : hi < 32) : bits (BitVec.ofNat 32 x).toNat hi lo = bits x hi lo :=
  bits_congr fun i _ hi => by
    rw [BitVec.toNat_ofNat, Nat.testBit_mod_two_pow, decide_eq_true (by omega : i < 32), Bool.true_and]

/-- A merged word cut at both ends of the field. -/
theorem mergeBits_eq (hi lo w v : Nat) :
    mergeBits hi lo w v = 2 ^ lo * (2 ^ (hi + 1 - lo) * (w / 2 ^ lo / 2 ^ (hi + 1 - lo)) + bits v hi lo) + w % 2 ^ lo := by
  have cutLow : 2 ^ lo * (w / 2 ^ lo) + w % 2 ^ lo = w := Nat.div_add_mod w _
  have cutHigh : 2 ^ (hi + 1 - lo) * (w / 2 ^ lo / 2 ^ (hi + 1 - lo)) + bits w hi lo = w / 2 ^ lo := Nat.div_add_mod _ _
  rw [← cutHigh, Nat.mul_add] at cutLow
  rw [mergeBits, Nat.mul_add, Nat.mul_comm (bits w hi lo), Nat.mul_comm (bits v hi lo)]
  omega

/-- A merged word holds the bits of the one number in the field, and those of the other outside it. -/
theorem testBit_mergeBits (hi lo w v i : Nat) :
    (mergeBits hi lo w v).testBit i = if lo ≤ i ∧ i ≤ hi then v.testBit i else w.testBit i := by
  rw [mergeBits_eq, Nat.testBit_two_pow_mul_add _ (Nat.mod_lt _ (Nat.two_pow_pos _)),
    Nat.testBit_two_pow_mul_add _ (bits_lt v hi lo)]
  by_cases below : i < lo
  · rw [if_pos below, if_neg (by omega), Nat.testBit_mod_two_pow, decide_eq_true below, Bool.true_and]
  rw [if_neg below]
  by_cases inside : i - lo < hi + 1 - lo
  · rw [if_pos inside, if_pos (by omega), testBit_bits, decide_eq_true inside, Bool.true_and, Nat.sub_add_cancel (by omega)]
  · rw [if_neg inside, if_neg (by omega), Nat.testBit_div_two_pow, Nat.testBit_div_two_pow]
    congr 1
    omega

theorem bits_mergeBits_self (hi lo w v : Nat) : bits (mergeBits hi lo w v) hi lo = bits v hi lo :=
  bits_congr fun i h h' => by rw [testBit_mergeBits, if_pos ⟨h, h'⟩]

theorem bits_mergeBits_disjoint {hi lo hi' lo' : Nat} (w v : Nat) (h : hi < lo' ∨ hi' < lo) :
    bits (mergeBits hi lo w v) hi' lo' = bits w hi' lo' :=
  bits_congr fun i _ _ => by rw [testBit_mergeBits, if_neg (by omega)]

/-- A number is its bits inside a mask and those outside it. -/
theorem and_add_ldiff (a b : Nat) : (a &&& b) + Nat.ldiff a b = a := by
  induction a using Nat.binaryRec generalizing b with
  | zero => simp [Nat.ldiff]
  | bit p a ih =>
    cases b using Nat.bitCasesOn with
    | bit q b =>
      rw [Nat.land_bit, Nat.ldiff_bit]
      have rest := ih b
      cases p <;> cases q <;> simp [Nat.bit_val] <;> omega

/-- Taking the common bits away clears them. -/
theorem sub_and_eq_ldiff (a b : Nat) : a - (a &&& b) = Nat.ldiff a b := by
  have split := and_add_ldiff a b
  omega

theorem ldiff_ldiff_self (a b : Nat) : Nat.ldiff (Nat.ldiff a b) b = Nat.ldiff a b :=
  Nat.eq_of_testBit_eq fun i => by simp only [Nat.testBit_ldiff, Bool.and_assoc, Bool.and_self]

theorem bit_sub_and (a b i : Nat) : bit (a - (a &&& b)) i = (bit a i && !bit b i) := by
  rw [sub_and_eq_ldiff, bit_eq_testBit, bit_eq_testBit, bit_eq_testBit, Nat.testBit_ldiff]

/-! A CP write of a register that has no rule of its own, by the access codes of its fields (R4), and the accesses that fault
(R108). -/

/-- The value of a field of this access code after a write: `old` is what it held, `put` what the written word has at its bits, and
`locked` says that the seals of R101 are written. `FieldDesc.bits_write_self` ties it to the model. -/
def Access.after (acc : Access) (locked : Bool) (old put : Nat) : Nat :=
  match acc with
  | .ro | .wo => old
  | .rw => put
  | .w1c => old - (old &&& put)
  | .w1cAll => if put = 0 then old else 0
  | .w1s | .rws => old ||| put
  | .lk => if locked then old else put

/-- Writing the same bits again changes nothing more. -/
theorem Access.after_after (acc : Access) (locked : Bool) (old put : Nat) :
    acc.after locked (acc.after locked old put) put = acc.after locked old put := by
  cases acc with
  | ro | wo | rw => rfl
  | w1c => simp only [Access.after, sub_and_eq_ldiff, ldiff_ldiff_self]
  | w1cAll => simp only [Access.after]; split <;> rfl
  | w1s | rws => simp only [Access.after, Nat.or_assoc, Nat.or_self]
  | lk => cases locked <;> rfl

/-- A field put by `FieldDesc.write` reads as put, if its value fits. -/
theorem FieldDesc.bits_put (f : FieldDesc) (w : Nat) {x : Nat} (h : x < 2 ^ (f.hi + 1 - f.lo)) :
    bits (mergeBits f.hi f.lo w (x * 2 ^ f.lo)) f.hi f.lo = x := by
  rw [bits_mergeBits_self, bits_mul_two_pow, Nat.mod_eq_of_lt h]

/-- A field under a write takes the value that its access code gives. -/
theorem FieldDesc.bits_write_self (f : FieldDesc) (locked : Bool) (w v : Nat) :
    bits (f.write locked w v) f.hi f.lo = f.acc.after locked (bits w f.hi f.lo) (bits v f.hi f.lo) := by
  have old := bits_lt w f.hi f.lo
  have put := bits_lt v f.hi f.lo
  unfold FieldDesc.write Access.after
  cases f.acc with
  | ro | wo => rfl
  | rw => exact f.bits_put w put
  | w1c => exact f.bits_put w (Nat.lt_of_le_of_lt (Nat.sub_le _ _) old)
  | w1cAll =>
    by_cases zero : bits v f.hi f.lo = 0
    · simp only [if_pos zero]
    · simp only [if_neg zero]
      exact f.bits_put w (Nat.two_pow_pos _)
  | w1s | rws => exact f.bits_put w (Nat.or_lt_two_pow old put)
  | lk =>
    cases locked with
    | false => exact f.bits_put w put
    | true => rfl

/-- A field under a write leaves the bits outside it. -/
theorem FieldDesc.bits_write_disjoint (g : FieldDesc) (locked : Bool) (w v : Nat) {hi lo : Nat} (h : g.hi < lo ∨ hi < g.lo) :
    bits (g.write locked w v) hi lo = bits w hi lo := by
  unfold FieldDesc.write
  cases g.acc with
  | ro | wo => rfl
  | rw | w1c | w1s | rws => exact bits_mergeBits_disjoint w _ h
  | w1cAll =>
    dsimp only
    split
    · rfl
    · exact bits_mergeBits_disjoint w _ h
  | lk =>
    cases locked with
    | false => exact bits_mergeBits_disjoint w _ h
    | true => rfl

/-- Fields written one after another: one that shares no bit with another takes the value of its access code, however often the
list names it, and keeps its own where the list does not. -/
theorem bits_foldl_write (f : FieldDesc) (locked : Bool) (v : Nat) (l : List FieldDesc)
    (apart : ∀ g ∈ l, g ≠ f → g.hi < f.lo ∨ f.hi < g.lo) (w : Nat) :
    bits (l.foldl (fun w g => g.write locked w v) w) f.hi f.lo
      = if f ∈ l then f.acc.after locked (bits w f.hi f.lo) (bits v f.hi f.lo) else bits w f.hi f.lo := by
  induction l generalizing w with
  | nil => simp
  | cons g t ih =>
    rw [List.foldl_cons, ih (fun g' h => apart g' (List.mem_cons_of_mem _ h))]
    by_cases same : g = f
    · subst same
      simp only [g.bits_write_self, Access.after_after, ite_self, List.mem_cons_self, if_true]
    · have other : f ∈ g :: t ↔ f ∈ t := by simp [Ne.symm same]
      rw [g.bits_write_disjoint locked w v (apart g List.mem_cons_self same)]
      simp only [other]

/-- A field of a register after a write by its access codes. -/
theorem RegDesc.bits_write (r : RegDesc) (locked : Bool) (w v : Nat) {f : FieldDesc} (hf : f ∈ r.fields)
    (apart : ∀ g ∈ r.fields, g ≠ f → g.hi < f.lo ∨ f.hi < g.lo) :
    bits (r.write locked w v) f.hi f.lo = f.acc.after locked (bits w f.hi f.lo) (bits v f.hi f.lo) := by
  rw [RegDesc.write, bits_foldl_write f locked v r.fields apart, if_pos hf]

theorem State.regWrite_eq (s : State) {a : Nat} (v : Word) {r : RegDesc} (hr : regDesc a = some r) :
    s.regWrite a v = s.setReg a (BitVec.ofNat 32 (r.write s.lkSealed (s.reg a).toNat v.toNat)) := by
  rw [State.regWrite, hr]

/-- A field of the written register. -/
theorem State.bits_reg_regWrite (s : State) {a : Nat} (v : Word) {r : RegDesc} (hr : regDesc a = some r) {f : FieldDesc}
    (hf : f ∈ r.fields) (inWord : f.hi < 32) (apart : ∀ g ∈ r.fields, g ≠ f → g.hi < f.lo ∨ f.hi < g.lo) :
    bits ((s.regWrite a v).reg a).toNat f.hi f.lo
      = f.acc.after s.lkSealed (bits (s.reg a).toNat f.hi f.lo) (bits v.toNat f.hi f.lo) := by
  rw [s.regWrite_eq v hr, State.reg_setReg_self, bits_toNat_ofNat _ inWord, r.bits_write _ _ _ hf apart]

theorem OnlyRegs.regWrite (s : State) (a : Nat) (v : Word) {r : RegDesc} (hr : regDesc a = some r) :
    OnlyRegs s (s.regWrite a v) [a] := by
  rw [s.regWrite_eq v hr]
  exact .setReg s a _

/-! Where the registers lie, and what a CP write does with the address. -/

/-- No block of R107 lies from 0x40150000 on. -/
theorem tableAt_eq_nil {a : Nat} (h : 0x40150000 ≤ a) : tableAt a = [] := by
  unfold tableAt
  split
  case h_20 => rfl
  all_goals omega

/-- An address that a register table describes lies in the peripheral blocks. -/
theorem inBlocks_of_regDesc {a : Nat} {r : RegDesc} (hr : regDesc a = some r) (h : 0x40000000 ≤ a) : inBlocks a = true := by
  have below : a < 0x40150000 := by
    by_contra above
    rw [regDesc, tableAt_eq_nil (by omega)] at hr
    cases hr
  simp only [inBlocks, Bool.and_eq_true, decide_eq_true_eq]
  omega

/-- A write of a register that no row names goes by its access codes. -/
theorem writeBy_of_no_row (l : List WriteRow) (a : Nat) (v : Word) (s : State) (h : ∀ w ∈ l, w.index a = none) :
    writeBy l a v s = s.regWrite a v := by
  have noMatch : l.findSome? (fun r => (r.index a).map fun i => r.act i v s) = none :=
    List.findSome?_eq_none_iff.2 fun w hw => by rw [h w hw, Option.map_none]
  rw [writeBy, noMatch]

theorem State.cpWrite_register (s : State) (a : Nat) (v : Word) (aligned : a % 4 = 0) (h : 0x40000000 ≤ a) :
    s.cpWrite a v = writeBy (rowsAt a) a v s := by
  rw [State.cpWrite, if_neg (by omega), if_neg (by omega), if_neg (by omega), if_neg (by omega), if_neg (by omega)]

theorem State.cpWrite_memory (s : State) (a : Nat) (v : Word) (aligned : a % 4 = 0)
    (h : 0x20000000 ≤ a ∧ a < 0x20300000 ∨ 0x31000000 ≤ a ∧ a < 0x31100000) : s.cpWrite a v = s.wr32 a v.toNat := by
  rw [State.cpWrite, if_neg (by omega), if_pos h]

/-! Which word writes of the CP fault (R108). -/

/-- The access of a REGISTER_WRITE: a word, written in machine mode. -/
abbrev wordWrite (addr : Word) : CpAccess := { addr := addr, kind := .write, size := 2, who := .machine }

theorem cpMisaligned_wordWrite {addr : Word} (aligned : addr.toNat % 4 = 0) : cpMisaligned (wordWrite addr) = false := by
  simp [cpMisaligned, aligned]

/-- The firewall denies machine mode nothing. -/
theorem cpDenied_wordWrite (addr : Word) : cpDenied (wordWrite addr) = false := by
  simp [cpDenied]

/-- In the peripheral blocks an aligned word write faults in the AON domain during its lockout, and nowhere else. -/
theorem State.accessFaults_register (s : State) {addr : Word} (aligned : addr.toNat % 4 = 0) (h : inBlocks addr.toNat = true) :
    s.accessFaults (wordWrite addr) false = true ↔ s.aon.locked = true ∧ 0x40020000 ≤ addr.toNat ∧ addr.toNat < 0x40030000 := by
  simp [State.accessFaults, h, cpMisaligned_wordWrite aligned, cpDenied_wordWrite, atomicKind, and_assoc]

/-- CP SRAM and bus RAM are regions that take writes (R107). -/
theorem regionOf_memory {a : Nat} (h : 0x20000000 ≤ a ∧ a < 0x20300000 ∨ 0x31000000 ≤ a ∧ a < 0x31100000) :
    regionOf a = some (0x20000000, 0x202FFFFF, true, true, true) ∨ regionOf a = some (0x31000000, 0x310FFFFF, true, false, false) := by
  rcases h with ⟨lo, hi⟩ | ⟨lo, hi⟩
  · have place : ¬ a ≤ 0x1FFFF ∧ ¬ a ≤ 0xBFFFFFF ∧ a ≤ 0x202FFFFF := by omega
    exact .inl (by simp [regionOf, memRegions, List.find?, place, lo])
  · have place : ¬ a ≤ 0x1FFFF ∧ ¬ a ≤ 0xBFFFFFF ∧ ¬ a ≤ 0x202FFFFF ∧ ¬ a ≤ 0x301FFFFF ∧ a ≤ 0x310FFFFF := by omega
    exact .inr (by simp [regionOf, memRegions, List.find?, place, lo])

/-- An aligned word write of CP SRAM or of bus RAM does not fault. -/
theorem State.accessFaults_memory (s : State) {addr : Word} (aligned : addr.toNat % 4 = 0)
    (h : 0x20000000 ≤ addr.toNat ∧ addr.toNat < 0x20300000 ∨ 0x31000000 ≤ addr.toNat ∧ addr.toNat < 0x31100000) :
    s.accessFaults (wordWrite addr) false = false := by
  have outside : inBlocks addr.toNat = false := by simp only [inBlocks, Bool.and_eq_false_iff, decide_eq_false_iff_not]; omega
  rcases regionOf_memory h with region | region <;>
    simp [State.accessFaults, outside, region, cpMisaligned_wordWrite aligned, atomicKind]

/-! What an access answers, and so REGISTER_WRITE. -/

theorem State.cpAccess_stopped {s : State} (stop : s.cpStopped = true) (a : Word) (k : AccessKind) (n : Fin 3) (f : State → State) :
    s.cpAccess a k n f = s.out := by
  rw [State.cpAccess, State.cpDoes, if_pos stop]

theorem State.cpAccess_fault {s : State} {a : Word} {k : AccessKind} {n : Fin 3} (f : State → State) (run : s.cpStopped = false)
    (h : s.accessFaults { addr := a, kind := k, size := n, who := .machine } false = true) :
    s.cpAccess a k n f = (s.takeFault { addr := a, kind := k, size := n, who := .machine }).out := by
  rw [State.cpAccess, State.cpDoes, if_neg (by simp [run])]
  exact congrArg State.out (if_pos h)

theorem State.cpAccess_effect {s : State} {a : Word} {k : AccessKind} {n : Fin 3} (f : State → State) (run : s.cpStopped = false)
    (h : s.accessFaults { addr := a, kind := k, size := n, who := .machine } false = false) :
    s.cpAccess a k n f = (f s).out := by
  rw [State.cpAccess, State.cpDoes, if_neg (by simp [run])]
  exact congrArg State.out (if_neg (by simp [h]))

theorem exec_registerWrite (addr v : Word) (s : State) :
    exec (.registerWrite addr v) s = s.cpAccess addr .write 2 fun s => s.cpWrite addr.toNat v := rfl

/-- While the CP does not run, a register write has no effect. -/
theorem exec_registerWrite_stopped {s : State} (addr v : Word) (stop : s.cpStopped = true) :
    exec (.registerWrite addr v) s = s.out := by
  rw [exec_registerWrite, State.cpAccess_stopped stop]

/-- A register that no rule of its own writes, outside the AON domain's lockout, is written by its access codes. -/
theorem exec_registerWrite_byCodes {s : State} {addr v : Word} {r : RegDesc} (hr : regDesc addr.toNat = some r)
    (block : 0x40000000 ≤ addr.toNat) (aligned : addr.toNat % 4 = 0) (noRow : ∀ w ∈ rowsAt addr.toNat, w.index addr.toNat = none)
    (unlocked : ¬(s.aon.locked = true ∧ 0x40020000 ≤ addr.toNat ∧ addr.toNat < 0x40030000)) (run : s.cpStopped = false) :
    exec (.registerWrite addr v) s = (s.regWrite addr.toNat v).out := by
  have granted : s.accessFaults (wordWrite addr) false = false :=
    Bool.eq_false_iff.2 fun h => unlocked ((s.accessFaults_register aligned (inBlocks_of_regDesc hr block)).1 h)
  rw [exec_registerWrite, State.cpAccess_effect _ run granted, s.cpWrite_register _ v aligned block, writeBy_of_no_row _ _ _ _ noRow]

/-- During the lockout a write of the AON domain takes the trap of a store alone. -/
theorem exec_registerWrite_lockedOut {s : State} {addr : Word} (v : Word) (aligned : addr.toNat % 4 = 0) (locked : s.aon.locked = true)
    (lo : 0x40020000 ≤ addr.toNat) (hi : addr.toNat < 0x40030000) (run : s.cpStopped = false) :
    exec (.registerWrite addr v) s = (s.trapTaken 7).out := by
  have block : inBlocks addr.toNat = true := by simp only [inBlocks, Bool.and_eq_true, decide_eq_true_eq]; omega
  rw [exec_registerWrite, State.cpAccess_fault _ run ((s.accessFaults_register aligned block).2 ⟨locked, lo, hi⟩),
    s.takeFault_trap _ (cpDenied_wordWrite addr) nofun, faultCause]

/-- A write of CP SRAM or of bus RAM stores the word's four bytes. -/
theorem exec_registerWrite_memory {s : State} {addr : Word} (v : Word) (aligned : addr.toNat % 4 = 0)
    (h : 0x20000000 ≤ addr.toNat ∧ addr.toNat < 0x20300000 ∨ 0x31000000 ≤ addr.toNat ∧ addr.toNat < 0x31100000)
    (run : s.cpStopped = false) : exec (.registerWrite addr v) s = (s.wr32 addr.toNat v.toNat).out := by
  rw [exec_registerWrite, State.cpAccess_effect _ run (s.accessFaults_memory aligned h), s.cpWrite_memory _ v aligned h]

/-! What a stored word changes. -/

/-- Bytes written change memory alone. -/
theorem State.wrBytes_updates (s : State) (a : Nat) (l : List Byte) : ∃ m, s.wrBytes a l = { s with mem := m } := by
  induction l generalizing s a with
  | nil => exact ⟨s.mem, rfl⟩
  | cons b t ih => exact ih (s.wr8 a b) (a + 1)

theorem KeepsRest.wrBytes (s : State) (a : Nat) (l : List Byte) : KeepsRest s (s.wrBytes a l) := by
  obtain ⟨m, h⟩ := s.wrBytes_updates a l
  rw [h]
  rfl

theorem KeepsRegs.wrBytes (s : State) (a : Nat) (l : List Byte) : KeepsRegs s (s.wrBytes a l) [] := fun r _ _ => by
  rw [State.reg, State.wrBytes_regs, State.reg]

theorem KeepsMemOut.wrBytes (s : State) (a : Nat) (l : List Byte) : KeepsMemOut s (s.wrBytes a l) a l.length :=
  ⟨fun b hb => s.rd8_wrBytes_out a l b hb, fun _ _ => by rw [State.wrBytes_ecc]⟩

/-- A word stored reads back byte by byte. -/
theorem State.rd8_wr32 (s : State) (a v : Nat) {i : Nat} (h : i < 4) : (s.wr32 a v).rd8 (a + i) = nth (toBytes 4 v) i 0 := by
  have inWord : i < (toBytes 4 v).length := h
  rw [State.wr32, s.rd8_wrBytes_in a _ i inWord, nth, List.getD_eq_getElem _ _ inWord]

/-- Settles O55: an access that does not fault goes to the register's fields one by one (`RegDesc.bits_write`), and one that faults
takes its trap alone. -/
theorem accessCodes : Obligations.AccessCodes := by
  unfold Obligations.AccessCodes
  refine ⟨?byCodes, ?lockedOut, ?stopped, ?memory⟩
  case byCodes =>
    intro s addr v r hr block aligned noRow unlocked notPend run
    refine Runs.of_out (exec_registerWrite_byCodes hr block aligned noRow unlocked run)
      ⟨?fields, (OnlyRegs.regWrite s _ v hr).intcLatch⟩
    intro f hf _ inWord apart
    have field := s.bits_reg_regWrite v hr hf inWord fun g hg ne => (apart g hg ne).2.2
    rw [← State.reg_intcLatch_ne _ _ notPend] at field
    dsimp only
    rw [field]
    refine ⟨?keep, fun h => ?rw, ?set, fun h i _ => ?w1c, fun h => ?w1cAll, fun h => ?lk⟩
    case keep => rintro (h | h) <;> rw [h, Access.after]
    case set => rintro (h | h) <;> rw [h, Access.after]
    case w1c => rw [h, Access.after, bit_sub_and]
    all_goals rw [h, Access.after]
  case lockedOut =>
    intro s addr v aligned locked lo hi run
    exact Runs.of_out (exec_registerWrite_lockedOut v aligned locked lo hi run)
      ⟨by simp, by simp, KeepsRegs.intcLatch fun _ _ _ => rfl, KeepsMem.intcLatch ⟨rfl, fun _ => rfl⟩, KeepsRest.trapTaken s 7⟩
  case stopped =>
    intro s addr v stop
    exact Runs.of_out (exec_registerWrite_stopped addr v stop) (OnlyRegs.refl s []).intcLatch
  case memory =>
    intro s addr v aligned h run
    refine Runs.of_out (exec_registerWrite_memory v aligned h run) ⟨fun i hi => ?_, KeepsRegs.intcLatch (KeepsRegs.wrBytes s _ _),
      (KeepsMemOut.wrBytes ..).intcLatch, (KeepsRest.wrBytes ..).intcLatch⟩
    rw [State.intcLatch_rd8, s.rd8_wr32 _ _ hi]

end Sys2Proof.Machine
end

section
/-! SUPPORT. What a unit cannot change, as one value: the state as `hide` shows it, the registers outside those of `own`, the memory
outside that of `mem`. An operation that keeps this value is rewritten away, so a frame is one equation, proved once for each
operation. -/

namespace Sys2Proof.Machine

/-- What of the state lies outside a unit that writes the registers `own`, the bytes `mem` and what else `hide` does not show. -/
def State.outside {α : Type} (hide : State → α) (own mem : Nat → Bool) (s : State) : α × (Nat → Word) × (Nat → Byte) :=
  (hide { s with regs := [], mem := [] }, (fun a => if own a then 0 else s.reg a), fun a => if mem a then 0 else s.rd8 a)

/-- The registers of the blocks of R107 that `l` names by the upper 16 bits of their addresses. -/
def blocks (l : List Nat) (a : Nat) : Bool := l.contains (a / 0x10000)

theorem blocks_mono {l l' : List Nat} (h : l ⊆ l') (a : Nat) (ha : blocks l a = true) : blocks l' a = true := by
  simp only [blocks, List.contains_iff_mem] at ha ⊢
  exact h ha

/-- No byte of memory. -/
def noByte (_ : Nat) : Bool := false

section outside
variable {α : Type} {hide : State → α} {own mem : Nat → Bool} {s t : State}

/-- Registers outside `own` hold what they held. -/
theorem State.reg_of_outside (h : t.outside hide own mem = s.outside hide own mem) {a : Nat} (ha : own a = false) :
    t.reg a = s.reg a := by
  have key := congrFun (congrArg (fun x => x.2.1) h) a
  simpa [State.outside, ha] using key

/-- Bytes outside `mem` read as they did. -/
theorem State.rd8_of_outside (h : t.outside hide own mem = s.outside hide own mem) {a : Nat} (ha : mem a = false) :
    t.rd8 a = s.rd8 a := by
  have key := congrFun (congrArg (fun x => x.2.2) h) a
  simpa [State.outside, ha] using key

/-- What `hide` shows is as it was. -/
theorem State.hide_of_outside (h : t.outside hide own mem = s.outside hide own mem) :
    hide { t with regs := [], mem := [] } = hide { s with regs := [], mem := [] } := congrArg Prod.fst h

/-- A unit that writes more and shows less keeps what lies outside the smaller unit. -/
theorem State.outside_mono {β : Type} {hide' : State → β} {own' mem' : Nat → Bool}
    (h : t.outside hide own mem = s.outside hide own mem) (g : α → β) (hg : ∀ x, hide' x = g (hide x))
    (hown : ∀ a, own a = true → own' a = true) (hmem : ∀ a, mem a = true → mem' a = true) :
    t.outside hide' own' mem' = s.outside hide' own' mem' := by
  refine Prod.ext ?_ (Prod.ext (funext fun a => ?_) (funext fun a => ?_))
  · simp only [State.outside, hg, State.hide_of_outside h]
  · by_cases ha : own' a = true
    · simp [State.outside, ha]
    · simp [State.outside, ha, State.reg_of_outside h (Bool.eq_false_iff.2 (mt (hown a) ha))]
  · by_cases ha : mem' a = true
    · simp [State.outside, ha]
    · simp [State.outside, ha, State.rd8_of_outside h (Bool.eq_false_iff.2 (mt (hmem a) ha))]

theorem State.outside_setReg {a : Nat} (v : Word) (ha : own a = true) :
    (s.setReg a v).outside hide own mem = s.outside hide own mem := by
  refine Prod.ext rfl (Prod.ext (funext fun b => ?_) rfl)
  by_cases hb : b = a
  · simp [State.outside, hb, ha]
  · simp [State.outside, State.reg_setReg_ne, hb]

theorem State.outside_setFld {f : Field} (v : Nat) (hf : own f.addr = true) :
    (s.setFld f v).outside hide own mem = s.outside hide own mem := State.outside_setReg _ hf

theorem State.outside_setFlag {f : Field} (b : Bool) (hf : own f.addr = true) :
    (s.setFlag f b).outside hide own mem = s.outside hide own mem := State.outside_setReg _ hf

theorem State.outside_setReg64 {lo hi : Nat} (v : Nat) (hlo : own lo = true) (hhi : own hi = true) :
    (s.setReg64 lo hi v).outside hide own mem = s.outside hide own mem :=
  (State.outside_setReg _ hhi).trans (State.outside_setReg _ hlo)

theorem State.outside_wr8 {a : Nat} (v : Byte) (ha : mem a = true) : (s.wr8 a v).outside hide own mem = s.outside hide own mem := by
  refine Prod.ext rfl (Prod.ext rfl (funext fun b => ?_))
  by_cases hb : b = a
  · simp [State.outside, hb, ha]
  · simp [State.outside, State.rd8_wr8, hb]

theorem State.outside_wrBytes {a : Nat} {l : List Byte} (ha : ∀ i < l.length, mem (a + i) = true) :
    (s.wrBytes a l).outside hide own mem = s.outside hide own mem := by
  induction l generalizing s a with
  | nil => rfl
  | cons b t ih =>
    rw [State.wrBytes, ih fun i hi => ?_, State.outside_wr8 b (by simpa using ha 0 (Nat.zero_lt_succ _))]
    rw [Nat.add_assoc, Nat.add_comm 1 i]
    exact ha (i + 1) (Nat.succ_lt_succ hi)

end outside

/-- What every `f i` with `i < n` keeps, `forN f n` keeps. -/
theorem forN_keeps_lt {σ β : Type} (p : σ → β) (f : Nat → σ → σ) {n : Nat} (h : ∀ i < n, ∀ x, p (f i x) = p x) (x : σ) :
    p (forN f n x) = p x := by
  induction n with
  | zero => rfl
  | succ n ih => exact (h n n.lt_succ_self _).trans (ih fun i hi => h i (Nat.lt_succ_of_lt hi))

/-- What `f` keeps for every entry of a list, a fold of `f` over it keeps. -/
theorem foldl_keeps {σ β γ : Type} (p : σ → β) (f : σ → γ → σ) {l : List γ} (h : ∀ c ∈ l, ∀ x, p (f x c) = p x) (x : σ) :
    p (l.foldl f x) = p x := by
  induction l generalizing x with
  | nil => rfl
  | cons c l ih =>
    rw [List.foldl_cons, ih (fun d hd => h d (List.mem_cons_of_mem _ hd)), h c List.mem_cons_self]

end Sys2Proof.Machine
end
section
/-! SUPPORT. The requests for a reset (R22 to R24). -/

namespace Sys2Proof.Machine

/-- What a totals save that starts or waits leaves alone (R327, R328). -/
def State.butSaves : State → State × (Nat → Word) × (Nat → Byte) :=
  State.outside (fun s => { s with tot := {} }) [SYS_TOT_STAT, PM_STAT].contains noByte

theorem State.butSaves_startSave (s : State) (k : SaveKind) (n : Nat) : (s.startSave k n).butSaves = s.butSaves := by
  unfold State.startSave State.showHeld
  rw [State.butSaves, State.outside_setFlag _ rfl]
  exact (State.outside_setFlag true rfl : (s.setFlag SYS_TOT_STAT.BUSY true).butSaves = s.butSaves)

theorem State.butSaves_saveOccasion (s : State) (k : SaveKind) : (s.saveOccasion k).butSaves = s.butSaves := by
  unfold State.saveOccasion
  split
  · rfl
  split
  · exact s.butSaves_startSave k 0
  · split <;> rfl

theorem State.butSaves_resetSave (s : State) : s.resetSave.butSaves = s.butSaves := by
  unfold State.resetSave
  split
  · exact s.butSaves_saveOccasion .reset
  · rfl

/-- Before this start's MERGE save is committed, no RESET save runs (R329). -/
theorem State.resetSave_unmerged {s : State} (h : s.tot.merged = false) : s.resetSave = s := by
  simp [State.resetSave, h]

/-- The register of causes with cause `b` recorded (R23). -/
abbrev State.causeWord (s : State) (b : Nat) : Word := BitVec.ofNat 32 (putBit (s.reg SYS_RST_CAUSE).toNat b true)

/-- A SYSRST asked for, before its RESET save. -/
def State.sysrstAsked (s : State) (b : Nat) : State :=
  { s.setReg SYS_RST_CAUSE (s.causeWord b) with rst := { s.rst with sys := true } }

theorem State.askSysrst_eq {s : State} (b : Nat) (h : s.rst.sys = false) : s.askSysrst b true = (s.sysrstAsked b).resetSave := by
  simp only [State.askSysrst, h]
  rfl

theorem State.askCprst_eq {s : State} (b : Nat) (sys : s.rst.sys = false) (cp : s.rst.cp = false) :
    s.askCprst b = { s.setReg SYS_RST_CAUSE (s.causeWord b) with rst := { s.rst with cp := true } } := by
  simp [State.askCprst, sys, cp]

/-- A SYSRST that is asked for is noted with its cause; beyond that at most a RESET save starts. -/
theorem State.askSysrst_post {s : State} (b : Nat) (h : s.rst.sys = false) :
    let t := (s.askSysrst b true).intcLatch
    t.rst = { s.rst with sys := true } ∧ t.reg SYS_RST_CAUSE = s.causeWord b
      ∧ KeepsRegs s t [SYS_RST_CAUSE, SYS_TOT_STAT, PM_STAT] ∧ KeepsMem s t ∧ KeepsRest s { t with rst := s.rst, tot := s.tot }
      ∧ (s.tot.merged = false → t.tot = s.tot ∧ KeepsRegs s t [SYS_RST_CAUSE]) := by
  have kept := (s.sysrstAsked b).butSaves_resetSave
  rw [← State.askSysrst_eq b h] at kept
  have rest := State.hide_of_outside kept
  have causeOnly : KeepsRegs s (s.sysrstAsked b) [SYS_RST_CAUSE] := fun a ha _ => s.reg_setReg_ne _ a _ (by simpa using ha)
  obtain ⟨r, d, latch⟩ := (s.askSysrst b true).intcLatch_updates
  refine ⟨?rst, ?cause, ?regs, ?mem, ?rest, fun unmerged => ⟨?tot, ?only⟩⟩
  case rst => rw [State.intcLatch_rst]; exact (congrArg State.rst rest :)
  case cause =>
    rw [State.reg_intcLatch _ _ (by decide), State.reg_of_outside kept (by decide)]
    exact State.reg_setReg_self _ _ _
  case regs =>
    refine KeepsRegs.intcLatch fun a ha hp => ?_
    rw [State.reg_of_outside kept (by simp_all), causeOnly a (by simp_all) hp]
  case mem =>
    refine KeepsMem.intcLatch ⟨(congrArg State.ecc rest :), fun a => ?_⟩
    exact State.rd8_of_outside kept rfl
  case rest =>
    rw [latch]
    exact (congrArg (fun u : State =>
      { u with regs := s.regs, mem := s.mem, ecc := s.ecc, rst := s.rst, tot := s.tot,
               cp := { u.cp with dioReq := s.cp.dioReq } }) rest :)
  case tot => rw [State.intcLatch_tot, State.askSysrst_eq b h, State.resetSave_unmerged (s := s.sysrstAsked b) unmerged]; rfl
  case only =>
    rw [State.askSysrst_eq b h, State.resetSave_unmerged (s := s.sysrstAsked b) unmerged]
    exact causeOnly.intcLatch

/-- A CPRST that is asked for is noted with its cause, and nothing else changes. -/
theorem State.askCprst_post {s : State} (b : Nat) (sys : s.rst.sys = false) (cp : s.rst.cp = false) :
    let t := (s.askCprst b).intcLatch
    t.rst = { s.rst with cp := true } ∧ t.reg SYS_RST_CAUSE = s.causeWord b
      ∧ KeepsRegs s t [SYS_RST_CAUSE] ∧ KeepsMem s t ∧ KeepsRest s { t with rst := s.rst } := by
  rw [State.askCprst_eq b sys cp]
  refine ⟨by simp, ?cause, ?regs, KeepsMem.intcLatch ⟨rfl, fun _ => rfl⟩, ?rest⟩
  case cause =>
    rw [State.reg_intcLatch _ _ (by decide)]
    exact State.reg_setReg_self _ _ _
  case regs => exact KeepsRegs.intcLatch fun a ha _ => s.reg_setReg_ne _ a _ (by simpa using ha)
  case rest =>
    obtain ⟨r, d, latch⟩ := State.intcLatch_updates { s.setReg SYS_RST_CAUSE (s.causeWord b) with rst := { s.rst with cp := true } }
    rw [latch]
    rfl

theorem State.cpDoes_running {s : State} (f : State → State) (run : s.cpStopped = false) : s.cpDoes f = (f s).out := by
  rw [State.cpDoes, if_neg (by simp [run])]

theorem exec_cprstRequest {s : State} (v : Word) (run : s.cpStopped = false) :
    exec (.cprstRequest v) s = (if SYS_RST_REQ.KIND.of v = 1 then s.rstReqWrite v else s).out :=
  State.cpDoes_running (fun s => if SYS_RST_REQ.KIND.of v = 1 then s.rstReqWrite v else s) run

theorem exec_sysrstRequest {s : State} (v : Word) (run : s.cpStopped = false) :
    exec (.sysrstRequest v) s = (if SYS_RST_REQ.KIND.of v = 2 then s.rstReqWrite v else s).out :=
  State.cpDoes_running (fun s => if SYS_RST_REQ.KIND.of v = 2 then s.rstReqWrite v else s) run

/-- A CP write of SYS_RST_REQ goes by the register's own rule (R24). -/
theorem exec_registerWrite_rstReq {s : State} (v : Word) (run : s.cpStopped = false) :
    exec (.registerWrite (BitVec.ofNat 32 SYS_RST_REQ) v) s = (s.rstReqWrite v).out := by
  have granted : s.accessFaults (wordWrite (BitVec.ofNat 32 SYS_RST_REQ)) false = false :=
    Bool.eq_false_iff.2 fun h => absurd ((s.accessFaults_register (by decide) (by decide)).1 h).2.1 (by decide)
  rw [exec_registerWrite, State.cpAccess_effect _ run granted, s.cpWrite_register _ v (by decide) (by decide)]
  rfl

theorem State.rstReqWrite_badKey {s : State} {v : Word} (h : SYS_RST_REQ.KEY.of v ≠ 0xC0DE) : s.rstReqWrite v = s := by
  rw [State.rstReqWrite, if_pos h]

theorem State.rstReqWrite_kind {s : State} {v : Word} (h : SYS_RST_REQ.KEY.of v = 0xC0DE) :
    s.rstReqWrite v = if SYS_RST_REQ.KIND.of v = 1 then s.askCprst 5 else if SYS_RST_REQ.KIND.of v = 2 then s.askSysrst 4 true
      else s := by
  rw [State.rstReqWrite, if_neg (not_not.2 h)]

/-- Settles O5: each command comes to `rstReqWrite`, which the key and the kind decide. -/
theorem softwareResetRequests : Obligations.SoftwareResetRequests := by
  unfold Obligations.SoftwareResetRequests
  refine ⟨?badKey, ?cprst, ?sysrst, ?noKind⟩
  case badKey =>
    intro s v key run
    have silent : ∀ c, exec c s = s.out → Runs c s (OnlyRegs s · []) := fun c h => Runs.of_out h (OnlyRegs.refl s []).intcLatch
    refine ⟨silent _ ?_, silent _ ?_, silent _ ?_⟩
    · rw [exec_cprstRequest v run, State.rstReqWrite_badKey key, ite_self]
    · rw [exec_sysrstRequest v run, State.rstReqWrite_badKey key, ite_self]
    · rw [exec_registerWrite_rstReq v run, State.rstReqWrite_badKey key]
  case cprst =>
    intro s v key kind sys cp run c hc
    have asks : exec c s = (s.askCprst 5).out := by
      have write : s.rstReqWrite v = s.askCprst 5 := by rw [State.rstReqWrite_kind key, if_pos kind]
      rcases List.mem_pair.1 hc with rfl | rfl
      · rw [exec_cprstRequest v run, if_pos kind, write]
      · rw [exec_registerWrite_rstReq v run, write]
    exact Runs.of_out asks (State.askCprst_post 5 sys cp)
  case sysrst =>
    intro s v key kind sys run c hc
    have asks : exec c s = (s.askSysrst 4 true).out := by
      have write : s.rstReqWrite v = s.askSysrst 4 true := by rw [State.rstReqWrite_kind key, if_neg (by omega), if_pos kind]
      rcases List.mem_pair.1 hc with rfl | rfl
      · rw [exec_sysrstRequest v run, if_pos kind, write]
      · rw [exec_registerWrite_rstReq v run, write]
    exact Runs.of_out asks (State.askSysrst_post 4 sys)
  case noKind =>
    intro s v key kind run
    refine Runs.of_out ?_ (OnlyRegs.refl s []).intcLatch
    rw [exec_registerWrite_rstReq v run, State.rstReqWrite_kind key, if_neg (by omega), if_neg (by omega)]

end Sys2Proof.Machine
end

section
/-! SUPPORT. What an operation on the parameter memory array and the registers that show it leaves alone (R437 to R457, R507). -/

namespace Sys2Proof.Machine

/-- The state but for the array's ECC errors and the words that wait for it. -/
def State.hideArray (s : State) : State := { s with ecc := [], pm := { s.pm with later := [] } }

/-- The 8 bytes of word 1 + `b` of the health record, the time of replacement cause `b` (R508). -/
def causeWordBytes (b a : Nat) : Bool := decide (0x38002808 + 8 * b ≤ a) && decide (a < 0x38002810 + 8 * b)

section array
variable {own mem : Nat → Bool} {s : State}

theorem length_toBytes (n v : Nat) : (toBytes n v).length = n := by
  induction n generalizing v with
  | zero => rfl
  | succ n ih => rw [toBytes, List.length_cons, ih]

theorem State.outside_ecc (l : List (Nat × Bool)) :
    ({ s with ecc := l } : State).outside hideArray own mem = s.outside hideArray own mem := rfl

theorem State.outside_later (l : List (Nat × Nat × Nat)) :
    ({ s with pm := { s.pm with later := l } } : State).outside hideArray own mem = s.outside hideArray own mem := rfl

theorem State.outside_pmProgram {off : Nat} (v : Nat) (h : ∀ i < 8, mem (pmAddr (pmWordAt off) + i) = true) :
    (s.pmProgram off v).outside hideArray own mem = s.outside hideArray own mem := by
  rw [State.pmProgram, State.outside_ecc, State.wr64]
  exact State.outside_wrBytes fun i hi => h i (by rwa [length_toBytes] at hi)

theorem State.outside_pmLater (c : Nat) {off : Nat} (v : Nat) (h : ∀ i < 8, mem (pmAddr (pmWordAt off) + i) = true) :
    (s.pmLater c off v).outside hideArray own mem = s.outside hideArray own mem := by
  unfold State.pmLater
  split
  · exact State.outside_later _
  · exact State.outside_pmProgram v h

theorem pmAddr_causeWord {b : Nat} (hb : b < 10) : pmAddr (pmWordAt (0x2800 + 8 * (1 + b))) = 0x38002808 + 8 * b := by
  simp only [pmAddr, pmWordAt]
  omega

/-- A replacement cause that changes shows itself in LCS and records its time (R507, R508). -/
theorem State.outside_setCause {b : Nat} (v : Bool) (hb : b < 10) :
    (s.setCause b v).outside hideArray (blocks [0x4010]) (causeWordBytes b)
      = s.outside hideArray (blocks [0x4010]) (causeWordBytes b) := by
  have inWord : ∀ i < 8, causeWordBytes b (pmAddr (pmWordAt (0x2800 + 8 * (1 + b))) + i) = true := fun i hi => by
    rw [pmAddr_causeWord hb]
    simp [causeWordBytes]
    omega
  have lo : blocks [0x4010] (LCS_CAUSE_TICK_LO b) = true := by simp [blocks, LCS_CAUSE_TICK_LO]; omega
  have hi : blocks [0x4010] (LCS_CAUSE_TICK_HI b) = true := by simp [blocks, LCS_CAUSE_TICK_HI]; omega
  unfold State.setCause
  extract_lets word cause seen event tick
  have noted : event.outside hideArray (blocks [0x4010]) (causeWordBytes b)
      = s.outside hideArray (blocks [0x4010]) (causeWordBytes b) :=
    (State.outside_setFlag _ rfl).trans ((State.outside_setReg _ rfl).trans (State.outside_setReg _ rfl))
  split
  · rfl
  split
  · exact (State.outside_setReg64 _ lo hi).trans ((State.outside_pmLater 4 _ inWord).trans noted)
  · exact noted

/-- A cause's time stands in the array. -/
theorem inPm_of_causeWordBytes {b : Nat} (hb : b < 10) (a : Nat) (h : causeWordBytes b a = true) : inPm a = true := by
  simp only [causeWordBytes, inPm, Bool.and_eq_true, decide_eq_true_eq] at h ⊢
  omega

theorem inPm_pmWord (off : Nat) {i : Nat} (h : i < 8) : inPm (pmAddr (pmWordAt off) + i) = true := by
  have lo : 0x38000000 ≤ pmAddr (pmWordAt off) + i := by simp only [pmAddr]; omega
  have hi : pmAddr (pmWordAt off) + i < 0x38080000 := by simp only [pmAddr, pmWordAt]; omega
  simp [inPm, lo, hi]

end array

/-- What lies outside the array, its spread counters and their shows, and the replacement causes. -/
def State.butArray (s : State) : State × (Nat → Word) × (Nat → Byte) := s.outside hideArray (blocks [0x400E, 0x4010]) inPm

section butArray
variable (s : State)

theorem State.butArray_pmProgram (off v : Nat) : (s.pmProgram off v).butArray = s.butArray :=
  State.outside_pmProgram v fun _ => inPm_pmWord off

theorem State.butArray_pmProgramAll (l : List (Nat × Nat)) : (s.pmProgramAll l).butArray = s.butArray := by
  induction l generalizing s with
  | nil => rfl
  | cons w l ih => exact (ih (s.pmProgram w.1 w.2)).trans (s.butArray_pmProgram w.1 w.2)

theorem State.butArray_scShow {k : Nat} (hk : k < 32) : (s.scShow k).butArray = s.butArray := by
  have val : blocks [0x400E, 0x4010] (PM_SC_VAL k) = true := by simp [blocks, PM_SC_VAL]; omega
  exact (State.outside_setReg _ rfl).trans (State.outside_setReg _ val)

theorem State.butArray_setCause {b : Nat} (v : Bool) (hb : b < 10) : (s.setCause b v).butArray = s.butArray :=
  State.outside_mono (State.outside_setCause v hb) id (fun _ => rfl) (blocks_mono (by simp)) fun a => inPm_of_causeWordBytes hb a

theorem State.butArray_scIncrement {k : Nat} (hk : k < 32) : (s.scIncrement k).butArray = s.butArray := by
  have cause : ∀ t : State, (t.counterCause k).butArray = t.butArray := fun t => by
    unfold State.counterCause
    split
    · exact t.butArray_setCause true (by decide)
    · rfl
  unfold State.scIncrement
  split
  · rfl
  split
  · rfl
  · exact (cause _).trans ((State.butArray_scShow _ hk).trans (s.butArray_pmProgram _ _))

end butArray

end Sys2Proof.Machine
end

section
/-! SUPPORT. What the registers that show the vault, the fuses, the counters and the ledger leave alone, and what work that a cut or a
reset stops leaves alone (R2, R22). -/

namespace Sys2Proof.Machine

/-- What lies outside the registers that show the vault and its replacement cause (R467, R507). -/
def State.butVaultShow (s : State) : State × (Nat → Word) × (Nat → Byte) :=
  s.outside hideArray (blocks [0x400F, 0x4010]) (causeWordBytes 6)

theorem State.butVaultShow_setCause (s : State) (v : Bool) : (s.setCause 6 v).butVaultShow = s.butVaultShow :=
  State.outside_mono (State.outside_setCause v (by decide)) id (fun _ => rfl) (blocks_mono (by simp)) fun _ h => h

theorem State.butVaultShow_setReg (s : State) {a : Nat} (v : Word) (h : a / 0x10000 = 0x400F) :
    (s.setReg a v).butVaultShow = s.butVaultShow := State.outside_setReg v (by simp [blocks, h])

theorem State.butVaultShow_setFld (s : State) {f : Field} (v : Nat) (h : f.addr / 0x10000 = 0x400F) :
    (s.setFld f v).butVaultShow = s.butVaultShow := s.butVaultShow_setReg _ h

theorem State.butVaultShow_setFlag (s : State) {f : Field} (b : Bool) (h : f.addr / 0x10000 = 0x400F) :
    (s.setFlag f b).butVaultShow = s.butVaultShow := s.butVaultShow_setReg _ h

/-- Showing the vault's status and slots, and its replacement cause (R467, R507), leaves the rest alone. -/
theorem State.butVaultShow_vltShow (s : State) : s.vltShow.butVaultShow = s.butVaultShow := by
  unfold State.vltShow
  extract_lets root zeroed approved cls slots
  have status : cls.butVaultShow = s.butVaultShow :=
    (approved.butVaultShow_setFld _ rfl).trans ((zeroed.butVaultShow_setFlag _ rfl).trans
      ((root.butVaultShow_setFlag _ rfl).trans (s.butVaultShow_setFlag _ rfl)))
  have shown : slots.butVaultShow = s.butVaultShow := by
    refine Eq.trans (forN_keeps_lt State.butVaultShow _ (fun k hk t => ?_) cls) status
    have pol : VLT_SLOT_POL k / 0x10000 = 0x400F := by simp only [VLT_SLOT_POL]; omega
    have lim : VLT_SLOT_LIM k / 0x10000 = 0x400F := by simp only [VLT_SLOT_LIM]; omega
    exact (State.butVaultShow_setFld _ _ lim).trans ((State.butVaultShow_setFld _ _ lim).trans (State.butVaultShow_setReg _ _ pol))
  split
  · exact (slots.butVaultShow_setCause true).trans shown
  · exact shown

/-- The ECC errors of the array's words but of the one at window offset `w`. -/
def State.eccBut (w : Nat) (s : State) : List (Nat × Bool) := s.ecc.filter fun x => x.1 != w

theorem State.eccBut_pmProgram (s : State) (w v : Nat) : (s.pmProgram w v).eccBut w = s.eccBut w := by
  simp [State.eccBut, State.pmProgram]

theorem State.eccBut_setCause (s : State) (b : Nat) (v : Bool) :
    (s.setCause b v).eccBut (0x2800 + 8 * (1 + b)) = s.eccBut (0x2800 + 8 * (1 + b)) := by
  have later : ∀ (t : State) n, (t.pmLater 4 (0x2800 + 8 * (1 + b)) n).eccBut (0x2800 + 8 * (1 + b)) = t.eccBut (0x2800 + 8 * (1 + b)) :=
    fun t n => by
      unfold State.pmLater
      split
      · rfl
      · exact t.eccBut_pmProgram _ n
  unfold State.setCause
  extract_lets word cause seen event tick
  split
  · rfl
  split
  · exact later event tick
  · rfl

/-- Showing the vault programs at most the time of its replacement cause (R508). -/
theorem State.eccBut_vltShow (s : State) : s.vltShow.eccBut 0x2838 = s.eccBut 0x2838 := by
  unfold State.vltShow
  extract_lets root zeroed approved cls slots
  have shown : slots.eccBut 0x2838 = s.eccBut 0x2838 := forN_keeps (State.eccBut 0x2838) _ (fun _ _ => rfl) 32 cls
  split
  · exact (slots.eccBut_setCause 6 true).trans shown
  · exact shown

theorem State.mem_ecc_of_eccBut {s t : State} {w : Nat} (h : t.eccBut w = s.eccBut w) (x : Nat × Bool) (hx : x.1 ≠ w) :
    x ∈ t.ecc ↔ x ∈ s.ecc := by
  have listed : ∀ u : State, x ∈ u.ecc ↔ x ∈ u.eccBut w := fun u => by simp [State.eccBut, hx]
  rw [listed t, listed s, h]

/-- What lies outside the registers that show fuses, vault, counters and ledger, the vault's own state and the array: what a POR or a
SYSRST leaves at reset (R2, R20). -/
def State.butShows (s : State) : State × (Nat → Word) × (Nat → Byte) :=
  s.outside (fun s => { s.hideArray with vlt := {} }) (blocks [0x4008, 0x400E, 0x400F, 0x4010]) inPm

section butShows
variable (s : State)

theorem State.butShows_setReg {a : Nat} (v : Word) (h : blocks [0x4008, 0x400E, 0x400F, 0x4010] a = true) :
    (s.setReg a v).butShows = s.butShows := State.outside_setReg v h

theorem State.butShows_setFld {f : Field} (v : Nat) (h : blocks [0x4008, 0x400E, 0x400F, 0x4010] f.addr = true) :
    (s.setFld f v).butShows = s.butShows := s.butShows_setReg _ h

theorem State.butShows_setFlag {f : Field} (b : Bool) (h : blocks [0x4008, 0x400E, 0x400F, 0x4010] f.addr = true) :
    (s.setFlag f b).butShows = s.butShows := s.butShows_setReg _ h

theorem State.butShows_vltShow : s.vltShow.butShows = s.butShows :=
  State.outside_mono s.butVaultShow_vltShow (fun x => { x with vlt := {} }) (fun _ => rfl) (blocks_mono (by simp))
    fun a => inPm_of_causeWordBytes (by decide) a

theorem State.butShows_scShowAll : s.scShowAll.butShows = s.butShows :=
  forN_keeps_lt State.butShows _ (fun _ hk t =>
    State.outside_mono (t.butArray_scShow hk) (fun x => { x with vlt := {} }) (fun _ => rfl) (blocks_mono (by simp)) fun _ h => h) s

theorem State.butShows_ledgerShow : s.ledgerShow.butShows = s.butShows :=
  (State.butShows_setFld _ _ rfl).trans (s.butShows_setFld _ rfl)

theorem State.butShows_causeTicksShow : s.causeTicksShow.butShows = s.butShows := by
  refine forN_keeps_lt State.butShows _ (fun b hb t => ?_) s
  have lo : blocks [0x4008, 0x400E, 0x400F, 0x4010] (LCS_CAUSE_TICK_LO b) = true := by simp [blocks, LCS_CAUSE_TICK_LO]; omega
  have hi : blocks [0x4008, 0x400E, 0x400F, 0x4010] (LCS_CAUSE_TICK_HI b) = true := by simp [blocks, LCS_CAUSE_TICK_HI]; omega
  exact State.outside_setReg64 _ lo hi

theorem State.butShows_lcsShow : s.lcsShow.butShows = s.butShows := by
  unfold State.lcsShow
  extract_lets fuse state own owner words debug
  have status : owner.butShows = s.butShows :=
    (State.butShows_setFlag _ _ rfl).trans ((State.butShows_setFld _ _ rfl).trans (State.butShows_setFld _ _ rfl))
  have hash : words.butShows = owner.butShows := forN_keeps_lt State.butShows _ (fun i hi t => t.butShows_setReg _ (by
    simp [blocks, LCS_OWNER]; omega)) owner
  exact (State.butShows_setReg _ _ rfl).trans ((State.butShows_setFlag _ _ rfl).trans ((State.butShows_setFlag _ _ rfl).trans
    (hash.trans status)))

theorem State.butShows_vaultWriteAll (l : List (Nat × Nat)) : (s.vaultWriteAll l).butShows = s.butShows := by
  induction l generalizing s with
  | nil => rfl
  | cons w l ih => exact (ih (s.vaultWrite w.1 w.2)).trans rfl

theorem State.butShows_expireSlots : s.expireSlots.butShows = s.butShows := by
  refine forN_keeps_lt State.butShows _ (fun k _ t => ?_) s
  split
  · exact t.butShows_vaultWriteAll _
  · rfl

end butShows

/-- The parts of the node that the ends of work in progress leave alone: the AON domain, the supply, flash, the resets asked for, what
the rounds have published, the queue and the model's own (R22). -/
def State.besideWork (s : State) : AonSt × List Host.Cell × Word × Nat × RstSt × PwrSt × RndSt × List Instr :=
  (s.aon, s.flash, s.readback, s.free, s.rst, s.pwr, s.rnd, s.pending)

/-- Those parts, the registers outside TUNE, MH, PM, VLT and LCS, and the memory outside the array. -/
def State.butWork (s : State) :
    (AonSt × List Host.Cell × Word × Nat × RstSt × PwrSt × RndSt × List Instr) × (Nat → Word) × (Nat → Byte) :=
  s.outside State.besideWork (blocks [0x4005, 0x4008, 0x400E, 0x400F, 0x4010]) inPm

section butWork
variable (s : State)

theorem State.butWork_setReg {a : Nat} (v : Word) (h : blocks [0x4005, 0x4008, 0x400E, 0x400F, 0x4010] a = true) :
    (s.setReg a v).butWork = s.butWork := State.outside_setReg v h

theorem State.butWork_setFld {f : Field} (v : Nat) (h : blocks [0x4005, 0x4008, 0x400E, 0x400F, 0x4010] f.addr = true) :
    (s.setFld f v).butWork = s.butWork := s.butWork_setReg _ h

theorem State.butWork_setFlag {f : Field} (b : Bool) (h : blocks [0x4005, 0x4008, 0x400E, 0x400F, 0x4010] f.addr = true) :
    (s.setFlag f b).butWork = s.butWork := s.butWork_setReg _ h

theorem State.butWork_withPm (x : PmSt) : ({ s with pm := x } : State).butWork = s.butWork := rfl

theorem State.butWork_withTune (x : TuneSt) : ({ s with tune := x } : State).butWork = s.butWork := rfl

theorem State.butWork_withLive (x : LiveSt) : ({ s with live := x } : State).butWork = s.butWork := rfl

theorem State.besideWork_of_butWork {s t : State} (h : t.butWork = s.butWork) : t.besideWork = s.besideWork :=
  State.hide_of_outside h

theorem State.butWork_of_butArray {t : State} (h : t.butArray = s.butArray) : t.butWork = s.butWork :=
  State.outside_mono h State.besideWork (fun _ => rfl)
    (blocks_mono (by simp)) fun _ h => h

theorem State.butWork_of_butShows {t : State} (h : t.butShows = s.butShows) : t.butWork = s.butWork :=
  State.outside_mono h State.besideWork (fun _ => rfl)
    (blocks_mono (by simp)) fun _ h => h

theorem State.butWork_pmProgramAll (l : List (Nat × Nat)) : (s.pmProgramAll l).butWork = s.butWork :=
  s.butWork_of_butArray (s.butArray_pmProgramAll l)

theorem State.butWork_scIncrement {k : Nat} (hk : k < 32) : (s.scIncrement k).butWork = s.butWork :=
  s.butWork_of_butArray (s.butArray_scIncrement hk)

theorem State.butWork_rollCut {k : Nat} (n target : Nat) (hk : k < 32) : (s.rollCut k n target).butWork = s.butWork :=
  forN_keeps_lt State.butWork _ (fun _ _ t => t.butWork_scIncrement hk) s

theorem State.butWork_advanceLedger (n : Nat) : (s.advanceLedger n).butWork = s.butWork :=
  forN_keeps_lt State.butWork _ (fun _ _ t => t.butWork_scIncrement (by decide)) s

theorem State.butWork_saveCut (n : Nat) : (s.saveCut n).butWork = s.butWork := by
  unfold State.saveCut
  split
  · rfl
  extract_lets _ ended pages ledger
  have programmed : pages.butWork = s.butWork := ended.butWork_pmProgramAll _
  have advanced : ledger.butWork = s.butWork := by
    unfold ledger
    split
    · exact programmed
    · exact (pages.butWork_advanceLedger _).trans programmed
  split
  · exact programmed
  split
  · exact (ledger.butWork_scIncrement (by decide)).trans advanced
  · exact advanced

theorem State.butWork_sealCut (n : Nat) : (s.sealCut n).butWork = s.butWork := by
  unfold State.sealCut
  split
  · rfl
  extract_lets _ ended words
  have programmed : words.butWork = s.butWork := ended.butWork_pmProgramAll _
  split
  · rfl
  split
  · exact (words.butWork_scIncrement (by decide)).trans programmed
  · exact programmed

theorem State.butWork_dropBuf : s.dropBuf.butWork = s.butWork := (State.butWork_withPm _ _).trans (s.butWork_setFlag false rfl)

theorem State.butWork_pmCut (n : Nat) : (s.pmCut n).butWork = s.butWork := by
  have advanced : (s.pmAdvance n).butWork = s.butWork := (State.butWork_withPm _ _).trans (s.butWork_pmProgramAll _)
  unfold State.pmCut
  split
  · exact (State.butWork_withPm _ _).trans ((State.butWork_setFlag _ false rfl).trans ((State.butWork_dropBuf _).trans advanced))
  · exact s.butWork_dropBuf

theorem State.butWork_vaultWriteAll (l : List (Nat × Nat)) : (s.vaultWriteAll l).butWork = s.butWork :=
  s.butWork_of_butShows (s.butShows_vaultWriteAll l)

theorem State.butWork_vltCut (n : Nat) : (s.vltCut n).butWork = s.butWork := by
  unfold State.vltCut
  split
  · rfl
  · exact s.butWork_vaultWriteAll _

theorem State.butWork_reportWords (n : Nat) : (s.reportWords n).butWork = s.butWork := s.butWork_pmProgramAll _

theorem State.butWork_injAbort (c : Nat) : (s.injAbort c).butWork = s.butWork := by
  unfold State.injAbort
  extract_lets run captured ended
  have capture : captured.butWork = s.butWork := by
    unfold captured
    split
    · exact s.butWork_setFlag false rfl
    · rfl
  split
  · exact (State.butWork_withTune _ _).trans ((State.butWork_setFlag _ true rfl).trans ((State.butWork_setFld _ _ rfl).trans
      ((State.butWork_setFld _ _ rfl).trans ((State.butWork_setFlag _ false rfl).trans capture))))
  · exact capture

theorem State.butWork_showRights : s.showRights.butWork = s.butWork := by
  have auth : ∀ (t : State) b, (t.setAuth b).butWork = t.butWork := fun t b => by
    unfold State.setAuth
    extract_lets lost shown
    split
    · exact (State.butWork_setFlag _ true rfl).trans (t.butWork_setFlag b rfl)
    · exact t.butWork_setFlag b rfl
  have mauth : ∀ (t : State) b, (t.setMauth b).butWork = t.butWork := fun t b => by
    unfold State.setMauth
    extract_lets lost shown
    split
    · exact (State.butWork_setFlag _ true rfl).trans (t.butWork_setFlag b rfl)
    · exact t.butWork_setFlag b rfl
  exact (State.butWork_setFlag _ _ rfl).trans ((State.butWork_setFlag _ _ rfl).trans ((mauth _ _).trans (auth _ _)))

theorem State.butWork_sessionClose : s.sessionClose.butWork = s.butWork := by
  unfold State.sessionClose
  extract_lets auth _ shown aborted _
  have rights : shown.butWork = s.butWork := State.butWork_showRights _
  have abort : aborted.butWork = s.butWork := by
    unfold aborted
    split
    · exact (shown.butWork_injAbort 2).trans rights
    · exact rights
  exact (State.butWork_withLive _ _).trans abort

theorem State.butWork_vltEnd (code out : Nat) : (s.vltEnd code out).butWork = s.butWork :=
  (State.butWork_setFlag _ true rfl).trans ((State.butWork_setFlag _ false rfl).trans ((State.butWork_setFlag _ _ rfl).trans
    ((State.butWork_setFld _ _ rfl).trans (State.butWork_setFld _ _ rfl))))

theorem State.butWork_zeroise : s.zeroise.butWork = s.butWork := by
  unfold State.zeroise
  extract_lets keep _ wiped closed ended
  have closes : closed.butWork = s.butWork := wiped.butWork_sessionClose
  have ends : ended.butWork = s.butWork := by
    unfold ended
    split
    · exact (closed.butWork_vltEnd _ _).trans closes
    · exact closes
  exact (ended.butWork_of_butShows ended.butShows_vltShow).trans ends

theorem State.butWork_fuseStep (f : FuseStep) : (s.fuseStep f).butWork = s.butWork := by
  cases f with
  | zeroise => exact s.butWork_zeroise
  | owner i => rfl
  | state b => rfl

/-- Work in progress that a cut or a SYSRST stops leaves the rest of the node alone (R22). -/
theorem State.butWork_cutWork (c : CutPoint) : (s.cutWork c).butWork = s.butWork := by
  unfold State.cutWork
  extract_lets palette firmware fuses
  have hpalette : palette.butWork = s.butWork := by
    unfold palette
    split
    · exact s.butWork_rollCut _ _ (by decide)
    · rfl
  have hfirmware : firmware.butWork = s.butWork := by
    unfold firmware
    split
    · exact (palette.butWork_rollCut _ _ (by decide)).trans hpalette
    · exact hpalette
  have hfuses : fuses.butWork = s.butWork := by
    unfold fuses
    split
    · exact (foldl_keeps State.butWork _ (fun f _ t => t.butWork_fuseStep f) firmware).trans hfirmware
    · exact hfirmware
  exact (State.butWork_reportWords _ _).trans ((State.butWork_vltCut _ _).trans ((State.butWork_pmCut _ _).trans
    ((State.butWork_sealCut _ _).trans ((fuses.butWork_saveCut _).trans hfuses))))

end butWork

end Sys2Proof.Machine
end

section
/-! SUPPORT. What a SYSRST and a POR leave (R20 to R23, R45). -/

namespace Sys2Proof.Machine

/-- A DIO edge that is not requested stays so: the gateways leave the control processor as it is (R112). -/
theorem State.intcLatch_cp_of_quiet {s : State} (h : s.cp.dioReq = false) : s.intcLatch.cp = s.cp := by
  have gate : ∀ (n : Nat) (x : State), x.cp = s.cp → (x.gateway n).cp = s.cp := fun n x hx => by
    unfold State.gateway
    split
    · split
      · rw [State.setCp_cp, State.setBit_cp, hx, ← h]
      · exact hx
    · exact hx
  have key : ∀ n, (forN (fun n (x : State) => x.gateway n) n s).cp = s.cp := fun n => by
    induction n with
    | zero => rfl
    | succ n ih => exact gate n _ ih
  exact key 80

theorem PartsReset.intcLatch {u : State} (h : PartsReset u) : PartsReset u.intcLatch := by
  obtain ⟨r, d, latch⟩ := u.intcLatch_updates
  rw [latch]
  exact h

theorem State.partsReset_of_butShows {t u : State} (h : t.butShows = u.butShows) (hu : PartsReset u) : PartsReset t := by
  have parts : PartsReset { ({ t with regs := [], mem := [] } : State).hideArray with vlt := {} } := by
    rw [State.hide_of_outside h]
    exact hu
  exact parts

/-- Every part at reset, before the registers that show fuses, vault, array and ledger are brought up to date (R2, R20). -/
def State.resetBase (s : State) (keep : Nat → Bool) (boot : BootSt) : State := {
  boot := boot
  regs := sparseClear (fun a => !keep a) s.regs
  mem := sparseClear (fun a => !inPm a) s.mem
  ecc := s.ecc
  flash := s.flash
  readback := s.readback
  free := s.free
  rst := { vaultUp := s.rst.vaultUp }
  pwr := s.pwr
  aon := s.aon
  ana := { dio := (List.range 32).map fun i => nth s.ana.dio i false && !nth s.ana.dioOut i false }
  vlt := { sram := s.vlt.sram, root := s.vlt.root }
  lcs := { fuses := s.lcs.fuses, owner := s.lcs.owner, staged := s.lcs.owner }
  pending := s.pending }

/-- The fields of the state that a reset of the main rails decides alone. -/
def State.ownOfReset (s : State) :
    RndSt × BootSt × RstSt × PwrSt × CpSt × AonSt × List Host.Cell × Nat × Word × List Instr :=
  (s.rnd, s.boot, s.rst, s.pwr, s.cp, s.aon, s.flash, s.free, s.readback, s.pending)

theorem State.ownOfReset_of_butShows {t u : State} (h : t.butShows = u.butShows) : t.ownOfReset = u.ownOfReset :=
  (congrArg State.ownOfReset (State.hide_of_outside h) :)

section resetParts
variable (s : State) (keep : Nat → Bool) (boot : BootSt)

theorem State.butShows_resetParts : (s.resetParts keep boot).butShows = (s.resetBase keep boot).butShows := by
  unfold State.resetParts
  extract_lets base shown
  have shows_ : shown.butShows = base.butShows := (State.butShows_ledgerShow _).trans ((State.butShows_scShowAll _).trans
    ((State.butShows_causeTicksShow _).trans base.butShows_lcsShow))
  exact (State.butShows_vltShow _).trans ((State.butShows_expireSlots _).trans ((State.butShows_setFlag _ _ rfl).trans
    ((State.butShows_setFlag _ _ rfl).trans shows_)))

/-- A register that the reset keeps, outside the blocks whose shows are brought up to date. -/
theorem State.resetParts_reg {a : Nat} (hk : keep a = true) (ha : blocks [0x4008, 0x400E, 0x400F, 0x4010] a = false) :
    (s.resetParts keep boot).reg a = s.reg a := by
  have kept : (s.resetBase keep boot).reg a = if !keep a then regReset a else s.reg a := s.reg_resetRegs (fun a => !keep a) a
  rw [State.reg_of_outside (s.butShows_resetParts keep boot) ha, kept]
  simp [hk]

/-- Memory outside the array is cleared. -/
theorem State.resetParts_rd8 {a : Nat} (ha : inPm a = false) : (s.resetParts keep boot).rd8 a = memDefault a := by
  have cleared : (s.resetBase keep boot).rd8 a = if !inPm a then memDefault a else s.rd8 a := s.rd8_clearMem (fun a => !inPm a) a
  rw [State.rd8_of_outside (s.butShows_resetParts keep boot) ha, cleared]
  simp [ha]

theorem State.resetParts_fields : (s.resetParts keep boot).ownOfReset = (s.resetBase keep boot).ownOfReset :=
  State.ownOfReset_of_butShows (s.butShows_resetParts keep boot)

theorem State.resetParts_partsReset : PartsReset (s.resetParts keep boot) :=
  State.partsReset_of_butShows (s.butShows_resetParts keep boot)
    ⟨rfl, rfl, rfl, rfl, rfl, rfl, rfl, rfl, rfl, rfl, rfl, rfl, rfl, rfl, rfl⟩

end resetParts

end Sys2Proof.Machine
end

section
/-! SUPPORT. The states that a SYSRST and a POR leave, by what they take from the state before (R20 to R23, R45). -/

namespace Sys2Proof.Machine

theorem inPm_of_outside {a : Nat} (h : a < 0x38000000 ∨ 0x38080000 ≤ a) : inPm a = false := by
  simp only [inPm, Bool.and_eq_false_iff, decide_eq_false_iff_not]
  omega

theorem State.besideWork_cutWork (s : State) (c : CutPoint) : (s.cutWork c).besideWork = s.besideWork :=
  State.besideWork_of_butWork (s.butWork_cutWork c)

theorem State.reg_cutWork (s : State) (c : CutPoint) {a : Nat} (h : blocks [0x4005, 0x4008, 0x400E, 0x400F, 0x4010] a = false) :
    (s.cutWork c).reg a = s.reg a := State.reg_of_outside (s.butWork_cutWork c) h

/-- A state at reset with the requests forwarded. -/
theorem State.cp_intcLatch_reset {u : State} (h : u.cp = {}) : u.intcLatch.cp = {} :=
  (State.intcLatch_cp_of_quiet (congrArg CpSt.dioReq h)).trans h

section sysrst

/-- What a SYSRST that leaves every part at reset, in `t`, keeps beside from `w`, the state before it: three fields of SYS and what the
rounds have published. -/
def State.keepAtSysrst (t w : State) : State :=
  ((State.setFld { t with rnd := { t.rnd with published := w.rnd.published } } SYS_CLK_STAT.HFXO_LOST (w.fld SYS_CLK_STAT.HFXO_LOST)).setFld
    SYS_CP_STAT.LOCKSTEP (w.fld SYS_CP_STAT.LOCKSTEP)).setFld SYS_CP_STAT.LS_SEEN (w.fld SYS_CP_STAT.LS_SEEN)

theorem State.sysrst_eq (s : State) (c : CutPoint) :
    s.sysrst c = ((s.cutWork c).resetParts keptBySysrst { step := 1 }).keepAtSysrst (s.cutWork c) := rfl

theorem State.ownOfReset_keepAtSysrst (t w : State) : (t.keepAtSysrst w).ownOfReset =
    ({ t.rnd with published := w.rnd.published }, t.boot, t.rst, t.pwr, t.cp, t.aon, t.flash, t.free, t.readback, t.pending) := rfl

theorem State.rd8_keepAtSysrst (t w : State) (a : Nat) : (t.keepAtSysrst w).rd8 a = t.rd8 a := rfl

theorem State.partsReset_keepAtSysrst {t : State} (w : State) (h : PartsReset t) (fresh : t.rnd = {}) :
    PartsReset (t.keepAtSysrst w) := by
  obtain ⟨le, tune, sa, pt, time, net, -, rest⟩ := h
  exact ⟨le, tune, sa, pt, time, net, congrArg (fun x : RndSt => { x with published := w.rnd.published }) fresh, rest⟩

theorem State.reg_keepAtSysrst (t w : State) {a : Nat} (clk : a ≠ SYS_CLK_STAT) (cp : a ≠ SYS_CP_STAT) :
    (t.keepAtSysrst w).reg a = t.reg a :=
  (State.reg_setFld_ne _ _ _ _ cp).trans ((State.reg_setFld_ne _ _ _ _ cp).trans (State.reg_setFld_ne _ _ _ _ clk))

theorem State.rnd_of_ownOfReset {t u : State} (h : t.ownOfReset = u.ownOfReset) : t.rnd = u.rnd := congrArg Prod.fst h

variable (s : State) (c : CutPoint)

theorem State.ownOfReset_sysrst : (s.sysrst c).ownOfReset = ({ published := s.rnd.published }, { step := 1 },
    { vaultUp := s.rst.vaultUp }, s.pwr, {}, s.aon, s.flash, s.free, s.readback, s.pending) := by
  have reset := (s.cutWork c).resetParts_fields keptBySysrst { step := 1 }
  have kept := s.besideWork_cutWork c
  rw [s.sysrst_eq c, State.ownOfReset_keepAtSysrst]
  generalize (s.cutWork c).resetParts keptBySysrst { step := 1 } = t at reset ⊢
  generalize s.cutWork c = w at reset kept ⊢
  simp only [State.ownOfReset, State.resetBase, State.besideWork, Prod.mk.injEq] at reset kept
  obtain ⟨rnd, boot, rst, pwr, cp, aon, flash, free, readback, pending⟩ := reset
  obtain ⟨aon', flash', readback', free', rst', pwr', rnd', pending'⟩ := kept
  simp only [rnd, boot, rst, pwr, cp, aon, flash, free, readback, pending, aon', flash', readback', free', rst', pwr', rnd', pending']

theorem State.partsReset_sysrst : PartsReset (s.sysrst c) := by
  rw [s.sysrst_eq c]
  have fresh := State.rnd_of_ownOfReset ((s.cutWork c).resetParts_fields keptBySysrst { step := 1 })
  exact State.partsReset_keepAtSysrst _ ((s.cutWork c).resetParts_partsReset keptBySysrst { step := 1 }) fresh

theorem State.rd8_sysrst {a : Nat} (h : a < 0x38000000 ∨ 0x38080000 ≤ a) : (s.sysrst c).rd8 a = memDefault a := by
  rw [s.sysrst_eq c, State.rd8_keepAtSysrst]
  exact State.resetParts_rd8 _ _ _ (inPm_of_outside h)

theorem State.reg_sysrst {a : Nat} (keep : keptBySysrst a = true) (clk : a ≠ SYS_CLK_STAT) (cp : a ≠ SYS_CP_STAT)
    (ha : blocks [0x4005, 0x4008, 0x400E, 0x400F, 0x4010] a = false) : (s.sysrst c).reg a = s.reg a := by
  have shows : blocks [0x4008, 0x400E, 0x400F, 0x4010] a = false :=
    Bool.eq_false_iff.2 fun h => absurd (blocks_mono (by simp) a h) (Bool.eq_false_iff.1 ha)
  rw [s.sysrst_eq c, State.reg_keepAtSysrst _ _ clk cp, State.resetParts_reg _ _ _ keep shows, s.reg_cutWork c ha]

end sysrst

section por

/-- A POR after every part is at reset, in `t`, up to the supervisor's own state: VAULT-UP is shown, with `up` from before (R23). -/
def State.showAtPor (t : State) (up : Bool) : State :=
  State.setFlag { t with rst := {}, aon := { t.aon with onVbat := false } } SYS_RST_CAUSE.VAULTUP up

/-- The supervisor's own state at a POR: the lease that it granted before, or the first one (R45). -/
def State.leaseAtPor (t : State) (lease : Bool) (feed : Nat) : State :=
  if lease then { t with pwr := { t.pwr with on := true, reg := true, rails := true, age := [0, 0], held := [false, false] } }
  else t.firstLease feed

/-- The first lease sets the supervisor's own state and PWR_STAT alone. -/
theorem State.firstLease_updates (t : State) (feed : Nat) : ∃ r p, t.firstLease feed = { t with regs := r, pwr := p }
    ∧ p.on = true ∧ ∀ a, a ≠ PWR_STAT → (t.firstLease feed).reg a = t.reg a := by
  unfold State.firstLease
  extract_lets leased shown
  have led : ∀ a, a ≠ PWR_STAT → shown.reg a = t.reg a := fun a ha =>
    (State.reg_setFld_ne _ PWR_STAT.HOLDER _ _ ha).trans (State.reg_setFlag_ne leased PWR_STAT.TOKEN _ _ ha)
  split
  · exact ⟨_, _, rfl, rfl, fun a ha => (State.reg_setFlag_ne _ PWR_STAT.A_ELIG _ _ ha).trans (led a ha)⟩
  · exact ⟨_, _, rfl, rfl, fun a ha => (State.reg_setFlag_ne _ PWR_STAT.B_ELIG _ _ ha).trans (led a ha)⟩

theorem State.leaseAtPor_updates (t : State) (lease : Bool) (feed : Nat) : ∃ r p, t.leaseAtPor lease feed = { t with regs := r, pwr := p }
    ∧ p.on = true ∧ ∀ a, a ≠ PWR_STAT → (t.leaseAtPor lease feed).reg a = t.reg a := by
  unfold State.leaseAtPor
  split
  · exact ⟨_, _, rfl, rfl, fun _ _ => rfl⟩
  · exact t.firstLease_updates feed

theorem State.partsReset_leaseAtPor {t : State} (lease : Bool) (feed : Nat) (up : Bool) (h : PartsReset t) :
    PartsReset ((t.showAtPor up).leaseAtPor lease feed) := by
  obtain ⟨r, p, e, -⟩ := (t.showAtPor up).leaseAtPor_updates lease feed
  rw [e]
  exact h

theorem State.rd8_leaseAtPor (t : State) (lease : Bool) (feed : Nat) (a : Nat) : (t.leaseAtPor lease feed).rd8 a = t.rd8 a := by
  obtain ⟨r, p, e, -⟩ := t.leaseAtPor_updates lease feed
  rw [e]
  rfl

theorem State.rd8_showAtPor (t : State) (up : Bool) (a : Nat) : (t.showAtPor up).rd8 a = t.rd8 a := rfl

theorem State.on_leaseAtPor (t : State) (lease : Bool) (feed : Nat) : (t.leaseAtPor lease feed).pwr.on = true := by
  obtain ⟨r, p, e, on, -⟩ := t.leaseAtPor_updates lease feed
  rw [e]
  exact on

theorem State.reg_leaseAtPor (t : State) (lease : Bool) (feed : Nat) {a : Nat} (h : a ≠ PWR_STAT) :
    (t.leaseAtPor lease feed).reg a = t.reg a := by
  obtain ⟨-, -, -, -, regs⟩ := t.leaseAtPor_updates lease feed
  exact regs a h

theorem State.reg_showAtPor (t : State) (up : Bool) {a : Nat} (h : a ≠ SYS_RST_CAUSE) : (t.showAtPor up).reg a = t.reg a :=
  State.reg_setFlag_ne _ SYS_RST_CAUSE.VAULTUP _ _ h

/-- What the supervisor does not decide at a POR. -/
theorem State.ownOfReset_leaseAtPor (t : State) (lease : Bool) (feed : Nat) (up : Bool) :
    ((t.showAtPor up).leaseAtPor lease feed).ownOfReset = (t.rnd, t.boot, {}, ((t.showAtPor up).leaseAtPor lease feed).pwr, t.cp,
      { t.aon with onVbat := false }, t.flash, t.free, t.readback, t.pending) := by
  obtain ⟨r, p, e, -⟩ := (t.showAtPor up).leaseAtPor_updates lease feed
  rw [e]
  rfl

/-- The registers that a POR keeps are those of a node whose supervisor has granted a lease, or not. -/
def State.leased (s : State) : Bool := s.flag PWR_STAT.TOKEN && !s.pwr.on

variable (s : State) (feed : Nat) (c : CutPoint)

theorem State.por_eq : s.por feed c = (((s.cutWork c).resetParts (keptByPor s.leased) { step := 1 }).showAtPor
    (s.cutWork c).rst.vaultUp).leaseAtPor s.leased feed := rfl

theorem State.ownOfReset_por : (s.por feed c).ownOfReset = ({}, { step := 1 }, {}, (s.por feed c).pwr, {},
    { s.aon with onVbat := false }, s.flash, s.free, s.readback, s.pending) := by
  have reset := (s.cutWork c).resetParts_fields (keptByPor s.leased) { step := 1 }
  have kept := s.besideWork_cutWork c
  rw [s.por_eq feed c, State.ownOfReset_leaseAtPor]
  generalize (s.cutWork c).resetParts (keptByPor s.leased) { step := 1 } = t at reset ⊢
  generalize s.cutWork c = w at reset kept ⊢
  simp only [State.ownOfReset, State.resetBase, State.besideWork, Prod.mk.injEq] at reset kept
  obtain ⟨rnd, boot, -, -, cp, aon, flash, free, readback, pending⟩ := reset
  obtain ⟨aon', flash', readback', free', -, -, -, pending'⟩ := kept
  simp only [rnd, boot, cp, aon, flash, free, readback, pending, aon', flash', readback', free', pending']

theorem State.partsReset_por : PartsReset (s.por feed c) :=
  State.partsReset_leaseAtPor _ _ _ ((s.cutWork c).resetParts_partsReset (keptByPor s.leased) { step := 1 })

theorem State.rd8_por {a : Nat} (h : a < 0x38000000 ∨ 0x38080000 ≤ a) : (s.por feed c).rd8 a = memDefault a := by
  rw [s.por_eq feed c, State.rd8_leaseAtPor, State.rd8_showAtPor]
  exact State.resetParts_rd8 _ _ _ (inPm_of_outside h)

theorem State.reg_por {a : Nat} (h : 0x40020000 ≤ a ∧ a < 0x40030000) : (s.por feed c).reg a = s.reg a := by
  have keep : keptByPor s.leased a = true := by simp [keptByPor, h]
  have aon : a / 0x10000 = 0x4002 := by omega
  have cause : a ≠ SYS_RST_CAUSE := by simp only [SYS_RST_CAUSE]; omega
  have supervisor : a ≠ PWR_STAT := by simp only [PWR_STAT]; omega
  rw [s.por_eq feed c, State.reg_leaseAtPor _ _ _ supervisor, State.reg_showAtPor _ _ cause,
    State.resetParts_reg _ _ _ keep (by simp [blocks, aon]), s.reg_cutWork c (by simp [blocks, aon])]

/-- SYS_RST_CAUSE shows the VAULT-UP before a POR (R23). -/
theorem State.vaultUp_por : (s.por feed c).flag SYS_RST_CAUSE.VAULTUP = s.rst.vaultUp := by
  have kept := congrArg (fun x => x.2.2.2.2.1.vaultUp) (s.besideWork_cutWork c)
  have shown : ∀ (t : State) up, (t.showAtPor up).flag SYS_RST_CAUSE.VAULTUP = up := fun t up =>
    State.flag_setFlag_self _ SYS_RST_CAUSE.VAULTUP up rfl (by decide)
  rw [State.flag, State.fld, s.por_eq feed c, State.reg_leaseAtPor _ _ _ (by decide)]
  exact (shown _ _).trans kept

end por

/-- What a POR leaves, with the requests forwarded. -/
theorem Runs.por (s : State) (feed : Fin 2) (cut : CutPoint) : Runs (.por feed cut) s fun t =>
    PartsReset t ∧ t.rnd = {} ∧ t.boot = { step := 1 } ∧ t.rst = {} ∧ t.pwr.on = true ∧ t.cp = {}
    ∧ t.flag SYS_RST_CAUSE.VAULTUP = s.rst.vaultUp
    ∧ t.aon = { s.aon with onVbat := false } ∧ t.flash = s.flash ∧ t.free = s.free ∧ t.readback = s.readback
      ∧ t.pending = s.pending
    ∧ (∀ a, 0x40020000 ≤ a ∧ a < 0x40030000 → t.reg a = s.reg a)
    ∧ ∀ a, a < 0x38000000 ∨ 0x38080000 ≤ a → t.rd8 a = memDefault a := by
  have fields := s.ownOfReset_por feed cut
  simp only [State.ownOfReset, Prod.mk.injEq] at fields
  obtain ⟨rnd, boot, rst, -, cp, aon, flash, free, readback, pending⟩ := fields
  have on : (s.por feed cut).pwr.on = true := State.on_leaseAtPor _ _ _
  refine Runs.of_out (u := s.por feed cut) rfl ⟨(s.partsReset_por feed cut).intcLatch, ?_, ?_, ?_, ?_, State.cp_intcLatch_reset cp, ?flag,
    ?_, ?_, ?_, ?_, ?_, fun a ha => ?reg, fun a ha => ?mem⟩
  case flag => rw [State.flag_intcLatch _ _ (by decide)]; exact s.vaultUp_por feed cut
  case reg => rw [State.reg_intcLatch _ _ (by omega), s.reg_por feed cut ha]
  case mem => rw [State.intcLatch_rd8, s.rd8_por feed cut ha]
  all_goals simp only [State.intcLatch_rnd, State.intcLatch_boot, State.intcLatch_rst, State.intcLatch_pwr, State.intcLatch_aon,
    State.intcLatch_flash, State.intcLatch_free, State.intcLatch_readback, State.intcLatch_pending, rnd, boot, rst, aon, flash,
    free, readback, pending, on]

/-- What a SYSRST leaves, with the requests forwarded. -/
theorem Runs.sysrst (s : State) (cut : CutPoint) (asked : s.rst.sys = true)
    (ready : (s.resetSaving = false ∧ s.answering = false) ∨ s.rst.now = true) : Runs (.sysrst cut) s fun t =>
    PartsReset t ∧ t.rnd = { published := s.rnd.published } ∧ t.boot = { step := 1 } ∧ t.rst = { vaultUp := s.rst.vaultUp }
    ∧ t.pwr = s.pwr ∧ t.cp = {} ∧ t.aon = s.aon ∧ t.flash = s.flash ∧ t.free = s.free ∧ t.readback = s.readback
    ∧ t.pending = s.pending ∧ t.reg SYS_RST_CAUSE = s.reg SYS_RST_CAUSE
    ∧ (∀ a, 0x40010000 ≤ a ∧ a < 0x40030000 → t.reg a = s.reg a)
    ∧ ∀ a, a < 0x38000000 ∨ 0x38080000 ≤ a → t.rd8 a = memDefault a := by
  have acts : (s.rst.sys && (s.rst.now || !(s.resetSaving || s.answering))) = true := by
    rcases ready with ⟨saved, answered⟩ | now
    · simp [asked, saved, answered]
    · simp [asked, now]
  have effect : exec (.sysrst cut) s = (s.sysrst cut).out := congrArg State.out (if_pos acts)
  have fields := s.ownOfReset_sysrst cut
  simp only [State.ownOfReset, Prod.mk.injEq] at fields
  obtain ⟨rnd, boot, rst, pwr, cp, aon, flash, free, readback, pending⟩ := fields
  refine Runs.of_out effect ⟨(s.partsReset_sysrst cut).intcLatch, ?_, ?_, ?_, ?_, State.cp_intcLatch_reset cp, ?_, ?_, ?_, ?_, ?_, ?cause,
    fun a ha => ?reg, fun a ha => ?mem⟩
  case cause => rw [State.reg_intcLatch _ _ (by decide), s.reg_sysrst cut (by decide) (by decide) (by decide) (by decide)]
  case reg =>
    have keep : keptBySysrst a = true := by simp [keptBySysrst, ha]
    have clk : a ≠ SYS_CLK_STAT := by simp only [SYS_CLK_STAT]; omega
    have core : a ≠ SYS_CP_STAT := by simp only [SYS_CP_STAT]; omega
    have block : blocks [0x4005, 0x4008, 0x400E, 0x400F, 0x4010] a = false := by
      simp [blocks]
      omega
    rw [State.reg_intcLatch _ _ (by omega), s.reg_sysrst cut keep clk core block]
  case mem => rw [State.intcLatch_rd8, s.rd8_sysrst cut ha]
  all_goals simp only [State.intcLatch_rnd, State.intcLatch_boot, State.intcLatch_rst, State.intcLatch_pwr, State.intcLatch_aon,
    State.intcLatch_flash, State.intcLatch_free, State.intcLatch_readback, State.intcLatch_pending, rnd, boot, rst, pwr, aon, flash,
    free, readback, pending]

end Sys2Proof.Machine
end

section
/-! SUPPORT. A CPRST, stage by stage: what a live-change hold, a session and a PM buffer lose (R372, R446, R451, R513). -/

namespace Sys2Proof.Machine

theorem nth_eq_getElem {α : Type} {l : List α} {i : Nat} (d : α) (h : i < l.length) : nth l i d = l[i] := by
  simp [nth, List.getElem?_eq_getElem h]

/-- A place of a list that gets a value alike under `f` leaves the list as `f` sees it. -/
theorem map_set_of_eq {α β : Type} (f : α → β) {l : List α} {i : Nat} {x : α} (h : ∀ hi : i < l.length, f x = f l[i]) :
    (l.set i x).map f = l.map f := by
  rcases Nat.lt_or_ge i l.length with hi | hi
  · have place : l.map f = (l.map f).set i (f l[i]) := by
      rw [← List.getElem_map f (h := by simpa using hi), List.set_getElem_self]
    rw [List.map_set, h hi, ← place]
  · rw [List.set_eq_of_length_le hi]

/-- A field link whose held commit is dropped differs in nothing else. -/
theorem WflLink.noHeld_putAt (l : WflLink) (m : Nat) :
    WflLink.noHeld { l with mods := putAt l.mods m { nth l.mods m {} with held := none } } = l.noHeld := by
  refine congrArg (fun x => { l with mods := x }) (map_set_of_eq _ fun hi => ?_)
  rw [nth_eq_getElem _ hi]

/-- From `s` to `t` requests that a hold keeps are dropped, and nothing else changes (R513). -/
structure Drops (s t : State) : Prop where
  rest : t = { s with pt := t.pt, se := t.se, wfl := t.wfl }
  pt : t.pt = { s.pt with staged := t.pt.staged }
  fewer : ∀ g ∈ t.pt.staged, g ∈ s.pt.staged
  armed : ∀ g ∈ s.pt.staged, g.armed = true → g ∈ t.pt.staged
  se : t.se = { s.se with held := t.se.held }
  wfl : t.wfl.map WflLink.noHeld = s.wfl.map WflLink.noHeld

theorem Drops.refl (s : State) : Drops s s := ⟨rfl, rfl, fun _ h => h, fun _ h _ => h, rfl, rfl⟩

theorem Drops.trans {s t u : State} (h : Drops s t) (h' : Drops t u) : Drops s u where
  rest := by rw [h'.rest, h.rest]
  pt := by rw [h'.pt, h.pt]
  fewer g hg := h.fewer g (h'.fewer g hg)
  armed g hg ha := h'.armed g (h.armed g hg ha) ha
  se := by rw [h'.se, h.se]
  wfl := h'.wfl.trans h.wfl

theorem Drops.ptDrop (s : State) (key : Nat) : Drops s (s.ptDrop key) where
  rest := rfl
  pt := rfl
  fewer _ hg := List.mem_of_mem_filter hg
  armed _ hg ha := List.mem_filter.2 ⟨hg, by simp [ha]⟩
  se := rfl
  wfl := rfl

theorem Drops.wflDrop (s : State) (v : Word) : Drops s (s.wflDrop v) where
  rest := rfl
  pt := rfl
  fewer _ hg := hg
  armed _ hg _ := hg
  se := rfl
  wfl := by
    refine map_set_of_eq _ fun hi => ?_
    have link : s.link (WFL_COMMIT.LINK.of v) = s.wfl[WFL_COMMIT.LINK.of v] := nth_eq_getElem _ hi
    rw [← link]
    exact WflLink.noHeld_putAt _ _

theorem Drops.seDrop (s : State) : Drops s s.seDrop := ⟨rfl, rfl, fun _ h => h, fun _ h _ => h, rfl, rfl⟩

theorem Drops.discard (s : State) (q : HeldReq) : Drops s (q.discard s) := by
  cases q with
  | pt v => exact .ptDrop s _
  | wfl v => exact .wflDrop s v
  | se v => exact .seDrop s
  | swap n => exact .refl s
  | sa v => exact .refl s

theorem Drops.foldl_discard (l : List HeldReq) (s : State) : Drops s (l.foldl HeldReq.discard s) := by
  induction l generalizing s with
  | nil => exact .refl s
  | cons q l ih => exact (Drops.discard s q).trans (ih _)

/-- A hold that ends with DROP: its requests are discarded, its list is empty and HOLD is 0 (R513). -/
theorem State.holdDrop_updates (s : State) : ∃ u r, Drops s u ∧ (s.holding = false → u = s)
    ∧ s.holdDrop = { u with regs := r, live := { u.live with held := if s.holding then [] else s.live.held } } := by
  unfold State.holdDrop
  split
  · exact ⟨_, _, Drops.foldl_discard s.live.held s, by simp_all, rfl⟩
  · exact ⟨s, s.regs, Drops.refl s, fun _ => rfl, rfl⟩

/-- The state without its registers: what an operation that only writes registers keeps. -/
def State.noRegs (s : State) : State := { s with regs := [] }

theorem State.eq_of_noRegs {s t : State} (h : t.noRegs = s.noRegs) : t = { s with regs := t.regs } :=
  congrArg (fun x : State => { x with regs := t.regs }) h

theorem State.updates_of_noRegs {s t : State} (h : t.noRegs = s.noRegs) : ∃ r, t = { s with regs := r } :=
  ⟨_, State.eq_of_noRegs h⟩

theorem State.noRegs_setAuth (s : State) (b : Bool) : (s.setAuth b).noRegs = s.noRegs := by
  unfold State.setAuth
  extract_lets lost shown
  split <;> rfl

theorem State.noRegs_setMauth (s : State) (b : Bool) : (s.setMauth b).noRegs = s.noRegs := by
  unfold State.setMauth
  extract_lets lost shown
  split <;> rfl

theorem State.noRegs_showRights (s : State) : s.showRights.noRegs = s.noRegs := by
  unfold State.showRights
  extract_lets shown
  have rights : shown.noRegs = s.noRegs := (State.noRegs_setMauth _ _).trans (s.noRegs_setAuth _)
  exact rights

theorem State.injAbort_updates (s : State) (c : Nat) : ∃ r w, s.injAbort c = { s with regs := r, tune := { s.tune with w := w } } := by
  unfold State.injAbort
  extract_lets run captured ended
  have capture : captured = { s with regs := captured.regs } := by
    unfold captured
    split <;> rfl
  split
  · exact ⟨_, {}, congrArg (fun x : State =>
      { x with regs := (ended.setFlag TUNE_EVT.INJ_END true).regs, tune := { x.tune with w := {} } }) capture⟩
  · exact ⟨_, s.tune.w, capture⟩

/-- A session that closes takes its change set and an injection that it authorised with it (R372). -/
theorem State.sessionClose_updates (s : State) : ∃ r w, (s.flag TUNE_STAT.AUTH = false → w = s.tune.w) ∧ s.sessionClose =
    { s with regs := r, tune := { s.tune with w := w }, way := { s.way with sess := none, hand := none },
             live := { s.live with setNo := 0, set := [] } } := by
  unfold State.sessionClose
  extract_lets auth _ shown aborted _
  have rights : shown = { s with regs := shown.regs, way := { s.way with sess := none, hand := none } } :=
    State.eq_of_noRegs (State.noRegs_showRights _)
  have abort : ∃ r w, (s.flag TUNE_STAT.AUTH = false → w = s.tune.w) ∧
      aborted = { s with regs := r, tune := { s.tune with w := w }, way := { s.way with sess := none, hand := none } } := by
    unfold aborted
    split
    case isTrue granted =>
      obtain ⟨r, w, h⟩ := shown.injAbort_updates 2
      rw [rights] at h
      exact ⟨r, w, fun none => absurd (granted.symm.trans none) (by decide), (congrArg (State.injAbort · 2) rights).trans h⟩
    case isFalse => exact ⟨_, s.tune.w, fun _ => rfl, rights⟩
  obtain ⟨r, w, kept, h⟩ := abort
  exact ⟨r, w, kept, congrArg (fun x : State => { x with live := { x.live with setNo := 0, set := [] } }) h⟩

/-- A CPRST drops a PM buffer with no commit in progress and locks every partition (R446, R451). -/
theorem State.pmCprst_updates (s : State) : ∃ r, s.pmCprst =
    { s with regs := r, pm := { s.pm with loaded := if s.flag PM_STAT.BUSY then s.pm.loaded else none } } := by
  unfold State.pmCprst
  extract_lets dropped
  have drop : dropped =
      { s with regs := dropped.regs, pm := { s.pm with loaded := if s.flag PM_STAT.BUSY then s.pm.loaded else none } } := by
    unfold dropped
    split <;> rfl
  obtain ⟨r, locks⟩ := State.updates_of_noRegs (forN_keeps State.noRegs
    (fun p x => (x.setFlag (PM_PART_STAT.RUNL p) false).setFlag (PM_PART_STAT.WUNL p) false) (fun _ _ => rfl) 16 dropped)
  exact ⟨r, locks.trans (congrArg (fun x : State => { x with regs := r }) drop)⟩

end Sys2Proof.Machine
end

section
/-! SUPPORT. What a CPRST leaves (R8, R20). -/

namespace Sys2Proof.Machine

/-- What a CPRST does to what the earlier stages of it leave: the hart starts afresh, with its slot read again (R8, R100, R115). -/
def State.restartCp (s : State) : State :=
  let s := { s with live := { s.live with commit := none } }
  let s := s.setFld SYS_WDT_STAT.REMAIN (max 1 (s.fld SYS_WDT_CFG.TIMEOUT))
  let s := ({ s with rst := { s.rst with cp := false }, cp := {} } : State).fwFirst
  let s := { s with vlt := { s.vlt with dropSram := s.vlt.cmd.isSome } }
  ({ s with cp := { s.cp with cprst := s.boot.fwSlot.isSome } } : State).timerLevel

/-- The registers and the memory that a CPRST clears (R20). -/
def State.clearCp (s : State) : State :=
  (s.resetRegs fun a => (decide (0x40130000 ≤ a) && decide (a < 0x40150000)) || a == SYS_LIVE_CTL).clearMem
    fun a => decide (0x20000000 ≤ a) && decide (a < 0x20300000)

theorem State.cprst_eq (s : State) : s.cprst = (s.clearCp.holdDrop.setReg SYS_LIVE_STAT 0).sessionClose.pmCprst.restartCp := rfl

theorem State.restartCp_updates (s : State) : ∃ r slot c m, s.restartCp =
    { s with regs := r, live := { s.live with commit := none }, rst := { s.rst with cp := false },
             boot := { s.boot with fwSlot := slot, fwSecond := false, fallback := false },
             vlt := { s.vlt with dropSram := s.vlt.cmd.isSome }, cp := { cprst := c, mtip := m } } := ⟨_, _, _, _, rfl⟩

/-- The registers outside those of `own`. -/
def State.regsBut (own : Nat → Bool) (s : State) : Unit × (Nat → Word) × (Nat → Byte) := s.outside (fun _ => ()) own fun _ => true

section regsBut
variable {own : Nat → Bool} (s : State)

theorem State.regsBut_setReg {a : Nat} (v : Word) (h : own a = true) : (s.setReg a v).regsBut own = s.regsBut own :=
  State.outside_setReg v h

theorem State.regsBut_setFld {f : Field} (v : Nat) (h : own f.addr = true) : (s.setFld f v).regsBut own = s.regsBut own :=
  s.regsBut_setReg _ h

theorem State.regsBut_setFlag {f : Field} (b : Bool) (h : own f.addr = true) : (s.setFlag f b).regsBut own = s.regsBut own :=
  s.regsBut_setReg _ h

/-- The registers in which a session and its rights show: those of TUNE, MH and LCS. -/
abbrev sessionRegs : Nat → Bool := blocks [0x4005, 0x4008, 0x4010]

theorem State.regsBut_injAbort (c : Nat) : (s.injAbort c).regsBut sessionRegs = s.regsBut sessionRegs := by
  unfold State.injAbort
  extract_lets run captured ended
  have capture : captured.regsBut sessionRegs = s.regsBut sessionRegs := by
    unfold captured
    split
    · exact s.regsBut_setFlag false rfl
    · rfl
  have ends : ended.regsBut sessionRegs = s.regsBut sessionRegs := (State.regsBut_setFld _ _ rfl).trans
    ((State.regsBut_setFld _ _ rfl).trans ((captured.regsBut_setFlag false rfl).trans capture))
  split
  · exact (ended.regsBut_setFlag true rfl).trans ends
  · exact capture

theorem State.regsBut_setAuth (b : Bool) : (s.setAuth b).regsBut sessionRegs = s.regsBut sessionRegs := by
  unfold State.setAuth
  extract_lets lost shown
  split
  · exact (shown.regsBut_setFlag true rfl).trans (s.regsBut_setFlag b rfl)
  · exact s.regsBut_setFlag b rfl

theorem State.regsBut_setMauth (b : Bool) : (s.setMauth b).regsBut sessionRegs = s.regsBut sessionRegs := by
  unfold State.setMauth
  extract_lets lost shown
  split
  · exact (shown.regsBut_setFlag true rfl).trans (s.regsBut_setFlag b rfl)
  · exact s.regsBut_setFlag b rfl

theorem State.regsBut_showRights : s.showRights.regsBut sessionRegs = s.regsBut sessionRegs := by
  unfold State.showRights
  extract_lets rights
  have shown : rights.regsBut sessionRegs = s.regsBut sessionRegs := (State.regsBut_setMauth _ _).trans (s.regsBut_setAuth _)
  exact (State.regsBut_setFlag _ _ rfl).trans ((rights.regsBut_setFlag _ rfl).trans shown)

theorem State.regsBut_sessionClose : s.sessionClose.regsBut sessionRegs = s.regsBut sessionRegs := by
  unfold State.sessionClose
  extract_lets auth _ shown aborted _
  have rights : shown.regsBut sessionRegs = s.regsBut sessionRegs := State.regsBut_showRights _
  have abort : aborted.regsBut sessionRegs = s.regsBut sessionRegs := by
    unfold aborted
    split
    · exact (shown.regsBut_injAbort 2).trans rights
    · exact rights
  exact abort

theorem State.regsBut_pmCprst : s.pmCprst.regsBut (blocks [0x400E]) = s.regsBut (blocks [0x400E]) := by
  have lock : ∀ p < 16, blocks [0x400E] (PM_PART_STAT p) = true := by decide
  unfold State.pmCprst
  extract_lets dropped
  have drop : dropped.regsBut (blocks [0x400E]) = s.regsBut (blocks [0x400E]) := by
    unfold dropped
    split
    · rfl
    · exact s.regsBut_setFlag false rfl
  exact (forN_keeps_lt (State.regsBut (blocks [0x400E])) _ (fun p hp x =>
    (State.regsBut_setFlag _ false (lock p hp)).trans (x.regsBut_setFlag false (lock p hp))) dropped).trans drop

end regsBut

section cprst
variable (s : State)

theorem State.reg_clearCp (a : Nat) : s.clearCp.reg a =
    if (decide (0x40130000 ≤ a) && decide (a < 0x40150000)) || a == SYS_LIVE_CTL then regReset a else s.reg a :=
  s.reg_resetRegs (fun a => (decide (0x40130000 ≤ a) && decide (a < 0x40150000)) || a == SYS_LIVE_CTL) a

theorem State.reg_holdEnd {a : Nat} (h : a ≠ SYS_LIVE_STAT) : s.holdEnd.reg a = s.reg a :=
  (State.reg_setFlag_ne _ SYS_LIVE_STAT.HOLD false a h).trans (State.reg_setFld_ne _ SYS_LIVE_STAT.HELD _ a h)

theorem State.reg_holdDrop {a : Nat} (h : a ≠ SYS_LIVE_STAT) : s.holdDrop.reg a = s.reg a := by
  have discarded : (s.live.held.foldl HeldReq.discard s).regs = s.regs := by rw [(Drops.foldl_discard s.live.held s).rest]
  unfold State.holdDrop
  split
  · exact (State.reg_holdEnd _ h).trans (congrArg (sparseGet regReset · a) discarded)
  · rfl

/-- The state that the session's end finds in a CPRST. -/
def State.holdCleared (s : State) : State := s.clearCp.holdDrop.setReg SYS_LIVE_STAT 0

theorem State.reg_holdCleared {a : Nat} (cp : a < 0x40130000 ∨ 0x40150000 ≤ a) (ctl : a ≠ SYS_LIVE_CTL) (stat : a ≠ SYS_LIVE_STAT) :
    s.holdCleared.reg a = s.reg a := by
  rw [State.holdCleared, State.reg_setReg_ne _ _ _ _ stat, State.reg_holdDrop _ stat, State.reg_clearCp, if_neg]
  simp only [Bool.or_eq_true, Bool.and_eq_true, decide_eq_true_eq, beq_iff_eq]
  omega

theorem State.reg_restartCp {a : Nat} (h : a ≠ SYS_WDT_STAT) : s.restartCp.reg a = s.reg a :=
  State.reg_setFld_ne { s with live := { s.live with commit := none } } SYS_WDT_STAT.REMAIN _ a h

/-- After the hold's end a CPRST writes registers of TUNE, PM, MH and LCS, and the watchdog's count (R115, R372, R446). -/
theorem State.reg_cprst_holdCleared {a : Nat} (h : blocks [0x4005, 0x4008, 0x400E, 0x4010] a = false) (wdt : a ≠ SYS_WDT_STAT) :
    s.cprst.reg a = s.holdCleared.reg a := by
  have session : sessionRegs a = false := Bool.eq_false_iff.2 fun ha => absurd (blocks_mono (by simp) a ha) (Bool.eq_false_iff.1 h)
  have pm : blocks [0x400E] a = false := Bool.eq_false_iff.2 fun ha => absurd (blocks_mono (by simp) a ha) (Bool.eq_false_iff.1 h)
  calc s.cprst.reg a = s.holdCleared.sessionClose.pmCprst.reg a := by rw [s.cprst_eq]; exact State.reg_restartCp _ wdt
    _ = s.holdCleared.sessionClose.reg a := State.reg_of_outside (State.regsBut_pmCprst _) pm
    _ = s.holdCleared.reg a := State.reg_of_outside (State.regsBut_sessionClose _) session

/-- A CPRST writes the registers of the blocks that it resets or ends work in (R20). -/
theorem State.reg_cprst {a : Nat} (h : blocks [0x4005, 0x4008, 0x400E, 0x4010, 0x4013, 0x4014] a = false) (ctl : a ≠ SYS_LIVE_CTL)
    (stat : a ≠ SYS_LIVE_STAT) (wdt : a ≠ SYS_WDT_STAT) : s.cprst.reg a = s.reg a := by
  have ends : blocks [0x4005, 0x4008, 0x400E, 0x4010] a = false :=
    Bool.eq_false_iff.2 fun ha => absurd (blocks_mono (by simp) a ha) (Bool.eq_false_iff.1 h)
  have cp : a < 0x40130000 ∨ 0x40150000 ≤ a := by
    simp [blocks] at h
    omega
  rw [s.reg_cprst_holdCleared ends wdt, s.reg_holdCleared cp ctl stat]

/-- No hold outlasts a CPRST (R513). -/
theorem State.holding_cprst : s.cprst.holding = false := by
  have zero : s.cprst.reg SYS_LIVE_STAT = 0 := (s.reg_cprst_holdCleared rfl (by decide)).trans (State.reg_setReg_self _ _ _)
  rw [State.holding, State.flag, State.fld, zero]
  rfl

theorem State.rd8_clearCp (a : Nat) : s.clearCp.rd8 a = if 0x20000000 ≤ a ∧ a < 0x20300000 then 0 else s.rd8 a := by
  have cleared : s.clearCp.rd8 a = if decide (0x20000000 ≤ a) && decide (a < 0x20300000) then memDefault a else s.rd8 a :=
    State.rd8_clearMem _ _ a
  rw [cleared]
  by_cases h : 0x20000000 ≤ a ∧ a < 0x20300000
  · have array : ¬ 0x38001000 ≤ a := by omega
    simp [h, memDefault, array]
  · rw [if_neg h, if_neg (by simpa using h)]

/-- A CPRST, but for registers and memory: a hold's requests are dropped, and what else it takes away is named (R8, R20). -/
theorem State.cprst_updates (s : State) : ∃ u r w slot c m, Drops s.clearCp u ∧ (s.holding = false → u = s.clearCp)
    ∧ (s.flag TUNE_STAT.AUTH = false → w = s.tune.w) ∧ s.cprst =
    { u with regs := r, live := { since := s.live.since, held := if s.holding then [] else s.live.held },
             rst := { s.rst with cp := false }, boot := { s.boot with fwSlot := slot, fwSecond := false, fallback := false },
             vlt := { s.vlt with dropSram := s.vlt.cmd.isSome }, cp := { cprst := c, mtip := m },
             way := { s.way with sess := none, hand := none }, tune := { s.tune with w := w },
             pm := { s.pm with loaded := if s.flag PM_STAT.BUSY then s.pm.loaded else none } } := by
  obtain ⟨u, r, drops, same, hold⟩ := s.clearCp.holdDrop_updates
  obtain ⟨r₂, w, auth, session⟩ := s.holdCleared.sessionClose_updates
  obtain ⟨r₃, pm⟩ := s.holdCleared.sessionClose.pmCprst_updates
  obtain ⟨r₄, slot, c, m, cp⟩ := s.holdCleared.sessionClose.pmCprst.restartCp_updates
  have holding : s.clearCp.holding = s.holding := by
    simp only [State.holding, State.flag, State.fld, s.reg_clearCp SYS_LIVE_STAT]
    rfl
  have authorised : s.holdCleared.flag TUNE_STAT.AUTH = s.flag TUNE_STAT.AUTH := by
    simp only [State.flag, State.fld, s.reg_holdCleared (a := TUNE_STAT) (by decide) (by decide) (by decide)]
  have busy : s.holdCleared.sessionClose.flag PM_STAT.BUSY = s.flag PM_STAT.BUSY := by
    have pmStat : s.holdCleared.sessionClose.reg PM_STAT = s.reg PM_STAT :=
      (State.reg_of_outside (State.regsBut_sessionClose _) rfl).trans (s.reg_holdCleared (by decide) (by decide) (by decide))
    simp only [State.flag, State.fld, pmStat]
  have cleared : s.holdCleared =
      { u with regs := s.holdCleared.regs, live := { u.live with held := if s.holding then [] else s.live.held } } := by
    rw [holding] at hold
    exact congrArg (fun x : State => { x with regs := s.holdCleared.regs }) hold
  rw [authorised] at auth
  rw [busy] at pm
  rw [holding] at same
  refine ⟨u, r₄, w, slot, c, m, drops, same, fun a => ?_, ?_⟩
  · rw [auth a, cleared, drops.rest]
    rfl
  · have start : s.cprst = s.holdCleared.sessionClose.pmCprst.restartCp := s.cprst_eq
    rw [start, cp, pm, session, cleared, drops.rest]
    rfl

end cprst

end Sys2Proof.Machine
end

section
/-! SUPPORT. The next states of the resets (R19 to R23). -/

namespace Sys2Proof.Machine

/-- What the clause of O6 for a CPRST says of the state after it. -/
theorem Runs.cprst (s : State) (asked : s.rst.cp = true) (noSys : s.rst.sys = false) : Runs .cprst s fun t =>
    t.rst = { s.rst with cp := false } ∧ t.cp.fw = false ∧ t.cp.claimed = [] ∧ t.cp.mismatch = false ∧ t.cp.trap = none
    ∧ t.boot = { s.boot with fwSlot := t.boot.fwSlot, fwSecond := false, fallback := false }
    ∧ t.way = { s.way with sess := none, hand := none } ∧ t.vlt = { s.vlt with dropSram := s.vlt.cmd.isSome }
    ∧ t.live = { since := s.live.since, held := if s.holding then [] else s.live.held } ∧ t.holding = false
    ∧ t.pt = { s.pt with staged := t.pt.staged } ∧ (∀ g ∈ t.pt.staged, g ∈ s.pt.staged)
    ∧ (∀ g ∈ s.pt.staged, g.armed = true → g ∈ t.pt.staged)
    ∧ t.se = { s.se with held := t.se.held } ∧ t.wfl.map WflLink.noHeld = s.wfl.map WflLink.noHeld
    ∧ (s.holding = false → t.pt = s.pt ∧ t.se = s.se ∧ t.wfl = s.wfl)
    ∧ t.tune = { s.tune with w := t.tune.w } ∧ (s.flag TUNE_STAT.AUTH = false → t.tune = s.tune)
    ∧ t.pm = { s.pm with loaded := if s.flag PM_STAT.BUSY then s.pm.loaded else none }
    ∧ KeepsBlocks s t [0x4000, 0x4005, 0x4008, 0x400E, 0x4010, 0x4013, 0x4014] ∧ t.reg SYS_RST_CAUSE = s.reg SYS_RST_CAUSE
    ∧ KeepsRest s { t with rst := s.rst, boot := s.boot, cp := s.cp, way := s.way, vlt := s.vlt, live := s.live, pm := s.pm,
                           tune := s.tune, pt := s.pt, se := s.se, wfl := s.wfl }
    ∧ ∀ a, t.rd8 a = if 0x20000000 ≤ a ∧ a < 0x20300000 then 0 else s.rd8 a := by
  have acts : (s.rst.cp && !s.rst.sys) = true := by simp [asked, noSys]
  have effect : exec .cprst s = s.cprst.out := congrArg State.out (if_pos acts)
  obtain ⟨u, r, w, slot, c, m, drops, same, auth, cprst⟩ := s.cprst_updates
  obtain ⟨r', d, latch⟩ := s.cprst.intcLatch_updates
  have regs : ∀ a, a ≠ SYS_LIVE_STAT → a ≠ SYS_LIVE_CTL → a ≠ SYS_WDT_STAT →
      blocks [0x4005, 0x4008, 0x400E, 0x4010, 0x4013, 0x4014] a = false → (∀ k < 3, a ≠ INTC_PEND k) →
      s.cprst.intcLatch.reg a = s.reg a := fun a stat ctl wdt ha hp => by
    rw [State.reg_intcLatch_ne _ _ hp, s.reg_cprst ha ctl stat wdt]
  have state : s.cprst.intcLatch =
      { u with regs := r', live := { since := s.live.since, held := if s.holding then [] else s.live.held },
               rst := { s.rst with cp := false }, boot := { s.boot with fwSlot := slot, fwSecond := false, fallback := false },
               vlt := { s.vlt with dropSram := s.vlt.cmd.isSome }, cp := { cprst := c, mtip := m, dioReq := d },
               way := { s.way with sess := none, hand := none }, tune := { s.tune with w := w },
               pm := { s.pm with loaded := if s.flag PM_STAT.BUSY then s.pm.loaded else none } } := by
    rw [latch, cprst]
  refine Runs.of_out effect ?_
  have shown : s.cprst.intcLatch.holding = false :=
    (State.flag_intcLatch _ _ (by decide)).trans s.holding_cprst
  generalize s.cprst.intcLatch = t at state regs shown ⊢
  subst state
  refine ⟨rfl, rfl, rfl, rfl, rfl, rfl, rfl, rfl, rfl, shown, drops.pt, drops.fewer, drops.armed, drops.se, drops.wfl,
    fun free => ?unheld, rfl, fun none => ?unauthorised, rfl, fun a ha hp => ?blocks,
    regs _ (by decide) (by decide) (by decide) rfl (by decide), ?rest, fun a => ?mem⟩
  case unheld =>
    rw [same free]
    exact ⟨rfl, rfl, rfl⟩
  case unauthorised => rw [auth none]
  case blocks =>
    simp only [List.mem_cons, List.not_mem_nil, or_false, not_or] at ha
    obtain ⟨sys, tune, mh, pm, lcs, hart, intc⟩ := ha
    refine regs a ?_ ?_ ?_ (by simp [blocks, tune, mh, pm, lcs, hart, intc]) hp <;> rintro rfl <;> exact sys rfl
  case rest =>
    rw [drops.rest]
    rfl
  case mem =>
    refine Eq.trans ?_ (s.rd8_clearCp a)
    rw [drops.rest]
    rfl

/-- The AON domain and the vault's SRAM afresh, before the vault is shown (R19). -/
def State.aonFresh (s : State) : State :=
  let s := s.resetRegs fun a => (decide (0x40020000 ≤ a) && decide (a < 0x40030000)) || a == VLT_TAMP || a == VLT_TAMP_TICK0
    || a == VLT_TAMP_TICK1
  let s := s.setAon { locked := s.aon.locked, onVbat := s.aon.onVbat }
  s.setVlt { s.vlt with sram := [], root := false }

theorem State.reg_aonFresh (s : State) (a : Nat) : s.aonFresh.reg a =
    if (decide (0x40020000 ≤ a) && decide (a < 0x40030000)) || a == VLT_TAMP || a == VLT_TAMP_TICK0 || a == VLT_TAMP_TICK1
      then regReset a else s.reg a :=
  s.reg_resetRegs _ a

theorem regReset_scratch : ∀ n < 4, regReset (AON_SCRATCH n) = 0 := by decide

/-- What the clause of O6 for a VAULT-UP says of the state after it. -/
theorem Runs.vaultUp (s : State) (lost : s.aon.lost = true) : Runs .vaultUp s fun t =>
    t.aon = { locked := s.aon.locked, onVbat := s.aon.onVbat } ∧ t.vlt.sram = [] ∧ t.vlt.root = false ∧ t.rst.vaultUp = true
    ∧ (∀ n < 4, t.reg (AON_SCRATCH n) = 0) ∧ KeepsBlocks s t [0x4002, 0x400F, 0x4010] ∧ KeepsMemOut s t 0x38002838 8
    ∧ KeepsRest s { t with aon := s.aon, vlt := s.vlt, rst := { t.rst with vaultUp := s.rst.vaultUp },
                           pm := { t.pm with later := s.pm.later } } := by
  have effect : exec .vaultUp s = State.out { s.aonFresh.vltShow with rst := { s.rst with vaultUp := true } } :=
    congrArg State.out (if_neg (by simp [lost]))
  refine Runs.of_out effect ?_
  have kept := s.aonFresh.butVaultShow_vltShow
  have ecc := s.aonFresh.eccBut_vltShow
  have fresh := s.reg_aonFresh
  generalize s.aonFresh.vltShow = v at kept ecc ⊢
  have hidden := State.hide_of_outside kept
  have reg : ∀ a, blocks [0x400F, 0x4010] a = false → v.reg a = s.aonFresh.reg a := fun a ha => State.reg_of_outside kept ha
  obtain ⟨r, d, latch⟩ := State.intcLatch_updates { v with rst := { s.rst with vaultUp := true } }
  refine ⟨?aon, ?sram, ?root, ?up, fun n hn => ?scratch, fun a ha hp => ?regs,
    KeepsMemOut.intcLatch ⟨fun a ha => ?mem, fun x hx => ?ecc⟩, ?rest⟩
  case aon => rw [State.intcLatch_aon]; exact (congrArg State.aon hidden :)
  case sram => rw [State.intcLatch_vlt]; exact (congrArg (fun x : State => x.vlt.sram) hidden :)
  case root => rw [State.intcLatch_vlt]; exact (congrArg (fun x : State => x.vlt.root) hidden :)
  case up => rw [State.intcLatch_rst]
  case scratch =>
    have inAon : 0x40020000 ≤ AON_SCRATCH n ∧ AON_SCRATCH n < 0x40030000 := by simp only [AON_SCRATCH]; omega
    have block : AON_SCRATCH n / 0x10000 = 0x4002 := by omega
    rw [State.reg_intcLatch _ _ (by omega)]
    refine (reg _ (by simp [blocks, block])).trans ((fresh _).trans ?_)
    rw [if_pos (by simp [inAon]), regReset_scratch n hn]
  case regs =>
    simp only [List.mem_cons, List.not_mem_nil, or_false, not_or] at ha
    obtain ⟨aon, vault, lcs⟩ := ha
    rw [State.reg_intcLatch_ne _ _ hp]
    refine (reg a (by simp [blocks, vault, lcs])).trans ((fresh a).trans (if_neg ?_))
    simp only [Bool.or_eq_true, Bool.and_eq_true, decide_eq_true_eq, beq_iff_eq]
    rintro (((h | rfl) | rfl) | rfl)
    · omega
    all_goals exact vault rfl
  case mem =>
    have out : causeWordBytes 6 a = false := by
      simp only [causeWordBytes, Bool.and_eq_false_iff, decide_eq_false_iff_not]
      omega
    exact State.rd8_of_outside kept out
  case rest =>
    rw [latch]
    exact (congrArg (fun x : State =>
      { x with regs := s.regs, mem := s.mem, ecc := s.ecc, aon := s.aon, vlt := s.vlt, rst := s.rst,
               pm := { x.pm with later := s.pm.later }, cp := { x.cp with dioReq := s.cp.dioReq } }) hidden :)
  case ecc =>
    refine State.mem_ecc_of_eccBut (w := 0x2838) ecc x fun hw => ?_
    simp only [pmAddr, hw] at hx
    omega

/-- What the clause of O6 for the loss of the AON state says of the state after it. -/
theorem Runs.aonStateLost (s : State) (vbat : s.aon.onVbat = true) : Runs .aonStateLost s fun t =>
    t.aon.lost = true ∧ t.aon.count = 0 ∧ t.aon.high = 0 ∧ t.aon.load = none ∧ t.vlt.sram = [] ∧ t.vlt.root = false
    ∧ KeepsRegs s t [] ∧ KeepsMem s t ∧ KeepsRest s { t with aon := s.aon, vlt := s.vlt } := by
  have effect : exec .aonStateLost s = ((s.setAon { s.aon with
      lost := true, count := 0, high := 0, load := none, aged := false, shift := none, clrhi := false }).setVlt
        { s.vlt with sram := [], root := false }).out := congrArg State.out (if_neg (by simp [vbat]))
  refine Runs.of_out effect
    ⟨?_, ?_, ?_, ?_, ?_, ?_, KeepsRegs.intcLatch fun _ _ _ => rfl, KeepsMem.intcLatch ⟨rfl, fun _ => rfl⟩, ?rest⟩
  case rest =>
    obtain ⟨r, d, latch⟩ := State.intcLatch_updates ((s.setAon { s.aon with
      lost := true, count := 0, high := 0, load := none, aged := false, shift := none, clrhi := false }).setVlt
        { s.vlt with sram := [], root := false })
    rw [latch]
    rfl
  all_goals simp

/-- Settles O6: each reset's next state by the lemma that names it. -/
theorem resetsTakeEffect : Obligations.ResetsTakeEffect :=
  ⟨Runs.por, Runs.sysrst, Runs.cprst, Runs.vaultUp, Runs.aonStateLost, fun _ h => Runs.of_out rfl (State.askSysrst_post 2 h)⟩

end Sys2Proof.Machine
end

section
/-! SUPPORT. A window at which a waiting move takes effect (R129) changes other slots too: the move rebuilds the THRIFT timetable
(R128), and with it the THRIFT offset of every admitted slot. -/

namespace Sys2Proof.Machine

/-- Slot `n` admitted to cell 0 and enabled, with a period of 50 ticks and its window at offset `ofs`. -/
def State.withSlot (s : State) (n ofs : Nat) : State :=
  let s := (s.setFlag (LE_SLOT_CFG.ADM n) true).setFlag (LE_SLOT_CTL.EN n) true
  (s.setFld (LE_SLOT_TIME.PERIOD n) 50).setSlot n { s.slot n with ofs := ofs }

/-- A started node whose loop engine runs slots 0 and 1 one after the other in cell 0, with their THRIFT timetable built. -/
def twoSlots : State :=
  ((((({ boot := { step := 10 } } : State).setFlag LE_CTL.EN true).setFld LE_STAT.CELL_EN 3).withSlot 0 60).withSlot 1 142).thriftTable

/-- The same with a move of slot 0 to cell 1 that waits for its next sample instant. -/
def slotToMove : State := twoSlots.setSlot 0 { twoSlots.slot 0 with move := some (1, 60, 50, 0) }

/-- Behind slot 0 in cell 0, slot 1 has the THRIFT offset 97. -/
theorem slotToMove_thriftOfs : (slotToMove.slot 1).thriftOfs = some 97 := by decide +kernel

/-- Once slot 0 has moved to cell 1, slot 1 is alone in cell 0 and its THRIFT offset is 15. -/
theorem slotToMove_window_thriftOfs : ((slotToMove.loopWindow 0).slot 1).thriftOfs = some 15 := by decide +kernel

theorem exec_loopWindow (n : Fin 64) (s : State) : exec (.loopWindow n) s = (s.loopWindow n).out := rfl

theorem State.intcLatch_slot (s : State) (n : Nat) : s.intcLatch.slot n = s.slot n := by
  simp only [State.slot, State.intcLatch_le]

/-- Refutes O20: in its clause on a window that is due, no premise says that no move waits for the slot (R129). At the window of slot 0
of `slotToMove` the move takes effect, the THRIFT timetable is built anew, and the THRIFT offset of slot 1 goes from 97 to 15, where the
clause has the other slots stay as they are. -/
theorem not_loopWindows : ¬ Obligations.LoopWindows := by
  unfold Obligations.LoopWindows
  rintro ⟨-, -, -, -, windowHad, -⟩
  obtain ⟨t, run, -, -, -, others⟩ := windowHad slotToMove 0 (by decide +kernel) (by decide +kernel)
  rw [exec_loopWindow, State.out_next] at run
  have same : t.slot 1 = slotToMove.slot 1 := (others 1 (by decide) (by decide)).1
  have moved : (t.slot 1).thriftOfs = some 15 := by
    rw [run, State.intcLatch_slot]
    exact slotToMove_window_thriftOfs
  rw [same, slotToMove_thriftOfs] at moved
  exact absurd moved (by decide)

end Sys2Proof.Machine
end

section
/-! SUPPORT. The profile generators' registers, channels and planner's queue (R160 to R166). -/

namespace Sys2Proof.Machine

/-- What lies outside the registers `l`, the channels of the profile generators and the planner's queue. -/
def State.butPg (l : List Nat) (s : State) : State × (Nat → Word) × (Nat → Byte) :=
  s.outside (fun s => { s with le := { s.le with pg := [], queue := [] } }) l.contains noByte

section butPg
variable {l : List Nat} {s t : State}

theorem State.butPg_setReg {a : Nat} (v : Word) (h : a ∈ l) : (s.setReg a v).butPg l = s.butPg l :=
  State.outside_setReg v (List.contains_iff_mem.2 h)

theorem State.butPg_setFld {f : Field} (v : Nat) (h : f.addr ∈ l) : (s.setFld f v).butPg l = s.butPg l := State.butPg_setReg _ h

theorem State.butPg_setFlag {f : Field} (b : Bool) (h : f.addr ∈ l) : (s.setFlag f b).butPg l = s.butPg l := State.butPg_setReg _ h

theorem State.butPg_setBit {f : Field} (i : Nat) (b : Bool) (h : f.addr ∈ l) : (s.setBit f i b).butPg l = s.butPg l :=
  State.butPg_setReg _ h

theorem State.butPg_setPg (c : Nat) (x : PgCh) : (s.setPg c x).butPg l = s.butPg l := rfl

theorem State.butPg_withQueue (q : List (Nat × Nat × PgReq)) :
    ({ s with le := { s.le with queue := q } } : State).butPg l = s.butPg l := rfl

theorem KeepsRegs.of_butPg (h : t.butPg l = s.butPg l) : KeepsRegs s t l := fun a ha _ =>
  State.reg_of_outside h (by simpa using ha)

theorem KeepsMem.of_butPg (h : t.butPg l = s.butPg l) : KeepsMem s t :=
  ⟨(congrArg State.ecc (State.hide_of_outside h) :), fun _ => State.rd8_of_outside h rfl⟩

/-- Everything else but the channels and the queue is as it was, with the requests forwarded. -/
theorem KeepsRest.of_butPg (h : t.butPg l = s.butPg l) :
    KeepsRest s { t.intcLatch with le := { t.intcLatch.le with pg := s.le.pg, queue := s.le.queue } } := by
  obtain ⟨r, d, latch⟩ := t.intcLatch_updates
  rw [latch]
  exact (congrArg (fun x : State =>
    { x with regs := s.regs, mem := s.mem, ecc := s.ecc, le := { x.le with pg := s.le.pg, queue := s.le.queue },
             cp := { x.cp with dioReq := s.cp.dioReq } }) (State.hide_of_outside h) :)

/-- The loop engine left aside, everything else is as it was. -/
theorem KeepsRest.of_butPg_le (h : t.butPg l = s.butPg l) : KeepsRest s { t.intcLatch with le := s.le } := by
  obtain ⟨r, d, latch⟩ := t.intcLatch_updates
  rw [latch]
  exact (congrArg (fun x : State =>
    { x with regs := s.regs, mem := s.mem, ecc := s.ecc, le := s.le, cp := { x.cp with dioReq := s.cp.dioReq } })
    (State.hide_of_outside h) :)

theorem State.reg_of_butPg (h : t.butPg l = s.butPg l) {a : Nat} (ha : a ∉ l) : t.reg a = s.reg a :=
  State.reg_of_outside h (by simpa using ha)

theorem State.butPg_pgShow {c : Nat} (h : PG_STAT c ∈ l) : (s.pgShow c).butPg l = s.butPg l :=
  (State.butPg_setFlag _ h).trans (State.butPg_setFlag _ h)

theorem State.butPg_pgQueue {c : Nat} (r : PgReq) (h : PG_STAT c ∈ l) : (s.pgQueue c r).butPg l = s.butPg l :=
  (State.butPg_pgShow h).trans (State.butPg_withQueue _)

/-- A target for a channel that is at rest at it, or on its way to it, with no request waiting (R163). -/
def State.pgIdleAt (s : State) (c t : Nat) : Bool :=
  (s.pgCh c).ready.isNone && !(s.le.queue.any fun e => e.2.1 == c)
    && feq b64 t (if (s.pgCh c).segs.isEmpty then (s.pgCh c).x else (s.pgCh c).target)

/-- A target reaches the planner's queue of a running channel unless it is idle at it (R161, R163). -/
theorem State.pgRequest_eq (s : State) (c t : Nat) : s.pgRequest c t =
    if !(s.flag (PG_CTL.EN c)) || !(s.flag LE_CTL.EN) then s else if s.pgIdleAt c t then s else s.pgQueue c (.go t) := rfl

theorem State.butPg_pgRequest {c : Nat} (t : Nat) (h : PG_STAT c ∈ l) : (s.pgRequest c t).butPg l = s.butPg l := by
  rw [s.pgRequest_eq]
  split
  · rfl
  split
  · rfl
  · exact State.butPg_pgQueue _ h

/-- The registers that show channel `c` at an update (R166). -/
abbrev pgShown (c : Nat) : List Nat := [PG_POS c, PG_VEL c, PG_ACC c, PG_REMAIN c]

theorem State.butPg_pgPublish {c : Nat} (h : pgShown c ⊆ l) : (s.pgPublish c).butPg l = s.butPg l := by
  unfold State.pgPublish
  extract_lets x f left rem shown remain
  have state : shown.butPg l = s.butPg l := (State.butPg_setReg _ (h (by simp))).trans ((State.butPg_setReg _ (h (by simp))).trans
    (State.butPg_setReg _ (h (by simp))))
  exact (State.butPg_setPg _ _).trans ((State.butPg_setReg _ (h (by simp))).trans state)

theorem State.butPg_pgRest {c : Nat} (x : Nat) (h : pgShown c ⊆ l) (stat : PG_STAT c ∈ l) : (s.pgRest c x).butPg l = s.butPg l := by
  unfold State.pgRest
  extract_lets _ freed
  exact (State.butPg_pgShow stat).trans ((State.butPg_pgPublish h).trans ((State.butPg_setPg _ _).trans (State.butPg_withQueue _)))

theorem State.butPg_pgAdvance {c : Nat} (h : PG_EVT ∈ l) : (s.pgAdvance c).butPg l = s.butPg l := by
  unfold State.pgAdvance
  extract_lets x ticks t
  split
  · rfl
  split
  · exact (State.butPg_setBit _ _ h).trans (State.butPg_setPg _ _)
  · exact State.butPg_setPg _ _

/-- The target of a request that takes effect, and its profile from where the channel is (R162, R163). -/
def State.pgAim (s : State) (c : Nat) : PgReq → Nat
  | .go t => t
  | .stop => add64 (s.pgCh c).x (pgDist (s.pgCh c).v (s.pgCh c).a
      (pgTransition (s.pgLimits c).2.1 (s.pgLimits c).2.2 (s.pgCh c).v (s.pgCh c).a 0))

def State.pgSegs (s : State) (c : Nat) : PgReq → List (Nat × Nat)
  | .go t => pgPlan (s.pgLimits c).1 (s.pgLimits c).2.1 (s.pgLimits c).2.2 (s.pgCh c).x (s.pgCh c).v (s.pgCh c).a t
  | .stop => pgTransition (s.pgLimits c).2.1 (s.pgLimits c).2.2 (s.pgCh c).v (s.pgCh c).a 0

/-- PG_TARGET shows where a stop ends. -/
def State.pgAimed (s : State) (c : Nat) : PgReq → State
  | .go _ => s
  | .stop => s.setReg (PG_TARGET c) (BitVec.ofNat 32 (fconv b64 b32 (s.pgAim c .stop)))

/-- A channel at rest at a target, and one on its way to it (R163). -/
def PgCh.atRest (x : PgCh) (tgt : Nat) : PgCh :=
  { x with x := tgt, v := 0, a := 0, segs := [], ticks := 0, target := tgt, ready := none }

def PgCh.onWay (x : PgCh) (segs : List (Nat × Nat)) (tgt : Nat) : PgCh :=
  { x with x0 := x.x, v0 := x.v, a0 := x.a, segs := segs, ticks := 0, target := tgt, ready := none }

theorem State.pgEffect_eq (s : State) (c : Nat) (r : PgReq) : s.pgEffect c r =
    if (s.pgSegs c r).isEmpty then
      if feq b64 (s.pgAim c r) (s.pgCh c).x then (s.pgAimed c r).setPg c ((s.pgCh c).atRest (s.pgAim c r))
      else ((s.pgAimed c r).setPg c ((s.pgCh c).atRest (s.pgAim c r))).setBit PG_EVT.DONE c true
    else (s.pgAimed c r).setPg c ((s.pgCh c).onWay (s.pgSegs c r) (s.pgAim c r)) := by
  cases r <;> rfl

theorem State.butPg_pgEffect {c : Nat} (r : PgReq) (h : PG_EVT ∈ l) (tgt : PG_TARGET c ∈ l) :
    (s.pgEffect c r).butPg l = s.butPg l := by
  have aim : (s.pgAimed c r).butPg l = s.butPg l := by
    cases r with
    | go t => rfl
    | stop => exact State.butPg_setReg _ tgt
  rw [s.pgEffect_eq]
  split
  · split
    · exact (State.butPg_setPg _ _).trans aim
    · exact (State.butPg_setBit _ _ h).trans ((State.butPg_setPg _ _).trans aim)
  · exact (State.butPg_setPg _ _).trans aim

end butPg

/-- The other channels than `c`, and the planner's queue. -/
def State.besidePg (c : Nat) (s : State) : List (Nat × Nat × PgReq) × Nat × (Nat → PgCh) :=
  (s.le.queue, s.le.pg.length, fun d => if d = c then {} else s.pgCh d)

section besidePg
variable (s : State) (c : Nat)

theorem State.pgCh_setPg_ne {d : Nat} (x : PgCh) (h : d ≠ c) : (s.setPg c x).pgCh d = s.pgCh d := by
  simp [State.pgCh, State.setPg, nth, putAt, List.getElem?_set_ne (Ne.symm h)]

theorem State.pgCh_setPg_self (x : PgCh) (h : c < s.le.pg.length) : (s.setPg c x).pgCh c = x := by
  simp [State.pgCh, State.setPg, nth, putAt, h]

/-- Channels that are not there stay as they are. -/
theorem State.pgCh_setPg_absent (x : PgCh) (h : s.le.pg.length ≤ c) : (s.setPg c x).pgCh c = {} ∧ s.pgCh c = {} := by
  simp [State.pgCh, State.setPg, nth, putAt, h]

theorem State.besidePg_setPg (x : PgCh) : (s.setPg c x).besidePg c = s.besidePg c := by
  refine Prod.ext rfl (Prod.ext (List.length_set ..) (funext fun d => ?_))
  by_cases h : d = c
  · simp [State.besidePg, h]
  · simp [State.besidePg, h, s.pgCh_setPg_ne c x h]

theorem State.besidePg_pgAdvance : (s.pgAdvance c).besidePg c = s.besidePg c := by
  unfold State.pgAdvance
  extract_lets x ticks t
  split
  · rfl
  split
  · exact s.besidePg_setPg c _
  · exact s.besidePg_setPg c _

theorem State.besidePg_pgAimed (r : PgReq) : (s.pgAimed c r).besidePg c = s.besidePg c := by
  cases r <;> rfl

theorem State.besidePg_pgEffect (r : PgReq) : (s.pgEffect c r).besidePg c = s.besidePg c := by
  have aimed : ∀ x, ((s.pgAimed c r).setPg c x).besidePg c = s.besidePg c := fun x =>
    (State.besidePg_setPg _ c x).trans (s.besidePg_pgAimed c r)
  rw [s.pgEffect_eq]
  split
  · split
    · exact aimed _
    · exact aimed _
  · exact aimed _

theorem State.besidePg_pgPublish : (s.pgPublish c).besidePg c = s.besidePg c := State.besidePg_setPg _ c _

/-- An update leaves no planned request waiting (R163). -/
theorem State.ready_pgEffect (r : PgReq) (h : c < s.le.pg.length) : ((s.pgEffect c r).pgCh c).ready = none := by
  have there : c < (s.pgAimed c r).le.pg.length := by cases r <;> exact h
  have set : ∀ x, ((s.pgAimed c r).setPg c x).pgCh c = x := fun x => (s.pgAimed c r).pgCh_setPg_self c x there
  rw [s.pgEffect_eq]
  split
  · split
    · rw [set]; rfl
    · exact congrArg PgCh.ready (set _)
  · rw [set]; rfl

/-- What is published at an update is the channel's state there (R166). -/
theorem State.pgCh_pgPublish : ∃ p, (s.pgPublish c).pgCh c = { s.pgCh c with setp := p } := by
  unfold State.pgPublish
  extract_lets x f left rem shown remain
  rcases Nat.lt_or_ge c s.le.pg.length with h | h
  · exact ⟨_, remain.pgCh_setPg_self c _ h⟩
  · obtain ⟨absent, was⟩ := remain.pgCh_setPg_absent c { x with setp := fconv b64 b32 x.x } h
    exact ⟨0, absent.trans (congrArg (fun y : PgCh => { y with setp := 0 }) was.symm)⟩

theorem State.reg_pgPublish : (s.pgPublish c).reg (PG_POS c) = BitVec.ofNat 32 (fconv b64 b32 (s.pgCh c).x)
    ∧ (s.pgPublish c).reg (PG_VEL c) = BitVec.ofNat 32 (fconv b64 b32 (s.pgCh c).v)
    ∧ (s.pgPublish c).reg (PG_ACC c) = BitVec.ofNat 32 (fconv b64 b32 (s.pgCh c).a) := by
  unfold State.pgPublish
  extract_lets x f left rem shown remain
  have pos : PG_POS c ≠ PG_VEL c ∧ PG_POS c ≠ PG_ACC c ∧ PG_POS c ≠ PG_REMAIN c := by
    simp only [PG_POS, PG_VEL, PG_ACC, PG_REMAIN]
    omega
  have vel : PG_VEL c ≠ PG_ACC c ∧ PG_VEL c ≠ PG_REMAIN c := by simp only [PG_VEL, PG_ACC, PG_REMAIN]; omega
  have acc : PG_ACC c ≠ PG_REMAIN c := by simp only [PG_ACC, PG_REMAIN]; omega
  obtain ⟨posVel, posAcc, posRemain⟩ := pos
  obtain ⟨velAcc, velRemain⟩ := vel
  refine ⟨?_, ?_, ?_⟩
  · exact (State.reg_setReg_ne _ _ _ _ posRemain).trans ((State.reg_setReg_ne _ _ _ _ posAcc).trans
      ((State.reg_setReg_ne _ _ _ _ posVel).trans (State.reg_setReg_self _ _ _)))
  · exact (State.reg_setReg_ne _ _ _ _ velRemain).trans ((State.reg_setReg_ne _ _ _ _ velAcc).trans (State.reg_setReg_self _ _ _))
  · exact (State.reg_setReg_ne _ _ _ _ acc).trans (State.reg_setReg_self _ _ _)

end besidePg

section pgShow
variable (s : State) (c : Nat)

theorem State.flag_pgShow_moving : (s.pgShow c).flag (PG_STAT.MOVING c) = !(s.pgCh c).segs.isEmpty :=
  (State.flag_setFlag_disjoint _ (PG_STAT.PEND c) (PG_STAT.MOVING c) _ (by simp) (by simp)).trans
    (State.flag_setFlag_self _ (PG_STAT.MOVING c) _ rfl (by simp))

theorem State.flag_pgShow_pend :
    (s.pgShow c).flag (PG_STAT.PEND c) = ((s.pgCh c).ready.isSome || s.le.queue.any (fun q => q.2.1 == c)) :=
  State.flag_setFlag_self _ (PG_STAT.PEND c) _ rfl (by simp)

theorem State.fld_pgShow_code : (s.pgShow c).fld (PG_STAT.CODE c) = s.fld (PG_STAT.CODE c) :=
  (State.fld_setFlag_disjoint _ (PG_STAT.PEND c) (PG_STAT.CODE c) _ (by simp) (by simp)).trans
    (State.fld_setFlag_disjoint _ (PG_STAT.MOVING c) (PG_STAT.CODE c) _ (by simp) (by simp))

theorem State.reg_pgShow {a : Nat} (h : a ≠ PG_STAT c) : (s.pgShow c).reg a = s.reg a :=
  (State.reg_setFlag_ne _ (PG_STAT.PEND c) _ a h).trans (State.reg_setFlag_ne _ (PG_STAT.MOVING c) _ a h)

theorem mem_pgInsert (e f : Nat × Nat × PgReq) (q : List (Nat × Nat × PgReq)) : f ∈ pgInsert e q ↔ f = e ∨ f ∈ q := by
  induction q with
  | nil => simp [pgInsert]
  | cons g q ih =>
    unfold pgInsert
    split
    · simp
    · simp only [List.mem_cons, ih]
      tauto

/-- A request in the planner's queue replaces the channel's one before it (R163). -/
theorem State.mem_pgQueue (r : PgReq) (e : Nat × Nat × PgReq) :
    e ∈ (s.pgQueue c r).le.queue ↔ e = (s.le.tick, c, r) ∨ (e ∈ s.le.queue ∧ e.2.1 ≠ c) := by
  refine (mem_pgInsert _ e _).trans ?_
  simp

theorem State.flag_pgQueue_pend (r : PgReq) : (s.pgQueue c r).flag (PG_STAT.PEND c) = true := by
  refine (State.flag_pgShow_pend _ c).trans (Bool.or_eq_true_iff.2 (.inr (List.any_eq_true.2 ⟨(s.le.tick, c, r), ?_, by simp⟩)))
  exact (mem_pgInsert _ _ _).2 (.inl rfl)

end pgShow

end Sys2Proof.Machine
end

section
/-! SUPPORT. The commands of the profile generators (R160, R161, R163, R164). -/

namespace Sys2Proof.Machine

theorem State.pgCh_intcLatch (u : State) (c : Nat) : u.intcLatch.pgCh c = u.pgCh c := by
  simp only [State.pgCh, State.intcLatch_le]

/-- PG_EVT is the register of no channel. -/
theorem pg_lt_evt {c : Nat} (hc : c < 16) {a : Nat} (h : a < 0x4003C040 + 0x40 * c) : a ≠ PG_EVT := by
  simp only [PG_EVT]
  omega

section update
variable (s : State) (c : Nat)

/-- A planned request that waits for the channel takes effect (R163). -/
def State.pgTaken : State :=
  match (s.pgCh c).ready with
  | some r => s.pgEffect c r
  | none => s

theorem State.butPg_pgTaken {l : List Nat} (h : PG_EVT ∈ l) (tgt : PG_TARGET c ∈ l) : (s.pgTaken c).butPg l = s.butPg l := by
  unfold State.pgTaken
  split
  · exact State.butPg_pgEffect _ h tgt
  · rfl

theorem State.besidePg_pgTaken : (s.pgTaken c).besidePg c = s.besidePg c := by
  unfold State.pgTaken
  split
  · exact s.besidePg_pgEffect c _
  · rfl

theorem State.ready_pgTaken (h : c < s.le.pg.length) : ((s.pgTaken c).pgCh c).ready = none := by
  unfold State.pgTaken
  split
  · exact s.ready_pgEffect c _ h
  · assumption

/-- An update instant of a channel that runs (R160). -/
def State.pgUpdated : State := (((s.pgAdvance c).pgTaken c).pgPublish c).pgShow c

theorem exec_pgUpdate {s : State} {c : Fin 16} (le : s.flag LE_CTL.EN = true) (en : s.flag (PG_CTL.EN c) = true)
    (due : s.le.tick % s.pgPeriod c = 0) (free : s.pgFrozen = false) : exec (.pgUpdate c) s = (s.pgUpdated c).out := by
  have idle : ¬ (!(s.flag LE_CTL.EN) || !(s.flag (PG_CTL.EN c)) || s.le.tick % s.pgPeriod c != 0 || s.pgFrozen) = true := by
    simp [le, en, due, free]
  exact congrArg State.out (if_neg idle)

/-- The registers that an update of channel `c` writes. -/
abbrev pgUpdateRegs (c : Nat) : List Nat := [PG_POS c, PG_VEL c, PG_ACC c, PG_REMAIN c, PG_STAT c, PG_EVT, PG_TARGET c]

theorem State.butPg_pgUpdated : (s.pgUpdated c).butPg (pgUpdateRegs c) = s.butPg (pgUpdateRegs c) := by
  have shown : pgShown c ⊆ pgUpdateRegs c := fun a ha => List.mem_append_left [PG_STAT c, PG_EVT, PG_TARGET c] ha
  exact (State.butPg_pgShow (by simp)).trans ((State.butPg_pgPublish shown).trans
    ((State.butPg_pgTaken _ c (by simp) (by simp)).trans (State.butPg_pgAdvance (by simp))))

theorem State.besidePg_pgUpdated : (s.pgUpdated c).besidePg c = s.besidePg c :=
  ((State.besidePg_pgPublish _ c).trans ((State.besidePg_pgTaken _ c).trans (s.besidePg_pgAdvance c)) :)

theorem State.pgCh_pgUpdated : ∃ p, (s.pgUpdated c).pgCh c = { ((s.pgAdvance c).pgTaken c).pgCh c with setp := p } :=
  State.pgCh_pgPublish _ c

theorem State.ready_pgUpdated (h : c < s.le.pg.length) : ((s.pgUpdated c).pgCh c).ready = none := by
  have there : c < (s.pgAdvance c).le.pg.length := by
    have length : (s.pgAdvance c).le.pg.length = s.le.pg.length := (congrArg (fun x => x.2.1) (s.besidePg_pgAdvance c) :)
    rwa [length]
  obtain ⟨p, hp⟩ := s.pgCh_pgUpdated c
  rw [hp]
  exact State.ready_pgTaken _ c there

/-- The registers show the channel's state after the update (R166). -/
theorem State.reg_pgUpdated : (s.pgUpdated c).reg (PG_POS c) = BitVec.ofNat 32 (fconv b64 b32 ((s.pgUpdated c).pgCh c).x)
    ∧ (s.pgUpdated c).reg (PG_VEL c) = BitVec.ofNat 32 (fconv b64 b32 ((s.pgUpdated c).pgCh c).v)
    ∧ (s.pgUpdated c).reg (PG_ACC c) = BitVec.ofNat 32 (fconv b64 b32 ((s.pgUpdated c).pgCh c).a) := by
  obtain ⟨p, hp⟩ := s.pgCh_pgUpdated c
  obtain ⟨pos, vel, acc⟩ := ((s.pgAdvance c).pgTaken c).reg_pgPublish c
  rw [hp]
  refine ⟨(State.reg_pgShow _ c ?_).trans pos, (State.reg_pgShow _ c ?_).trans vel, (State.reg_pgShow _ c ?_).trans acc⟩ <;>
    simp only [PG_POS, PG_VEL, PG_ACC, PG_STAT] <;> omega

end update

/-- A target written is taken if the channel is not fed and the target is finite (R161). -/
def State.pgTargetCode (s : State) (c : Nat) (v : Word) : Nat :=
  if s.pgFed c then Code.refusedState else if !(fisFin b32 v.toNat) then Code.range else Code.ok

theorem State.pgTargetWrite_eq (s : State) (c : Nat) (v : Word) : s.pgTargetWrite c v =
    if s.pgTargetCode c v ≠ 0 then (s.setFld (PG_STAT.CODE c) (s.pgTargetCode c v)).setBit PG_EVT.REFUSED c true
    else ((s.setFld (PG_STAT.CODE c) (s.pgTargetCode c v)).setReg (PG_TARGET c) v).pgRequest c (fconv b32 b64 v.toNat) := rfl

theorem State.reg_pgQueue (s : State) (c : Nat) (r : PgReq) {a : Nat} (h : a ≠ PG_STAT c) : (s.pgQueue c r).reg a = s.reg a :=
  State.reg_pgShow _ c h

/-- A request changes what PG_STAT shows of it alone. -/
theorem State.reg_pgRequest (s : State) (c t : Nat) {a : Nat} (h : a ≠ PG_STAT c) : (s.pgRequest c t).reg a = s.reg a :=
  State.reg_of_butPg (l := [PG_STAT c]) (State.butPg_pgRequest t (by simp)) (by simpa using h)

theorem State.fld_pgRequest_code (s : State) (c t : Nat) : (s.pgRequest c t).fld (PG_STAT.CODE c) = s.fld (PG_STAT.CODE c) := by
  rw [s.pgRequest_eq]
  split
  · rfl
  split
  · rfl
  · exact State.fld_pgShow_code _ c

/-- One bit of a field that is set reads as 1. -/
theorem bit_putBit_self (x i : Nat) : bit (putBit x i true) i = true := by
  unfold putBit
  split
  · assumption
  · have clear : x.testBit i = false := by simp_all [bit_eq_testBit]
    rw [if_pos rfl, bit_eq_testBit, Nat.add_comm, Nat.testBit_two_pow_add_eq, clear]
    rfl

/-- A refused target sets the channel's bit of REFUSED (R161). -/
theorem State.bit_setBit_refused (s : State) {c : Nat} (hc : c < 16) :
    bit ((s.setBit PG_EVT.REFUSED c true).reg PG_EVT).toNat (16 + c) = true := by
  have field : bit ((s.setBit PG_EVT.REFUSED c true).fld PG_EVT.REFUSED) c = true := by
    rw [State.setBit, State.fld_setFld_self _ _ _ (by decide) (by decide), bit_eq_testBit, Nat.testBit_mod_two_pow, ← bit_eq_testBit,
      bit_putBit_self]
    simp [hc]
  rw [State.fld, bit_eq_testBit, testBit_bits] at field
  rw [bit_eq_testBit, Nat.add_comm]
  exact (Bool.and_eq_true_iff.1 field).2

section rest
variable (s : State) (c : Nat) (x : Nat)

/-- The channel at rest, before its registers show it. -/
def State.pgHalted : State :=
  let u : State := { s with le := { s.le with queue := s.le.queue.filter fun e => e.2.1 != c } }
  u.setPg c ((u.pgCh c).atRest x)

theorem State.pgRest_eq : s.pgRest c x = ((s.pgHalted c x).pgPublish c).pgShow c := rfl

/-- A channel that comes to rest has no profile and no request (R164). -/
theorem State.pgCh_pgHalted : ((s.pgHalted c x).pgCh c).segs = [] ∧ ((s.pgHalted c x).pgCh c).ready = none := by
  rcases Nat.lt_or_ge c s.le.pg.length with h | h
  · have halted : (s.pgHalted c x).pgCh c = (s.pgCh c).atRest x := State.pgCh_setPg_self _ _ _ h
    rw [halted]
    exact ⟨rfl, rfl⟩
  · have absent : (s.pgHalted c x).pgCh c = {} := (State.pgCh_setPg_absent _ _ _ h).1
    rw [absent]
    exact ⟨rfl, rfl⟩

theorem State.flag_pgRest_moving : (s.pgRest c x).flag (PG_STAT.MOVING c) = false := by
  obtain ⟨p, hp⟩ := (s.pgHalted c x).pgCh_pgPublish c
  rw [s.pgRest_eq, State.flag_pgShow_moving, hp, (s.pgCh_pgHalted c x).1]
  rfl

theorem State.flag_pgRest_pend : (s.pgRest c x).flag (PG_STAT.PEND c) = false := by
  obtain ⟨p, hp⟩ := (s.pgHalted c x).pgCh_pgPublish c
  have queue : ((s.pgHalted c x).pgPublish c).le.queue.any (fun q => q.2.1 == c) = false := by
    change (s.le.queue.filter fun e => e.2.1 != c).any (fun q => q.2.1 == c) = false
    simp
  rw [s.pgRest_eq, State.flag_pgShow_pend, hp, (s.pgCh_pgHalted c x).2, queue]
  rfl

/-- A channel of the generators comes to rest at the place it is given (R164). -/
theorem State.pgCh_pgRest (h : c < s.le.pg.length) : ∃ p, (s.pgRest c x).pgCh c = { (s.pgCh c).atRest x with setp := p } := by
  obtain ⟨p, hp⟩ := (s.pgHalted c x).pgCh_pgPublish c
  have halted : (s.pgHalted c x).pgCh c = (s.pgCh c).atRest x := State.pgCh_setPg_self _ _ _ h
  exact ⟨p, hp.trans (congrArg (fun y : PgCh => { y with setp := p }) halted)⟩

/-- EN of a channel set or cleared: enabling plans to the last target, disabling holds the set-point (R164). -/
def State.pgSetEn (s : State) (c : Nat) (en : Bool) : State :=
  let u := s.setFlag (PG_CTL.EN c) en
  if en && !s.flag (PG_CTL.EN c) then u.pgRequest c (fconv b32 b64 (u.reg (PG_TARGET c)).toNat)
  else if !en && s.flag (PG_CTL.EN c) then u.pgRest c (u.pgCh c).x
  else u

/-- STOP plans a stop of a channel that is enabled (R164). -/
def State.pgSetStop (s : State) (c : Nat) (en : Bool) (v : Word) : State :=
  if (PG_CTL.STOP c).of v = 1 && en && s.flag LE_CTL.EN then (s.setFlag (PG_CTL.STOP c) true).pgQueue c .stop
  else if !en then s.setFlag (PG_CTL.STOP c) false
  else s

theorem State.pgCtlWrite_eq (v : Word) :
    s.pgCtlWrite c v = (s.pgSetEn c ((PG_CTL.EN c).of v == 1)).pgSetStop c ((PG_CTL.EN c).of v == 1) v := rfl

/-- The registers that a write of PG_CTL can change. -/
abbrev pgCtlRegs (c : Nat) : List Nat := [PG_CTL c, PG_POS c, PG_VEL c, PG_ACC c, PG_REMAIN c, PG_STAT c]

theorem pgShown_subset_ctl : pgShown c ⊆ pgCtlRegs c := fun _ ha => List.mem_cons_of_mem _ (List.mem_append_left [PG_STAT c] ha)

theorem State.butPg_pgSetEn (en : Bool) : (s.pgSetEn c en).butPg (pgCtlRegs c) = s.butPg (pgCtlRegs c) := by
  have enabled : (s.setFlag (PG_CTL.EN c) en).butPg (pgCtlRegs c) = s.butPg (pgCtlRegs c) := State.butPg_setFlag en (by simp)
  unfold State.pgSetEn
  extract_lets u
  split
  · exact (State.butPg_pgRequest _ (by simp)).trans enabled
  split
  · exact (State.butPg_pgRest _ (pgShown_subset_ctl c) (by simp)).trans enabled
  · exact enabled

theorem State.butPg_pgSetStop (en : Bool) (v : Word) : (s.pgSetStop c en v).butPg (pgCtlRegs c) = s.butPg (pgCtlRegs c) := by
  unfold State.pgSetStop
  split
  · exact (State.butPg_pgQueue _ (by simp)).trans (State.butPg_setFlag true (by simp))
  split
  · exact State.butPg_setFlag false (by simp)
  · rfl

theorem State.flag_pgSetEn_en (en : Bool) : (s.pgSetEn c en).flag (PG_CTL.EN c) = en := by
  have set : (s.setFlag (PG_CTL.EN c) en).flag (PG_CTL.EN c) = en := State.flag_setFlag_self _ _ _ rfl (by simp)
  have ctl : PG_CTL c ∉ pgShown c ++ [PG_STAT c] := by
    simp only [pgShown, List.cons_append, List.nil_append, List.mem_cons, List.not_mem_nil, or_false, PG_CTL, PG_POS, PG_VEL, PG_ACC,
      PG_REMAIN, PG_STAT]
    omega
  have apart : PG_CTL c ≠ PG_STAT c := fun h => ctl (List.mem_append_right _ (by simp [h]))
  unfold State.pgSetEn
  extract_lets u
  split
  · rw [State.flag, State.fld, State.reg_pgRequest _ _ _ apart]
    exact set
  split
  · rw [State.flag, State.fld,
      State.reg_of_butPg (State.butPg_pgRest (l := pgShown c ++ [PG_STAT c]) _ (List.subset_append_left _ _) (by simp)) ctl]
    exact set
  · exact set

theorem State.flag_pgSetStop_en (en : Bool) (v : Word) : (s.pgSetStop c en v).flag (PG_CTL.EN c) = s.flag (PG_CTL.EN c) := by
  have stop : ∀ b, (s.setFlag (PG_CTL.STOP c) b).flag (PG_CTL.EN c) = s.flag (PG_CTL.EN c) := fun b =>
    State.flag_setFlag_disjoint _ (PG_CTL.STOP c) (PG_CTL.EN c) b (by simp) (by simp)
  have apart : PG_CTL c ≠ PG_STAT c := by simp only [PG_CTL, PG_STAT]; omega
  unfold State.pgSetStop
  split
  · rw [State.flag, State.fld, State.reg_pgQueue _ _ _ apart]
    exact stop true
  split
  · exact stop false
  · rfl

/-- Disabling a channel that ran leaves it at rest (R164). -/
theorem State.pgSetStop_disabled (was : s.flag (PG_CTL.EN c) = true) (v : Word) : (s.pgSetEn c false).pgSetStop c false v
    = ((s.setFlag (PG_CTL.EN c) false).pgRest c ((s.setFlag (PG_CTL.EN c) false).pgCh c).x).setFlag (PG_CTL.STOP c) false := by
  simp [State.pgSetEn, State.pgSetStop, was]

end rest

section clauses
variable (s : State) (c : Fin 16) (v : Word)

/-- The registers of a channel are not those of the interrupt controller. -/
theorem pgReg_latch {a : Nat} (h : a < 0x4003C040 + 0x40 * c.val) : a < 0x40131000 ∨ 0x4013100C ≤ a := by
  have := c.isLt
  omega

theorem Runs.pgUpdate (le : s.flag LE_CTL.EN = true) (en : s.flag (PG_CTL.EN c) = true) (due : s.le.tick % s.pgPeriod c = 0)
    (free : s.pgFrozen = false) : Runs (.pgUpdate c) s fun t =>
      t.reg (PG_POS c) = BitVec.ofNat 32 (fconv b64 b32 (t.pgCh c).x)
        ∧ t.reg (PG_VEL c) = BitVec.ofNat 32 (fconv b64 b32 (t.pgCh c).v)
      ∧ t.reg (PG_ACC c) = BitVec.ofNat 32 (fconv b64 b32 (t.pgCh c).a)
      ∧ t.flag (PG_STAT.MOVING c) = !(t.pgCh c).segs.isEmpty ∧ (c < s.le.pg.length → (t.pgCh c).ready = none)
      ∧ KeepsRegs s t [PG_POS c, PG_VEL c, PG_ACC c, PG_REMAIN c, PG_STAT c, PG_EVT, PG_TARGET c] ∧ KeepsMem s t
      ∧ KeepsRest s { t with le := { t.le with pg := s.le.pg } } ∧ ∀ d : Fin 16, d ≠ c → t.pgCh d = s.pgCh d := by
  have kept := s.butPg_pgUpdated c
  have beside := s.besidePg_pgUpdated c
  have queue : (s.pgUpdated c).intcLatch.le.queue = s.le.queue := by
    rw [State.intcLatch_le]
    exact congrArg Prod.fst beside
  obtain ⟨pos, vel, acc⟩ := s.reg_pgUpdated c
  have moving : (s.pgUpdated c).flag (PG_STAT.MOVING c) = !((s.pgUpdated c).pgCh c).segs.isEmpty := State.flag_pgShow_moving _ _
  have latch : ∀ a, a < 0x4003C040 + 0x40 * c.val → (s.pgUpdated c).intcLatch.reg a = (s.pgUpdated c).reg a := fun a h =>
    State.reg_intcLatch _ _ (pgReg_latch c h)
  refine Runs.of_out (exec_pgUpdate le en due free) ⟨?pos, ?vel, ?acc, ?moving, fun there => ?ready, (KeepsRegs.of_butPg kept).intcLatch,
    (KeepsMem.of_butPg kept).intcLatch, ?rest, fun d hd => ?other⟩
  case pos => rw [latch _ (by simp only [PG_POS]; omega), State.pgCh_intcLatch, pos]
  case vel => rw [latch _ (by simp only [PG_VEL]; omega), State.pgCh_intcLatch, vel]
  case acc => rw [latch _ (by simp only [PG_ACC]; omega), State.pgCh_intcLatch, acc]
  case moving => rw [State.flag_intcLatch _ _ (pgReg_latch c (by simp only [PG_STAT]; omega)), State.pgCh_intcLatch, moving]
  case ready => rw [State.pgCh_intcLatch, s.ready_pgUpdated c there]
  case rest =>
    have rest := KeepsRest.of_butPg kept
    rwa [← queue] at rest
  case other =>
    have apart : d.val ≠ c.val := fun h => hd (Fin.ext h)
    have ch := congrFun (congrArg (fun x => x.2.2) beside) d.val
    rw [State.pgCh_intcLatch]
    simpa [State.besidePg, apart] using ch

theorem Runs.pgTarget_taken (own : s.pgFed c = false) (fin : fisFin b32 v.toNat = true)
    (run : s.cpStopped = false) : Runs (.pgTarget c v) s fun t =>
      t.reg (PG_TARGET c) = v ∧ t.fld (PG_STAT.CODE c) = Code.ok ∧ KeepsRegs s t [PG_TARGET c, PG_STAT c] ∧ KeepsMem s t
      ∧ KeepsRest s { t with le := s.le } := by
  have code : s.pgTargetCode c v = Code.ok := by simp [State.pgTargetCode, own, fin]
  have write : exec (.pgTarget c v) s
      = (((s.setFld (PG_STAT.CODE c) Code.ok).setReg (PG_TARGET c) v).pgRequest c (fconv b32 b64 v.toNat)).out := by
    refine (State.cpDoes_running (fun s => s.pgTargetWrite c v) run).trans (congrArg State.out ?_)
    rw [s.pgTargetWrite_eq, code, if_neg (by decide)]
  have kept : (((s.setFld (PG_STAT.CODE c) Code.ok).setReg (PG_TARGET c) v).pgRequest c (fconv b32 b64 v.toNat)).butPg
      [PG_TARGET c, PG_STAT c] = s.butPg [PG_TARGET c, PG_STAT c] :=
    (State.butPg_pgRequest _ (by simp)).trans ((State.butPg_setReg v (by simp)).trans (State.butPg_setFld _ (by simp)))
  have apart : PG_TARGET c ≠ PG_STAT c := by simp only [PG_TARGET, PG_STAT]; omega
  refine Runs.of_out write ⟨?target, ?code, (KeepsRegs.of_butPg kept).intcLatch, (KeepsMem.of_butPg kept).intcLatch,
    KeepsRest.of_butPg_le kept⟩
  case target =>
    rw [State.reg_intcLatch _ _ (pgReg_latch c (by simp only [PG_TARGET]; omega)), State.reg_pgRequest _ _ _ apart, State.reg_setReg_self]
  case code =>
    rw [State.fld_intcLatch _ _ (pgReg_latch c (by simp only [PG_STAT]; omega)), State.fld_pgRequest_code,
      State.fld_setReg_ne _ _ _ _ (Ne.symm apart), State.fld_setFld_self _ _ _ (by simp) (by simp)]
    rfl

theorem Runs.pgTarget_refused (refuse : s.pgFed c = true ∨ fisFin b32 v.toNat = false) (run : s.cpStopped = false) :
    Runs (.pgTarget c v) s fun t =>
      t.fld (PG_STAT.CODE c) = (if s.pgFed c then Code.refusedState else Code.range) ∧ bit (t.reg PG_EVT).toNat (16 + c) = true
      ∧ OnlyRegs s t [PG_STAT c, PG_EVT] := by
  have code : s.pgTargetCode c v = if s.pgFed c then Code.refusedState else Code.range := by
    rcases refuse with fed | infinite
    · simp [State.pgTargetCode, fed]
    · simp [State.pgTargetCode, infinite]
  have small : 0 < s.pgTargetCode c v ∧ s.pgTargetCode c v < 2 ^ 8 := by
    rw [code]
    split <;> decide
  have write : exec (.pgTarget c v) s = ((s.setFld (PG_STAT.CODE c) (s.pgTargetCode c v)).setBit PG_EVT.REFUSED c true).out := by
    refine (State.cpDoes_running (fun s => s.pgTargetWrite c v) run).trans (congrArg State.out ?_)
    rw [s.pgTargetWrite_eq, if_pos small.1.ne']
  have apart : PG_STAT c ≠ PG_EVT := pg_lt_evt c.isLt (by simp only [PG_STAT]; omega)
  refine Runs.of_out write ⟨?code, ?bit, OnlyRegs.intcLatch ⟨fun a ha _ => ?reg, ⟨rfl, fun _ => rfl⟩, rfl⟩⟩
  case code =>
    rw [State.fld_intcLatch _ _ (pgReg_latch c (by simp only [PG_STAT]; omega)), State.fld_setBit_ne _ _ _ _ _ apart,
      State.fld_setFld_self _ _ _ (by simp) (by simp), ← code]
    exact Nat.mod_eq_of_lt small.2
  case bit =>
    rw [State.reg_intcLatch _ _ (by decide)]
    exact State.bit_setBit_refused _ c.isLt
  case reg =>
    simp only [List.mem_cons, List.not_mem_nil, or_false, not_or] at ha
    obtain ⟨stat, evt⟩ := ha
    rw [State.reg_setBit_ne _ _ _ _ _ evt, State.reg_setFld_ne _ _ _ _ stat]

/-- The planner has ended the first request of its queue (R163). -/
def State.pgPlanned (s : State) (c : Nat) (r : PgReq) (rest : List (Nat × Nat × PgReq)) : State :=
  let u := State.setFlag { s with le := { s.le with queue := rest } } (PG_CTL.STOP c) false
  (u.setPg c { u.pgCh c with ready := some r }).pgShow c

theorem Runs.pgPlanComplete (r : PgReq) (rest : List (Nat × Nat × PgReq)) (tick : Nat)
    (first : s.le.queue = (tick, c.val, r) :: rest) (there : c < s.le.pg.length) : Runs (.pgPlanComplete c) s fun t =>
      t.le.queue = rest ∧ (t.pgCh c).ready = some r ∧ t.flag (PG_STAT.PEND c) = true
      ∧ KeepsRegs s t [PG_CTL c, PG_STAT c] ∧ KeepsMem s t ∧ KeepsRest s { t with le := s.le } := by
  have ends : exec (.pgPlanComplete c) s = (s.pgPlanned c r rest).out := by
    refine congrArg State.out ?_
    rw [first]
    exact if_neg fun h => h rfl
  have kept : (s.pgPlanned c r rest).butPg [PG_CTL c, PG_STAT c] = s.butPg [PG_CTL c, PG_STAT c] :=
    (State.butPg_pgShow (by simp)).trans ((State.butPg_setPg _ _).trans ((State.butPg_setFlag false (by simp)).trans
      (State.butPg_withQueue rest)))
  have ready : ((s.pgPlanned c r rest).pgCh c).ready = some r := congrArg PgCh.ready (State.pgCh_setPg_self _ _ _ there)
  have pend : (s.pgPlanned c r rest).flag (PG_STAT.PEND c) = true :=
    (State.flag_pgShow_pend _ _).trans (Bool.or_eq_true_iff.2 (.inl (congrArg Option.isSome ready)))
  refine Runs.of_out ends ⟨?_, ?_, ?_, (KeepsRegs.of_butPg kept).intcLatch, (KeepsMem.of_butPg kept).intcLatch,
    KeepsRest.of_butPg_le kept⟩
  · rw [State.intcLatch_le]
    rfl
  · rw [State.pgCh_intcLatch, ready]
  · rw [State.flag_intcLatch _ _ (pgReg_latch c (by simp only [PG_STAT]; omega)), pend]

theorem Runs.pgStop (stop : (PG_CTL.STOP c).of v = 1) (en : (PG_CTL.EN c).of v = 1) (was : s.flag (PG_CTL.EN c) = true)
    (le : s.flag LE_CTL.EN = true) (run : s.cpStopped = false) : Runs (.pgStop c v) s fun t =>
      t.flag (PG_CTL.STOP c) = true ∧ (s.le.tick, c.val, PgReq.stop) ∈ t.le.queue ∧ t.flag (PG_STAT.PEND c) = true
      ∧ KeepsRegs s t [PG_CTL c, PG_STAT c] ∧ KeepsMem s t ∧ KeepsRest s { t with le := s.le } := by
  have running : (s.setFlag (PG_CTL.EN c) true).flag LE_CTL.EN = true :=
    (State.flag_setFlag_ne _ (PG_CTL.EN c) LE_CTL.EN _ (by simp only [LE_CTL, PG_CTL]; omega)).trans le
  have write : exec (.pgStop c v) s = (((s.setFlag (PG_CTL.EN c) true).setFlag (PG_CTL.STOP c) true).pgQueue c .stop).out := by
    refine (State.cpDoes_running (fun s => if (PG_CTL.STOP c).of v = 1 then s.pgCtlWrite c v else s) run).trans (congrArg State.out ?_)
    have plans : s.pgSetEn c true = s.setFlag (PG_CTL.EN c) true := by simp [State.pgSetEn, was]
    rw [if_pos stop, s.pgCtlWrite_eq, en, show ((1 : Nat) == 1) = true from rfl, plans, State.pgSetStop, stop, running]
    rfl
  have kept : (((s.setFlag (PG_CTL.EN c) true).setFlag (PG_CTL.STOP c) true).pgQueue c .stop).butPg [PG_CTL c, PG_STAT c]
      = s.butPg [PG_CTL c, PG_STAT c] :=
    (State.butPg_pgQueue _ (by simp)).trans ((State.butPg_setFlag true (by simp)).trans (State.butPg_setFlag true (by simp)))
  have apart : PG_CTL c ≠ PG_STAT c := by simp only [PG_CTL, PG_STAT]; omega
  refine Runs.of_out write ⟨?_, ?_, ?_, (KeepsRegs.of_butPg kept).intcLatch, (KeepsMem.of_butPg kept).intcLatch,
    KeepsRest.of_butPg_le kept⟩
  · rw [State.flag_intcLatch _ _ (pgReg_latch c (by simp only [PG_CTL]; omega)), State.flag, State.fld, State.reg_pgQueue _ _ _ apart]
    exact State.flag_setFlag_self _ (PG_CTL.STOP c) true rfl (by simp)
  · rw [State.intcLatch_le]
    exact (State.mem_pgQueue _ _ _ _).2 (.inl rfl)
  · rw [State.flag_intcLatch _ _ (pgReg_latch c (by simp only [PG_STAT]; omega)), State.flag_pgQueue_pend]

theorem Runs.pgPreset (off : s.flag (PG_CTL.EN c) = false) (there : c < s.le.pg.length) (run : s.cpStopped = false) :
    Runs (.pgPreset c v) s fun t =>
      (t.pgCh c).x = fconv b32 b64 v.toNat ∧ (t.pgCh c).v = 0 ∧ (t.pgCh c).a = 0 ∧ (t.pgCh c).segs = []
      ∧ t.flag (PG_STAT.MOVING c) = false
      ∧ KeepsRegs s t [PG_POS c, PG_VEL c, PG_ACC c, PG_REMAIN c, PG_STAT c] ∧ KeepsMem s t
      ∧ KeepsRest s { t with le := { t.le with pg := s.le.pg, queue := s.le.queue } } := by
  have write : exec (.pgPreset c v) s = (s.pgRest c (fconv b32 b64 v.toNat)).out := by
    refine (State.cpDoes_running (fun s => s.pgPresetWrite c v) run).trans (congrArg State.out ?_)
    rw [State.pgPresetWrite, off, if_neg (by decide)]
  have kept : (s.pgRest c (fconv b32 b64 v.toNat)).butPg (pgShown c ++ [PG_STAT c]) = s.butPg (pgShown c ++ [PG_STAT c]) :=
    State.butPg_pgRest _ (List.subset_append_left _ _) (by simp)
  obtain ⟨p, ch⟩ := s.pgCh_pgRest c (fconv b32 b64 v.toNat) there
  refine Runs.of_out write ⟨?_, ?_, ?_, ?_, ?moving, (KeepsRegs.of_butPg kept).intcLatch, (KeepsMem.of_butPg kept).intcLatch,
    KeepsRest.of_butPg kept⟩
  case moving => rw [State.flag_intcLatch _ _ (pgReg_latch c (by simp only [PG_STAT]; omega)), State.flag_pgRest_moving]
  all_goals rw [State.pgCh_intcLatch, ch, PgCh.atRest]

theorem Runs.pgEnable (run : s.cpStopped = false) : Runs (.pgEnable c v) s fun t =>
      t.flag (PG_CTL.EN c) = decide ((PG_CTL.EN c).of v = 1)
      ∧ KeepsRegs s t [PG_CTL c, PG_POS c, PG_VEL c, PG_ACC c, PG_REMAIN c, PG_STAT c] ∧ KeepsMem s t
      ∧ KeepsRest s { t with le := { t.le with pg := s.le.pg, queue := s.le.queue } }
      ∧ (s.flag (PG_CTL.EN c) = true → (PG_CTL.EN c).of v = 0 → t.flag (PG_STAT.MOVING c) = false
      ∧ t.flag (PG_STAT.PEND c) = false) := by
  have kept := (State.butPg_pgSetStop _ c ((PG_CTL.EN c).of v == 1) v).trans (s.butPg_pgSetEn c ((PG_CTL.EN c).of v == 1))
  refine Runs.of_out (State.cpDoes_running (fun s => s.pgCtlWrite c v) run) ⟨?en, (KeepsRegs.of_butPg kept).intcLatch,
    (KeepsMem.of_butPg kept).intcLatch, KeepsRest.of_butPg kept, fun was off => ?off⟩
  case en =>
    rw [State.flag_intcLatch _ _ (pgReg_latch c (by simp only [PG_CTL]; omega)), s.pgCtlWrite_eq, State.flag_pgSetStop_en,
      State.flag_pgSetEn_en]
    rfl
  case off =>
    have apart : PG_STAT c ≠ PG_CTL c := by simp only [PG_CTL, PG_STAT]; omega
    have stat : PG_STAT c < 0x4003C040 + 0x40 * c.val := by simp only [PG_STAT]; omega
    rw [State.flag_intcLatch _ _ (pgReg_latch c stat), State.flag_intcLatch _ _ (pgReg_latch c stat), s.pgCtlWrite_eq, off,
      show ((0 : Nat) == 1) = false from rfl, s.pgSetStop_disabled c was]
    exact ⟨(State.flag_setFlag_ne _ (PG_CTL.STOP c) _ _ apart).trans (State.flag_pgRest_moving _ _ _),
      (State.flag_setFlag_ne _ (PG_CTL.STOP c) _ _ apart).trans (State.flag_pgRest_pend _ _ _)⟩

end clauses

end Sys2Proof.Machine
end

section
/-! SUPPORT. A compare point of a drive's carrier (R167 to R169). -/

namespace Sys2Proof.Machine

/-- What lies outside the registers `l` and the loop engine's own state. -/
def State.butLe (l : List Nat) (s : State) : State × (Nat → Word) × (Nat → Byte) :=
  s.outside (fun s => { s with le := {} }) l.contains noByte

section butLe
variable {l : List Nat} {s t : State}

theorem State.butLe_setFld {f : Field} (v : Nat) (h : f.addr ∈ l) : (s.setFld f v).butLe l = s.butLe l :=
  State.outside_setFld v (List.contains_iff_mem.2 h)

theorem State.butLe_setFlag {f : Field} (b : Bool) (h : f.addr ∈ l) : (s.setFlag f b).butLe l = s.butLe l := State.butLe_setFld _ h

theorem KeepsRegs.of_butLe (h : t.butLe l = s.butLe l) : KeepsRegs s t l := fun a ha _ =>
  State.reg_of_outside h (by simpa using ha)

theorem KeepsMem.of_butLe (h : t.butLe l = s.butLe l) : KeepsMem s t :=
  ⟨(congrArg State.ecc (State.hide_of_outside h) :), fun _ => State.rd8_of_outside h rfl⟩

theorem KeepsRest.of_butLe (h : t.butLe l = s.butLe l) : KeepsRest s { t.intcLatch with le := s.le } := by
  obtain ⟨r, d, latch⟩ := t.intcLatch_updates
  rw [latch]
  exact (congrArg (fun x : State =>
    { x with regs := s.regs, mem := s.mem, ecc := s.ecc, le := s.le, cp := { x.cp with dioReq := s.cp.dioReq } })
    (State.hide_of_outside h) :)

end butLe

theorem clampInt_le {h : Nat} (x : Int) : (clampInt 0 h x).toNat ≤ h := by
  unfold clampInt
  split
  · exact Nat.zero_le h
  split <;> omega

/-- The minimum pulse rule gives no value beyond the half-period (R168). -/
theorem minPulse_le {h c : Nat} (dt minp : Nat) (hc : c ≤ h) : (minPulse h dt minp c).1 ≤ h := by
  unfold minPulse
  split
  · exact Nat.zero_le h
  split
  · exact Nat.le_refl h
  · exact hc

section load
variable (d n h dt minp : Nat)

/-- The compare value of phase `q` of a drive that slot `n` commands, and whether the minimum pulse rule gave it (R168). -/
def State.phaseDuty (s : State) (q : Nat) : Nat × Bool :=
  minPulse h dt minp (clampInt 0 h (rneShift ((nth (s.slot n).duty q {}).m * h) ((nth (s.slot n).duty q {}).e - 23))).toNat

def State.loadPhase (q : Nat) (s : State) : State :=
  if (s.phaseDuty n h dt minp q).2 then
    (s.setFld (PD_DUTY.CMP d q) (s.phaseDuty n h dt minp q).1).setFlag (PD_EVT.MINP d) true
  else s.setFld (PD_DUTY.CMP d q) (s.phaseDuty n h dt minp q).1

theorem State.phaseDuty_le (s : State) (q : Nat) : (s.phaseDuty n h dt minp q).1 ≤ h := minPulse_le dt minp (clampInt_le _)

theorem State.le_loadPhase (q : Nat) (s : State) : (s.loadPhase d n h dt minp q).le = s.le := by
  unfold State.loadPhase
  split <;> rfl

theorem State.reg_loadPhase (q : Nat) (s : State) {a : Nat} (duty : a ≠ PD_DUTY d q) (evt : a ≠ PD_EVT d) :
    (s.loadPhase d n h dt minp q).reg a = s.reg a := by
  have set : (s.setFld (PD_DUTY.CMP d q) (s.phaseDuty n h dt minp q).1).reg a = s.reg a := State.reg_setFld_ne _ (PD_DUTY.CMP d q) _ a duty
  unfold State.loadPhase
  split
  · exact (State.reg_setFlag_ne _ (PD_EVT.MINP d) _ a evt).trans set
  · exact set

/-- A phase is loaded with a value of at most the half-period (R168). -/
theorem State.fld_loadPhase (q : Nat) (hq : q < 3) (s : State) : (s.loadPhase d n h dt minp q).fld (PD_DUTY.CMP d q) ≤ h := by
  have set : (s.setFld (PD_DUTY.CMP d q) (s.phaseDuty n h dt minp q).1).fld (PD_DUTY.CMP d q) ≤ h := by
    rw [State.fld_setFld_self _ _ _ (by simp) (by simp)]
    exact (Nat.mod_le _ _).trans (s.phaseDuty_le n h dt minp q)
  have apart : PD_DUTY d q ≠ PD_EVT d := by simp only [PD_DUTY, PD_EVT]; omega
  unfold State.loadPhase
  split
  · rw [State.fld_setFlag_ne _ (PD_EVT.MINP d) (PD_DUTY.CMP d q) _ apart]
    exact set
  · exact set

theorem State.fld_forN_loadPhase (s : State) (m : Nat) (hm : m ≤ 3) :
    ∀ q < m, (forN (State.loadPhase d n h dt minp) m s).fld (PD_DUTY.CMP d q) ≤ h := by
  induction m with
  | zero => exact fun q hq => absurd hq (Nat.not_lt_zero q)
  | succ m ih =>
    intro q hq
    rcases Nat.lt_or_eq_of_le (Nat.le_of_lt_succ hq) with less | rfl
    · have apart : PD_DUTY d q ≠ PD_DUTY d m := by simp only [PD_DUTY]; omega
      have evt : PD_DUTY d q ≠ PD_EVT d := by simp only [PD_DUTY, PD_EVT]; omega
      rw [forN, State.fld, State.reg_loadPhase _ _ _ _ _ _ _ apart evt]
      exact ih (by omega) q less
    · exact State.fld_loadPhase d n h dt minp q (by omega) _

end load

/-- The registers that a compare point of drive `d` writes. -/
abbrev pdCompareRegs (d : Nat) : List Nat := [PD_STAT d, PD_EVT d, PD_DUTY d 0, PD_DUTY d 1, PD_DUTY d 2]

section compare
variable (s : State) (d n : Nat)

/-- A drive before a compare point keeps the values in force (R168). -/
def State.pdHeld : State := s.setDrive d { s.drive d with before := s.duties d }

/-- A drive that is commanded leaves its off state and loads its compare values (R169). -/
def State.pdLoaded : State :=
  forN (State.loadPhase d n (1000 * s.halfPeriod d) (s.deadTime d) (s.fld (PD_CFG.MINP d))) 3
    (((s.pdHeld d).setFlag (PD_STAT.OFF d) false).setFlag (PD_STAT.RUN d) true)

theorem State.driveSlot_setDrive (x : PdSt) (m : Nat) : (s.setDrive d x).driveSlot d m = s.driveSlot d m := by
  induction m with
  | zero => rfl
  | succ m ih =>
    simp only [State.driveSlot, ih]
    rfl

theorem State.drive_setDrive (x : PdSt) (h : d < s.le.pd.length) : (s.setDrive d x).drive d = x := by
  simp [State.drive, State.setDrive, nth, putAt, h]

/-- A drive that is stepped is there. -/
theorem State.lt_of_stepped (h : (s.drive d).stepped = true) : d < s.le.pd.length := by
  by_contra absent
  simp [State.drive, nth, List.getElem?_eq_none (Nat.le_of_not_lt absent)] at h

theorem State.butLe_pdLoaded : (s.pdLoaded d n).butLe (pdCompareRegs d) = s.butLe (pdCompareRegs d) := by
  have duty : ∀ q < 3, PD_DUTY d q ∈ pdCompareRegs d := fun q hq => by
    interval_cases q <;> simp
  have phase : ∀ h dt minp q, q < 3 → ∀ t : State, (t.loadPhase d n h dt minp q).butLe (pdCompareRegs d) = t.butLe (pdCompareRegs d) :=
    fun h dt minp q hq t => by
      unfold State.loadPhase
      split
      · exact (State.butLe_setFlag true (by simp)).trans (State.butLe_setFld _ (duty q hq))
      · exact State.butLe_setFld _ (duty q hq)
  have held : (s.pdHeld d).butLe (pdCompareRegs d) = s.butLe (pdCompareRegs d) := rfl
  exact (forN_keeps_lt (State.butLe (pdCompareRegs d)) _ (fun q hq t => phase _ _ _ q hq t) _).trans
    ((State.butLe_setFlag true (by simp)).trans ((State.butLe_setFlag false (by simp)).trans held))

theorem State.le_pdLoaded : (s.pdLoaded d n).le = (s.pdHeld d).le :=
  forN_keeps State.le _ (fun q t => State.le_loadPhase _ _ _ _ _ q t) 3 _

theorem State.reg_pdLoaded_stat : (s.pdLoaded d n).reg (PD_STAT d)
    = (((s.pdHeld d).setFlag (PD_STAT.OFF d) false).setFlag (PD_STAT.RUN d) true).reg (PD_STAT d) := by
  have apart : ∀ q, PD_STAT d ≠ PD_DUTY d q := fun q => by simp only [PD_STAT, PD_DUTY]; omega
  have evt : PD_STAT d ≠ PD_EVT d := by simp only [PD_STAT, PD_EVT]; omega
  exact forN_keeps (fun t : State => t.reg (PD_STAT d)) _ (fun q t => State.reg_loadPhase _ _ _ _ _ q t (apart q) evt) 3 _

theorem State.flag_pdLoaded_run : (s.pdLoaded d n).flag (PD_STAT.RUN d) = true := by
  rw [State.flag, State.fld, s.reg_pdLoaded_stat]
  exact State.flag_setFlag_self _ (PD_STAT.RUN d) true rfl (by simp)

theorem State.flag_pdLoaded_off : (s.pdLoaded d n).flag (PD_STAT.OFF d) = false := by
  rw [State.flag, State.fld, s.reg_pdLoaded_stat]
  exact (State.flag_setFlag_disjoint _ (PD_STAT.RUN d) (PD_STAT.OFF d) true (by simp) (by simp)).trans
    (State.flag_setFlag_self _ (PD_STAT.OFF d) false rfl (by simp))

end compare

theorem Runs.comparePoint (s : State) (d : Fin 4) (n : Nat) (le : s.flag LE_CTL.EN = true) (en : s.flag (PD_CFG.EN d) = true)
    (stall : s.pwr.stall = false) (sleep : s.inSleep = false) (due : s.le.tick % s.halfPeriod d = 0) (hold : s.inHold = false)
    (slot : s.driveSlot d 64 = some n) (first : s.flag (PD_STAT.FIRST d) = false) (oc : s.flag (PD_STAT.OC d) = false)
    (hu : s.flag (PD_STAT.HU d) = false) (trip : s.flag (LE_SLOT_STAT.TRIPPED n) = false) (stepped : (s.drive d).stepped = true) :
    Runs (.comparePoint d) s fun t =>
      t.flag (PD_STAT.RUN d) = true ∧ t.flag (PD_STAT.OFF d) = false
      ∧ (∀ q < 3, t.fld (PD_DUTY.CMP d q) ≤ 1000 * s.halfPeriod d)
      ∧ KeepsRegs s t [PD_STAT d, PD_EVT d, PD_DUTY d 0, PD_DUTY d 1, PD_DUTY d 2] ∧ KeepsMem s t
      ∧ (d < s.le.pd.length → (t.drive d).before = s.duties d) ∧ KeepsRest s { t with le := s.le } := by
  have there := s.lt_of_stepped d stepped
  have drive : (s.pdHeld d).drive d = { s.drive d with before := s.duties d } := s.drive_setDrive d _ there
  have runs : exec (.comparePoint d) s = (s.pdLoaded d n).out := by
    have acts : ¬ (!(s.flag LE_CTL.EN) || !(s.flag (PD_CFG.EN d)) || s.pwr.stall || s.inSleep
        || s.le.tick % s.halfPeriod d != 0) = true := by
      simp [le, en, stall, sleep, due]
    have open_ : ¬ (s.pdHeld d).inHold = true := by
      change ¬ s.inHold = true
      simp [hold]
    have slot' : (s.pdHeld d).driveSlot d 64 = some n := (s.driveSlot_setDrive d _ 64).trans slot
    have free : ¬ ((s.pdHeld d).flag (PD_STAT.FIRST d) || (s.pdHeld d).flag (PD_STAT.OC d) || (s.pdHeld d).flag (PD_STAT.HU d)
        || (s.pdHeld d).flag (LE_SLOT_STAT.TRIPPED n) || !((s.pdHeld d).drive d).stepped) = true := by
      change ¬ (s.flag (PD_STAT.FIRST d) || s.flag (PD_STAT.OC d) || s.flag (PD_STAT.HU d) || s.flag (LE_SLOT_STAT.TRIPPED n)
        || !((s.pdHeld d).drive d).stepped) = true
      simp [first, oc, hu, trip, drive, stepped]
    refine congrArg State.out ((if_neg acts).trans ((if_neg open_).trans ?_))
    rw [State.pdHeld] at slot'
    rw [slot']
    exact if_neg free
  have kept := s.butLe_pdLoaded d n
  have below : ∀ a, a < 0x40040100 + 0x100 * d.val → a < 0x40131000 ∨ 0x4013100C ≤ a := fun a h => by omega
  refine Runs.of_out runs ⟨?run, ?off, fun q hq => ?duty, (KeepsRegs.of_butLe kept).intcLatch, (KeepsMem.of_butLe kept).intcLatch,
    fun _ => ?before, KeepsRest.of_butLe kept⟩
  case run => rw [State.flag_intcLatch _ _ (below _ (by simp only [PD_STAT]; omega)), s.flag_pdLoaded_run]
  case off => rw [State.flag_intcLatch _ _ (below _ (by simp only [PD_STAT]; omega)), s.flag_pdLoaded_off]
  case duty =>
    rw [State.fld_intcLatch _ _ (below _ (by simp only [PD_DUTY]; omega))]
    exact State.fld_forN_loadPhase _ _ _ _ _ _ 3 (Nat.le_refl 3) q hq
  case before =>
    rw [State.drive, State.intcLatch_le, s.le_pdLoaded]
    exact congrArg PdSt.before drive

end Sys2Proof.Machine
end

section
/-! SUPPORT. Targets given to channels of the profile generators (R145, R161, R163). -/

namespace Sys2Proof.Machine

/-- From `s` to `t` targets are given to channels of `l`: what else differs of their registers is PG_STAT, and the planner's queue
differs in their requests. -/
structure PgTouches (l : List Nat) (s t : State) : Prop where
  rest : t = { s with regs := t.regs, le := { s.le with queue := t.le.queue } }
  regs : ∀ a, (∀ c ∈ l, a ≠ PG_TARGET c ∧ a ≠ PG_STAT c) → t.reg a = s.reg a
  queue : ∀ e : Nat × Nat × PgReq, e.2.1 ∉ l → (e ∈ t.le.queue ↔ e ∈ s.le.queue)

theorem PgTouches.refl (l : List Nat) (s : State) : PgTouches l s s := ⟨rfl, fun _ _ => rfl, fun _ _ => Iff.rfl⟩

theorem PgTouches.trans {l l' : List Nat} {s t u : State} (h : PgTouches l s t) (h' : PgTouches l' t u) : PgTouches (l ++ l') s u where
  rest := h'.rest.trans (congrArg (fun x : State => { x with regs := u.regs, le := { x.le with queue := u.le.queue } }) h.rest)
  regs a ha := (h'.regs a fun c hc => ha c (List.mem_append_right _ hc)).trans (h.regs a fun c hc => ha c (List.mem_append_left _ hc))
  queue e he := (h'.queue e fun hc => he (List.mem_append_right _ hc)).trans (h.queue e fun hc => he (List.mem_append_left _ hc))

theorem PgTouches.pgQueue (s : State) (c : Nat) (r : PgReq) : PgTouches [c] s (s.pgQueue c r) where
  rest := rfl
  regs a ha := s.reg_pgQueue c r (ha c (by simp)).2
  queue e he := by
    have other : e.2.1 ≠ c := by simpa using he
    have new : e ≠ (s.le.tick, c, r) := fun h => other (by rw [h])
    rw [s.mem_pgQueue]
    simp [other, new]

theorem PgTouches.pgRequest (s : State) (c t : Nat) : PgTouches [c] s (s.pgRequest c t) := by
  rw [s.pgRequest_eq]
  split
  · exact .refl _ s
  split
  · exact .refl _ s
  · exact .pgQueue s c _

theorem PgTouches.setTarget (s : State) (c : Nat) (v : Word) : PgTouches [c] s (s.setReg (PG_TARGET c) v) where
  rest := rfl
  regs a ha := s.reg_setReg_ne _ a _ (ha c (by simp)).1
  queue _ _ := Iff.rfl

theorem PgTouches.pgGive (s : State) (c : Nat) (v : Dy) : PgTouches [c] s (s.pgGive c v) := by
  have both := (PgTouches.setTarget s c (BitVec.ofNat 32 (v.toFloat b32))).trans (.pgRequest _ c (v.toFloat b64))
  exact ⟨both.rest, fun a ha => both.regs a (by simpa using ha), fun e he => both.queue e (by simpa using he)⟩

/-- The channels of a list are given their targets one after another. -/
def State.pgGiveAll (s : State) (l : List (Nat × Dy)) : State := l.foldl (fun s p => s.pgGive p.1 p.2) s

theorem PgTouches.pgGiveAll (l : List (Nat × Dy)) (s : State) : PgTouches (l.map Prod.fst) s (s.pgGiveAll l) := by
  induction l generalizing s with
  | nil => exact .refl _ s
  | cons p l ih => exact (PgTouches.pgGive s p.1 p.2).trans (ih (s.pgGive p.1 p.2))

theorem PgTouches.reg {l : List Nat} {s t : State} (h : PgTouches l s t) {a : Nat} (ha : a < 0x4003C000) : t.reg a = s.reg a :=
  h.regs a fun c _ => by simp only [PG_TARGET, PG_STAT]; omega

theorem PgTouches.ctl {l : List Nat} {s t : State} (h : PgTouches l s t) (c : Nat) : t.reg (PG_CTL c) = s.reg (PG_CTL c) :=
  h.regs _ fun d _ => by simp only [PG_CTL, PG_TARGET, PG_STAT]; omega

theorem PgTouches.target {l : List Nat} {s t : State} (h : PgTouches l s t) {c : Nat} (hc : c ∉ l) :
    t.reg (PG_TARGET c) = s.reg (PG_TARGET c) :=
  h.regs _ fun d hd => by
    have apart : d ≠ c := fun e => hc (e ▸ hd)
    simp only [PG_TARGET, PG_STAT]
    omega

theorem PgTouches.stat {l : List Nat} {s t : State} (h : PgTouches l s t) {c : Nat} (hc : c ∉ l) :
    t.reg (PG_STAT c) = s.reg (PG_STAT c) :=
  h.regs _ fun d hd => by
    have apart : d ≠ c := fun e => hc (e ▸ hd)
    simp only [PG_TARGET, PG_STAT]
    omega

theorem PgTouches.tick {l : List Nat} {s t : State} (h : PgTouches l s t) : t.le.tick = s.le.tick := by rw [h.rest]

theorem PgTouches.pgCh {l : List Nat} {s t : State} (h : PgTouches l s t) (c : Nat) : t.pgCh c = s.pgCh c := by
  rw [h.rest]
  rfl

/-- PG_TARGET shows a target given (R161). -/
def State.showTarget (s : State) (c : Nat) (v : Dy) : State := s.setReg (PG_TARGET c) (BitVec.ofNat 32 (v.toFloat b32))

theorem State.pgGive_eq (s : State) (c : Nat) (v : Dy) : s.pgGive c v = (s.showTarget c v).pgRequest c (v.toFloat b64) := rfl

/-- A channel that is given a target gets it. -/
theorem GetsTarget.pgGive {s : State} (run : s.flag LE_CTL.EN = true) (c : Nat) (v : Dy) : GetsTarget s (s.pgGive c v) c v := by
  have apart : PG_TARGET c ≠ PG_STAT c := by simp only [PG_TARGET, PG_STAT]; omega
  refine ⟨(State.reg_pgRequest _ c _ apart).trans (State.reg_setReg_self _ _ _), fun en => ?_⟩
  have en' : (s.showTarget c v).flag (PG_CTL.EN c) = true :=
    (State.flag_setReg_ne _ _ _ (PG_CTL.EN c) (by simp only [PG_CTL, PG_TARGET]; omega)).trans en
  have run' : (s.showTarget c v).flag LE_CTL.EN = true :=
    (State.flag_setReg_ne _ _ _ LE_CTL.EN (by simp only [LE_CTL, PG_TARGET]; omega)).trans run
  rw [s.pgGive_eq, State.pgRequest_eq, if_neg (by simp [en', run'])]
  split
  case isTrue idle =>
    have still : s.pgIdleAt c (v.toFloat b64) = true := idle
    simp only [State.pgIdleAt, Bool.and_eq_true, Bool.not_eq_true', Option.isNone_iff_eq_none] at still
    obtain ⟨⟨ready, none⟩, at_⟩ := still
    exact .inr ⟨ready, fun e he => by simpa using List.any_eq_false.1 none e he, at_⟩
  case isFalse =>
    exact .inl ⟨(State.mem_pgQueue _ c _ _).2 (.inl rfl), State.flag_pgQueue_pend _ c _⟩

/-- Targets given to other channels before leave a channel's as it was. -/
theorem GetsTarget.of_touched {s s' t : State} {l : List Nat} {c : Nat} {v : Dy} (h : GetsTarget s' t c v) (touch : PgTouches l s s')
    (hc : c ∉ l) : GetsTarget s t c v := by
  obtain ⟨target, request⟩ := h
  have en : s'.flag (PG_CTL.EN c) = s.flag (PG_CTL.EN c) := by simp only [State.flag, State.fld, touch.ctl c]
  rw [en, touch.tick, touch.pgCh c] at request
  refine ⟨target, fun on => (request on).imp_right ?_⟩
  rintro ⟨ready, none, at_⟩
  refine ⟨ready, fun e he hec => none e ((touch.queue e ?_).2 he) hec, at_⟩
  rwa [hec]

/-- Targets given to other channels after leave a channel's as it is. -/
theorem GetsTarget.touched {s t u : State} {l : List Nat} {c : Nat} {v : Dy} (h : GetsTarget s t c v) (touch : PgTouches l t u)
    (hc : c ∉ l) : GetsTarget s u c v := by
  obtain ⟨target, request⟩ := h
  refine ⟨(touch.target hc).trans target, fun on => (request on).imp_left ?_⟩
  rintro ⟨queued, pend⟩
  refine ⟨(touch.queue _ hc).2 queued, ?_⟩
  rw [State.flag, State.fld, touch.stat hc]
  exact pend

/-- Each of the channels gets its target. -/
theorem GetsTarget.pgGiveAll {s : State} (run : s.flag LE_CTL.EN = true) {l : List (Nat × Dy)} (once : (l.map Prod.fst).Nodup) :
    ∀ p ∈ l, GetsTarget s (s.pgGiveAll l) p.1 p.2 := by
  induction l generalizing s with
  | nil => exact fun p hp => absurd hp List.not_mem_nil
  | cons q l ih =>
    obtain ⟨new, once⟩ := List.nodup_cons.1 once
    have touch := PgTouches.pgGive s q.1 q.2
    have run' : (s.pgGive q.1 q.2).flag LE_CTL.EN = true := by
      rw [State.flag, State.fld, touch.reg (by decide)]
      exact run
    intro p hp
    rcases List.mem_cons.1 hp with rfl | hp
    · exact (GetsTarget.pgGive run p.1 p.2).touched (.pgGiveAll l _) new
    · have other : p.1 ≠ q.1 := fun h => new (h ▸ List.mem_map_of_mem hp)
      exact (ih run' once p hp).of_touched touch (by simpa using other)

end Sys2Proof.Machine
end

section
/-! SUPPORT. The plan bridge at a plan step boundary (R12 to R14, R145 to R147, R165). -/

namespace Sys2Proof.Machine

/-- The registers in which the bridge shows its plan and its fallback. -/
abbrev bridgeRegs : List Nat := [LE_STAT, LE_EVT, LE_PB_STAT]

/-- What lies outside those registers, the bridge's own plan, offers, boundary and stale count, and the trace's events. -/
def State.butBridge (s : State) : State × (Nat → Word) × (Nat → Byte) :=
  s.outside (fun s =>
    { s with le := { s.le with plan := none, offers := [], boundary := none, staleN := 0 }, tune := { s.tune with events := 0 } })
    bridgeRegs.contains noByte

section butBridge
variable (s : State)

theorem State.butBridge_setFld {f : Field} (v : Nat) (h : f.addr ∈ bridgeRegs) : (s.setFld f v).butBridge = s.butBridge :=
  State.outside_setFld v (List.contains_iff_mem.2 h)

theorem State.butBridge_setFlag {f : Field} (b : Bool) (h : f.addr ∈ bridgeRegs) : (s.setFlag f b).butBridge = s.butBridge :=
  s.butBridge_setFld _ h

theorem State.butBridge_setStale (n : Nat) : (s.setStale n).butBridge = s.butBridge :=
  State.butBridge_setFld (f := LE_PB_STAT.STALE) { s with le := { s.le with staleN := n } } _ (by decide)

/-- The offers up to the present tick are gone (R147). -/
def State.pbOffered : State := { s with le := { s.le with offers := s.le.offers.filter fun o => o.2.2 == s.le.tick } }

/-- What the bridge does with the newest plan `x` of status `code` (R12, R13, R146). -/
def State.pbTakeNew (x : List Nat) (code : Nat) : State :=
  if !pbTakes code then (s.pbOffered.setFlag LE_PB_STAT.NONFINITE false).setStale (s.le.staleN + 1)
  else if s.pbFinite x then
    ({ s.pbOffered.setFlag LE_PB_STAT.NONFINITE false with le := { s.pbOffered.le with plan := some x } } : State).setStale 0
  else ((s.pbOffered.setFlag LE_PB_STAT.NONFINITE true).setFlag LE_EVT.PB_NONFIN true).setStale (s.le.staleN + 1)

theorem State.pbTake_none (h : s.pbNewest = none) : s.pbTake = s.setStale (s.le.staleN + 1) := by
  rw [State.pbTake, h]

theorem State.pbTake_some {x : List Nat} {code : Nat} (h : s.pbNewest = some (x, code)) : s.pbTake = s.pbTakeNew x code := by
  have finite : s.pbOffered.pbFinite x = s.pbFinite x := rfl
  rw [State.pbTake, h, State.pbTakeNew]
  change (if !pbTakes code then _ else _) = _
  rw [← State.pbOffered, finite]
  cases s.pbFinite x <;> rfl

theorem State.butBridge_pbTakeNew (x : List Nat) (code : Nat) : (s.pbTakeNew x code).butBridge = s.butBridge := by
  have offered : s.pbOffered.butBridge = s.butBridge := rfl
  have shown : ∀ b, (s.pbOffered.setFlag LE_PB_STAT.NONFINITE b).butBridge = s.butBridge := fun b =>
    (State.butBridge_setFlag _ b (by decide)).trans offered
  unfold State.pbTakeNew
  split
  · exact (State.butBridge_setStale _ _).trans (shown false)
  split
  · exact (State.butBridge_setStale _ _).trans (shown false)
  · exact (State.butBridge_setStale _ _).trans ((State.butBridge_setFlag _ true (by decide)).trans (shown true))

theorem State.butBridge_pbTake : s.pbTake.butBridge = s.butBridge := by
  cases h : s.pbNewest with
  | none => rw [s.pbTake_none h, State.butBridge_setStale]
  | some o => rw [s.pbTake_some h, State.butBridge_pbTakeNew]

theorem State.butBridge_reportFallback (b : Bool) : (s.reportFallback b).butBridge = s.butBridge := by
  have set : ∀ b, (s.setFallback b).butBridge = s.butBridge := fun b =>
    (State.butBridge_setFlag _ b (by decide)).trans (s.butBridge_setFlag b (by decide))
  unfold State.reportFallback
  split
  · rfl
  split
  · exact (State.butBridge_setFlag (f := LE_EVT.PB_FB_IN) _ true (by decide) :).trans (set true)
  · exact (State.butBridge_setFlag _ true (by decide)).trans (set false)

end butBridge

section pbTake
variable (s : State)

theorem State.fld_setStale (n : Nat) : (s.setStale n).fld LE_PB_STAT.STALE = min 63 n :=
  (State.fld_setFld_self _ LE_PB_STAT.STALE _ (by decide) (by decide)).trans (Nat.mod_eq_of_lt (by
    have : min 63 n ≤ 63 := Nat.min_le_left ..
    exact Nat.lt_of_le_of_lt this (by decide)))

theorem State.flag_setStale (n : Nat) (g : Field) (h : g.addr ≠ LE_PB_STAT ∨ 5 < g.lo ∧ g.hi < 32) : (s.setStale n).flag g = s.flag g := by
  rcases h with other | ⟨above, word⟩
  · exact State.flag_setFld_ne _ LE_PB_STAT.STALE g _ other
  · exact State.flag_setFld_disjoint _ LE_PB_STAT.STALE g _ (.inr above) word

theorem State.newest_setStale (n : Nat) : (s.setStale n).pbNewest = s.pbNewest := rfl

/-- No offer of an earlier tick is left (R147). -/
theorem State.newest_pbOffered : s.pbOffered.pbNewest = none := by
  simp [State.pbNewest, State.pbOffered, List.find?_eq_none]

theorem State.newest_pbTake : s.pbTake.pbNewest = none := by
  cases h : s.pbNewest with
  | none => rw [s.pbTake_none h, State.newest_setStale, h]
  | some o =>
    rw [s.pbTake_some h]
    unfold State.pbTakeNew
    split
    · exact s.newest_pbOffered
    split
    · exact s.newest_pbOffered
    · exact s.newest_pbOffered

/-- Taking a plan leaves FALLBACK as it was. -/
theorem State.fallback_pbTake : s.pbTake.flag LE_PB_STAT.FALLBACK = s.flag LE_PB_STAT.FALLBACK := by
  have stale : ∀ (t : State) n, (t.setStale n).flag LE_PB_STAT.FALLBACK = t.flag LE_PB_STAT.FALLBACK := fun t n =>
    t.flag_setStale n _ (.inr (by decide))
  have shown : ∀ b, (s.pbOffered.setFlag LE_PB_STAT.NONFINITE b).flag LE_PB_STAT.FALLBACK = s.flag LE_PB_STAT.FALLBACK := fun b =>
    State.flag_setFlag_disjoint _ LE_PB_STAT.NONFINITE LE_PB_STAT.FALLBACK b (by decide) (by decide)
  cases h : s.pbNewest with
  | none => rw [s.pbTake_none h, stale]
  | some o =>
    rw [s.pbTake_some h]
    unfold State.pbTakeNew
    split
    · exact (stale _ _).trans (shown false)
    split
    · exact (stale _ _).trans (shown false)
    · exact (stale _ _).trans ((State.flag_setFlag_ne _ LE_EVT.PB_NONFIN _ true (by decide)).trans (shown true))

/-- Without a plan to take the bridge counts (R13). -/
theorem State.le_pbTake_none (h : s.pbNewest = none) : s.pbTake.le.staleN = s.le.staleN + 1 ∧ s.pbTake.le.plan = s.le.plan := by
  rw [s.pbTake_none h]
  exact ⟨rfl, rfl⟩

/-- A plan whose status the bridge does not take counts as none (R12). -/
theorem State.le_pbTake_skipped {x : List Nat} {code : Nat} (h : s.pbNewest = some (x, code)) (skip : pbTakes code = false) :
    s.pbTake.le.staleN = s.le.staleN + 1 ∧ s.pbTake.le.plan = s.le.plan := by
  rw [s.pbTake_some h, State.pbTakeNew, if_pos (by simp [skip])]
  exact ⟨rfl, rfl⟩

theorem State.pbTake_taken {x : List Nat} {code : Nat} (h : s.pbNewest = some (x, code)) (take : pbTakes code = true)
    (fin : s.pbFinite x = true) : s.pbTake.le.staleN = 0 ∧ s.pbTake.le.plan = some x ∧ s.pbTake.fld LE_PB_STAT.STALE = 0
      ∧ s.pbTake.flag LE_PB_STAT.NONFINITE = false := by
  rw [s.pbTake_some h, State.pbTakeNew, if_neg (by simp [take]), if_pos fin]
  exact ⟨rfl, rfl, State.fld_setStale _ 0, (State.flag_setStale _ 0 LE_PB_STAT.NONFINITE (.inr (by decide))).trans
    (State.flag_setFlag_self _ LE_PB_STAT.NONFINITE false rfl (by decide))⟩

theorem State.pbTake_refused {x : List Nat} {code : Nat} (h : s.pbNewest = some (x, code)) (take : pbTakes code = true)
    (infinite : s.pbFinite x = false) : s.pbTake.le.staleN = s.le.staleN + 1 ∧ s.pbTake.le.plan = s.le.plan
      ∧ s.pbTake.flag LE_PB_STAT.NONFINITE = true ∧ s.pbTake.flag LE_EVT.PB_NONFIN = true := by
  rw [s.pbTake_some h, State.pbTakeNew, if_neg (by simp [take]), if_neg (by simp [infinite])]
  refine ⟨rfl, rfl, (State.flag_setStale _ _ LE_PB_STAT.NONFINITE (.inr (by decide))).trans ?_,
    (State.flag_setStale _ _ LE_EVT.PB_NONFIN (.inl (by decide))).trans ?_⟩
  · exact (State.flag_setFlag_ne _ LE_EVT.PB_NONFIN LE_PB_STAT.NONFINITE true (by decide)).trans
      (State.flag_setFlag_self _ LE_PB_STAT.NONFINITE true rfl (by decide))
  · exact State.flag_setFlag_self _ LE_EVT.PB_NONFIN true rfl (by decide)

end pbTake

section reportFallback
variable (s : State) (b : Bool)

theorem State.le_reportFallback : (s.reportFallback b).le = s.le := by
  unfold State.reportFallback
  split
  · rfl
  split <;> rfl

/-- A field that a change of fallback does not write. -/
theorem State.fld_reportFallback (g : Field) (word : g.hi < 32) (stat : g.addr ≠ LE_STAT) (evt : g.addr ≠ LE_EVT ∨ 9 < g.lo)
    (pb : g.addr ≠ LE_PB_STAT ∨ g.hi < 6 ∨ 6 < g.lo) : (s.reportFallback b).fld g = s.fld g := by
  have set : ∀ b, (s.setFallback b).fld g = s.fld g := fun b => by
    have leStat : (s.setFlag LE_STAT.FALLBACK b).fld g = s.fld g := State.fld_setFlag_ne _ LE_STAT.FALLBACK g b stat
    rcases pb with other | apart
    · exact (State.fld_setFlag_ne _ LE_PB_STAT.FALLBACK g b other).trans leStat
    · exact (State.fld_setFlag_disjoint _ LE_PB_STAT.FALLBACK g b apart word).trans leStat
  have event : ∀ (t : State) (f : Field), f.addr = LE_EVT → f.hi ≤ 9 → (t.setFlag f true).fld g = t.fld g := fun t f hf hi => by
    rcases evt with other | above
    · exact State.fld_setFlag_ne _ f g true (hf ▸ other)
    · exact State.fld_setFlag_disjoint _ f g true (.inr (by omega)) word
  unfold State.reportFallback
  split
  · rfl
  split
  · exact (event _ LE_EVT.PB_FB_IN rfl (by decide)).trans (set true)
  · exact (event _ LE_EVT.PB_FB_OUT rfl (by decide)).trans (set false)

theorem State.fallback_reportFallback : (s.reportFallback b).flag LE_PB_STAT.FALLBACK = b := by
  have set : ∀ b, (s.setFallback b).flag LE_PB_STAT.FALLBACK = b := fun b =>
    State.flag_setFlag_self _ LE_PB_STAT.FALLBACK b rfl (by decide)
  unfold State.reportFallback
  split
  case isTrue same => exact eq_of_beq same
  case isFalse =>
    cases b with
    | true => exact (State.flag_setFlag_ne _ LE_EVT.PB_FB_IN LE_PB_STAT.FALLBACK true (by decide)).trans (set true)
    | false => exact (State.flag_setFlag_ne _ LE_EVT.PB_FB_OUT LE_PB_STAT.FALLBACK true (by decide)).trans (set false)

/-- A fallback that begins is flagged (R14). -/
theorem State.reportFallback_in (h : s.flag LE_PB_STAT.FALLBACK = false) :
    (s.reportFallback true).flag LE_EVT.PB_FB_IN = true ∧ (s.reportFallback true).flag LE_STAT.FALLBACK = true := by
  have shown : (s.setFallback true).flag LE_STAT.FALLBACK = true :=
    (State.flag_setFlag_ne _ LE_PB_STAT.FALLBACK LE_STAT.FALLBACK true (by decide)).trans
      (State.flag_setFlag_self _ LE_STAT.FALLBACK true rfl (by decide))
  rw [State.reportFallback, h]
  exact ⟨State.flag_setFlag_self _ LE_EVT.PB_FB_IN true rfl (by decide),
    (State.flag_setFlag_ne _ LE_EVT.PB_FB_IN LE_STAT.FALLBACK true (by decide)).trans shown⟩

/-- A fallback that ends is flagged (R14). -/
theorem State.reportFallback_out (h : s.flag LE_PB_STAT.FALLBACK = true) :
    (s.reportFallback false).flag LE_EVT.PB_FB_OUT = true ∧ (s.reportFallback false).flag LE_STAT.FALLBACK = false := by
  have shown : (s.setFallback false).flag LE_STAT.FALLBACK = false :=
    (State.flag_setFlag_ne _ LE_PB_STAT.FALLBACK LE_STAT.FALLBACK false (by decide)).trans
      (State.flag_setFlag_self _ LE_STAT.FALLBACK false rfl (by decide))
  rw [State.reportFallback, h]
  exact ⟨State.flag_setFlag_self _ LE_EVT.PB_FB_OUT true rfl (by decide),
    (State.flag_setFlag_ne _ LE_EVT.PB_FB_OUT LE_STAT.FALLBACK true (by decide)).trans shown⟩

end reportFallback

section targets
variable {s t : State}

/-- The bridge's registers of its map and its fallback decide the targets (R145, R165). -/
theorem State.pbTargets_of_regs (h : ∀ a, a ∉ bridgeRegs → t.reg a = s.reg a) (x : List Nat) (b : Nat) :
    t.pbTargets x b = s.pbTargets x b := by
  have map : ∀ c, t.reg (LE_PB_MAP c) = s.reg (LE_PB_MAP c) := fun c => h _ (by
    simp only [List.mem_cons, List.not_mem_nil, or_false, LE_PB_MAP, LE_STAT, LE_EVT, LE_PB_STAT]; omega)
  have scale : ∀ c, t.reg (LE_PB_SCALE c) = s.reg (LE_PB_SCALE c) := fun c => h _ (by
    simp only [List.mem_cons, List.not_mem_nil, or_false, LE_PB_SCALE, LE_STAT, LE_EVT, LE_PB_STAT]; omega)
  have bias : ∀ c, t.reg (LE_PB_BIAS c) = s.reg (LE_PB_BIAS c) := fun c => h _ (by
    simp only [List.mem_cons, List.not_mem_nil, or_false, LE_PB_BIAS, LE_STAT, LE_EVT, LE_PB_STAT]; omega)
  simp only [State.pbTargets, State.pbChannels, State.pbEntry, State.flag, State.fld, map, scale, bias]

theorem State.pbFallback_of_regs (h : ∀ a, a ∉ bridgeRegs → t.reg a = s.reg a) (slots : t.le.slots = s.le.slots) :
    t.pbFallback = s.pbFallback := by
  have map : ∀ c, t.reg (LE_PB_MAP c) = s.reg (LE_PB_MAP c) := fun c => h _ (by
    simp only [List.mem_cons, List.not_mem_nil, or_false, LE_PB_MAP, LE_STAT, LE_EVT, LE_PB_STAT]; omega)
  have fb : ∀ c, t.reg (LE_PB_FB c) = s.reg (LE_PB_FB c) := fun c => h _ (by
    simp only [List.mem_cons, List.not_mem_nil, or_false, LE_PB_FB, LE_STAT, LE_EVT, LE_PB_STAT]; omega)
  have fbv : ∀ c, t.reg (LE_PB_FBV c) = s.reg (LE_PB_FBV c) := fun c => h _ (by
    simp only [List.mem_cons, List.not_mem_nil, or_false, LE_PB_FBV, LE_STAT, LE_EVT, LE_PB_STAT]; omega)
  have channels : t.pbChannels = s.pbChannels := by simp only [State.pbChannels, State.flag, State.fld, map]
  have kind : ∀ c, t.flag (LE_PB_FB.KIND c) = s.flag (LE_PB_FB.KIND c) := fun c => by simp only [State.flag, State.fld, fb]
  have slot : ∀ c, t.slot (t.fld (LE_PB_FB.SLOT c)) = s.slot (s.fld (LE_PB_FB.SLOT c)) := fun c => by
    simp only [State.slot, State.fld, fb, slots]
  have value : ∀ c, t.reg32f (LE_PB_FBV c) = s.reg32f (LE_PB_FBV c) := fun c => by simp only [State.reg32f, fbv]
  simp only [State.pbFallback, channels, kind, slot, value, fbv]

theorem map_fst_of_mapM {f : Nat → Option Nat} {l : List Nat} {r : List (Nat × Nat)}
    (h : (l.mapM fun c => (f c).map fun v => (c, v)) = some r) : r.map Prod.fst = l := by
  induction l generalizing r with
  | nil =>
    cases h
    rfl
  | cons c l ih =>
    simp only [List.mapM_cons, Option.bind_eq_bind, Option.bind_eq_some_iff, Option.map_eq_some_iff, Option.pure_def,
      Option.some.injEq] at h
    obtain ⟨p, ⟨v, -, rfl⟩, r', hr', rfl⟩ := h
    rw [List.map_cons, ih hr']

theorem map_fst_zipWith {α β : Type} (l : List (Nat × α)) (r : List Bf) (g : Bf → β) :
    ((List.zipWith (fun p b => (p.1, g b)) l r).map Prod.fst).Sublist (l.map Prod.fst) := by
  induction l generalizing r with
  | nil => simp
  | cons p l ih =>
    cases r with
    | nil => simp
    | cons b r => exact (ih r).cons_cons _

/-- The targets of a plan go to channels that the bridge feeds, one each (R145). -/
theorem State.pbPlanned_channels {l : List (Nat × Dy)} (h : s.pbPlanned = some l) : (l.map Prod.fst).Sublist s.pbChannels := by
  unfold State.pbPlanned at h
  split at h
  · split at h
    · obtain ⟨r, targets, rfl⟩ := Option.map_eq_some_iff.1 h
      rw [← map_fst_of_mapM targets]
      exact map_fst_zipWith _ _ _
    · cases h
  · cases h

theorem State.pbFallback_channels : (s.pbFallback.map Prod.fst).Sublist s.pbChannels := by
  unfold State.pbFallback
  generalize s.pbChannels = l
  induction l with
  | nil => simp
  | cons c l ih =>
    rw [List.filterMap_cons]
    split
    · exact ih.cons _
    · rename_i p hp
      have fst : p.1 = c := by
        split at hp
        · cases hp; rfl
        split at hp
        · cases hp; rfl
        · cases hp
      rw [List.map_cons, fst]
      exact ih.cons_cons _

theorem State.nodup_pbChannels (s : State) : s.pbChannels.Nodup := List.nodup_range.filter _

end targets

end Sys2Proof.Machine
end

section
/-! SUPPORT. What a plan step boundary leaves (R12 to R14, R145, R165). -/

namespace Sys2Proof.Machine

theorem State.reg_of_butBridge {s t : State} (h : t.butBridge = s.butBridge) {a : Nat} (ha : a ∉ bridgeRegs) : t.reg a = s.reg a :=
  State.reg_of_outside h (Bool.eq_false_iff.2 (mt List.contains_iff_mem.1 ha))

/-- Taking a plan and reporting a fallback change nothing that a target given looks at. -/
theorem GetsTarget.of_butBridge {s s' t : State} {c : Nat} {v : Dy} (h : GetsTarget s' t c v) (bridge : s'.butBridge = s.butBridge) :
    GetsTarget s t c v := by
  have hidden := State.hide_of_outside bridge
  have ctl : s'.reg (PG_CTL c) = s.reg (PG_CTL c) := State.reg_of_butBridge bridge (by
    simp only [List.mem_cons, List.not_mem_nil, or_false, PG_CTL, LE_STAT, LE_EVT, LE_PB_STAT]; omega)
  have en : s'.flag (PG_CTL.EN c) = s.flag (PG_CTL.EN c) := by simp only [State.flag, State.fld, ctl]
  have tick : s'.le.tick = s.le.tick := (congrArg (fun x : State => x.le.tick) hidden :)
  have queue : s'.le.queue = s.le.queue := (congrArg (fun x : State => x.le.queue) hidden :)
  have ch : s'.pgCh c = s.pgCh c := (congrArg (fun x : State => x.pgCh c) hidden :)
  rw [GetsTarget, en, tick, queue, ch] at h
  exact h

theorem GetsTarget.intcLatch {s u : State} {c : Nat} {v : Dy} (hc : c < 16) (h : GetsTarget s u c v) : GetsTarget s u.intcLatch c v := by
  obtain ⟨target, request⟩ := h
  refine ⟨(State.reg_intcLatch _ _ (by simp only [PG_TARGET]; omega)).trans target, fun on => (request on).imp_left ?_⟩
  rintro ⟨queued, pend⟩
  exact ⟨by rwa [State.intcLatch_le], (State.flag_intcLatch _ _ (by simp only [PG_STAT]; omega)).trans pend⟩

section boundary
variable (s : State)

/-- The stages of a boundary: the plan taken, the fallback reported, the targets to give, and the state with them given. -/
def State.pbTaken : State := State.pbTake { s with le := { s.le with boundary := some s.le.tick } }

def State.pbReported : State := s.pbTaken.reportFallback s.pbTaken.pbPlanned.isNone

def State.pbGiven : List (Nat × Dy) := s.pbTaken.pbPlanned.getD s.pbReported.pbFallback

def State.pbStepped : State := s.pbReported.pgGiveAll s.pbGiven

theorem exec_planStepBoundary {s : State} (run : s.flag LE_CTL.EN = true) (en : s.flag LE_PB_CFG.EN = true) (stall : s.pwr.stall = false)
    (due : s.pbDue = true) : exec .planStepBoundary s = s.pbStepped.out :=
  congrArg State.out (if_neg (by simp [run, en, stall, due]))

theorem State.butBridge_pbTaken : s.pbTaken.butBridge = s.butBridge :=
  (State.butBridge_pbTake { s with le := { s.le with boundary := some s.le.tick } }).trans rfl

theorem State.butBridge_pbReported : s.pbReported.butBridge = s.butBridge :=
  (State.butBridge_reportFallback _ _).trans s.butBridge_pbTaken

theorem State.regs_pbTaken (a : Nat) (ha : a ∉ bridgeRegs) : s.pbTaken.reg a = s.reg a := State.reg_of_butBridge s.butBridge_pbTaken ha

theorem State.regs_pbReported (a : Nat) (ha : a ∉ bridgeRegs) : s.pbReported.reg a = s.reg a :=
  State.reg_of_butBridge s.butBridge_pbReported ha

theorem State.boundary_pbTake (t : State) : t.pbTake.le.boundary = t.le.boundary := by
  cases h : t.pbNewest with
  | none => rw [t.pbTake_none h]; rfl
  | some o =>
    rw [t.pbTake_some h]
    unfold State.pbTakeNew
    split
    · rfl
    split <;> rfl

theorem State.boundary_pbTaken : s.pbTaken.le.boundary = some s.le.tick := State.boundary_pbTake _

theorem State.fallback_pbReported : s.pbReported.pbFallback = s.pbFallback :=
  State.pbFallback_of_regs s.regs_pbReported (congrArg (fun x : State => x.le.slots) (State.hide_of_outside s.butBridge_pbReported) :)

theorem State.limits_pbTaken : s.pbTaken.pbLimit = s.pbLimit ∧ s.pbTaken.pbBlock = s.pbBlock := by
  have cfg : s.pbTaken.reg LE_PB_CFG = s.reg LE_PB_CFG := s.regs_pbTaken _ (by decide)
  simp only [State.pbLimit, State.pbBlock, State.fld, cfg, and_self]

/-- A plan in use that has an entry gives its targets (R13, R145). -/
theorem State.pbPlanned_entry {x : List Nat} {l : List (Nat × Nat)} (plan : s.pbTaken.le.plan = some x)
    (fresh : s.pbTaken.le.staleN ≤ s.pbLimit) (entry : s.pbTargets x (s.pbTaken.le.staleN / s.pbBlock) = some l) :
    s.pbTaken.pbPlanned = some (pbConvert l) := by
  obtain ⟨limit, block⟩ := s.limits_pbTaken
  rw [State.pbPlanned, plan]
  simp only [limit, block, if_pos fresh, State.pbTargets_of_regs s.regs_pbTaken, entry, Option.map_some]

/-- Without an entry no plan gives targets (R13, R165). -/
theorem State.pbPlanned_noEntry (h : ∀ x, s.pbTaken.le.plan = some x → s.pbTaken.le.staleN ≤ s.pbLimit →
    s.pbTargets x (s.pbTaken.le.staleN / s.pbBlock) = none) : s.pbTaken.pbPlanned = none := by
  obtain ⟨limit, block⟩ := s.limits_pbTaken
  cases plan : s.pbTaken.le.plan with
  | none => rw [State.pbPlanned, plan]
  | some x =>
    rw [State.pbPlanned, plan]
    by_cases fresh : s.pbTaken.le.staleN ≤ s.pbLimit
    · simp only [limit, block, if_pos fresh, State.pbTargets_of_regs s.regs_pbTaken, h x plan fresh, Option.map_none]
    · simp only [limit, if_neg fresh]

/-- Targets go to channels that the bridge feeds, one each (R145). -/
theorem State.pbGiven_channels : (s.pbGiven.map Prod.fst).Sublist s.pbChannels := by
  have channels : s.pbTaken.pbChannels = s.pbChannels := by
    have map : ∀ c, s.pbTaken.reg (LE_PB_MAP c) = s.reg (LE_PB_MAP c) := fun c => s.regs_pbTaken _ (by
      simp only [List.mem_cons, List.not_mem_nil, or_false, LE_PB_MAP, LE_STAT, LE_EVT, LE_PB_STAT]; omega)
    simp only [State.pbChannels, State.flag, State.fld, map]
  unfold State.pbGiven
  cases h : s.pbTaken.pbPlanned with
  | none =>
    rw [Option.getD_none, s.fallback_pbReported]
    exact s.pbFallback_channels
  | some l =>
    rw [Option.getD_some, ← channels]
    exact State.pbPlanned_channels h

theorem State.pbStepped_touches : PgTouches (s.pbGiven.map Prod.fst) s.pbReported s.pbStepped := .pgGiveAll _ _

/-- The bridge's own state after the boundary is that of the plan taken. -/
theorem State.le_pbStepped : s.pbStepped.le = { s.pbTaken.le with queue := s.pbStepped.le.queue } := by
  have le := congrArg State.le s.pbStepped_touches.rest
  rwa [State.pbReported, State.le_reportFallback] at le

/-- Each target given reaches its channel (R161). -/
theorem State.pbStepped_gives (run : s.flag LE_CTL.EN = true) : ∀ p ∈ s.pbGiven, GetsTarget s s.pbStepped.intcLatch p.1 p.2 := by
  have run' : s.pbReported.flag LE_CTL.EN = true := by
    rw [State.flag, State.fld, s.regs_pbReported _ (by decide)]
    exact run
  intro p hp
  have fed : p.1 ∈ s.pbChannels := s.pbGiven_channels.subset (List.mem_map_of_mem hp)
  have lt : p.1 < 16 := List.mem_range.1 (List.mem_filter.1 fed).1
  exact .intcLatch lt ((GetsTarget.pgGiveAll run' (s.pbGiven_channels.nodup s.nodup_pbChannels) p hp).of_butBridge s.butBridge_pbReported)

/-- A field of LE's registers after the boundary is as the report of the fallback leaves it. -/
theorem State.fld_pbStepped (g : Field) (h : g.addr < 0x4003C000) : s.pbStepped.intcLatch.fld g = s.pbReported.fld g := by
  rw [State.fld_intcLatch _ _ (by omega), State.fld, s.pbStepped_touches.reg h]
  rfl

theorem State.flag_pbStepped (g : Field) (h : g.addr < 0x4003C000) : s.pbStepped.intcLatch.flag g = s.pbReported.flag g := by
  rw [State.flag, s.fld_pbStepped g h]
  rfl

/-- The bridge is in fallback where the plan in use gives no targets (R14). -/
theorem State.fallback_pbStepped : s.pbStepped.intcLatch.flag LE_PB_STAT.FALLBACK = s.pbTaken.pbPlanned.isNone := by
  rw [s.flag_pbStepped _ (by decide), State.pbReported, State.fallback_reportFallback]

theorem State.fallback_pbTaken : s.pbTaken.flag LE_PB_STAT.FALLBACK = s.flag LE_PB_STAT.FALLBACK := State.fallback_pbTake _

/-- A change of fallback is flagged (R14). -/
theorem State.pbStepped_in (was : s.flag LE_PB_STAT.FALLBACK = false)
    (is : s.pbStepped.intcLatch.flag LE_PB_STAT.FALLBACK = true) :
    s.pbStepped.intcLatch.flag LE_EVT.PB_FB_IN = true ∧ s.pbStepped.intcLatch.flag LE_STAT.FALLBACK = true := by
  rw [s.fallback_pbStepped] at is
  rw [s.flag_pbStepped _ (by decide), s.flag_pbStepped _ (by decide), State.pbReported, is]
  exact State.reportFallback_in _ (s.fallback_pbTaken.trans was)

theorem State.pbStepped_out (was : s.flag LE_PB_STAT.FALLBACK = true)
    (is : s.pbStepped.intcLatch.flag LE_PB_STAT.FALLBACK = false) :
    s.pbStepped.intcLatch.flag LE_EVT.PB_FB_OUT = true ∧ s.pbStepped.intcLatch.flag LE_STAT.FALLBACK = false := by
  rw [s.fallback_pbStepped] at is
  rw [s.flag_pbStepped _ (by decide), s.flag_pbStepped _ (by decide), State.pbReported, is]
  exact State.reportFallback_out _ (s.fallback_pbTaken.trans was)

/-- What a boundary can write: the bridge's registers, and the targets and status of the channels. -/
theorem State.reg_pbStepped {a : Nat} (bridge : a ∉ bridgeRegs) (target : ∀ c < 16, a ≠ PG_TARGET c) (stat : ∀ c < 16, a ≠ PG_STAT c) :
    s.pbStepped.reg a = s.reg a := by
  refine (s.pbStepped_touches.regs a fun c hc => ?_).trans (s.regs_pbReported a bridge)
  have lt : c < 16 := List.mem_range.1 (List.mem_filter.1 (s.pbGiven_channels.subset hc)).1
  exact ⟨target c lt, stat c lt⟩

/-- A channel that the bridge does not feed keeps its target. -/
theorem State.target_pbStepped {c : Nat} (h : s.flag (LE_PB_MAP.EN c) = false) : s.pbStepped.reg (PG_TARGET c) = s.reg (PG_TARGET c) := by
  have out : c ∉ s.pbGiven.map Prod.fst := fun hc => by
    have fed := (List.mem_filter.1 (s.pbGiven_channels.subset hc)).2
    simp [h] at fed
  refine (s.pbStepped_touches.target out).trans (s.regs_pbReported _ ?_)
  simp only [List.mem_cons, List.not_mem_nil, or_false, PG_TARGET, LE_STAT, LE_EVT, LE_PB_STAT]
  omega

theorem State.hide_pbStepped : ({ s.pbStepped with regs := [], mem := [], le := {}, tune := { s.pbStepped.tune with events := 0 } } : State)
    = { s with regs := [], mem := [], le := {}, tune := { s.tune with events := 0 } } := by
  have hidden := State.hide_of_outside s.butBridge_pbReported
  rw [s.pbStepped_touches.rest]
  exact (congrArg (fun x : State => { x with le := {} }) hidden :)

theorem State.rd8_pbStepped (a : Nat) : s.pbStepped.rd8 a = s.rd8 a := by
  rw [s.pbStepped_touches.rest]
  exact State.rd8_of_outside s.butBridge_pbReported rfl

/-! The same with the requests forwarded, as the clause of O23 for the boundary states them. -/

theorem State.plan_pbStepped : s.pbStepped.intcLatch.le.plan = s.pbTaken.le.plan := by
  rw [State.intcLatch_le, s.le_pbStepped]

theorem State.staleN_pbStepped : s.pbStepped.intcLatch.le.staleN = s.pbTaken.le.staleN := by
  rw [State.intcLatch_le, s.le_pbStepped]

theorem State.boundary_pbStepped : s.pbStepped.intcLatch.le.boundary = some s.le.tick := by
  rw [State.intcLatch_le, s.le_pbStepped]
  exact s.boundary_pbTaken

theorem State.tick_pbStepped : s.pbStepped.intcLatch.le.tick = s.le.tick := by
  rw [State.intcLatch_le, s.pbStepped_touches.tick]
  exact (congrArg (fun x : State => x.le.tick) (State.hide_of_outside s.butBridge_pbReported) :)

theorem State.newest_pbStepped : s.pbStepped.intcLatch.pbNewest = none := by
  have taken : s.pbTaken.pbNewest = none := State.newest_pbTake _
  rw [State.pbNewest, State.intcLatch_le, s.le_pbStepped]
  exact taken

theorem State.due_pbStepped : s.pbStepped.intcLatch.pbDue = false := by
  rw [State.pbDue, s.boundary_pbStepped, s.tick_pbStepped]
  exact if_pos (by simp)

theorem State.keepsRegs_pbStepped : KeepsRegs s s.pbStepped.intcLatch
    ([LE_STAT, LE_EVT, LE_PB_STAT] ++ (List.range 16).map PG_TARGET ++ (List.range 16).map PG_STAT) := by
  refine KeepsRegs.intcLatch fun a ha _ => ?_
  simp only [List.mem_append, not_or, List.mem_map, List.mem_range, not_exists, not_and] at ha
  obtain ⟨⟨bridge, target⟩, stat⟩ := ha
  exact s.reg_pbStepped bridge (fun c hc h => target c hc h.symm) fun c hc h => stat c hc h.symm

theorem State.keepsMem_pbStepped : KeepsMem s s.pbStepped.intcLatch :=
  KeepsMem.intcLatch ⟨(congrArg State.ecc s.hide_pbStepped :), s.rd8_pbStepped⟩

theorem State.keepsRest_pbStepped :
    KeepsRest s { s.pbStepped.intcLatch with le := s.le, tune := { s.pbStepped.intcLatch.tune with events := s.tune.events } } := by
  obtain ⟨r, d, latch⟩ := s.pbStepped.intcLatch_updates
  have hidden := s.hide_pbStepped
  rw [latch]
  generalize s.pbStepped = u at hidden ⊢
  exact (congrArg (fun x : State =>
    { x with regs := s.regs, mem := s.mem, ecc := s.ecc, le := s.le, tune := { x.tune with events := s.tune.events },
             cp := { x.cp with dioReq := s.cp.dioReq } }) hidden :)

/-- A plan that is finite is taken (R12, R146). -/
theorem State.pbStepped_taken {x : List Nat} {code : Nat} (h : s.pbNewest = some (x, code)) (take : pbTakes code = true)
    (fin : s.pbFinite x = true) : s.pbStepped.intcLatch.le.staleN = 0 ∧ s.pbStepped.intcLatch.le.plan = some x
      ∧ s.pbStepped.intcLatch.fld LE_PB_STAT.STALE = 0 ∧ s.pbStepped.intcLatch.flag LE_PB_STAT.NONFINITE = false := by
  obtain ⟨stale, plan, shown, nonfinite⟩ := State.pbTake_taken { s with le := { s.le with boundary := some s.le.tick } } h take fin
  refine ⟨s.staleN_pbStepped.trans stale, s.plan_pbStepped.trans plan, ?_, ?_⟩
  · rw [s.fld_pbStepped _ (by decide), State.pbReported,
      State.fld_reportFallback _ _ _ (by decide) (by decide) (by decide) (by decide)]
    exact shown
  · rw [State.flag, s.fld_pbStepped _ (by decide), State.pbReported,
      State.fld_reportFallback _ _ _ (by decide) (by decide) (by decide) (by decide)]
    exact nonfinite

/-- A plan that is not finite is refused (R146). -/
theorem State.pbStepped_refused {x : List Nat} {code : Nat} (h : s.pbNewest = some (x, code)) (take : pbTakes code = true)
    (infinite : s.pbFinite x = false) : s.pbStepped.intcLatch.le.staleN = s.le.staleN + 1 ∧ s.pbStepped.intcLatch.le.plan = s.le.plan
      ∧ s.pbStepped.intcLatch.flag LE_PB_STAT.NONFINITE = true ∧ s.pbStepped.intcLatch.flag LE_EVT.PB_NONFIN = true := by
  obtain ⟨stale, plan, nonfinite, event⟩ :=
    State.pbTake_refused { s with le := { s.le with boundary := some s.le.tick } } h take infinite
  refine ⟨s.staleN_pbStepped.trans stale, s.plan_pbStepped.trans plan, ?_, ?_⟩
  · rw [State.flag, s.fld_pbStepped _ (by decide), State.pbReported,
      State.fld_reportFallback _ _ _ (by decide) (by decide) (by decide) (by decide)]
    exact nonfinite
  · rw [State.flag, s.fld_pbStepped _ (by decide), State.pbReported,
      State.fld_reportFallback _ _ _ (by decide) (by decide) (by decide) (by decide)]
    exact event

/-- Without a plan to take the bridge counts and keeps its plan (R12, R13). -/
theorem State.pbStepped_absent (h : s.pbNewest = none) :
    s.pbStepped.intcLatch.le.staleN = s.le.staleN + 1 ∧ s.pbStepped.intcLatch.le.plan = s.le.plan :=
  have kept := State.le_pbTake_none { s with le := { s.le with boundary := some s.le.tick } } h
  ⟨s.staleN_pbStepped.trans kept.1, s.plan_pbStepped.trans kept.2⟩

theorem State.pbStepped_skipped {x : List Nat} {code : Nat} (h : s.pbNewest = some (x, code)) (skip : pbTakes code = false) :
    s.pbStepped.intcLatch.le.staleN = s.le.staleN + 1 ∧ s.pbStepped.intcLatch.le.plan = s.le.plan :=
  have kept := State.le_pbTake_skipped { s with le := { s.le with boundary := some s.le.tick } } h skip
  ⟨s.staleN_pbStepped.trans kept.1, s.plan_pbStepped.trans kept.2⟩

/-- While the plan in use has an entry, its targets go to the channels (R145). -/
theorem State.pbStepped_entry (run : s.flag LE_CTL.EN = true) {x : List Nat} (plan : s.pbStepped.intcLatch.le.plan = some x)
    (fresh : s.pbStepped.intcLatch.le.staleN ≤ s.pbLimit) {l : List (Nat × Nat)}
    (entry : s.pbTargets x (s.pbStepped.intcLatch.le.staleN / s.pbBlock) = some l) :
    s.pbStepped.intcLatch.flag LE_PB_STAT.FALLBACK = false ∧ ∀ p ∈ pbConvert l, GetsTarget s s.pbStepped.intcLatch p.1 p.2 := by
  rw [s.plan_pbStepped] at plan
  rw [s.staleN_pbStepped] at fresh entry
  have planned := s.pbPlanned_entry plan fresh entry
  have given : s.pbGiven = pbConvert l := by rw [State.pbGiven, planned, Option.getD_some]
  rw [s.fallback_pbStepped, planned, ← given]
  exact ⟨rfl, s.pbStepped_gives run⟩

/-- Without one, those of the heating curve (R165). -/
theorem State.pbStepped_noEntry (run : s.flag LE_CTL.EN = true)
    (none_ : ∀ x, s.pbStepped.intcLatch.le.plan = some x → s.pbStepped.intcLatch.le.staleN ≤ s.pbLimit →
      s.pbTargets x (s.pbStepped.intcLatch.le.staleN / s.pbBlock) = none) :
    s.pbStepped.intcLatch.flag LE_PB_STAT.FALLBACK = true ∧ ∀ p ∈ s.pbFallback, GetsTarget s s.pbStepped.intcLatch p.1 p.2 := by
  rw [s.plan_pbStepped, s.staleN_pbStepped] at none_
  have planned := s.pbPlanned_noEntry none_
  have given : s.pbGiven = s.pbFallback := by rw [State.pbGiven, planned, Option.getD_none, s.fallback_pbReported]
  rw [s.fallback_pbStepped, planned, ← given]
  exact ⟨rfl, s.pbStepped_gives run⟩

theorem State.mem_pbFallback {c : Nat} (hc : c < 16) (fed : s.flag (LE_PB_MAP.EN c) = true) {v : Dy}
    (h : (if s.flag (LE_PB_FB.KIND c) then some (c, (s.slot (s.fld (LE_PB_FB.SLOT c))).out.dy)
      else if fisFin b32 (s.reg (LE_PB_FBV c)).toNat then some (c, s.reg32f (LE_PB_FBV c)) else none) = some (c, v)) :
    (c, v) ∈ s.pbFallback :=
  List.mem_filterMap.2 ⟨c, List.mem_filter.2 ⟨List.mem_range.2 hc, fed⟩, h⟩

end boundary

/-- Settles O23: the boundary by the lemmas about its stages, and the other commands each by its own. -/
theorem plansAndProfiles : Obligations.PlansAndProfiles := by
  unfold Obligations.PlansAndProfiles
  refine ⟨fun s run en stall due => Runs.of_out (exec_planStepBoundary run en stall due) ?boundary, Runs.pgUpdate, Runs.pgTarget_taken,
    Runs.pgTarget_refused, Runs.pgPlanComplete, Runs.pgStop, Runs.pgPreset, Runs.pgEnable, Runs.comparePoint⟩
  case boundary =>
    refine ⟨s.newest_pbStepped, s.boundary_pbStepped, s.due_pbStepped, s.keepsRegs_pbStepped, s.keepsMem_pbStepped,
      s.keepsRest_pbStepped, s.pbStepped_absent, fun _ _ => s.pbStepped_skipped, fun _ _ => s.pbStepped_taken,
      fun _ _ => s.pbStepped_refused, fun _ plan fresh _ => s.pbStepped_entry run plan fresh, fun noEntry => ?fallback,
      fun c hc off => ?unfed, s.pbStepped_in, s.pbStepped_out⟩
    case fallback =>
      obtain ⟨shown, gives⟩ := s.pbStepped_noEntry run noEntry
      refine ⟨shown, fun c hc fed => ⟨fun slot => gives (c, _) (s.mem_pbFallback hc fed (if_pos slot)),
        fun const fin => gives (c, s.reg32f (LE_PB_FBV c)) (s.mem_pbFallback hc fed ?_)⟩⟩
      rw [if_neg (by simp [const]), if_pos fin]
    case unfed =>
      rw [State.reg_intcLatch _ _ (by simp only [PG_TARGET]; omega)]
      exact s.target_pbStepped off

end Sys2Proof.Machine
end

section
/-! SUPPORT. A SYSRST that RESTART asked for waits until its response has gone out (R369); till then the node runs on, and its balls with
it (R35). -/

namespace Sys2Proof.Machine

/-- A started node that RESTART has asked for a SYSRST, in the tick of the request: the response still waits for the bus. -/
def restartAnswering : State where
  pwr := { on := true }
  boot := { step := 10 }
  rst := { sys := true, answer := some (0, 0) }
  net := { sent := [{ chan := 0, prio := 4, type := 0x05, node := 0, record := [] }] }

/-- While RESTART's response has still to go out, no SYSRST takes effect. -/
theorem exec_sysrst_answering {s : State} (cut : CutPoint) (now : s.rst.now = false) (answering : s.answering = true) :
    exec (.sysrst cut) s = s.out :=
  congrArg State.out (if_neg (by simp [now, answering]))

/-- In normal running the pump PWM balls are as the palette image and the drives have them (R35). -/
theorem State.pins_pumpPwm_running {s : State} (on : s.pwr.on = true) (started : s.started = true) (runs : s.stalled = false) :
    s.pins .pumpPwm = .programmed := by
  have noStall : (s.pwr.stall || s.pwr.resume) = false := runs
  simp [State.pins, on, started, noStall]

/-- Refutes O7: its clause on a SYSRST has premises that one was asked for and that no RESET save runs, but none that RESTART's response
has gone out (R369). In `restartAnswering` that response waits, so the command leaves the node running and its pump PWM balls
programmed, where the clause has them driven low. -/
theorem not_ballStates : ¬ Obligations.BallStates := by
  unfold Obligations.BallStates
  rintro ⟨-, sysrst, -⟩
  obtain ⟨t, run, -, pumpPwm, -⟩ := sysrst restartAnswering ⟨0, 0, 0, 0, 0, 0, 0⟩ rfl rfl rfl
  rw [exec_sysrst_answering _ rfl (by decide), State.out_next] at run
  have started : restartAnswering.intcLatch.started = true := by rw [State.started, State.intcLatch_boot]; rfl
  have runs : restartAnswering.intcLatch.stalled = false := by rw [State.stalled, State.intcLatch_pwr]; rfl
  have programmed : t.pins .pumpPwm = .programmed := by
    rw [run]
    exact State.pins_pumpPwm_running (by rw [State.intcLatch_pwr]; rfl) started runs
  rw [pumpPwm] at programmed
  exact absurd programmed (by decide)

end Sys2Proof.Machine
end

section
/-! SUPPORT. The statements of the feeds that the state after reset settles, or one state of the model (R41, R52, R112). -/

namespace Sys2Proof.Machine

/-- Without a holder and without a handover, both OR-ing paths open, the paths are apart. -/
theorem PathsApart.of_open {s : State} (open0 : nth s.pwr.closed 0 false = false) (free : s.pwr.holder = none) (calm : s.pwr.ho = none) :
    PathsApart s :=
  ⟨fun both => by simp [open0] at both, fun f held => by simp [free] at held, fun h under => by simp [calm] at under⟩

/-- Settles O18: the model evaluates the 80 sources at reset, and the supply at reset has neither holder nor handover. -/
theorem resetIsSettled : Obligations.ResetIsSettled := by
  unfold Obligations.ResetIsSettled
  have forwarded : IntcSettled State.reset := by
    unfold IntcSettled
    decide
  exact ⟨forwarded, .of_open rfl rfl rfl, rfl⟩

/-- A supply whose token is held by a feed 2, which the node does not have, and whose feeds have both been in order for 100 checks. -/
def strangerHolds : State where
  pwr := { holder := some 2, good := [100, 100] }

/-- A check that reads both feeds and the rails in order, and a phase current above any limit of PWR_CFG.OC. -/
def phaseOver : SupervisorSample where
  vfa := 24000
  vfb := 24000
  vhold := 24000
  faultA := false
  faultB := false
  phase := 100000
  vdd33 := 3300
  vdd08 := 800
  vdda18 := 1800
  closed := true

/-- Refutes O8: its clause on a feed that meets R41 for the 100th time asks of the holder only that it is not that feed, and not that it
is a feed. In `strangerHolds`, which no run reaches, the check decides against the holder 2 and clears with it the flag of VFB, whose
bit any feed but VFA has (`eligField`), though VFB is in order. -/
theorem not_supervisorChecks : ¬ Obligations.SupervisorChecks := by
  unfold Obligations.SupervisorChecks
  rintro ⟨-, -, -, -, -, -, eligible, -⟩
  have inOrder : FeedGood strangerHolds phaseOver (1 : Fin 2) := by unfold FeedGood; decide
  obtain ⟨t, (run : (strangerHolds.supervise phaseOver).out = .next t), shown⟩ :=
    eligible strangerHolds phaseOver 1 (by decide) rfl (by decide) (by decide) inOrder
  have cleared : (strangerHolds.supervise phaseOver).flag PWR_STAT.B_ELIG = false := by decide +kernel
  rw [(State.out_next _ t).1 run, eligField, if_neg (by decide), State.flag_intcLatch _ _ (by decide), cleared] at shown
  exact absurd shown (by decide)

/-- The clocks are back after a brown stall of one tick that found a scan cycle under way, which was to end in the next tick. -/
def scanUnderWay : State where
  pwr := { resume := true, missed := 1 }
  se := { ends := 1000 }

/-- Where the scan cycle under way ends after command `c`. -/
def State.scanEndAfter (s : State) (c : Instr) : Option Nat :=
  match exec c s with
  | .next t => some t.se.ends
  | _ => none

/-- Refutes O10: its clause on LE_RESUME keeps everything but the units it names, and SE is not among them; but a scan cycle that was
under way ends as much later as the stall lasted (log entry 53):
the one of `scanUnderWay` at 2000 and no longer at 1000. -/
theorem not_holdStallAndWarning : ¬ Obligations.HoldStallAndWarning := by
  unfold Obligations.HoldStallAndWarning
  rintro ⟨-, -, resume, -⟩
  obtain ⟨t, run, -, -, -, -, rest⟩ := resume scanUnderWay rfl rfl
  have later : scanUnderWay.scanEndAfter .leResume = some 2000 := by decide +kernel
  have kept : t.se.ends = 1000 := congrArg (fun u : State => u.se.ends) rest
  rw [State.scanEndAfter, run] at later
  simp [kept] at later

end Sys2Proof.Machine
end

section
/-! SUPPORT. What the assertion of PF_WARN, and what the time of a replacement cause, leave alone (R59, R60, R507). -/

namespace Sys2Proof.Machine

/-- The supply's state and the registers of PWR. -/
def State.supply (s : State) : PwrSt × (Nat → Word) × (Nat → Byte) := s.outside State.pwr (fun a => a / 0x10000 != 0x4001) fun _ => true

section supply
variable {s t : State}

theorem State.pwr_of_supply (h : t.supply = s.supply) : t.pwr = s.pwr := State.hide_of_outside h

theorem State.fld_of_supply (h : t.supply = s.supply) {f : Field} (hf : (f.addr / 0x10000 != 0x4001) = false) : t.fld f = s.fld f := by
  rw [State.fld, State.reg_of_outside h hf, State.fld]

theorem State.flag_of_supply (h : t.supply = s.supply) {f : Field} (hf : (f.addr / 0x10000 != 0x4001) = false) : t.flag f = s.flag f := by
  rw [State.flag, State.fld_of_supply h hf, State.flag]

end supply

section pfwAssert
variable (s : State)

theorem State.supply_setFld {f : Field} (v : Nat) (h : (f.addr / 0x10000 != 0x4001) = true) : (s.setFld f v).supply = s.supply :=
  State.outside_setFld v h

theorem State.supply_setFlag {f : Field} (b : Bool) (h : (f.addr / 0x10000 != 0x4001) = true) : (s.setFlag f b).supply = s.supply :=
  State.outside_setFlag b h

theorem State.supply_setBoot (b : BootSt) : (s.setBoot b).supply = s.supply := rfl

theorem State.supply_saveOccasion (k : SaveKind) : (s.saveOccasion k).supply = s.supply :=
  State.outside_mono (s.butSaves_saveOccasion k) State.pwr (fun _ => rfl)
    (fun a ha => by
      rw [List.contains_iff_mem] at ha
      rcases List.mem_pair.1 ha with rfl | rfl <;> rfl)
    fun _ _ => rfl

theorem State.supply_injAbort (c : Nat) : (s.injAbort c).supply = s.supply :=
  State.outside_mono (s.butWork_injAbort c) (fun x => x.2.2.2.2.2.1) (fun _ => rfl)
    (fun a ha => by
      simp only [blocks, List.contains_iff_mem, List.mem_cons, List.not_mem_nil, or_false] at ha
      rw [bne_iff_ne]
      omega)
    fun _ _ => rfl

theorem State.supply_showOfs : s.showOfs.supply = s.supply := by
  refine forN_keeps_lt State.supply _ (fun n hn x => ?_) s
  have sched : (LE_SLOT_SCHED n / 0x10000 != 0x4001) = true := by
    rw [bne_iff_ne, LE_SLOT_SCHED]
    omega
  split
  · exact x.supply_setFld _ sched
  · rfl

theorem State.supply_setProfile (p : Nat) : (s.setProfile p).supply = s.supply :=
  (State.supply_setFlag _ _ rfl).trans ((State.supply_showOfs _).trans ((State.supply_setFlag _ true rfl).trans (s.supply_setFld p rfl)))

theorem State.supply_traceFreeze : s.traceFreeze.supply = s.supply := by
  unfold State.traceFreeze
  split
  · exact (State.supply_setFlag _ true rfl).trans ((State.supply_setFlag _ true rfl).trans
      ((State.supply_setFlag _ false rfl).trans (s.supply_setFlag false rfl)))
  · rfl

theorem State.supply_bistCut : s.bistCut.supply = s.supply := by
  unfold State.bistCut
  split <;> rfl

theorem State.supply_holdupTakes : s.holdupTakes.supply = s.supply :=
  (State.supply_bistCut _).trans ((State.supply_injAbort _ 3).trans ((State.supply_traceFreeze _).trans (s.supply_setProfile 3)))

theorem State.supply_pfailQueue : s.pfailQueue.supply = s.supply := by
  refine forN_keeps State.supply _ (fun c x => ?_) 10 s
  rw [apply_ite State.supply]
  exact ite_self x.supply

theorem State.supply_startAbort : s.startAbort.supply = s.supply := by
  unfold State.startAbort
  split
  · rfl
  · exact (State.supply_setBoot _ _).trans ((State.supply_setFld _ 0xFF rfl).trans (s.supply_setFld 0xFF rfl))

/-- PF_WARN asserted, as PWR itself shows it (R59). -/
def State.pfwShown : State := (s.setFlag PWR_STAT.PFW true).setFlag PWR_EVT.PFW_SET true

/-- An assertion of PF_WARN reaches SYS, the totals, the links and the steward; the supply itself but shows it (R59, R60, R82). -/
theorem State.supply_pfwAssert (h : s.flag PWR_STAT.PFW = false) : s.pfwAssert.supply = s.pfwShown.supply := by
  unfold State.pfwAssert
  rw [if_neg (by simp [h])]
  extract_lets shown forced tot unstalled saved
  have force : forced.supply = s.pfwShown.supply := by
    unfold forced
    split
    · rfl
    · exact (State.supply_setFlag _ false rfl).trans (State.supply_setFlag _ true rfl)
  have save : saved.supply = s.pfwShown.supply := by
    unfold saved
    split
    · exact (State.supply_holdupTakes _).trans force
    split
    · exact (State.supply_saveOccasion _ _).trans force
    · exact force
  split
  · exact (State.supply_pfailQueue _).trans save
  · exact (State.supply_startAbort _).trans save

theorem State.pwr_pfwAssert : s.pfwAssert.pwr = s.pwr := by
  cases h : s.flag PWR_STAT.PFW with
  | true => rw [State.pfwAssert, if_pos h]
  | false => rw [State.pwr_of_supply (s.supply_pfwAssert h), State.pfwShown, State.setFlag_pwr, State.setFlag_pwr]

theorem State.pfw_pfwAssert : s.pfwAssert.flag PWR_STAT.PFW = true := by
  cases h : s.flag PWR_STAT.PFW with
  | true => rw [State.pfwAssert, if_pos h, h]
  | false =>
    rw [State.flag_of_supply (s.supply_pfwAssert h) rfl, State.pfwShown, State.flag_setFlag_ne _ _ _ _ (by decide),
      State.flag_setFlag_self _ _ _ rfl (by decide)]

/-- A field of PWR that does not show PF_WARN is as it was. -/
theorem State.fld_pfwAssert {f : Field} (block : (f.addr / 0x10000 != 0x4001) = false) (word : f.hi < 32)
    (stat : f.addr ≠ PWR_STAT ∨ f.hi < 8 ∨ 8 < f.lo) (evt : f.addr ≠ PWR_EVT ∨ f.hi < 4 ∨ 4 < f.lo) :
    s.pfwAssert.fld f = s.fld f := by
  cases h : s.flag PWR_STAT.PFW with
  | true => rw [State.pfwAssert, if_pos h]
  | false =>
    rw [State.fld_of_supply (s.supply_pfwAssert h) block, State.pfwShown]
    calc _ = (s.setFlag PWR_STAT.PFW true).fld f :=
          evt.elim (State.fld_setFlag_ne _ PWR_EVT.PFW_SET _ _) (State.fld_setFlag_disjoint _ PWR_EVT.PFW_SET _ _ · word)
      _ = s.fld f := stat.elim (State.fld_setFlag_ne _ PWR_STAT.PFW _ _) (State.fld_setFlag_disjoint _ PWR_STAT.PFW _ _ · word)

theorem State.flag_pfwAssert {f : Field} (block : (f.addr / 0x10000 != 0x4001) = false) (word : f.hi < 32)
    (stat : f.addr ≠ PWR_STAT ∨ f.hi < 8 ∨ 8 < f.lo) (evt : f.addr ≠ PWR_EVT ∨ f.hi < 4 ∨ 4 < f.lo) :
    s.pfwAssert.flag f = s.flag f := by
  rw [State.flag, s.fld_pfwAssert block word stat evt, State.flag]

end pfwAssert

section setCause
variable (s : State) {b : Nat}

theorem State.reg_pmLater (c off v a : Nat) : (s.pmLater c off v).reg a = s.reg a :=
  State.reg_of_outside (own := noByte) (mem := fun _ => true) (State.outside_pmLater c v fun _ _ => rfl) rfl

/-- A replacement cause shows in its own registers alone (R507, R508). -/
theorem State.outside_setCause_causeRegs (v : Bool) (hb : b < 10) :
    (s.setCause b v).outside hideArray (causeRegs b).contains (causeWordBytes b)
      = s.outside hideArray (causeRegs b).contains (causeWordBytes b) := by
  have own : ∀ a ∈ causeRegs b, (causeRegs b).contains a = true := fun _ => List.contains_iff_mem.2
  have inWord : ∀ i < 8, causeWordBytes b (pmAddr (pmWordAt (0x2800 + 8 * (1 + b))) + i) = true := fun i hi => by
    rw [pmAddr_causeWord hb]
    simp [causeWordBytes]
    omega
  unfold State.setCause
  extract_lets word cause seen event tick
  have noted : event.outside hideArray (causeRegs b).contains (causeWordBytes b)
      = s.outside hideArray (causeRegs b).contains (causeWordBytes b) :=
    (State.outside_setFlag _ (own _ (by simp [causeRegs]))).trans ((State.outside_setReg _ (own _ (by simp [causeRegs]))).trans
      (State.outside_setReg _ (own _ (by simp [causeRegs]))))
  split
  · rfl
  split
  · exact (State.outside_setReg64 _ (own _ (by simp [causeRegs])) (own _ (by simp [causeRegs]))).trans
      ((State.outside_pmLater 4 _ inWord).trans noted)
  · exact noted

/-- Before decommissioning a replacement cause that is raised stands in LCS_CAUSE (R507). -/
theorem State.bit_setCause (hb : b < 10) (alive : s.fld LCS_STAT.STATE ≠ 4) :
    bit ((s.setCause b true).reg LCS_CAUSE).toNat b = true := by
  unfold State.setCause
  extract_lets word cause seen event tick
  split
  case isTrue h => simpa [alive] using h
  case isFalse h =>
    have tickLo : LCS_CAUSE ≠ LCS_CAUSE_TICK_LO b := by simp only [LCS_CAUSE, LCS_CAUSE_TICK_LO]; omega
    have tickHi : LCS_CAUSE ≠ LCS_CAUSE_TICK_HI b := by simp only [LCS_CAUSE, LCS_CAUSE_TICK_HI]; omega
    rw [if_pos rfl, State.setReg64, State.reg_setReg_ne _ _ _ _ tickHi, State.reg_setReg_ne _ _ _ _ tickLo, State.reg_pmLater,
      State.reg_setFlag_ne _ _ _ _ (by decide), State.reg_setReg_ne _ _ _ _ (by decide), State.reg_setReg_self, bit_eq_testBit,
      BitVec.toNat_ofNat, Nat.testBit_mod_two_pow, decide_eq_true (by omega : b < 32), Bool.true_and, ← bit_eq_testBit]
    exact bit_putBit_self _ _

theorem State.ecc_setCause (v : Bool) {x : Nat × Bool} (hx : x.1 ≠ 0x2800 + 8 * (1 + b)) : x ∈ (s.setCause b v).ecc ↔ x ∈ s.ecc :=
  State.mem_ecc_of_eccBut (s.eccBut_setCause b v) x hx

/-- The time of a replacement cause is the one word of memory that raising it writes (R508). -/
theorem KeepsMemOut.setCause (v : Bool) (hb : b < 10) : KeepsMemOut s (s.setCause b v) (0x38002808 + 8 * b) 8 := by
  refine ⟨fun a ha => State.rd8_of_outside (s.outside_setCause_causeRegs v hb) ?_, fun x hx => s.ecc_setCause v ?_⟩
  · simp only [causeWordBytes, Bool.and_eq_false_iff, decide_eq_false_iff_not]
    omega
  · simp only [pmAddr] at hx
    omega

end setCause

end Sys2Proof.Machine
end

section
/-! SUPPORT. The supply's events between supervisor checks (R40, R43 to R47, R56, R58, R59). -/

namespace Sys2Proof.Machine

/-- The gateways keep the frame of an event of the supply. -/
theorem KeepsRest.supply_intcLatch {s u : State} (h : KeepsRest s { u with pwr := s.pwr }) :
    KeepsRest s { u.intcLatch with pwr := s.pwr } := by
  obtain ⟨r, d, latch⟩ := u.intcLatch_updates
  rw [latch]
  exact h

theorem State.flag_latched {s : State} {f : Field} (h : f.addr < 0x40130000) : s.intcLatch.flag f = s.flag f :=
  s.flag_intcLatch f (.inl (by omega))

theorem State.fld_latched {s : State} {f : Field} (h : f.addr < 0x40130000) : s.intcLatch.fld f = s.fld f :=
  s.fld_intcLatch f (.inl (by omega))

/-- A register set in the state a frame speaks of is one that it names. -/
theorem KeepsRegs.setReg {s u : State} {l : List Nat} (h : KeepsRegs s u l) {a : Nat} (v : Word) (ha : a ∈ l) :
    KeepsRegs s (u.setReg a v) l := fun b hb hp => by
  rw [State.reg_setReg_ne _ _ _ _ fun same => hb (by rwa [same]), h b hb hp]

theorem KeepsRegs.setFld {s u : State} {l : List Nat} (h : KeepsRegs s u l) {f : Field} (v : Nat) (hf : f.addr ∈ l) :
    KeepsRegs s (u.setFld f v) l := h.setReg _ hf

theorem KeepsRegs.setFlag {s u : State} {l : List Nat} (h : KeepsRegs s u l) {f : Field} (b : Bool) (hf : f.addr ∈ l) :
    KeepsRegs s (u.setFlag f b) l := h.setReg _ hf

theorem KeepsRegs.setPwr {s u : State} {l : List Nat} (h : KeepsRegs s u l) (p : PwrSt) : KeepsRegs s (u.setPwr p) l :=
  fun a ha hp => (u.setPwr_reg p a).trans (h a ha hp)

theorem KeepsRegs.refl (s : State) (l : List Nat) : KeepsRegs s s l := fun _ _ _ => rfl

theorem fltField_addr (f : Nat) : (fltField f).addr = PWR_STAT := by
  unfold fltField
  split <;> rfl

theorem State.flag_setFlt (s : State) (f : Nat) (b : Bool) : (s.setFlag (fltField f) b).flag (fltField f) = b := by
  unfold fltField
  split <;> exact s.flag_setFlag_self _ _ rfl (by decide)

/-- The fault flag of the other controller stays. -/
theorem State.flag_setFlt_other (s : State) {f : Nat} (hf : f < 2) (b : Bool) :
    (s.setFlag (fltField f) b).flag (fltField (1 - f)) = s.flag (fltField (1 - f)) := by
  obtain rfl | rfl : f = 0 ∨ f = 1 := by omega
  · exact s.flag_setFlag_disjoint PWR_STAT.A_FLT PWR_STAT.B_FLT b (by decide) (by decide)
  · exact s.flag_setFlag_disjoint PWR_STAT.B_FLT PWR_STAT.A_FLT b (by decide) (by decide)

section leaseExpiry
variable (s : State) (f : Fin 2)

/-- A lease that ran out unrenewed opens its path (R43). -/
theorem Runs.leaseExpiry (free : s.pwr.holder ≠ some f.val) : Runs (.leaseExpiry f) s fun t =>
    t.pwr = { s.pwr with closed := putAt s.pwr.closed f false } ∧ KeepsRegs s t [] ∧ KeepsMem s t
      ∧ KeepsRest s { t with pwr := s.pwr } := by
  have opens : exec (.leaseExpiry f) s = (s.setPwr { s.pwr with closed := putAt s.pwr.closed f false }).out :=
    congrArg State.out (if_neg (by simpa using free))
  exact Runs.of_out opens ⟨by simp, ((KeepsRegs.refl s []).setPwr _).intcLatch, KeepsMem.intcLatch ⟨rfl, fun _ => rfl⟩,
    KeepsRest.supply_intcLatch rfl⟩

/-- A controller's fault flag opens its path, and passes conversion on (R40, R43). -/
theorem Runs.controllerFaultFlag : Runs (.controllerFaultFlag f) s fun t =>
    t.flag (fltField f) = true ∧ t.pwr.closed = putAt s.pwr.closed f false
    ∧ t.pwr.conv = (if s.pwr.conv = f ∧ s.flag (fltField (1 - f)) = false then 1 - f.val else s.pwr.conv)
    ∧ KeepsRegs s t [PWR_STAT] ∧ KeepsMem s t ∧ KeepsRest s { t with pwr := s.pwr } := by
  refine Runs.of_out (u := s.faultRaise f) rfl ⟨?flag, ?path, ?conv, ?regs, KeepsMem.intcLatch ⟨rfl, fun _ => rfl⟩,
    KeepsRest.supply_intcLatch rfl⟩
  case flag =>
    rw [State.flag_latched (by rw [fltField_addr]; decide)]
    exact s.flag_setFlt f true
  case path => rw [State.intcLatch_pwr]; rfl
  case conv =>
    rw [State.intcLatch_pwr, ← s.flag_setFlt_other f.isLt true]
    simp [State.faultRaise]
  case regs => exact (((KeepsRegs.refl s _).setFlag true (by simp [fltField_addr])).setPwr _).intcLatch

end leaseExpiry

section handoverGrant
variable (s : State) (h : Handover)

theorem exec_handoverGrant {s : State} {h : Handover} (ho : s.pwr.ho = some h) (waits : h.granted = none) (due : 4 ≤ h.since) :
    exec .handoverGrant s = (if s.feedElig h.inn then (s.grant h.inn).setPwr { (s.grant h.inn).pwr with ho := some { h with granted := some 0 } }
      else (if h.sup then (if h.back then s else s.hoOutcome h 2).setFlag PWR_EVT.SHO true else if h.back then s else s.hoOutcome h 2).hoLost).out := by
  have now : (h.granted.isSome || decide (h.since < 4)) = false := by simp [waits, due]
  show execHandoverGrant s = _
  rw [execHandoverGrant, ho]
  simp only [now, Bool.false_eq_true, if_false]

/-- The grant of a handover whose standby is eligible (R44, R46). -/
theorem Runs.handoverGrant_given (ho : s.pwr.ho = some h) (waits : h.granted = none) (due : 4 ≤ h.since) (feed : h.inn < 2)
    (elig : s.feedElig h.inn = true) : Runs .handoverGrant s fun t =>
      t.pwr = { s.pwr with holder := some h.inn, lease := 4, uv := 0, conv := h.inn, closed := putAt s.pwr.closed (1 - h.inn) false,
                           ho := some { h with granted := some 0 } }
      ∧ t.flag PWR_STAT.TOKEN = true ∧ t.fld PWR_STAT.HOLDER = h.inn
      ∧ KeepsRegs s t [PWR_STAT] ∧ KeepsMem s t ∧ KeepsRest s { t with pwr := s.pwr } := by
  refine Runs.of_out ((exec_handoverGrant ho waits due).trans (congrArg State.out (if_pos elig)))
    ⟨by simp [State.grant], ?token, ?holder, ?regs, KeepsMem.intcLatch ⟨rfl, fun _ => rfl⟩, KeepsRest.supply_intcLatch rfl⟩
  case token =>
    rw [State.flag_latched (by decide), State.grant, State.setPwr_flag, State.setPwr_flag,
      State.flag_setFld_disjoint _ _ _ _ (by decide) (by decide), State.flag_setFlag_self _ _ _ rfl (by decide)]
  case holder =>
    rw [State.fld_latched (by decide), State.grant, State.setPwr_fld, State.setPwr_fld,
      State.fld_setFld_self _ _ _ (by decide) (by decide)]
    exact Nat.mod_eq_of_lt feed
  case regs =>
    exact ((((KeepsRegs.refl s _).setFlag true (by simp)).setFld h.inn (by simp)).setPwr _).setPwr _ |>.intcLatch

/-- A handover that is lost, up to the assertion of PF_WARN. -/
def State.hoDropped (s : State) : State :=
  (((s.setFlag PWR_STAT.HANDOVER false).setFlag PWR_STAT.SUPV false).setFlag PWR_EVT.HO_FAIL true).setPwr
    { s.pwr with ho := none, regAfter := if s.inHold then some 0 else none }

theorem State.hoLost_eq : s.hoLost = s.hoDropped.pfwAssert := by
  have window : (((s.setFlag PWR_STAT.HANDOVER false).setFlag PWR_STAT.SUPV false).setFlag PWR_EVT.HO_FAIL true).inHold = s.inHold := by
    rw [State.inHold, State.flag_setFlag_ne _ _ _ _ (by decide), State.flag_setFlag_disjoint _ _ _ _ (by decide) (by decide),
      State.flag_setFlag_disjoint _ _ _ _ (by decide) (by decide), State.inHold]
  simp only [State.hoLost, State.hoDropped, window, State.setFlag_pwr]

/-- A handover that is lost leaves token and paths, and shows that it failed (R46, R59). -/
theorem State.hoLost_post : s.hoLost.pwr.ho = none ∧ s.hoLost.pwr.holder = s.pwr.holder ∧ s.hoLost.pwr.closed = s.pwr.closed
    ∧ s.hoLost.fld PWR_HO_STAT.OUTCOME = s.fld PWR_HO_STAT.OUTCOME ∧ s.hoLost.flag PWR_STAT.HANDOVER = false
    ∧ s.hoLost.flag PWR_EVT.HO_FAIL = true ∧ s.hoLost.flag PWR_STAT.PFW = true := by
  rw [s.hoLost_eq]
  refine ⟨?ho, ?holder, ?closed, ?outcome, ?handover, ?fail, State.pfw_pfwAssert _⟩
  case ho | holder | closed => rw [State.pwr_pfwAssert]; rfl
  case outcome =>
    rw [State.fld_pfwAssert _ rfl (by decide) (by decide) (by decide), State.hoDropped, State.setPwr_fld]
    rw [State.fld_setFlag_ne _ _ _ _ (by decide), State.fld_setFlag_ne _ _ _ _ (by decide), State.fld_setFlag_ne _ _ _ _ (by decide)]
  case handover =>
    rw [State.flag_pfwAssert _ rfl (by decide) (by decide) (by decide), State.hoDropped, State.setPwr_flag,
      State.flag_setFlag_ne _ _ _ _ (by decide), State.flag_setFlag_disjoint _ _ _ _ (by decide) (by decide),
      State.flag_setFlag_self _ _ _ rfl (by decide)]
  case fail =>
    rw [State.flag_pfwAssert _ rfl (by decide) (by decide) (by decide), State.hoDropped, State.setPwr_flag,
      State.flag_setFlag_self _ _ _ rfl (by decide)]

/-- The grant of a handover whose standby is not eligible: the handover is lost with OUTCOME 2 (R46, R59). -/
theorem Runs.handoverGrant_lost (ho : s.pwr.ho = some h) (waits : h.granted = none) (due : 4 ≤ h.since) (forth : h.back = false)
    (elig : s.feedElig h.inn = false) : Runs .handoverGrant s fun t =>
      t.pwr.ho = none ∧ t.pwr.holder = s.pwr.holder ∧ t.pwr.closed = s.pwr.closed ∧ t.fld PWR_HO_STAT.OUTCOME = 2
      ∧ t.flag PWR_STAT.HANDOVER = false ∧ t.flag PWR_EVT.HO_FAIL = true ∧ t.flag PWR_STAT.PFW = true := by
  let u := if h.sup then (s.hoOutcome h 2).setFlag PWR_EVT.SHO true else s.hoOutcome h 2
  have pwr : u.pwr = s.pwr := by
    unfold u
    split <;> rfl
  have outcome : u.fld PWR_HO_STAT.OUTCOME = 2 := by
    have shown : (s.hoOutcome h 2).fld PWR_HO_STAT.OUTCOME = 2 := State.fld_setFld_self _ _ _ (by decide) (by decide)
    unfold u
    split
    · rw [State.fld_setFlag_ne _ _ _ _ (by decide), shown]
    · exact shown
  have lost : exec .handoverGrant s = u.hoLost.out := by
    rw [exec_handoverGrant ho waits due, if_neg (by simp [elig]), forth]
    rfl
  obtain ⟨gone, holder, closed, same, handover, fail, warn⟩ := u.hoLost_post
  rw [pwr] at holder closed
  rw [outcome] at same
  refine Runs.of_out lost ⟨?_, ?_, ?_, ?_, ?_, ?_, ?_⟩
  · rw [State.intcLatch_pwr, gone]
  · rw [State.intcLatch_pwr, holder]
  · rw [State.intcLatch_pwr, closed]
  · rw [State.fld_latched (by decide), same]
  · rw [State.flag_latched (by decide), handover]
  · rw [State.flag_latched (by decide), fail]
  · rw [State.flag_latched (by decide), warn]

end handoverGrant

section request
variable (s : State) (v : Word)

/-- The feed that does not hold the token is eligible. -/
def State.standbyElig (s : State) : Bool :=
  match s.pwr.holder with
  | some f => s.feedElig (1 - f)
  | none => false

/-- The supervisor refuses a supervised handover (R56). -/
def State.hoRefuses (s : State) : Bool :=
  !s.standbyElig || s.pwr.ho.isSome || s.pwr.req || s.inHold || s.flag PWR_STAT.PFW || decide (s.pwr.sinceHold < 100000)

theorem exec_supervisedHandoverRequest {s : State} {v : Word} (key : PWR_HO_CMD.KEY.of v = 0xA5C3) (go : PWR_HO_CMD.GO.of v = 1)
    (run : s.cpStopped = false) : exec (.supervisedHandoverRequest v) s =
      (if s.hoRefuses then ((s.hoStat 5 (s.fld PWR_STAT.HOLDER)).setFld PWR_HO_STAT.OUTCOME 4).setFlag PWR_EVT.SHO true
        else s.setPwr { s.pwr with req := true }).out := by
  have keyed : ¬ (PWR_HO_CMD.KEY.of v ≠ 0xA5C3 ∨ PWR_HO_CMD.GO.of v ≠ 1) := by simp [key, go]
  exact (State.cpDoes_running (fun s => s.hoCmdWrite v) run).trans (congrArg State.out (if_neg keyed))

/-- A supervised handover is asked for (R56). -/
theorem Runs.supervisedHandoverRequest_taken (key : PWR_HO_CMD.KEY.of v = 0xA5C3) (go : PWR_HO_CMD.GO.of v = 1)
    (take : s.hoRefuses = false) (run : s.cpStopped = false) : Runs (.supervisedHandoverRequest v) s fun t =>
      t.pwr = { s.pwr with req := true } ∧ KeepsRegs s t [] ∧ KeepsMem s t ∧ KeepsRest s { t with pwr := s.pwr } :=
  Runs.of_out ((exec_supervisedHandoverRequest key go run).trans (congrArg State.out (if_neg (by simp [take]))))
    ⟨by simp, ((KeepsRegs.refl s []).setPwr _).intcLatch, KeepsMem.intcLatch ⟨rfl, fun _ => rfl⟩, KeepsRest.supply_intcLatch rfl⟩

/-- A supervised handover is refused (R56). -/
theorem Runs.supervisedHandoverRequest_refused (key : PWR_HO_CMD.KEY.of v = 0xA5C3) (go : PWR_HO_CMD.GO.of v = 1)
    (refuse : s.hoRefuses = true) (run : s.cpStopped = false) : Runs (.supervisedHandoverRequest v) s fun t =>
      t.fld PWR_HO_STAT.OUTCOME = 4 ∧ t.flag PWR_EVT.SHO = true ∧ OnlyRegs s t [PWR_HO_STAT, PWR_EVT] := by
  refine Runs.of_out ((exec_supervisedHandoverRequest key go run).trans (congrArg State.out (if_pos refuse)))
    ⟨?outcome, ?event, OnlyRegs.intcLatch ⟨?regs, ⟨rfl, fun _ => rfl⟩, rfl⟩⟩
  case outcome =>
    rw [State.fld_latched (by decide), State.fld_setFlag_ne _ _ _ _ (by decide), State.fld_setFld_self _ _ _ (by decide) (by decide)]
    rfl
  case event => rw [State.flag_latched (by decide), State.flag_setFlag_self _ _ _ rfl (by decide)]
  case regs => exact (((KeepsRegs.refl s _).setReg _ (by simp)).setFld 4 (by simp)).setFlag true (by simp)

end request

/-- A feed that has been ineligible for an hour raises its cause (R58). -/
theorem Runs.feed1h (s : State) (f : Fin 2) (hour : 360000000 ≤ nth s.pwr.bad f 0) (first : nth s.pwr.fired f false = false) :
    Runs (.feed1h f) s fun t =>
      t.flag PWR_EVT.FEED_1H = true ∧ t.pwr = { s.pwr with fired := putAt s.pwr.fired f true }
      ∧ (s.fld LCS_STAT.STATE ≠ 4 → bit (t.reg LCS_CAUSE).toNat 0 = true)
      ∧ KeepsRegs s t (PWR_EVT :: causeRegs 0) ∧ KeepsMemOut s t 0x38002808 8
      ∧ KeepsRest s { t with pwr := s.pwr, pm := { t.pm with later := s.pm.later } } := by
  let u := s.setFlag PWR_EVT.FEED_1H true
  have raised : exec (.feed1h f) s = ((u.setCause 0 true).setPwr { s.pwr with fired := putAt s.pwr.fired f true }).out :=
    congrArg State.out (if_neg (by simp [hour, first]))
  have frame := u.outside_setCause_causeRegs (b := 0) true (by decide)
  obtain ⟨bytes, words⟩ := KeepsMemOut.setCause u (b := 0) true (by decide)
  refine Runs.of_out raised ⟨?event, by simp, fun alive => ?cause, KeepsRegs.intcLatch fun a ha _ => ?regs,
    KeepsMemOut.intcLatch ⟨bytes, words⟩, ?rest⟩
  case event =>
    have stays : (u.setCause 0 true).reg PWR_EVT = u.reg PWR_EVT := State.reg_of_outside frame (by decide)
    rw [State.flag_latched (by decide), State.setPwr_flag, State.flag, State.fld, stays]
    exact s.flag_setFlag_self _ _ rfl (by decide)
  case cause =>
    have live : u.fld LCS_STAT.STATE ≠ 4 := by rwa [State.fld_setFlag_ne _ _ _ _ (by decide)]
    rw [State.reg_intcLatch _ _ (.inl (by decide)), State.setPwr_reg]
    exact u.bit_setCause (by decide) live
  case regs =>
    rw [List.mem_cons, not_or] at ha
    rw [State.setPwr_reg, State.reg_of_outside frame (by simpa using ha.2), State.reg_setFlag_ne _ _ _ _ ha.1]
  case rest =>
    obtain ⟨r, d, latch⟩ := State.intcLatch_updates ((u.setCause 0 true).setPwr { s.pwr with fired := putAt s.pwr.fired f true })
    have kept := State.hide_of_outside frame
    rw [latch]
    exact (congrArg (fun x : State =>
      { x with regs := s.regs, mem := s.mem, ecc := s.ecc, pwr := s.pwr, pm := { x.pm with later := s.pm.later },
               cp := { x.cp with dioReq := s.cp.dioReq } }) kept :)

/-- Settles O9: each event's clause is the lemma named after it. -/
theorem tokenAndHandover : Obligations.TokenAndHandover := by
  unfold Obligations.TokenAndHandover
  refine ⟨fun s f free => .leaseExpiry s f free, fun s f => .controllerFaultFlag s f,
    fun s h ho waits due feed elig => .handoverGrant_given s h ho waits due feed elig,
    fun s h ho waits due forth elig => .handoverGrant_lost s h ho waits due forth elig, ?taken, ?refused,
    fun s f hour first => .feed1h s f hour first⟩
  case taken =>
    intro s v f key go holder elig calm unasked window warn rest run
    exact .supervisedHandoverRequest_taken s v key go
      (by simp [State.hoRefuses, State.standbyElig, holder, elig, calm, unasked, window, warn, rest]) run
  case refused =>
    intro s v key go reason run
    refine .supervisedHandoverRequest_refused s v key go ?_ run
    rcases reason with free | ⟨f, holder, elig⟩ | busy | window | warn | recent
    · simp [State.hoRefuses, State.standbyElig, free]
    · simp [State.hoRefuses, State.standbyElig, holder, elig]
    · simp [State.hoRefuses, busy]
    · simp [State.hoRefuses, window]
    · simp [State.hoRefuses, warn]
    · simp [State.hoRefuses, recent]

end Sys2Proof.Machine
end

section
/-! SUPPORT. What keeps the OR-ing paths, the token and the handover of the supply as they are (R39): every operation that a command
reaches, except the supply's own that move them. The lemmas stand in the order of the model's files; the proof of each follows its
definition, with `.mk` for a record update that leaves the supply alone. -/

namespace Sys2Proof.Machine

/-- What PathsApart speaks of: the closed paths, the feed that holds the token and the handover under way. -/
def State.paths (s : State) : List Bool × Option Nat × Option Handover := (s.pwr.closed, s.pwr.holder, s.pwr.ho)

/-- `t` has the paths, the token and the handover of `r`. -/
def SamePaths (r t : State) : Prop := t.paths = r.paths

/-- What a command answers keeps the paths of `r` where it moves on. -/
def OutKeeps (r : State) (o : Out) : Prop := ∀ t, o = .next t → SamePaths r t

/-- The operation `f` keeps the paths of every state; a name for it, so that the kernel compares `f` as a whole. -/
structure KeepsPaths (f : State → State) : Prop where
  keeps : ∀ r s, SamePaths r s → SamePaths r (f s)

section
variable {r s : State}

theorem SamePaths.of_pwr {t : State} (k : SamePaths r s) (h : t.pwr = s.pwr) : SamePaths r t := by
  unfold SamePaths State.paths
  rw [h]
  exact k

/-- A state built with the supply of another keeps its paths. -/
theorem SamePaths.mk
    {regs mem ecc flash readback free rst boot live prof pm le tune sa pt cp time aon net rnd wfl se way vlt lcs ana
    mh me tot pending} (k : SamePaths r s) :
    SamePaths r { s with
      regs, mem, ecc, flash, readback, free, rst, boot, live, prof, pm, le, tune, sa, pt, cp, time, aon, net, rnd, wfl, se, way, vlt
      lcs, ana, mh, me, tot, pending } :=
  k.of_pwr rfl

theorem SamePaths.ite {c : Prop} [Decidable c] {a b : State} (ha : SamePaths r a) (hb : SamePaths r b) :
    SamePaths r (if c then a else b) := by
  split
  · exact ha
  · exact hb

theorem SamePaths.forN {f : Nat → State → State} {n : Nat} (h : ∀ i x, SamePaths r x → SamePaths r (f i x)) (k : SamePaths r s) :
    SamePaths r (forN f n s) := by
  induction n with
  | zero => exact k
  | succ n ih => exact h n _ ih

theorem SamePaths.foldl {α : Type} {f : State → α → State} {l : List α} (h : ∀ x c, SamePaths r x → SamePaths r (f x c))
    (k : SamePaths r s) : SamePaths r (l.foldl f s) := by
  induction l generalizing s with
  | nil => exact k
  | cons c l ih => exact ih (h s c k)

/-! ### The operations of `Sys2Proof/Machine/Ops.lean` -/

theorem SamePaths.setReg {a v} (k : SamePaths r s) : SamePaths r (s.setReg a v) := .mk k
theorem SamePaths.setFld {f v} (k : SamePaths r s) : SamePaths r (s.setFld f v) := .setReg k
theorem SamePaths.setFlag {f b} (k : SamePaths r s) : SamePaths r (s.setFlag f b) := .setFld k
theorem SamePaths.setBit {f i b} (k : SamePaths r s) : SamePaths r (s.setBit f i b) := .setFld k
theorem SamePaths.countUp {f} (k : SamePaths r s) : SamePaths r (s.countUp f) := .setFld k
theorem SamePaths.countWrap {f} (k : SamePaths r s) : SamePaths r (s.countWrap f) := .setFld k
theorem SamePaths.setReg64 {lo hi v} (k : SamePaths r s) : SamePaths r (s.setReg64 lo hi v) := .setReg (.setReg k)
theorem SamePaths.resetRegs {p} (k : SamePaths r s) : SamePaths r (s.resetRegs p) := .mk k
theorem SamePaths.wr8 {a v} (k : SamePaths r s) : SamePaths r (s.wr8 a v) := .mk k
theorem SamePaths.wrBytes {a l} (k : SamePaths r s) : SamePaths r (s.wrBytes a l) := k.of_pwr (s.wrBytes_pwr a l)
theorem SamePaths.wr16 {a v} (k : SamePaths r s) : SamePaths r (s.wr16 a v) := .wrBytes k
theorem SamePaths.wr32 {a v} (k : SamePaths r s) : SamePaths r (s.wr32 a v) := .wrBytes k
theorem SamePaths.wr64 {a v} (k : SamePaths r s) : SamePaths r (s.wr64 a v) := .wrBytes k
theorem SamePaths.clearMem {p} (k : SamePaths r s) : SamePaths r (s.clearMem p) := .mk k
theorem SamePaths.takeFree (k : SamePaths r s) : SamePaths r s.takeFree := .mk k
theorem SamePaths.wakeBy {i} (k : SamePaths r s) : SamePaths r (s.wakeBy i) := .ite k (.mk (.setBit k))

/-! ### The operations of `Sys2Proof/Machine/Intc.lean` -/

theorem SamePaths.setCp {c} (k : SamePaths r s) : SamePaths r (s.setCp c) := .mk k
theorem SamePaths.trapTaken {cause} (k : SamePaths r s) : SamePaths r (s.trapTaken cause) := .setCp k
theorem SamePaths.gateway {n} (k : SamePaths r s) : SamePaths r (s.gateway n) := .ite (.ite (.setCp (.setBit k)) (.setBit k)) k
theorem SamePaths.intcLatch (k : SamePaths r s) : SamePaths r s.intcLatch := .forN (fun _ _ k => .gateway k) k

theorem OutKeeps.out (k : SamePaths r s) : OutKeeps r s.out := by
  intro t h
  cases h
  exact .intcLatch k

theorem OutKeeps.cpDoes {f} (h : ∀ {x}, SamePaths r x → SamePaths r (f x)) (k : SamePaths r s) : OutKeeps r (s.cpDoes f) :=
  .out (.ite k (h k))

/-! ### The operations of `Sys2Proof/Machine/Nt.lean` -/

theorem SamePaths.setTime {t} (k : SamePaths r s) : SamePaths r (s.setTime t) := .mk k
theorem SamePaths.showRound (k : SamePaths r s) : SamePaths r s.showRound := .ite (.setReg64 k) (.setReg64 k)
theorem SamePaths.timerLevel (k : SamePaths r s) : SamePaths r s.timerLevel := .setCp k
theorem SamePaths.showWaits (k : SamePaths r s) : SamePaths r s.showWaits := .mk (.foldl (fun _ _ k => .setFld k) k)
theorem SamePaths.setMtime {m} (k : SamePaths r s) : SamePaths r (s.setMtime m) := .showWaits (.timerLevel (.setReg64 (.setTime k)))

theorem SamePaths.setValid {b} (k : SamePaths r s) : SamePaths r (s.setValid b) :=
  .showRound (.ite (.setTime (.setFlag (.setFlag (.setFlag k)))) (.setFlag (.setFlag (.setFlag k))))

theorem SamePaths.ntAdvance {d jump} (k : SamePaths r s) : SamePaths r (s.ntAdvance d jump) := .setTime k
theorem SamePaths.ntStep {off} (k : SamePaths r s) : SamePaths r (s.ntStep off) := .showRound (.countUp (.mk (.setTime k)))
theorem SamePaths.ntStepWrite {v} (k : SamePaths r s) : SamePaths r (s.ntStepWrite v) := .ite k (.setTime (.ntStep k))
theorem SamePaths.setRate {r'} (k : SamePaths r s) : SamePaths r (s.setRate r') := .showRound (.setReg k)
theorem SamePaths.ntRateWrite {v} (k : SamePaths r s) : SamePaths r (s.ntRateWrite v) := .ite k (.setTime (.setRate k))

theorem SamePaths.ntCtlWrite {v} (k : SamePaths r s) : SamePaths r (s.ntCtlWrite v) := by
  unfold State.ntCtlWrite
  extract_lets _ s1
  have k1 : SamePaths r s1 := .ite (.setValid (.ite k (.setTime k))) k
  exact .ite (.setValid k1) k1

theorem SamePaths.offsetAccept {node off} (k : SamePaths r s) : SamePaths r (s.offsetAccept node off) :=
  .setReg (.setFld (.setTime (.ite (.setFlag (.setValid (.ntStep k))) (.setRate (.setTime k)))))

theorem SamePaths.refPair {node seq ntv prev tl} (k : SamePaths r s) : SamePaths r (s.refPair node seq ntv prev tl) := by
  unfold State.refPair
  extract_lets
  split
  exacts [.setTime k, .ite (.setTime (.offsetAccept k)) (.setTime k)]

theorem SamePaths.ptpWrite {k' v} (k : SamePaths r s) : SamePaths r (s.ptpWrite k' v) :=
  .ite k (.ite (.setFld k) (.mk (.setFlag (.setFld k))))

/-! ### The operations of `Sys2Proof/Machine/Aon.lean` -/

theorem SamePaths.setAon {a} (k : SamePaths r s) : SamePaths r (s.setAon a) := .mk k

theorem SamePaths.almFire {n code} (k : SamePaths r s) : SamePaths r (s.almFire n code) := by
  unfold State.almFire
  extract_lets s1
  have k1 : SamePaths r s1 := .setBit (.setFlag (.setFld k))
  exact .ite (.wakeBy k1) k1

theorem SamePaths.setHigh {h} (k : SamePaths r s) : SamePaths r (s.setHigh h) := .setReg64 (.setAon k)

theorem SamePaths.countMove {h a b} (k : SamePaths r s) : SamePaths r (s.countMove h a b) := by
  unfold State.countMove
  extract_lets _ _ m1 m2 s3 s4
  have k3 : SamePaths r s3 := by
    unfold s3
    clear_value m1
    split
    exacts [.almFire (.setAon k), .setAon k]
  have k4 : SamePaths r s4 := by
    unfold s4
    clear_value m2
    split
    exacts [.almFire k3, k3]
  exact .setHigh k4

theorem SamePaths.countEdge {early} (k : SamePaths r s) : SamePaths r (s.countEdge early) := by
  unfold State.countEdge
  refine .ite k ?_
  extract_lets _ _ _ _ _ _ _ _ _ _ s1 _ s2 _
  have k1 : SamePaths r s1 := .ite (.countMove (.setFlag (.setAon (.setAon k)))) (.countMove (.ite (.setFlag (.setAon
    (.setAon k))) (.setAon k)))
  have k2 : SamePaths r s2 := .ite (.setAon (.setHigh k1)) k1
  exact .ite k2 (.setAon k2)

theorem SamePaths.wdtEdge (k : SamePaths r s) : SamePaths r s.wdtEdge := .ite k (.ite (.mk k) (.setFld (.mk k)))
theorem SamePaths.mtimeEdge (k : SamePaths r s) : SamePaths r s.mtimeEdge := .ite (.setMtime k) k
theorem SamePaths.pulseTake {n} (k : SamePaths r s) : SamePaths r (s.pulseTake n) := .ite (.countWrap (.setAon k)) (.setAon k)
theorem SamePaths.pulseSample {n} (k : SamePaths r s) : SamePaths r (s.pulseSample n) := .ite k (.ite (.pulseTake k) (.setAon k))

theorem SamePaths.aonEdge {early} (k : SamePaths r s) : SamePaths r (s.aonEdge early) :=
  .mtimeEdge (.wdtEdge (.countEdge (.ite (.forN (fun _ _ k => .pulseSample k) k) k)))

theorem SamePaths.shiftLost (k : SamePaths r s) : SamePaths r s.shiftLost := .setFlag (.setFlag (.setFlag (.setAon k)))

theorem SamePaths.aonCtlWrite {v} (k : SamePaths r s) : SamePaths r (s.aonCtlWrite v) :=
  .ite (.ite (.setAon k) k) (.ite (.shiftLost (.setFlag (.setAon (.ite (.setAon k) k)))) (.setFlag (.setAon (.ite (.setAon k) k))))

theorem SamePaths.aonShiftWrite {v} (k : SamePaths r s) : SamePaths r (s.aonShiftWrite v) :=
  .ite (.shiftLost (.setFld k)) (.setFlag (.setAon (.setFld k)))

theorem SamePaths.aonWrite {f} (h : ∀ {x}, SamePaths r x → SamePaths r (f x)) (k : SamePaths r s) : SamePaths r (s.aonWrite f) :=
  .ite (.trapTaken k) (h k)

/-! ### The operations of `Sys2Proof/Machine/PmOps.lean` -/

theorem SamePaths.ceCount {n} (k : SamePaths r s) : SamePaths r (s.ceCount n) := .ite k (.mk (.setFld k))
theorem SamePaths.pmProgram {off v} (k : SamePaths r s) : SamePaths r (s.pmProgram off v) := .mk (.wr64 k)

theorem SamePaths.pmProgramAll {l} (k : SamePaths r s) : SamePaths r (s.pmProgramAll l) := by
  induction l generalizing s with
  | nil => exact k
  | cons p l ih => 
    unfold State.pmProgramAll
    exact ih (.pmProgram k)

theorem SamePaths.showHeld (k : SamePaths r s) : SamePaths r s.showHeld := .setFlag k
theorem SamePaths.pmLater {c off v} (k : SamePaths r s) : SamePaths r (s.pmLater c off v) := .ite (.mk k) (.pmProgram k)
theorem SamePaths.scShow {k'} (k : SamePaths r s) : SamePaths r (s.scShow k') := .setReg (.setReg k)
theorem SamePaths.scShowAll (k : SamePaths r s) : SamePaths r s.scShowAll := .forN (fun _ _ k => .scShow k) k

theorem SamePaths.setCause {b v} (k : SamePaths r s) : SamePaths r (s.setCause b v) :=
  .ite k (.ite (.setReg64 (.pmLater (.setFlag (.setReg (.setReg k))))) (.setFlag (.setReg (.setReg k))))

theorem SamePaths.counterCause {k'} (k : SamePaths r s) : SamePaths r (s.counterCause k') := .ite (.setCause k) k

theorem SamePaths.scIncrement {k'} (k : SamePaths r s) : SamePaths r (s.scIncrement k') := by
  unfold State.scIncrement
  split
  exacts [k, .ite k (.counterCause (.scShow (.pmProgram k)))]

/-! ### The operations of `Sys2Proof/Machine/Ledger.lean` -/

theorem SamePaths.ledgerGrow {n} (k : SamePaths r s) : SamePaths r (s.ledgerGrow n) :=
  .ite (.setFlag (.setFlag (.setFld (.setFld k)))) (.setFld (.setFld k))

theorem SamePaths.ledgerWrite {e} (k : SamePaths r s) : SamePaths r (s.ledgerWrite e) :=
  .ite (.ledgerGrow (.scIncrement (.pmProgramAll k))) (.pmProgramAll k)

theorem SamePaths.bookLost (k : SamePaths r s) : SamePaths r s.bookLost := .ite (.setFld (.ledgerWrite k)) k

theorem SamePaths.bookNow {e} (k : SamePaths r s) : SamePaths r (s.bookNow e) :=
  .ite (.ledgerWrite (.bookLost k)) (.countUp (.bookLost k))

theorem SamePaths.bookEvent {e} (k : SamePaths r s) : SamePaths r (s.bookEvent e) := .ite (.mk k) (.bookNow k)

theorem SamePaths.scServe {k'} (k : SamePaths r s) : SamePaths r (s.scServe k') := by
  unfold State.scServe
  extract_lets
  split
  exacts [.setFld (.mk (.setFlag k)), .setFld (.mk (.setFlag k)), .setFld (.scIncrement (.mk (.setFlag k)))]

theorem SamePaths.laterServe {c} (k : SamePaths r s) : SamePaths r (s.laterServe c) := .foldl (fun _ _ k => .pmProgram k) (.mk k)

theorem SamePaths.bookWaiting {x} (k : SamePaths r s) : SamePaths r (s.bookWaiting x) := by
  unfold State.bookWaiting
  split
  exacts [.bookNow k, .pmProgram k]

theorem SamePaths.deferredBook (k : SamePaths r s) : SamePaths r s.deferredBook := .foldl (fun _ _ k => .bookWaiting k) (.mk k)

theorem SamePaths.pmServe (k : SamePaths r s) : SamePaths r s.pmServe := by
  unfold State.pmServe
  extract_lets _ _ s1
  have k1 : SamePaths r s1 := .laterServe (.deferredBook (.laterServe (.showHeld k)))
  refine .ite (.showHeld k) ?_
  refine .ite (.laterServe (.showHeld k)) ?_
  split
  exacts [.scServe k1, k1]

theorem SamePaths.ledgerAck {v} (k : SamePaths r s) : SamePaths r (s.ledgerAck v) :=
  .ite k (.setFlag (.setFld (.ite (.mk k) (.pmProgram k))))

theorem SamePaths.ledgerShow (k : SamePaths r s) : SamePaths r s.ledgerShow := .setFld (.setFld k)
theorem SamePaths.ledgerStart (k : SamePaths r s) : SamePaths r s.ledgerStart := .setFlag (.ledgerShow k)

/-! ### The operations of `Sys2Proof/Machine/MhOps.lean` -/

theorem SamePaths.setCalc {c m} (k : SamePaths r s) : SamePaths r (s.setCalc c m) := .mk k
theorem SamePaths.mhShow {c} (k : SamePaths r s) : SamePaths r (s.mhShow c) := .forN (fun _ _ k => .setReg k) k
theorem SamePaths.mhCapture {c q} (k : SamePaths r s) : SamePaths r (s.mhCapture c q) := .setFld (.setFld (.setReg k))

theorem SamePaths.mhViews (k : SamePaths r s) : SamePaths r s.mhViews := by
  unfold State.mhViews
  extract_lets s1 s2
  have k1 : SamePaths r s1 := by
    refine .forN (fun _ _ k => ?_) k
    exact .setFld (.setFld (.setFld (.setFld (.setFld (.setFld (.setFld (.setFld k)))))))
  have k2 : SamePaths r s2 := .forN (fun _ _ k => .ite (.setFlag k) k) k1
  refine .forN (fun _ _ k => ?_) k2
  split
  exacts [.setFlag k, .setFlag (.setFld (.setFlag (.setFlag k)))]

theorem SamePaths.mhApply {c vals} (k : SamePaths r s) : SamePaths r (s.mhApply c vals) := by
  unfold State.mhApply
  extract_lets _ _ s1
  have k1 : SamePaths r s1 := .forN (fun _ _ k => .setReg k) k
  exact .mhViews (.setCalc k1)

/-! ### The operations of `Sys2Proof/Machine/Mh.lean` -/

theorem SamePaths.setRtd {n r'} (k : SamePaths r s) : SamePaths r (s.setRtd n r') := .mk k

theorem SamePaths.rtdConversion {n ohms overlap} (k : SamePaths r s) : SamePaths r (s.rtdConversion n ohms overlap) := by
  unfold State.rtdConversion
  refine .ite k ?_
  extract_lets _ _ _ m1
  refine .ite (.setFlag (.setRtd k)) ?_
  clear_value m1
  split
  · exact .setFlag (.setFlag (.setFlag (.setRtd k)))
  · extract_lets _ _ s2 _
    have k2 : SamePaths r s2 := .setFlag (.setFlag (.setFlag (.setRtd k)))
    exact .ite k2 (.setRtd (.setReg k2))

theorem SamePaths.flowConversion {c value invalid} (k : SamePaths r s) : SamePaths r (s.flowConversion c value invalid) :=
  .ite (.setCalc k) (.ite (.setCalc k) (.setCalc k))

theorem SamePaths.flowStall {a b} (k : SamePaths r s) : SamePaths r (s.flowStall a b) :=
  .forN (fun _ _ k => .ite k (.forN (fun _ _ k => .flowConversion k) k)) k

theorem SamePaths.integrate {c} (k : SamePaths r s) : SamePaths r (s.integrate c) := by
  unfold State.integrate
  refine .ite k ?_
  extract_lets s1 _ _ _ _ _ _ _
  have k1 : SamePaths r s1 := by
    unfold s1
    split
    exacts [.mhApply k, k]
  exact .ite k1 (.setRtd (.setRtd (.setCalc k1)))

theorem SamePaths.mhItems {c ts tr dv power} (k : SamePaths r s) : SamePaths r (s.mhItems c ts tr dv power) :=
  .setCalc (.setReg (.setReg (.setReg (.setReg k))))

theorem SamePaths.mhFaultTime {c} (k : SamePaths r s) : SamePaths r (s.mhFaultTime c) := .setReg (.setCalc k)

theorem SamePaths.mhFault {c cause} (k : SamePaths r s) : SamePaths r (s.mhFault c cause) :=
  .ite (.ite (.setFld (.setFld k)) (.bookEvent (.setFld (.setFlag (.setFld (.setFld k)))))) (.ite (.bookEvent (.setFld (.setFlag
    (.setFld k)))) (.setFld k))

theorem SamePaths.mhAdd {c q x} (k : SamePaths r s) : SamePaths r (s.mhAdd c q x) := .setCalc k

theorem SamePaths.calculatorStep {c} (k : SamePaths r s) : SamePaths r (s.calculatorStep c) := by
  unfold State.calculatorStep
  refine .ite k ?_
  extract_lets _ _ _ _ _ _ _ _ _ _ s1 _ _ _ _
  have k1 : SamePaths r s1 := by
    unfold s1
    split
    exacts [.mhItems (.mhAdd (.ite (.setCalc (.ite (.setFlag k) k)) (.mhAdd (.setCalc (.ite (.setFlag k) k))))), .mhItems (.ite
      (.setCalc (.ite (.setFlag k) k)) (.mhAdd (.setCalc (.ite (.setFlag k) k))))]
  exact .setFld (.setReg (.mhShow (.mhFault (.ite (.mhItems (.mhFaultTime (.ite (.ite (.setCalc (.ite (.setFlag k) k)) (.mhAdd
    (.setCalc (.ite (.setFlag k) k)))) (.mhAdd (.ite (.setCalc (.ite (.setFlag k) k)) (.mhAdd (.setCalc (.ite
    (.setFlag k) k)))))))) (.setCalc k1)))))

theorem SamePaths.sealStart {es ports waiting} (k : SamePaths r s) : SamePaths r (s.sealStart es ports waiting) :=
  .showHeld (.mk (.setFld (.setFld (.setFlag k))))

theorem SamePaths.sealRefuse {code entry} (k : SamePaths r s) : SamePaths r (s.sealRefuse code entry) :=
  .setFlag (.setFld (.setFld k))

theorem SamePaths.sealCommit {num es} (k : SamePaths r s) : SamePaths r (s.sealCommit num es) := by
  unfold State.sealCommit
  split
  exacts [.sealRefuse k, .sealStart k]

theorem SamePaths.sealCmdWrite {v} (k : SamePaths r s) : SamePaths r (s.sealCmdWrite v) := .ite k (.sealCommit k)

theorem SamePaths.sealBook {c} (k : SamePaths r s) : SamePaths r (s.sealBook c) :=
  .foldl (fun _ _ k => .ite (.setCalc k) (.mk k)) (.setFlag (.ledgerGrow (.scIncrement k)))

theorem SamePaths.sealCut {n} (k : SamePaths r s) : SamePaths r (s.sealCut n) := by
  unfold State.sealCut
  split
  exacts [k, .ite (.mk k) (.ite (.scIncrement (.pmProgramAll (.mk k))) (.pmProgramAll (.mk k)))]

theorem SamePaths.sealResume (k : SamePaths r s) : SamePaths r s.sealResume := by
  unfold State.sealResume
  split
  exacts [k, .ite (.sealStart k) k]

theorem SamePaths.ledgerAckWrite {v} (k : SamePaths r s) : SamePaths r (s.ledgerAckWrite v) := .ite (.ledgerAck k) k

/-! ### The operations of `Sys2Proof/Machine/Me.lean` -/

theorem SamePaths.setPort {p m} (k : SamePaths r s) : SamePaths r (s.setPort p m) := .mk k

theorem SamePaths.meGainStep {p ch x clipped} (k : SamePaths r s) : SamePaths r (s.meGainStep p ch x clipped) := by
  unfold State.meGainStep
  extract_lets _ _ _ _ _ s1 _ _ _
  have k1 : SamePaths r s1 := .ite (.bookEvent (.setFlag (.setFld (.setPort k)))) k
  split
  all_goals exact .ite (.setPort k1) (.setFlag (.countUp (.setFld (.setPort k1))))

theorem SamePaths.sagSwell {p ph} (k : SamePaths r s) : SamePaths r (s.sagSwell p ph) := by
  unfold State.sagSwell
  extract_lets _ _ _ _ _ _ s1 _ _ _ _ s2 _ _ _ _ _
  have k1 : ∀ {x0 x1}, SamePaths r x0 → SamePaths r (s1 x0 x1) := fun k => .setPort k
  have k2 : SamePaths r s2 := .ite (.bookEvent (.setFlag (.setFld (k1 k)))) (.ite (.ite (.bookEvent (.setFlag
    (.setFld k))) (k1 k)) k)
  exact .ite (.bookEvent (.setFlag (.setFld (k1 k2)))) (.ite (.ite (.bookEvent (.setFlag (.setFld k2))) (k1 k2)) k2)

theorem SamePaths.setPloss {p ph on} (k : SamePaths r s) : SamePaths r (s.setPloss p ph on) :=
  .bookEvent (.setPort (.setFlag (.setFld k)))

theorem SamePaths.plossCycle {p ph} (k : SamePaths r s) : SamePaths r (s.plossCycle p ph) :=
  .ite (.setPloss (.setPort k)) (.ite (.setPloss (.setPort k)) (.setPort k))

theorem SamePaths.setSeq {p on} (k : SamePaths r s) : SamePaths r (s.setSeq p on) := .bookEvent (.setFlag (.setFlag k))

theorem SamePaths.seqCycle {p} (k : SamePaths r s) : SamePaths r (s.seqCycle p) :=
  .ite (.setPort k) (.ite (.setSeq (.setPort k)) (.ite (.setSeq (.setPort k)) (.setPort k)))

theorem SamePaths.periodStep {p a b} (k : SamePaths r s) : SamePaths r (s.periodStep p a b) := .setPort k

theorem SamePaths.phaseStep {p ph v} (k : SamePaths r s) : SamePaths r (s.phaseStep p ph v) := by
  unfold State.phaseStep
  extract_lets _ _ _ _ _ _ _ _ _ _ s1 s2 _
  have k1 : SamePaths r s1 := .ite (.sagSwell (.setPort k)) (.setPort k)
  have k2 : SamePaths r s2 := .ite (.plossCycle k1) k1
  exact .ite (.ite (.ite (.seqCycle (.periodStep k2)) (.setPort k2)) k1) (.ite (.setPloss (.setPort k)) (.setPort k))

theorem SamePaths.meShow {p} (k : SamePaths r s) : SamePaths r (s.meShow p) := .forN (fun _ _ k => .setReg k) k
theorem SamePaths.meCapture {p q} (k : SamePaths r s) : SamePaths r (s.meCapture p q) := .setFld (.setFld (.setReg k))
theorem SamePaths.meViews {p} (k : SamePaths r s) : SamePaths r (s.meViews p) := .setFld (.setFld (.setFld k))

theorem SamePaths.meApply {p vals} (k : SamePaths r s) : SamePaths r (s.meApply p vals) :=
  .mk (.meViews (.forN (fun _ _ k => .setReg k) k))

theorem SamePaths.neutralStep {p l dispRms isumRms meanI} (k : SamePaths r s) :
    SamePaths r (s.neutralStep p l dispRms isumRms meanI) :=
  .ite (.bookEvent (.setFlag (.setFlag (.setPort (.setPort k))))) (.ite (.bookEvent (.setFlag (.setFlag (.setPort k))))
    (.setPort k))

theorem SamePaths.bookBlock {p pw q ap} (k : SamePaths r s) : SamePaths r (s.bookBlock p pw q ap) := .meShow (.setPort k)

theorem SamePaths.meItems {p pw q ap rms inRms disp ps} (k : SamePaths r s) :
    SamePaths r (s.meItems p pw q ap rms inRms disp ps) := by
  unfold State.meItems
  extract_lets _ s1 _ _ _ _ _ _ _
  have k1 : ∀ {x0 x1 x2}, SamePaths r x2 → SamePaths r (s1 x0 x1 x2) := fun k => .setReg k
  exact k1 (k1 (.forN (fun _ _ k => k1 k) (k1 (k1 (k1 (k1 (k1 (.forN (fun _ _ k => k1 k) (.forN (fun _ _ k => k1 k) k)))))))))

theorem SamePaths.shadowStep {p} (k : SamePaths r s) : SamePaths r (s.shadowStep p) :=
  .ite k (.ite (.mk k) (.sealResume (.setFld (.setFlag (.mk k)))))

theorem SamePaths.blockNext {p} (k : SamePaths r s) : SamePaths r (s.blockNext p) := by
  unfold State.blockNext
  extract_lets s1
  have k1 : SamePaths r s1 := by
    unfold s1
    split
    exacts [.meApply k, k]
  exact .shadowStep k1

theorem SamePaths.integrateFrame {p ahead} (k : SamePaths r s) : SamePaths r (s.integrateFrame p ahead) :=
  .foldl (fun _ _ k => .phaseStep k) (.setPort k)

theorem SamePaths.blockEnd {p} (k : SamePaths r s) : SamePaths r (s.blockEnd p) :=
  .blockNext (.setFlag (.setReg (.setPort (.neutralStep (.meItems (.bookBlock k))))))

theorem SamePaths.resolveOne {p t} (k : SamePaths r s) (h : s.resolveOne p = some t) : SamePaths r t := by
  unfold State.resolveOne at h
  split at h
  · split at h
    · cases h
      exact .integrateFrame (.setPort k)
    · cases h
  · cases h

theorem SamePaths.resolveAll {p n} (k : SamePaths r s) : SamePaths r (s.resolveAll p n) := by
  induction n generalizing s with
  | zero => exact k
  | succ n ih =>
    unfold State.resolveAll
    extract_lets
    refine .ite ?_ (.ite k (ih (.blockEnd (.setPort k))))
    split
    · next h => exact ih (.resolveOne k h)
    · exact k

theorem SamePaths.resolveNow {p} (k : SamePaths r s) : SamePaths r (s.resolveNow p) := .resolveAll k

theorem SamePaths.portSample {p codes invalid} (k : SamePaths r s) : SamePaths r (s.portSample p codes invalid) :=
  .ite k (.ite (.resolveNow (.setPort k)) (.resolveNow (.forN (fun _ _ k => .meGainStep k) (.setPort k))))

/-! ### The operations of `Sys2Proof/Machine/Access.lean` -/

theorem SamePaths.regWrite {a v} (k : SamePaths r s) : SamePaths r (s.regWrite a v) := by
  unfold State.regWrite
  split
  exacts [.setReg k, k]

theorem SamePaths.fwDenied {x} (k : SamePaths r s) : SamePaths r (s.fwDenied x) :=
  .countUp (.ite (.setFlag (.setFld (.setFld k))) k)

theorem SamePaths.takeFault {x} (k : SamePaths r s) : SamePaths r (s.takeFault x) :=
  .ite (.setCp (.ite (.fwDenied k) k)) (.trapTaken (.ite (.fwDenied k) k))

theorem OutKeeps.cpAccess {addr kind size f} (h : ∀ {x}, SamePaths r x → SamePaths r (f x)) (k : SamePaths r s) :
    OutKeeps r (s.cpAccess addr kind size f) :=
  .cpDoes (fun k => .ite (.takeFault k) (h k)) k

/-! ### The operations of `Sys2Proof/Machine/SaStore.lean` -/

theorem SamePaths.wrWords {a l} (k : SamePaths r s) : SamePaths r (s.wrWords a l) := by
  induction l generalizing s a with
  | nil => exact k
  | cons p l ih => exact ih (.wr32 k)

theorem SamePaths.setCanvasState {i st} (k : SamePaths r s) : SamePaths r (s.setCanvasState i st) := .wr32 k
theorem SamePaths.setCanvasCode {i code} (k : SamePaths r s) : SamePaths r (s.setCanvasCode i code) := .wr8 k
theorem SamePaths.setHdrSeq {a v} (k : SamePaths r s) : SamePaths r (s.setHdrSeq a v) := .wr16 k
theorem SamePaths.bumpSeq {a} (k : SamePaths r s) : SamePaths r (s.bumpSeq a) := .setHdrSeq k
theorem SamePaths.canvasReady {i} (k : SamePaths r s) : SamePaths r (s.canvasReady i) := .forN (fun _ _ k => .setHdrSeq k) (.wr32 k)

theorem SamePaths.readyEnd {i} (k : SamePaths r s) : SamePaths r (s.readyEnd i) :=
  .ite k (.ite (.setCanvasCode k) (.setCanvasCode (.setCanvasState (.canvasReady k))))

theorem SamePaths.canvasLoad {slot w} (k : SamePaths r s) : SamePaths r (s.canvasLoad slot w).1 := by
  unfold State.canvasLoad
  extract_lets
  split
  · exact k
  · exact .setCanvasCode (.setCanvasState (.wr32 (.canvasReady (.wrWords (.wrWords k)))))

theorem SamePaths.canvasIgnored (k : SamePaths r s) : SamePaths r s.canvasIgnored := .wr16 k
theorem SamePaths.canvasErrors {ue ce} (k : SamePaths r s) : SamePaths r (s.canvasErrors ue ce) := .wr32 (.wr16 k)

theorem SamePaths.canvasWrite {off n v} (k : SamePaths r s) : SamePaths r (s.canvasWrite off n v) :=
  .ite (.canvasIgnored k) (.ite (.ite (.canvasIgnored k) (.wrBytes k)) (.ite (.wrBytes k) (.canvasIgnored k)))

theorem SamePaths.canvasSwap {slot} (k : SamePaths r s) : SamePaths r (s.canvasSwap slot) := by
  unfold State.canvasSwap
  split
  · exact k
  · extract_lets s1
    have k1 : SamePaths r s1 := by
      unfold s1
      split
      exacts [k, .setCanvasState k]
    exact .setCanvasCode (.wr32 (.setCanvasState k1))

theorem SamePaths.rtWrite {i p arr idx v} (k : SamePaths r s) : SamePaths r (s.rtWrite i p arr idx v) :=
  .ite k (.ite (.wr32 k) (.wr8 (.wr32 k)))

theorem SamePaths.rtApply {i l} (k : SamePaths r s) : SamePaths r (s.rtApply i l) :=
  .wr32 (.forN (fun _ _ k => .ite (.bumpSeq (.foldl (fun _ _ k => .ite (.foldl (fun _ _ k => .rtWrite k) k) k) (.bumpSeq k))) k) k)

/-! ### The operations of `Sys2Proof/Machine/Rounds.lean` -/

theorem SamePaths.setRnd {r'} (k : SamePaths r s) : SamePaths r (s.setRnd r') := .mk k
theorem SamePaths.showHold (k : SamePaths r s) : SamePaths r s.showHold := .setFlag (.setRnd k)

theorem SamePaths.grantCopy {g} (k : SamePaths r s) : SamePaths r (s.grantCopy g) :=
  .showHold (.ite (.setFld (.setReg k)) (.setFld (.setReg k)))

theorem SamePaths.coordLapse (k : SamePaths r s) : SamePaths r s.coordLapse := .ite (.showHold (.setReg k)) k
theorem SamePaths.leasePass {d} (k : SamePaths r s) : SamePaths r (s.leasePass d) := .ite k (.coordLapse (.setFld k))
theorem SamePaths.queueMsg {m} (k : SamePaths r s) : SamePaths r (s.queueMsg m) := .mk k
theorem SamePaths.handMsg {m} (k : SamePaths r s) : SamePaths r (s.handMsg m) := .ite (.queueMsg (.queueMsg k)) (.queueMsg k)
theorem SamePaths.sendMsg {chan type node r'} (k : SamePaths r s) : SamePaths r (s.sendMsg chan type node r') := .handMsg k
theorem SamePaths.priceBuild {r'} (k : SamePaths r s) : SamePaths r (s.priceBuild r') := .ite (.wrWords (.setRnd k)) (.setRnd k)

theorem SamePaths.priceAccept {r'} (k : SamePaths r s) : SamePaths r (s.priceAccept r') :=
  .ite k (.ite (.priceBuild k) (.forN (fun _ _ k => .ite (.forN (fun _ _ k => .setReg k) k) k) (.priceBuild k)))

theorem SamePaths.reply {status rep iter d} (k : SamePaths r s) : SamePaths r (s.reply status rep iter d) :=
  .ite k (.setRnd (.sendMsg k))

theorem SamePaths.roundJobEnd {id status iter z} (k : SamePaths r s) : SamePaths r (s.roundJobEnd id status iter z) := by
  unfold State.roundJobEnd
  refine .ite k ?_
  split
  exacts [.ite (.reply k) (.reply k), .reply k]

theorem keepsPaths_roundStart : KeepsPaths State.roundStart := by
  delta State.roundStart
  refine ⟨fun r s k => ?_⟩
  extract_lets +onlyGivenNames _ s1 price
  have k1 : SamePaths r s1 := .showRound (.setReg k)
  clear_value price
  split
  exacts [.ite (.foldl (fun _ _ k => .sendMsg k) (.setRnd k1)) (.setRnd k1), .setRnd k1]

theorem SamePaths.roundStart (k : SamePaths r s) : SamePaths r s.roundStart := keepsPaths_roundStart.keeps r s k

theorem SamePaths.drawReceived {node r'} (k : SamePaths r s) : SamePaths r (s.drawReceived node r') :=
  .ite k (.ite (.setRnd k) (.setRnd k))

theorem SamePaths.sumKeep {d} (k : SamePaths r s) : SamePaths r (s.sumKeep d) := .setRnd k
theorem SamePaths.priceNewest {r'} (k : SamePaths r s) : SamePaths r (s.priceNewest r') := .setRnd k
theorem SamePaths.replyEnd (k : SamePaths r s) : SamePaths r s.replyEnd := .sendMsg (.sumKeep (.setRnd k))
theorem SamePaths.publish {r'} (k : SamePaths r s) : SamePaths r (s.publish r') := .sendMsg (.setRnd (.priceNewest k))

theorem SamePaths.collectUpdate {r' shifts resumed} (k : SamePaths r s) : SamePaths r (s.collectUpdate r' shifts resumed) :=
  .publish (.setRnd k)

theorem SamePaths.resumePrice (k : SamePaths r s) : SamePaths r s.resumePrice := by
  unfold State.resumePrice
  extract_lets
  split
  exacts [.publish (.setRnd k), .ite (.collectUpdate (.setRnd k)) (.publish (.setRnd (.setRnd k)))]

theorem SamePaths.priceReceived {node r'} (k : SamePaths r s) : SamePaths r (s.priceReceived node r') :=
  .ite k (.ite (.setRnd (.priceNewest k)) (.priceNewest k))

theorem SamePaths.candEnds {node eligible} (k : SamePaths r s) : SamePaths r (s.candEnds node eligible) := .ite (.mk k) k
theorem SamePaths.candNote {node rank eligible} (k : SamePaths r s) : SamePaths r (s.candNote node rank eligible) := .mk k
theorem SamePaths.candReceived {node r'} (k : SamePaths r s) : SamePaths r (s.candReceived node r') := .candNote (.candEnds k)

theorem SamePaths.planReceive {chan type node r'} (k : SamePaths r s) : SamePaths r (s.planReceive chan type node r') :=
  .ite (.ite (.ite (.priceAccept k) k) (.priceReceived k)) (.ite (.drawReceived k) (.ite (.sumKeep k) (.ite (.candReceived k) k)))

theorem SamePaths.tmActing (k : SamePaths r s) : SamePaths r s.tmActing := .ite (.mk (.setFlag k)) k
theorem SamePaths.tmStop (k : SamePaths r s) : SamePaths r s.tmStop := .setFlag (.mk k)
theorem SamePaths.tmQuorum (k : SamePaths r s) : SamePaths r s.tmQuorum := .ite k (.ite (.mk k) (.ite (.mk k) (.tmStop k)))

theorem SamePaths.grantDecide (k : SamePaths r s) : SamePaths r s.grantDecide := by
  unfold State.grantDecide
  extract_lets
  refine .ite (.mk k) ?_
  refine .ite (.mk k) ?_
  split
  exacts [.mk k, .mk k]

/-! ### The operations of `Sys2Proof/Machine/BusOps.lean` -/

theorem SamePaths.setCh {c b} (k : SamePaths r s) : SamePaths r (s.setCh c b) := .mk k
theorem SamePaths.busEvent {c b} (k : SamePaths r s) : SamePaths r (s.busEvent c b) := .setFlag k
theorem SamePaths.qPost {c off depth} (k : SamePaths r s) : SamePaths r (s.qPost c off depth) := .setFld (.setFld k)

theorem SamePaths.rxPost {c size w0 fmt ts data} (k : SamePaths r s) : SamePaths r (s.rxPost c size w0 fmt ts data) :=
  .ite (.busEvent (.countUp (.setCh k))) (.busEvent (.qPost (.wrBytes (.setCh k))))

theorem SamePaths.badAck {c} (k : SamePaths r s) : SamePaths r (s.badAck c) := .setFlag k

theorem SamePaths.rxAck {c v} (k : SamePaths r s) : SamePaths r (s.rxAck c v) := by
  unfold State.rxAck
  split
  exacts [.badAck k, .setFld k]

theorem SamePaths.ctxFree {c x} (k : SamePaths r s) : SamePaths r (s.ctxFree c x) := .setCh k

theorem SamePaths.cqAck {c v} (k : SamePaths r s) : SamePaths r (s.cqAck c v) := by
  unfold State.cqAck
  split
  · exact .badAck k
  · extract_lets _ s1 _
    have k1 : SamePaths r s1 := by
      unfold s1
      refine .foldl (fun _ _ k => ?_) k
      split
      exacts [.ctxFree k, k]
    exact .setFld (.setCh k1)

theorem SamePaths.carLost {c} (k : SamePaths r s) : SamePaths r (s.carLost c) := .busEvent (.countUp k)

theorem SamePaths.cqPost {c id status h frames ts x} (k : SamePaths r s) : SamePaths r (s.cqPost c id status h frames ts x) := by
  unfold State.cqPost
  refine .ite ?_ (.setCh (.busEvent (.qPost (.wrBytes k))))
  refine .carLost ?_
  split
  exacts [.ctxFree k, k]

theorem SamePaths.ctxDrop {c x status} (k : SamePaths r s) : SamePaths r (s.ctxDrop c x status) := by
  unfold State.ctxDrop
  split
  exacts [k, .cqPost (.ctxFree k)]

theorem SamePaths.noteCaravan {c id car crc} (k : SamePaths r s) : SamePaths r (s.noteCaravan c id car crc) := .ite k (.setCh k)

theorem SamePaths.ctxComplete {c x} (k : SamePaths r s) : SamePaths r (s.ctxComplete c x) := by
  unfold State.ctxComplete
  split
  exacts [k, .ite (.ctxDrop k) (.ite (.countUp (.ctxFree (.noteCaravan k))) (.ite (.planReceive (.cqPost (.setCh
    (.noteCaravan k)))) (.cqPost (.setCh (.noteCaravan k)))))]

theorem SamePaths.ctxPlace {c x q ts data} (k : SamePaths r s) : SamePaths r (s.ctxPlace c x q ts data) := by
  unfold State.ctxPlace
  split
  exacts [k, .ite (.ctxComplete (.setCh (.wrBytes k))) (.setCh (.wrBytes k))]

theorem SamePaths.ctxBegin {c key h q ts data} (k : SamePaths r s) : SamePaths r (s.ctxBegin c key h q ts data) := by
  unfold State.ctxBegin
  split
  exacts [.carLost k, .ite (.ctxDrop (.setCh k)) (.ctxPlace (.setCh k))]

theorem SamePaths.carFrame {c id ts data} (k : SamePaths r s) : SamePaths r (s.carFrame c id ts data) := by
  unfold State.carFrame
  extract_lets _ _ _ m1 m2 _
  refine .ite ?_ ?_
  · clear_value m2
    split
    exacts [.ctxDrop k, .cqPost k]
  · clear_value m2
    split
    · refine .ite (.ctxDrop k) ?_
      split
      exacts [.ite (.countUp k) (.ctxDrop k), .ctxPlace k]
    · clear_value m1
      split
      exacts [.ctxBegin (.ctxDrop k), .ctxBegin k]

theorem SamePaths.copyEnd {c e status} (k : SamePaths r s) : SamePaths r (s.copyEnd c e status) := .ite k (.ite (.mk k) (.mk k))

theorem SamePaths.txDone {c e status detail} (k : SamePaths r s) : SamePaths r (s.txDone c e status detail) :=
  .busEvent (.setCh (.setBit (.setBit (.setReg (.copyEnd k)))))

theorem SamePaths.refBack {c d} (k : SamePaths r s) : SamePaths r (s.refBack c d) := .ite k (.setCh k)

theorem SamePaths.busCut (k : SamePaths r s) : SamePaths r s.busCut := by
  unfold State.busCut
  refine .forN (fun _ _ k => ?_) k
  extract_lets s1 _
  have k1 : SamePaths r s1 := by
    unfold s1
    split
    exacts [.ite (.txDone k) k, .refBack k, k]
  exact .setCh k1

theorem SamePaths.txRequest {c e} (k : SamePaths r s) : SamePaths r (s.txRequest c e) :=
  .ite k (.ite (.txDone (.setCh k)) (.ite (.queueMsg (.setBit (.setCh k))) (.setBit (.setCh k))))

theorem SamePaths.txReqWrite {c v} (k : SamePaths r s) : SamePaths r (s.txReqWrite c v) :=
  .forN (fun _ _ k => .ite (.txRequest k) k) k

theorem SamePaths.txAbortWrite {c v} (k : SamePaths r s) : SamePaths r (s.txAbortWrite c v) :=
  .forN (fun _ _ k => .ite k (.ite (.setCh k) (.txDone k))) k

theorem SamePaths.msgDrop {no} (k : SamePaths r s) : SamePaths r (s.msgDrop no) := .mk k
theorem SamePaths.msgSent {no n} (k : SamePaths r s) : SamePaths r (s.msgSent no n) := .mk (.mk k)
theorem SamePaths.priceRefuse {c e} (k : SamePaths r s) : SamePaths r (s.priceRefuse c e) := .setFlag (.txDone k)
theorem SamePaths.msgRefuse {no} (k : SamePaths r s) : SamePaths r (s.msgRefuse no) := .setFlag (.msgDrop k)
theorem SamePaths.pfailQueue (k : SamePaths r s) : SamePaths r s.pfailQueue := .forN (fun _ _ k => .ite (.setCh k) k) k

theorem SamePaths.busTestTick {c} (k : SamePaths r s) : SamePaths r (s.busTestTick c) := by
  unfold State.busTestTick
  split
  exacts [k, .forN (fun _ _ k => .ite (.txDone k) k) k]

/-! ### The operations of `Sys2Proof/Machine/Can.lean` -/

theorem SamePaths.canReceive {c f sof} (k : SamePaths r s) : SamePaths r (s.canReceive c f sof) :=
  .ite (.carFrame (.setCh k)) (.rxPost k)

theorem SamePaths.busOff {c} (k : SamePaths r s) : SamePaths r (s.busOff c) :=
  .forN (fun _ _ k => .ite (.txDone k) k) (.mk (.busEvent (.setCh (.setFld k))))

theorem SamePaths.setCounters {c tec rec_} (k : SamePaths r s) : SamePaths r (s.setCounters c tec rec_) :=
  .ite (.setFld (.setFld k)) (.ite (.busOff (.setFld (.setFld k))) (.ite (.busEvent (.setFld (.setFld (.setFld k)))) (.setFld
    (.setFld (.setFld k)))))

theorem SamePaths.recDown {c} (k : SamePaths r s) : SamePaths r (s.recDown c) :=
  .ite k (.ite (.takeFree (.setCounters k)) (.setCounters k))

theorem SamePaths.canErr {c type pos} (k : SamePaths r s) : SamePaths r (s.canErr c type pos) :=
  .busEvent (.setFld (.setFld (.countUp k)))

theorem SamePaths.setCur {c src f} (k : SamePaths r s) : SamePaths r (s.setCur c src f) := .setCh k

theorem SamePaths.canStart {c sof n} (k : SamePaths r s) : SamePaths r (s.canStart c sof n) := by
  induction n generalizing s with
  | zero => exact k
  | succ n ih =>
    unfold State.canStart
    split
    · exact .setCh (.setCur k)
    · split
      · exact k
      · exact .ite (ih (.priceRefuse k)) (.setCur k)
      · split
        · exact k
        · exact .ite (ih (.msgRefuse k)) (.setCur k)
      · exact .setCur k
      · exact .setCur k

theorem SamePaths.entrySent {c e} (k : SamePaths r s) : SamePaths r (s.entrySent c e) :=
  .ite (.txDone (.setCh k)) (.ite (.txDone (.setCh k)) (.setCh k))

theorem SamePaths.entryFailed {c e status detail} (k : SamePaths r s) : SamePaths r (s.entryFailed c e status detail) :=
  .ite (.txDone k) (.ite (.txDone k) k)

theorem SamePaths.canEnd {c o} (k : SamePaths r s) : SamePaths r (s.canEnd c o) := by
  unfold State.canEnd
  split
  · exact k
  · extract_lets _ _ _ s1
    have k1 : SamePaths r s1 := by
      unfold s1
      split
      exacts [.entrySent (.setCh k), .entryFailed (.setCh k), .entryFailed (.setCh k), .msgSent (.setCh k), .setCh (.setCh k),
        .refBack (.setCh k), .setCh (.setCh k), .setCh (.setCh k), .setCh k]
    split
    exacts [.setCounters k1, k1, .ite (.canErr k1) (.setCounters (.canErr k1))]

theorem SamePaths.canCtlWrite {c v} (k : SamePaths r s) : SamePaths r (s.canCtlWrite c v) :=
  .ite (.setFld (.setFlag (.setFlag (.regWrite k)))) (.setFlag (.setFlag (.regWrite k)))

theorem SamePaths.canIdle {c} (k : SamePaths r s) : SamePaths r (s.canIdle c) := .ite k (.setFlag k)

/-! ### The operations of `Sys2Proof/Machine/LiveOps.lean` -/

theorem SamePaths.setHeld {l} (k : SamePaths r s) : SamePaths r (s.setHeld l) := .setFld (.mk k)
theorem SamePaths.saFreeze (k : SamePaths r s) : SamePaths r s.saFreeze := .setFlag k

theorem SamePaths.request {q act} (h : ∀ {x}, SamePaths r x → SamePaths r (act x)) (k : SamePaths r s) :
    SamePaths r (s.request q act) :=
  .ite (h k) (.ite (.setHeld k) (.ite (.setHeld k) (.setFld k)))

/-! ### The operations of `Sys2Proof/Machine/LeOps.lean` -/

theorem SamePaths.setSlot {n x} (k : SamePaths r s) : SamePaths r (s.setSlot n x) := .mk k
theorem SamePaths.setBankWord {n k' v} (k : SamePaths r s) : SamePaths r (s.setBankWord n k' v) := .mk k
theorem SamePaths.setDrive {d x} (k : SamePaths r s) : SamePaths r (s.setDrive d x) := .mk k
theorem SamePaths.driveOff {d} (k : SamePaths r s) : SamePaths r (s.driveOff d) := .setDrive (.setFlag (.setFlag k))
theorem SamePaths.traceEvent {b} (k : SamePaths r s) : SamePaths r (s.traceEvent b) := .mk k
theorem SamePaths.aoWrite {k' v force} (k : SamePaths r s) : SamePaths r (s.aoWrite k' v force) := .ite (.mk k) (.mk k)
theorem SamePaths.aoRelease (k : SamePaths r s) : SamePaths r s.aoRelease := .mk k

theorem SamePaths.setOut {n w view force} (k : SamePaths r s) : SamePaths r (s.setOut n w view force) :=
  .ite (.aoWrite (.setSlot (.setReg k))) (.setSlot (.setReg k))

theorem SamePaths.slotSafe {n force} (k : SamePaths r s) : SamePaths r (s.slotSafe n force) := by
  unfold State.slotSafe
  split
  exacts [.driveOff k, .ite (.setOut k) (.setOut k)]

theorem SamePaths.injAbort {cause} (k : SamePaths r s) : SamePaths r (s.injAbort cause) :=
  .ite (.mk (.setFlag (.setFld (.setFld (.setFlag (.ite (.setFlag k) k)))))) (.ite (.setFlag k) k)

theorem SamePaths.injLoopEvent {n} (k : SamePaths r s) : SamePaths r (s.injLoopEvent n) := .ite (.injAbort k) k

theorem SamePaths.driveTrip {n} (k : SamePaths r s) : SamePaths r (s.driveTrip n) := by
  unfold State.driveTrip
  split
  exacts [.setFlag (.ite (.setFlag k) k), k]

theorem SamePaths.enterTrip {n} (k : SamePaths r s) : SamePaths r (s.enterTrip n) :=
  .ite (.driveTrip k) (.injLoopEvent (.slotSafe (.setSlot (.setFlag (.driveTrip k)))))

theorem SamePaths.leaveTrip {n} (k : SamePaths r s) : SamePaths r (s.leaveTrip n) := .ite (.driveTrip (.setFlag k)) k

theorem SamePaths.applyTrips (k : SamePaths r s) : SamePaths r s.applyTrips :=
  .ite k (.forN (fun _ _ k => .ite (.enterTrip k) (.leaveTrip k)) k)

theorem SamePaths.showLevels (k : SamePaths r s) : SamePaths r s.showLevels := .ite (.forN (fun _ _ k => .setBit k) k) k
theorem SamePaths.dioSet {n level} (k : SamePaths r s) : SamePaths r (s.dioSet n level) := .showLevels (.mk k)

theorem SamePaths.faultAction {n} (k : SamePaths r s) : SamePaths r (s.faultAction n) := by
  unfold State.faultAction
  extract_lets _ s1 _ _ _ s2 _
  have k1 : SamePaths r s1 := .traceEvent (.setFlag (.setFlag k))
  have k2 : SamePaths r s2 := .ite (.slotSafe (.setSlot (.injLoopEvent k1))) (.setSlot (.injLoopEvent k1))
  exact .ite (.injLoopEvent k1) (.ite (.ite (.setSlot k2) (.setFlag k2)) k2)

theorem SamePaths.slotSkip {n} (k : SamePaths r s) : SamePaths r (s.slotSkip n) := .traceEvent (.setFlag (.setFld (.countUp k)))

theorem SamePaths.slotOverrun {n} (k : SamePaths r s) : SamePaths r (s.slotOverrun n) := by
  unfold State.slotOverrun
  extract_lets s1 _
  have k1 : SamePaths r s1 := .traceEvent (.setFlag (.setFld (.countUp k)))
  exact .ite (.faultAction (.setFld k1)) (.setFld k1)

theorem SamePaths.setTick {t} (k : SamePaths r s) : SamePaths r (s.setTick t) := .mk (.setReg k)

/-! ### The operations of `Sys2Proof/Machine/Pg.lean` -/

theorem SamePaths.setPg {c x} (k : SamePaths r s) : SamePaths r (s.setPg c x) := .mk k
theorem SamePaths.pgShow {c} (k : SamePaths r s) : SamePaths r (s.pgShow c) := .setFlag (.setFlag k)
theorem SamePaths.pgQueue {c r'} (k : SamePaths r s) : SamePaths r (s.pgQueue c r') := .pgShow (.mk k)
theorem SamePaths.pgRequest {c t} (k : SamePaths r s) : SamePaths r (s.pgRequest c t) := .ite k (.ite k (.pgQueue k))
theorem SamePaths.pgGive {c t} (k : SamePaths r s) : SamePaths r (s.pgGive c t) := .pgRequest (.setReg k)

theorem SamePaths.pgPublish {c} (k : SamePaths r s) : SamePaths r (s.pgPublish c) :=
  .setPg (.setReg (.setReg (.setReg (.setReg k))))

theorem SamePaths.pgEffect {c r'} (k : SamePaths r s) : SamePaths r (s.pgEffect c r') := by
  unfold State.pgEffect
  extract_lets
  split
  · extract_lets _ _ _ s1 _
    have k1 : SamePaths r s1 := by
      unfold s1
      split
      exacts [k, .setReg k]
    exact .ite (.ite (.setPg k1) (.setBit (.setPg k1))) (.setPg k1)

theorem SamePaths.pgAdvance {c} (k : SamePaths r s) : SamePaths r (s.pgAdvance c) := by
  unfold State.pgAdvance
  extract_lets
  refine .ite k ?_
  refine .ite (.setBit (.setPg k)) ?_
  split
  all_goals exact .setPg k

theorem SamePaths.pgTargetWrite {c v} (k : SamePaths r s) : SamePaths r (s.pgTargetWrite c v) :=
  .ite (.setBit (.setFld k)) (.pgRequest (.setReg (.setFld k)))

theorem SamePaths.pgRest {c x} (k : SamePaths r s) : SamePaths r (s.pgRest c x) := .pgShow (.pgPublish (.setPg (.mk k)))
theorem SamePaths.pgPresetWrite {c v} (k : SamePaths r s) : SamePaths r (s.pgPresetWrite c v) := .ite k (.pgRest k)

theorem SamePaths.pgCtlWrite {c v} (k : SamePaths r s) : SamePaths r (s.pgCtlWrite c v) := by
  unfold State.pgCtlWrite
  extract_lets _ _ _ s1
  have k1 : SamePaths r s1 := .ite (.pgRequest (.setFlag k)) (.ite (.pgRest (.setFlag k)) (.setFlag k))
  exact .ite (.pgQueue (.setFlag k1)) (.ite (.setFlag k1) k1)

theorem SamePaths.pgFreeze (k : SamePaths r s) : SamePaths r s.pgFreeze := .ite (.forN (fun _ _ k => .setFlag k) k) k
theorem SamePaths.pgFlags (k : SamePaths r s) : SamePaths r s.pgFlags := .pgFreeze (.forN (fun _ _ k => .setFlag k) k)
theorem SamePaths.setFallback {b} (k : SamePaths r s) : SamePaths r (s.setFallback b) := .setFlag (.setFlag k)

theorem SamePaths.reportFallback {b} (k : SamePaths r s) : SamePaths r (s.reportFallback b) :=
  .ite k (.ite (.traceEvent (.setFlag (.setFallback k))) (.setFlag (.setFallback k)))

theorem SamePaths.setStale {n} (k : SamePaths r s) : SamePaths r (s.setStale n) := .setFld (.mk k)
theorem SamePaths.pbOffer {x code} (k : SamePaths r s) : SamePaths r (s.pbOffer x code) := .ite k (.mk (.setFld k))

theorem SamePaths.pbTake (k : SamePaths r s) : SamePaths r s.pbTake := by
  unfold State.pbTake
  split
  exacts [.setStale k, .ite (.setStale (.setFlag (.mk k))) (.ite (.setStale (.mk (.setFlag (.mk k)))) (.setStale (.setFlag
    (.setFlag (.mk k)))))]

theorem SamePaths.pbStart (k : SamePaths r s) : SamePaths r s.pbStart :=
  .ite (.foldl (fun _ _ k => .pgGive k) (.setFallback (.setStale (.setFlag k)))) (.setFlag k)

theorem SamePaths.pgStart (k : SamePaths r s) : SamePaths r s.pgStart := .pgFlags (.forN (fun _ _ k => .ite k (.pgRequest k)) k)

/-! ### The operations of `Sys2Proof/Machine/Pt.lean` -/

theorem SamePaths.setPtSeg {i g} (k : SamePaths r s) : SamePaths r (s.setPtSeg i g) := .mk k

theorem SamePaths.ptShow {i} (k : SamePaths r s) : SamePaths r (s.ptShow i) := by
  unfold State.ptShow
  extract_lets
  refine .forN (fun _ _ k => ?_) k
  split
  exacts [.wrBytes k, k]

theorem SamePaths.ptRestart {i} (k : SamePaths r s) : SamePaths r (s.ptRestart i) :=
  .ptShow (.setFlag (.setFlag (.setFld (.setPtSeg k))))

theorem SamePaths.ptAdvance {i ticks secs} (k : SamePaths r s) : SamePaths r (s.ptAdvance i ticks secs) := by
  unfold State.ptAdvance
  extract_lets
  refine .ite k ?_
  split
  · extract_lets s1
    have k1 : SamePaths r s1 := .ite (.setFlag (.countUp (.ite (.setFlag k) k))) (.ite (.setFlag k) k)
    split
    · extract_lets m2 _ s3 _
      have k3 : SamePaths r s3 := by
        unfold s3
        clear_value m2
        split
        exacts [.setReg (.setPtSeg k1), .setPtSeg k1]
      exact .ptShow (.setFld (.ite (.setFlag k3) k3))

theorem SamePaths.ptPredict {o} (k : SamePaths r s) : SamePaths r (s.ptPredict o) :=
  .ite k (.wrBytes (.setFlag (.setFlag (.countWrap k))))

theorem SamePaths.ptDiscard {key} (k : SamePaths r s) : SamePaths r (s.ptDiscard key) :=
  .ite (.forN (fun _ _ k => .setReg k) k) (.forN (fun _ _ k => .setReg k) k)

theorem SamePaths.ptPend {key b} (k : SamePaths r s) : SamePaths r (s.ptPend key b) := .ite (.setFlag k) k
theorem SamePaths.ptArm {key} (k : SamePaths r s) : SamePaths r (s.ptArm key) := .ptPend (.mk k)
theorem SamePaths.ptDrop {key} (k : SamePaths r s) : SamePaths r (s.ptDrop key) := .mk k

theorem SamePaths.ptCommitWrite {v} (k : SamePaths r s) : SamePaths r (s.ptCommitWrite v) :=
  .ite k (.ite (.setFlag (.ptDiscard (.setFld k))) (.ite (.request (fun k => k) (.setFld k)) (.request (fun k => .ptArm k) (.mk
    (.ptDrop (.setFld k))))))

theorem SamePaths.ptApply {g} (k : SamePaths r s) : SamePaths r (s.ptApply g) := by
  unfold State.ptApply
  extract_lets _ _ s1 _
  have k1 : SamePaths r s1 := .ptPend (.setPtSeg (.setFlag k))
  exact .ite (.ite k1 (.ptRestart k1)) (.mk (.setFlag k))

theorem SamePaths.ptVols (k : SamePaths r s) : SamePaths r s.ptVols := .mk k

theorem SamePaths.ptUpdate (k : SamePaths r s) : SamePaths r s.ptUpdate :=
  .setFlag (.countWrap (.ptVols (.forN (fun _ _ k => .ptPredict k) (.forN (fun _ _ k => .ptAdvance k) (.foldl (fun _ _ k =>
    .ptApply k) (.mk (.countWrap k)))))))

theorem SamePaths.ptStart (k : SamePaths r s) : SamePaths r s.ptStart :=
  .setFlag (.mk (.forN (fun _ _ k => .ptRestart (.setPtSeg k)) (.ptVols (.mk k))))

theorem SamePaths.plugCpWrite {off n v} (k : SamePaths r s) : SamePaths r (s.plugCpWrite off n v) := .ite (.countUp k) (.wrBytes k)

/-! ### The operations of `Sys2Proof/Machine/SaJobs.lean` -/

theorem SamePaths.saShow (k : SamePaths r s) : SamePaths r s.saShow :=
  .saFreeze (.setFld (.setFld (.setFlag (.setFlag (.setFld k)))))

theorem SamePaths.setSa {a} (k : SamePaths r s) : SamePaths r (s.setSa a) := .mk k

theorem SamePaths.saBoundary (k : SamePaths r s) : SamePaths r s.saBoundary := by
  unfold State.saBoundary
  extract_lets s1 s2 _
  have k1 : SamePaths r s1 := by
    unfold s1
    split
    exacts [k, .setBit (.setBit k)]
  have k2 : SamePaths r s2 := by
    unfold s2
    split
    exacts [k1, .setBit (.setBit k1)]
  exact .saShow (.setSa k2)

theorem SamePaths.noteRoundJob {addr code id} (k : SamePaths r s) : SamePaths r (s.noteRoundJob addr code id) :=
  .ite k (.ite (.setRnd k) (.setRnd k))

theorem SamePaths.submit {prio addr busy at_} (k : SamePaths r s) : SamePaths r (s.submit prio addr busy at_) := by
  unfold State.submit
  refine .ite (.setFlag k) ?_
  split
  · extract_lets s1
    have k1 : SamePaths r s1 := .noteRoundJob (.setFld (.setFld k))
    split
    exacts [k1, .saShow (.setSa (.setReg k1))]

theorem SamePaths.saPutFactor {j p f} (k : SamePaths r s) : SamePaths r (s.saPutFactor j p f) :=
  .wr32 (.wr32 (.wr32 (.ite (.wrWords (.wrWords (.wrWords k))) (.wrWords (.wrWords k)))))

theorem SamePaths.wrOpt {a v} (k : SamePaths r s) : SamePaths r (s.wrOpt a v) := by
  unfold State.wrOpt
  split
  exacts [k, .wrWords k]

theorem SamePaths.saCommit {j p r'} (k : SamePaths r s) : SamePaths r (s.saCommit j p r') := by
  unfold State.saCommit
  extract_lets _ _ _ _ s1 _ _ _ _ s2 _ _
  have k1 : SamePaths r s1 := by
    unfold s1
    split
    exacts [.bumpSeq k, .saPutFactor (.bumpSeq k)]
  have k2 : SamePaths r s2 := by
    unfold s2
    split
    exacts [.wrOpt (.wrOpt (.ite (.ite (.wr8 k1) k1) (.wr8 (.ite (.wr8 k1) k1)))), .wrWords (.wrOpt (.wrOpt (.ite (.ite
      (.wr8 k1) k1) (.wr8 (.ite (.wr8 k1) k1)))))]
  split
  exacts [.bumpSeq (.wr16 k2), .ite (.bumpSeq (.wr16 k2)) (.wrWords (.bumpSeq (.wr16 k2)))]

theorem SamePaths.saEndProblem {j p x} (k : SamePaths r s) : SamePaths r (s.saEndProblem j p x).1 := .saCommit k

theorem SamePaths.saEndAll {j res l} (k : SamePaths r s) : SamePaths r (s.saEndAll j res l).1 := by
  induction l generalizing s j with
  | nil => exact k
  | cons p l ih => exact ih (.saEndProblem k)

theorem SamePaths.saOffer {j} (k : SamePaths r s) : SamePaths r (s.saOffer j) := .pbOffer k

theorem SamePaths.saFinish {j special stopped} (k : SamePaths r s) : SamePaths r (s.saFinish j special stopped) := by
  unfold State.saFinish
  extract_lets _ _ _ s1 _ _
  have k1 : SamePaths r s1 := .forN (fun _ _ k => .setReg k) (.countWrap (.ite k (.wr32 (.wrWords k))))
  exact .roundJobEnd (.ite (.saOffer (.setBit k1)) (.setBit k1))

theorem SamePaths.saBegin {j} (k : SamePaths r s) : SamePaths r (s.saBegin j) := by
  unfold State.saBegin
  extract_lets _ _ _ _ _ _ _ s1 _ _
  have k1 : SamePaths r s1 := by
    unfold s1
    refine .foldl (fun _ _ k => ?_) (.setSa k)
    split
    exacts [.rtApply k, k]
  refine .ite (.saShow (.saFinish (.setSa k))) ?_
  refine .ite (.saShow (.saFinish (.setSa k))) ?_
  split
  all_goals exact .saShow (.setSa k1)

theorem SamePaths.saResume {j} (k : SamePaths r s) : SamePaths r (s.saResume j) := by
  unfold State.saResume
  extract_lets
  split
  all_goals exact .saShow (.setSa k)

theorem SamePaths.saChoose (k : SamePaths r s) : SamePaths r s.saChoose := by
  unfold State.saChoose
  refine .ite k ?_
  split
  · exact .saBegin k
  · split
    · exact .saResume k
    · split
      exacts [.saBegin k, k]

theorem SamePaths.saWaveEnd {bad n} (k : SamePaths r s) : SamePaths r (s.saWaveEnd bad n) := by
  unfold State.saWaveEnd
  split
  · exact k
  · refine .ite k ?_
    have ended {j j' res l} : SamePaths r (((s.canvasErrors j' n).saEndAll j res l).1.saBoundary) :=
      .saBoundary (.saEndAll (.canvasErrors k))
    exact .ite (.saShow (.saFinish (.setSa ended))) (.ite (.saShow (.setSa ended)) (.saShow (.setSa ended)))

theorem SamePaths.saStop {j w} (k : SamePaths r s) : SamePaths r (s.saStop j w) :=
  .saShow (.saFinish (.saBoundary (.saEndAll (.saEndAll (.canvasErrors (.setSa k))))))

theorem SamePaths.saDeadlineOf {j w} (k : SamePaths r s) : SamePaths r (s.saDeadlineOf j w) :=
  .ite (.saStop k) (.ite (.saShow (.saFinish (.saEndAll (.setSa k)))) (.saShow (.saFinish (.setSa k))))

theorem SamePaths.saDeadlines {w} (k : SamePaths r s) : SamePaths r (s.saDeadlines w) :=
  .ite (.saShow k) (.foldl (fun _ _ k => .saDeadlineOf k) k)

theorem SamePaths.saSwapTake {slot} (k : SamePaths r s) : SamePaths r (s.saSwapTake slot) :=
  .setSa (.setBit (.setBit (.canvasSwap k)))

theorem SamePaths.saSwapAct {slot} (k : SamePaths r s) : SamePaths r (s.saSwapAct slot) :=
  .ite (.setFld k) (.ite (.saSwapTake k) (.setBit k))

theorem SamePaths.saSwapWrite {v} (k : SamePaths r s) : SamePaths r (s.saSwapWrite v) :=
  .ite k (.ite (.setFld k) (.request (fun k => .saSwapAct k) (.setFld k)))

theorem SamePaths.saSwapNow {slot} (k : SamePaths r s) : SamePaths r (s.saSwapNow slot) := .ite k (.saSwapTake k)
theorem SamePaths.saWithdraw {slot} (k : SamePaths r s) : SamePaths r (s.saWithdraw slot) := .ite k (.setSa (.setBit k))
theorem SamePaths.canvasCancel {i} (k : SamePaths r s) : SamePaths r (s.canvasCancel i) := .saWithdraw (.setCanvasState k)
theorem SamePaths.canvasRequest {i v} (k : SamePaths r s) : SamePaths r (s.canvasRequest i v) := .readyEnd (.wr32 k)

theorem SamePaths.canvasCpWrite {off n v} (k : SamePaths r s) : SamePaths r (s.canvasCpWrite off n v) :=
  .ite (.canvasCancel k) (.ite (.canvasRequest k) (.canvasWrite k))

/-! ### The operations of `Sys2Proof/Machine/Wfl.lean` -/

theorem SamePaths.setLink {l x} (k : SamePaths r s) : SamePaths r (s.setLink l x) := .mk k
theorem SamePaths.setWmod {l m x} (k : SamePaths r s) : SamePaths r (s.setWmod l m x) := .setLink k

theorem SamePaths.setShadow {l m r'} (k : SamePaths r s) : SamePaths r (s.setShadow l m r') :=
  .setReg (.setReg (.setReg (.setReg (.setReg k))))

theorem SamePaths.setWstate {l m st} (k : SamePaths r s) : SamePaths r (s.setWstate l m st) :=
  .ite (.setFlag (.setBit (.setFld k))) (.ite (.setFlag (.setBit (.setFld k))) (.ite (.setFlag (.setBit (.setFld k))) (.setBit
    (.setFld k))))

theorem SamePaths.wstale {l m i} (k : SamePaths r s) : SamePaths r (s.wstale l m i) :=
  .setWstate (.setFld (.setFld (.setReg (.setReg (.setReg k)))))

theorem SamePaths.wident {l m i} (k : SamePaths r s) : SamePaths r (s.wident l m i) :=
  .ite (.setWstate (.setFld (.setWmod k))) (.wstale (.setFld (.setWmod k)))

theorem SamePaths.setInputs {r' ws} (k : SamePaths r s) : SamePaths r (s.setInputs r' ws) := .forN (fun _ _ k => .setReg k) k

theorem SamePaths.wapply {l m} (k : SamePaths r s) : SamePaths r (s.wapply l m) := by
  unfold State.wapply
  split
  · extract_lets
    refine .ite (.setWstate (.setFlag (.setWmod k))) ?_
    split
    · exact .setWstate (.setInputs (.setFlag (.setWmod k)))
    · split
      exacts [.ite (.setInputs (.setFlag (.setWmod k))) (.wstale (.setInputs (.setFlag (.setWmod k)))), .setInputs (.setFlag
        (.setWmod k))]
    · exact (.setInputs (.setFlag (.setWmod k)))
  · exact k

theorem SamePaths.wsend {l m cmd probe t} (k : SamePaths r s) : SamePaths r (s.wsend l m cmd probe t) := .setLink k
theorem SamePaths.wpoll {l m t} (k : SamePaths r s) : SamePaths r (s.wpoll l m t) := .wsend k
theorem SamePaths.wcycle {l t} (k : SamePaths r s) : SamePaths r (s.wcycle l t) := .setLink (.forN (fun _ _ k => .wapply k) k)

theorem SamePaths.wnext {l t probed} (k : SamePaths r s) : SamePaths r (s.wnext l t probed).1 := by
  unfold State.wnext
  extract_lets +onlyGivenNames link due
  split
  · exact .wpoll (.setLink k)
  · extract_lets +onlyGivenNames probe
    clear_value probe
    split
    · exact .wsend (.setLink k)
    · extract_lets
      split
      · exact .countWrap (.setLink k)
      · exact .setFld (.setFlag (.countUp (.countWrap (.setLink k))))

theorem SamePaths.wgo {l t probed} (k : SamePaths r s) : SamePaths r (s.wgo l t probed) :=
  .ite (.wnext (.wcycle (.wnext k))) (.wnext k)

theorem SamePaths.wmiss {l m} (k : SamePaths r s) : SamePaths r (s.wmiss l m) := .ite (.setWstate (.setFld k)) (.setFld k)
theorem SamePaths.missCount {f} (k : SamePaths r s) : SamePaths r (s.missCount f) := .countUp k

theorem SamePaths.wanswer {l q f parity} (k : SamePaths r s) : SamePaths r (s.wanswer l q f parity) := by
  unfold State.wanswer
  split
  exacts [.wmiss (.missCount k), .wmiss k, .ite (.wident k) (.ite (.wmiss (.setWmod k)) (.setFld (.countWrap (.setInputs k))))]

theorem SamePaths.wflArm {v} (k : SamePaths r s) : SamePaths r (s.wflArm v) := by
  unfold State.wflArm
  extract_lets
  split
  exacts [.setFlag (.setWmod k), k]

theorem SamePaths.wflDrop {v} (k : SamePaths r s) : SamePaths r (s.wflDrop v) := .setWmod k

theorem SamePaths.wflCommitWrite {v} (k : SamePaths r s) : SamePaths r (s.wflCommitWrite v) :=
  .ite k (.ite (.setShadow (.setFld k)) (.ite (.request (fun k => k) (.setFld k)) (.request (fun k => .wflArm k) (.setWmod
    (.setFld k)))))

theorem SamePaths.wflOutCpWrite {e v} (k : SamePaths r s) : SamePaths r (s.wflOutCpWrite e v) := by
  unfold State.wflOutCpWrite
  split
  exacts [.ite (.setReg k) k, .setReg k]

theorem SamePaths.wflCut (k : SamePaths r s) : SamePaths r s.wflCut := .mk k

theorem SamePaths.wflMissClear (k : SamePaths r s) : SamePaths r s.wflMissClear :=
  .forN (fun _ _ k => .forN (fun _ _ k => .setFld k) k) k

theorem SamePaths.wflStart (k : SamePaths r s) : SamePaths r s.wflStart :=
  .forN (fun _ _ k => .forN (fun _ _ k => .setWstate (.setWmod k)) k) k

theorem SamePaths.wtimeout {l q} (k : SamePaths r s) : SamePaths r (s.wtimeout l q) := .wgo (.wmiss (.missCount k))

/-! ### The operations of `Sys2Proof/Machine/SeOps.lean` -/

theorem SamePaths.setSe {x} (k : SamePaths r s) : SamePaths r (s.setSe x) := .mk k
theorem SamePaths.svRaw {w v} (k : SamePaths r s) : SamePaths r (s.svRaw w v) := .wr32 k
theorem SamePaths.svSet {w v} (k : SamePaths r s) : SamePaths r (s.svSet w v) := .svRaw k
theorem SamePaths.seImage {lo hi} (k : SamePaths r s) : SamePaths r (s.seImage lo hi) := .forN (fun _ _ k => .svSet k) k

theorem SamePaths.seCommand {kind idx w} (k : SamePaths r s) : SamePaths r (s.seCommand kind idx w) := by
  unfold State.seCommand
  split
  exacts [.ite (.setSlot k) k, .ite (.setReg k) k, .aoWrite k, .dioSet k]

theorem SamePaths.seCmdEntry {lo hi} (k : SamePaths r s) : SamePaths r (s.seCmdEntry lo hi) := .forN (fun _ _ k => .seCommand k) k
theorem SamePaths.sePublish (k : SamePaths r s) : SamePaths r s.sePublish := .mk k
theorem SamePaths.seEdges {n} (k : SamePaths r s) : SamePaths r (s.seEdges n) := .forN (fun _ _ k => .ite k (.svRaw k)) k

/-! ### The operations of `Sys2Proof/Machine/Se.lean` -/

theorem SamePaths.setForces {l} (k : SamePaths r s) : SamePaths r (s.setForces l) :=
  .forN (fun _ _ k => .setReg (.setReg (.setReg k))) (.setFld (.setSe k))

theorem SamePaths.forceLog {tag cause} (k : SamePaths r s) : SamePaths r (s.forceLog tag cause) :=
  .setFlag (.countUp (.setFld (.setReg k)))

theorem SamePaths.forcesDrop (k : SamePaths r s) : SamePaths r s.forcesDrop := .foldl (fun _ _ k => .forceLog k) (.setForces k)
theorem SamePaths.forceApply (k : SamePaths r s) : SamePaths r s.forceApply := .foldl (fun _ _ k => .svSet k) k

theorem SamePaths.forcesRebind {h} (k : SamePaths r s) : SamePaths r (s.forcesRebind h) :=
  .foldl (fun _ _ k => .forceLog k) (.setForces k)

theorem SamePaths.seInstances {l} (k : SamePaths r s) : SamePaths r (s.seInstances l) :=
  .foldl (fun _ _ k => .forN (fun _ _ k => .svRaw k) k) (.clearMem k)

theorem SamePaths.seInit {h p} (k : SamePaths r s) : SamePaths r (s.seInit h p) := .forN (fun _ _ k => .ite (.svSet k) k) k
theorem SamePaths.seRunAt {base} (k : SamePaths r s) : SamePaths r (s.seRunAt base) := .setFlag (.setFld (.setFld k))

theorem SamePaths.seExchange {base} (k : SamePaths r s) : SamePaths r (s.seExchange base) :=
  .setFlag (.seRunAt (.setFlag (.setSe (.forceApply (.seInit (.forcesRebind (.seInstances k)))))))

theorem SamePaths.seStart {base} (k : SamePaths r s) : SamePaths r (s.seStart base) :=
  .seRunAt (.seInit (.seInstances (.seInstances k)))

theorem SamePaths.seShow (k : SamePaths r s) : SamePaths r s.seShow := .setFlag (.setFlag k)

theorem SamePaths.iteS {c : Prop} [Decidable c] {a b : SeRun} (ha : SamePaths r a.s) (hb : SamePaths r b.s) :
    SamePaths r (if c then a else b).s := by
  split
  · exact ha
  · exact hb

theorem SamePaths.put {q : SeRun} {i v} (k : SamePaths r q.s) : SamePaths r (q.put i v).s := .svSet k
theorem SamePaths.putF {q : SeRun} {i v} (k : SamePaths r q.s) : SamePaths r (q.putF i v).s := .put k
theorem SamePaths.putI {q : SeRun} {i v} (k : SamePaths r q.s) : SamePaths r (q.putI i v).s := .put k

theorem SamePaths.floatOp {q : SeRun} {i x y} (k : SamePaths r q.s) : SamePaths r (q.floatOp i x y).s := by
  unfold SeRun.floatOp
  split
  case h_4 => exact .iteS (.put k) (.putF k)
  all_goals exact .putF k

theorem SamePaths.intOp {q : SeRun} {i x y} (k : SamePaths r q.s) : SamePaths r (q.intOp i x y).s := by
  unfold SeRun.intOp
  split
  case h_4 => exact .iteS (.putI k) (.putI k)
  all_goals exact .putI k

theorem SamePaths.toInt {q : SeRun} {i x} (k : SamePaths r q.s) : SamePaths r (q.toInt i x).s := by
  unfold SeRun.toInt
  refine .iteS (.putI k) ?_
  split
  · exact .putI k
  · exact .putI k

theorem SamePaths.word {q : SeRun} {i} (k : SamePaths r q.s) : SamePaths r (q.word i).s := by
  unfold SeRun.word
  extract_lets
  split
  case h_1 => exact .iteS (.putF k) (.put k)
  case h_7 => exact .putF k
  case h_8 => exact .toInt k
  case h_9 => exact .iteS (.floatOp k) (.intOp k)
  all_goals exact .put k

theorem SamePaths.bitOp {q : SeRun} {i} (k : SamePaths r q.s) : SamePaths r (q.bitOp i).s := by
  unfold SeRun.bitOp
  extract_lets w x st
  have kst {b} : SamePaths r (st b).s := .svSet k
  split
  case h_8 => exact kst
  case h_9 => exact kst
  case h_10 => exact .iteS kst k
  case h_11 => exact .iteS kst k
  all_goals exact k

theorem SamePaths.compare {q : SeRun} {i} (k : SamePaths r q.s) : SamePaths r (q.compare i).s := k
theorem SamePaths.stackOp {q : SeRun} {i} (k : SamePaths r q.s) : SamePaths r (q.stackOp i).s := .iteS k k

theorem SamePaths.timer {q : SeRun} {i} (k : SamePaths r q.s) : SamePaths r (q.timer i).s := by
  unfold SeRun.timer
  extract_lets w st start pt now inp q run done fin
  have kfin {a b c d e} : SamePaths r (fin a b c d e).s := .put (.svRaw (.svRaw k))
  split
  · exact .iteS kfin kfin
  · exact .iteS kfin (.iteS (.iteS kfin kfin) kfin)
  · exact .iteS (.iteS kfin kfin) (.iteS kfin kfin)

theorem SamePaths.counter {q : SeRun} {i} (k : SamePaths r q.s) : SamePaths r (q.counter i).s := .svRaw (.svRaw k)
theorem SamePaths.edge {q : SeRun} {i} (k : SamePaths r q.s) : SamePaths r (q.edge i).s := .svRaw k

theorem SamePaths.exec {q : SeRun} {i} (k : SamePaths r q.s) : SamePaths r (q.exec i).s :=
  .iteS k (.iteS (.bitOp k) (.iteS (.stackOp k) (.iteS (.word k) (.iteS (.compare k) (.iteS (.timer k) (.iteS (.counter k)
    (.edge k)))))))

theorem SamePaths.run {h : SeHdr} {q : SeRun} {pc n} (k : SamePaths r q.s) : SamePaths r (q.run h pc n).s := by
  induction n generalizing q pc with
  | zero => exact k
  | succ n ih => exact .iteS k (.iteS (ih k) (.iteS (ih k) (ih (.exec k))))

theorem SamePaths.seCycle {n x} (k : SamePaths r s) : SamePaths r (s.seCycle n x) := by
  unfold State.seCycle
  extract_lets _ _ _ _ _ q _ _ s1 _ _ s2
  have kq : SamePaths r q.s := .run (.forN (fun _ _ k => .seImage k) (.setSe (.setFld (.setReg k))))
  have k1 : SamePaths r s1 := .ite (.setFlag (.ite (.setFlag kq) kq)) (.ite (.setFlag kq) kq)
  have k2 : SamePaths r s2 := .setFlag (.forN (fun _ _ k => .seCmdEntry k) (.seEdges (.sePublish k1)))
  split
  next t m ht =>
    have kt : SamePaths r t := by
      split at ht
      · cases ht
        exact .seExchange k2
      · cases ht
        exact k2
    exact .seShow (.setSe (.setFld (.setFld kt)))

theorem SamePaths.seSkip (k : SamePaths r s) : SamePaths r s.seSkip := .setFld (.setFlag (.countUp k))
theorem SamePaths.seArm {v} (k : SamePaths r s) : SamePaths r (s.seArm v) := .setFlag (.setSe k)
theorem SamePaths.seDrop (k : SamePaths r s) : SamePaths r s.seDrop := .setSe k

theorem SamePaths.seXchgWrite {v} (k : SamePaths r s) : SamePaths r (s.seXchgWrite v) := by
  unfold State.seXchgWrite
  refine .ite k ?_
  extract_lets
  split
  all_goals exact .ite (.setFlag (.seShow (.setSe (.setFld (.setFld k))))) (.ite (.request (fun k => k) (.seShow (.setSe (.setFld
    (.setFld k))))) (.request (fun k => .seArm k) (.setSe (.seShow (.setSe (.setFld (.setFld k)))))))

theorem SamePaths.forceSet (k : SamePaths r s) : SamePaths r s.forceSet := by
  unfold State.forceSet
  extract_lets _ m1 _ _ _
  clear_value m1
  split
  exacts [.ite (.setFld k) (.svSet (.setForces (.setFld k))), .setFld k]

theorem SamePaths.forceClr (k : SamePaths r s) : SamePaths r s.forceClr := .ite (.setFld k) (.setForces (.setFld k))

theorem SamePaths.forceCmdWrite {v} (k : SamePaths r s) : SamePaths r (s.forceCmdWrite v) :=
  .ite (.forceClr (.ite (.forceSet k) k)) (.ite (.forceSet k) k)

theorem SamePaths.seCpWrite {off n v} (k : SamePaths r s) : SamePaths r (s.seCpWrite off n v) :=
  .ite (.ite k (.wrBytes k)) (.ite k (.svSet k))

theorem SamePaths.seCycleDue {cycles exchange} (k : SamePaths r s) : SamePaths r (s.seCycleDue cycles exchange) :=
  .ite (.seCycle (.setSe k)) k

/-! ### The operations of `Sys2Proof/Machine/Live.lean` -/

theorem SamePaths.holdStart (k : SamePaths r s) : SamePaths r s.holdStart := .setFlag (.setFld (.setFld (.mk k)))

theorem SamePaths.release {x} (k : SamePaths r s) : SamePaths r (HeldReq.release s x) := by
  unfold HeldReq.release
  split
  exacts [.setFlag k, .ptCommitWrite (.ptDrop k), .wflCommitWrite (.wflDrop k), .saSwapAct k, .seArm k]

theorem SamePaths.discard {x} (k : SamePaths r s) : SamePaths r (HeldReq.discard s x) := by
  unfold HeldReq.discard
  split
  exacts [.ptDrop k, .wflDrop k, .seDrop k, k, k]

theorem SamePaths.holdEnd (k : SamePaths r s) : SamePaths r s.holdEnd := .setFlag (.setHeld k)

theorem SamePaths.holdGo (k : SamePaths r s) : SamePaths r s.holdGo :=
  .ite (.holdEnd (.foldl (fun _ _ k => .release k) (.setFlag k))) k

theorem SamePaths.holdDrop (k : SamePaths r s) : SamePaths r s.holdDrop := .ite (.holdEnd (.foldl (fun _ _ k => .discard k) k)) k

theorem SamePaths.liveCtlWrite {v} (k : SamePaths r s) : SamePaths r (s.liveCtlWrite v) :=
  .ite k (.ite (.holdDrop (.ite (.holdGo (.ite (.holdStart k) k)) (.ite (.holdStart k) k))) (.ite (.holdGo (.ite (.holdStart k)
    k)) (.ite (.holdStart k) k)))

/-! ### The operations of `Sys2Proof/Machine/Totals.lean` -/

theorem SamePaths.startSave {kind lreq} (k : SamePaths r s) : SamePaths r (s.startSave kind lreq) := .showHeld (.mk (.setFlag k))

theorem SamePaths.saveOccasion {kind} (k : SamePaths r s) : SamePaths r (s.saveOccasion kind) := by
  unfold State.saveOccasion
  refine .ite k ?_
  split
  exacts [.startSave k, .ite k (.mk k)]

theorem SamePaths.advanceLedger {n} (k : SamePaths r s) : SamePaths r (s.advanceLedger n) := .forN (fun _ _ k => .scIncrement k) k

theorem SamePaths.commitSave {v} (k : SamePaths r s) : SamePaths r (s.commitSave v) :=
  .scIncrement (.ite (.pmProgramAll k) (.advanceLedger (.pmProgramAll k)))

theorem SamePaths.showSave (k : SamePaths r s) : SamePaths r s.showSave := by
  unfold State.showSave
  split
  exacts [k, .setFld (.setFld (.setFld k))]

theorem SamePaths.saveCut {n} (k : SamePaths r s) : SamePaths r (s.saveCut n) := by
  unfold State.saveCut
  split
  · exact .mk k
  · extract_lets _ _ _ s1
    have k1 : SamePaths r s1 := .ite (.pmProgramAll (.mk k)) (.advanceLedger (.pmProgramAll (.mk k)))
    exact .ite (.pmProgramAll (.mk k)) (.ite (.scIncrement k1) k1)

theorem SamePaths.writeRunMark (k : SamePaths r s) : SamePaths r s.writeRunMark := .ite k (.pmLater (.mk k))
theorem SamePaths.marksRestart (k : SamePaths r s) : SamePaths r s.marksRestart := .writeRunMark (.mk k)

theorem SamePaths.loadCalc {a c} (k : SamePaths r s) : SamePaths r (s.loadCalc a c) :=
  .mhShow (.setFld (.setFld (.setFld (.setReg (.setCalc k)))))

theorem SamePaths.loadPort {a p} (k : SamePaths r s) : SamePaths r (s.loadPort a p) := .meShow (.setPort k)

theorem SamePaths.loadTotals {a} (k : SamePaths r s) : SamePaths r (s.loadTotals a) :=
  .forN (fun _ _ k => .loadPort k) (.forN (fun _ _ k => .loadCalc k) k)

theorem SamePaths.mergeWrite {l es} (k : SamePaths r s) : SamePaths r (s.mergeWrite l es) := .ledgerGrow (.pmProgramAll k)

theorem SamePaths.iteSt {c : Prop} [Decidable c] {a b : Merge} (ha : SamePaths r a.st) (hb : SamePaths r b.st) :
    SamePaths r (if c then a else b).st := by
  split
  · exact ha
  · exact hb

theorem SamePaths.book {m : Merge} {e b} (k : SamePaths r m.st) : SamePaths r (m.book e b).st :=
  .iteSt (.countUp k) k

theorem SamePaths.calc {m : Merge} {t c} (k : SamePaths r m.st) : SamePaths r (Merge.calc t m c).st := by
  unfold Merge.calc
  extract_lets
  refine .iteSt k (.iteSt (.book (.setCalc k)) (.iteSt (.setCalc k) (.iteSt (.book (.mhAdd (.mhAdd (.setCalc k)))) ?_)))
  split
  · exact .book (.mhAdd (.mhAdd (.setCalc k)))
  · exact .book (.mhAdd (.setCalc k))

theorem SamePaths.foldlSt {α : Type} {f : Merge → α → Merge} {l : List α} {m : Merge}
    (h : ∀ m c, SamePaths r m.st → SamePaths r (f m c).st) (k : SamePaths r m.st) : SamePaths r (l.foldl f m).st := by
  induction l generalizing m with
  | nil => exact k
  | cons c l ih => exact ih (h m c k)

theorem SamePaths.unsaved {m : Merge} {a} (k : SamePaths r m.st) : SamePaths r (m.unsaved a).st :=
  .foldlSt (fun _ _ k => .iteSt (.book k) k) (.foldlSt (fun _ _ k => .iteSt (.book k) k) k)

theorem SamePaths.returnTotals (k : SamePaths r s) : SamePaths r s.returnTotals := by
  unfold State.returnTotals
  split
  · exact .ite (.mk (.setFld (.ite (.setFld k) k))) (.startSave (.mk (.ite (.setFld k) k)))
  · extract_lets s1 _ _ s2 t0 u m1 m2 l s3 s4 s5 s6
    have k1 : SamePaths r s1 := .ite k (.scIncrement k)
    have k2 : SamePaths r s2 := .mk (.setFld (.loadTotals k1))
    have km : SamePaths r m1.st := .foldlSt (fun _ _ k => .calc k) k2
    have ku : SamePaths r m2.st := .iteSt (.unsaved km) km
    exact .startSave (.forN (fun _ _ k => .mhShow k) (.showSave (.setFld (.setFlag (.setFlag (.mergeWrite ku))))))

/-! ### The operations of `Sys2Proof/Machine/Session.lean` -/

theorem SamePaths.setWay {w} (k : SamePaths r s) : SamePaths r (s.setWay w) := .mk k
theorem SamePaths.setAuth {b} (k : SamePaths r s) : SamePaths r (s.setAuth b) := .ite (.setFlag (.setFlag k)) (.setFlag k)
theorem SamePaths.setMauth {b} (k : SamePaths r s) : SamePaths r (s.setMauth b) := .ite (.setFlag (.setFlag k)) (.setFlag k)
theorem SamePaths.showRights (k : SamePaths r s) : SamePaths r s.showRights := .setFlag (.setFlag (.setMauth (.setAuth k)))

theorem SamePaths.sessionClose (k : SamePaths r s) : SamePaths r s.sessionClose := by
  unfold State.sessionClose
  extract_lets _ _ s1 _ _
  have k1 : SamePaths r s1 := .showRights (.setWay k)
  exact .mk (.ite (.injAbort k1) k1)

theorem SamePaths.clearAuth (k : SamePaths r s) : SamePaths r s.clearAuth := .ite (.injAbort (.setAuth k)) (.setAuth k)

/-! ### The operations of `Sys2Proof/Machine/VltOps.lean` -/

theorem SamePaths.setVlt {v} (k : SamePaths r s) : SamePaths r (s.setVlt v) := .mk k
theorem SamePaths.vaultWrite {a v} (k : SamePaths r s) : SamePaths r (s.vaultWrite a v) := .setVlt k

theorem SamePaths.vaultWriteAll {l} (k : SamePaths r s) : SamePaths r (s.vaultWriteAll l) := by
  induction l generalizing s with
  | nil => exact k
  | cons p l ih => exact ih (.vaultWrite k)

theorem SamePaths.vltShow (k : SamePaths r s) : SamePaths r s.vltShow := by
  unfold State.vltShow
  extract_lets _ _ _ _ s1
  have k1 : SamePaths r s1 := .forN (fun _ _ k => .setFld (.setFld (.setReg k))) (.setFld (.setFlag (.setFlag (.setFlag k))))
  exact .ite (.setCause k1) k1

theorem SamePaths.vltEnd {code out} (k : SamePaths r s) : SamePaths r (s.vltEnd code out) :=
  .setFlag (.setFlag (.setFlag (.setFld (.setFld (.setVlt k)))))

theorem SamePaths.zeroise (k : SamePaths r s) : SamePaths r s.zeroise :=
  .vltShow (.ite (.vltEnd (.sessionClose (.setVlt k))) (.sessionClose (.setVlt k)))

theorem SamePaths.tamper {src} (k : SamePaths r s) : SamePaths r (s.tamper src) :=
  .setFlag (.vaultWriteAll (.setReg64 (.countUp (.setBit (.zeroise k)))))

theorem SamePaths.dbgSeen (k : SamePaths r s) : SamePaths r s.dbgSeen :=
  .ite k (.vltShow (.sessionClose (.ite (.vltEnd (.setFlag k)) (.setFlag k))))

theorem SamePaths.expireSlots (k : SamePaths r s) : SamePaths r s.expireSlots := .forN (fun _ _ k => .ite (.vaultWriteAll k) k) k

/-! ### The operations of `Sys2Proof/Machine/LcsOps.lean` -/

theorem SamePaths.setLcs {l} (k : SamePaths r s) : SamePaths r (s.setLcs l) := .mk k

theorem SamePaths.lcsShow (k : SamePaths r s) : SamePaths r s.lcsShow :=
  .setReg (.setFlag (.setFlag (.forN (fun _ _ k => .setReg k) (.setFlag (.setFld (.setFld k))))))

theorem SamePaths.ownerWrite {i v} (k : SamePaths r s) : SamePaths r (s.ownerWrite i v) := .ite (.lcsShow (.setLcs k)) k
theorem SamePaths.resetSave (k : SamePaths r s) : SamePaths r s.resetSave := .ite (.saveOccasion k) k

theorem SamePaths.askSysrst {b save} (k : SamePaths r s) : SamePaths r (s.askSysrst b save) :=
  .ite k (.ite (.resetSave (.mk (.setReg k))) (.mk (.setReg k)))

theorem SamePaths.askCprst {b} (k : SamePaths r s) : SamePaths r (s.askCprst b) := .ite k (.mk (.setReg k))

theorem SamePaths.bistCut (k : SamePaths r s) : SamePaths r s.bistCut := by
  unfold State.bistCut
  split
  exacts [k, .setLcs k]

theorem SamePaths.serviceLeft (k : SamePaths r s) : SamePaths r s.serviceLeft := by
  unfold State.serviceLeft
  extract_lets s1 _ _
  have k1 : SamePaths r s1 := .clearAuth (.forcesDrop k)
  exact .setLcs (.bistCut (.ite (.sessionClose k1) k1))

theorem SamePaths.setHealth {b v} (k : SamePaths r s) : SamePaths r (s.setHealth b v) :=
  .setCause (.setCause (.setCause (.setCause (.lcsShow (.pmLater k)))))

theorem SamePaths.healthCauses (k : SamePaths r s) : SamePaths r s.healthCauses := by
  unfold State.healthCauses
  extract_lets _ s1 s2 s3
  have k1 : SamePaths r s1 := .ite (.setCause (.ite (.setCause k) k)) (.ite (.setCause k) k)
  have k2 : SamePaths r s2 := .ite (.setCause k1) k1
  have k3 : SamePaths r s3 := .ite (.setCause k2) k2
  exact .ite (.setCause k3) k3

theorem SamePaths.fuseStep {x} (k : SamePaths r s) : SamePaths r (s.fuseStep x) := by
  unfold State.fuseStep
  split
  exacts [.zeroise k, .setLcs k, .setLcs k]

theorem SamePaths.lcsEnd {code} (k : SamePaths r s) : SamePaths r (s.lcsEnd code) := .setFlag (.setFlag (.setFld k))

theorem SamePaths.lcsCmdWrite {v} (k : SamePaths r s) : SamePaths r (s.lcsCmdWrite v) :=
  .ite k (.ite (.lcsEnd k) (.ite (.lcsEnd (.setFlag (.lcsShow (.setLcs k)))) (.ite (.lcsEnd (.setFlag (.lcsShow (.serviceLeft
    k)))) (.ite (.lcsEnd (.dbgSeen (.lcsShow (.setLcs k)))) (.resetSave (.setFlag (.setLcs k)))))))

/-! ### The operations of `Sys2Proof/Machine/LeAdmit.lean` -/

theorem SamePaths.thriftTable (k : SamePaths r s) : SamePaths r s.thriftTable :=
  .forN (fun _ _ k => .setFld (.setFld (.setFld k))) (.forN (fun _ _ k => .setSlot k) (.setFlag k))

theorem SamePaths.showOfs (k : SamePaths r s) : SamePaths r s.showOfs := .forN (fun _ _ k => .ite (.setFld k) k) k
theorem SamePaths.report {e} (k : SamePaths r s) : SamePaths r (s.report e) := .mk k

theorem SamePaths.reportReg {f type inst record code given applied} (k : SamePaths r s) :
    SamePaths r (s.reportReg f type inst record code given applied) := by
  unfold State.reportReg
  split
  all_goals exact .report k

theorem SamePaths.unapply {l} (k : SamePaths r s) : SamePaths r (s.unapply l) := .mk k
theorem SamePaths.refuseFld {f v} (k : SamePaths r s) : SamePaths r (s.refuseFld f v) := .setFld (.unapply k)
theorem SamePaths.unapplyRecord {type inst} (k : SamePaths r s) : SamePaths r (s.unapplyRecord type inst) := .unapply k
theorem SamePaths.slotRefuse {n code} (k : SamePaths r s) : SamePaths r (s.slotRefuse n code) := .report (.setSlot k)

theorem SamePaths.slotChecks (k : SamePaths r s) : SamePaths r s.slotChecks := by
  unfold State.slotChecks
  refine .forN (fun _ _ k => ?_) k
  refine .ite k ?_
  split
  exacts [.slotRefuse k, k]

theorem SamePaths.dropLinks (k : SamePaths r s) : SamePaths r s.dropLinks :=
  .foldl (fun _ _ k => .slotRefuse (.setBankWord (.unapply k))) k

theorem SamePaths.loopAdmission (k : SamePaths r s) : SamePaths r s.loopAdmission := by
  unfold State.loopAdmission
  extract_lets _ s1 _ _ _
  have k1 : SamePaths r s1 := by
    unfold s1
    refine .forN (fun _ _ k => ?_) k
    refine .ite k ?_
    extract_lets _ _ _ _ _ s2
    have k2 : SamePaths r s2 := .ite k (.report (.setFld k))
    exact .ite k2 (.report (.setFld k2))
  exact .showOfs (.thriftTable (.foldl (fun _ _ k => .setFld (.setFld (.setSlot (.setFlag (.setFld (.setFld (.setFld (.setFlag
    (.ite (.ite k (.report k)) (.report (.ite k (.report k)))))))))))) (.foldl (fun _ _ k => .slotRefuse k) k1)))

theorem SamePaths.takeMove {n} (k : SamePaths r s) : SamePaths r (s.takeMove n) := by
  unfold State.takeMove
  split
  exacts [k, .showOfs (.thriftTable (.setSlot (.setFld (.setFld (.ite (.setFlag (.setFld k)) k)))))]

theorem SamePaths.goHome (k : SamePaths r s) : SamePaths r s.goHome := by
  unfold State.goHome
  refine .forN (fun _ _ k => ?_) k
  extract_lets
  split
  exacts [.setSlot k, k]

/-! ### The operations of `Sys2Proof/Machine/VltPlan.lean` -/

theorem SamePaths.storeCert {l} (k : SamePaths r s) : SamePaths r (s.storeCert l) := .foldl (fun _ _ k => .pmLater k) k

theorem SamePaths.vltCut {n} (k : SamePaths r s) : SamePaths r (s.vltCut n) := by
  unfold State.vltCut
  split
  exacts [k, .setVlt (.vaultWriteAll k)]

theorem SamePaths.vltFinish (k : SamePaths r s) : SamePaths r s.vltFinish := by
  unfold State.vltFinish
  split
  · exact k
  · extract_lets _ _ _ _ _ _ s1 _
    have k1 : SamePaths r s1 := by
      unfold s1
      split
      exacts [.setFlag (.storeCert (.mk (.setVlt (.vaultWriteAll k)))), .mk (.setVlt (.vaultWriteAll k))]
    exact .vltEnd (.vltShow (.ite k1 (.wrBytes k1)))

theorem SamePaths.vltStart {a} (k : SamePaths r s) : SamePaths r (s.vltStart a) :=
  .ite (.setFlag k) (.ite (.vltEnd k) (.setFlag (.setVlt k)))

theorem SamePaths.vltStartOp {op a} (k : SamePaths r s) : SamePaths r (s.vltStartOp op a) := .ite (.vltStart k) k

/-! ### The operations of `Sys2Proof/Machine/Pm.lean` -/

theorem SamePaths.fillBuf {g} (k : SamePaths r s) : SamePaths r (s.fillBuf g) := by
  unfold State.fillBuf
  extract_lets s1 _
  have k1 : SamePaths r s1 := .forN (fun _ _ k => .setReg k) k
  exact .ite (.ceCount k1) (.mk (.ceCount k1))

theorem SamePaths.dropBuf (k : SamePaths r s) : SamePaths r s.dropBuf := .mk (.setFlag k)

theorem SamePaths.pmLoadWrite {v} (k : SamePaths r s) : SamePaths r (s.pmLoadWrite v) := by
  unfold State.pmLoadWrite
  refine .ite k ?_
  extract_lets
  split
  exacts [.setFld k, .mk (.setFld (.setFlag (.fillBuf k)))]

theorem SamePaths.pmCommitWrite {v} (k : SamePaths r s) : SamePaths r (s.pmCommitWrite v) := by
  unfold State.pmCommitWrite
  refine .ite k ?_
  extract_lets
  split
  · exact .setFld k
  · split
    exacts [k, .mk (.setFld (.setFlag (.ceCount k)))]

theorem SamePaths.pmDiscardWrite {v} (k : SamePaths r s) : SamePaths r (s.pmDiscardWrite v) :=
  .ite k (.ite (.setFld k) (.setFld (.dropBuf k)))

theorem SamePaths.pmAdvance {n} (k : SamePaths r s) : SamePaths r (s.pmAdvance n) := .mk (.pmProgramAll k)

theorem SamePaths.pmCut {n} (k : SamePaths r s) : SamePaths r (s.pmCut n) :=
  .ite (.mk (.setFlag (.dropBuf (.pmAdvance k)))) (.dropBuf k)

theorem SamePaths.clearPw (k : SamePaths r s) : SamePaths r s.clearPw := .setReg (.setReg k)

theorem SamePaths.pwMismatch {p} (k : SamePaths r s) : SamePaths r (s.pwMismatch p) :=
  .ite (.setFlag (.setFlag (.setFld (.setFld (.setFld (.mk k)))))) (.setFld (.setFld (.setFld (.mk k))))

theorem SamePaths.pmUnlockWrite {v} (k : SamePaths r s) : SamePaths r (s.pmUnlockWrite v) := by
  unfold State.pmUnlockWrite
  refine .ite k ?_
  extract_lets _ _ _ m1 _ _ _
  refine .ite (.setFld (.clearPw k)) ?_
  clear_value m1
  split
  exacts [.setFld (.setFlag (.clearPw k)), .ite (.setFld (.clearPw k)) (.ite (.setFld (.setFld (.setFlag (.clearPw k))))
    (.pwMismatch (.clearPw k)))]

theorem SamePaths.pmLockWrite {v} (k : SamePaths r s) : SamePaths r (s.pmLockWrite v) := .ite (.setFlag (.setFlag k)) k

theorem SamePaths.scCmdWrite {v} (k : SamePaths r s) : SamePaths r (s.scCmdWrite v) :=
  .ite k (.ite (.setFlag k) (.ite (.setFld k) (.ite (.mk (.setFlag k)) (.scServe k))))

theorem SamePaths.eccMark {w bad} (k : SamePaths r s) : SamePaths r (s.eccMark w bad) := .mk k

theorem SamePaths.pmRead {off ecc} (k : SamePaths r s) : SamePaths r (s.pmRead off ecc) := by
  unfold State.pmRead
  refine .ite (.mk k) ?_
  refine .ite (.mk (.countUp k)) ?_
  extract_lets
  split
  exacts [.mk k, .mk (.eccMark (.ceCount k)), .mk (.eccMark (.setFlag (.setFld (.countUp k))))]

theorem SamePaths.journalPart {p} (k : SamePaths r s) : SamePaths r (s.journalPart p) :=
  .ite k (.ite (.setFld (.pmProgram (.pmProgramAll (.ceCount k)))) (.setFld (.pmProgram (.ceCount k))))

theorem SamePaths.journalCompletion (k : SamePaths r s) : SamePaths r s.journalCompletion :=
  .foldl (fun _ _ k => .journalPart k) (.setFld (.setFld k))

theorem SamePaths.pmCprst (k : SamePaths r s) : SamePaths r s.pmCprst :=
  .forN (fun _ _ k => .setFlag (.setFlag k)) (.ite k (.dropBuf k))

theorem SamePaths.showParts (k : SamePaths r s) : SamePaths r s.showParts :=
  .forN (fun _ _ k => .setFld (.setFld (.setFlag (.setFlag (.setFlag (.setFlag k)))))) k

/-! ### The operations of `Sys2Proof/Machine/Tune.lean` -/

theorem SamePaths.putFrame {a hdr vals} (k : SamePaths r s) : SamePaths r (s.putFrame a hdr vals) := .wrBytes k

theorem SamePaths.captureInstant {skip inj sat} (k : SamePaths r s) : SamePaths r (s.captureInstant skip inj sat) := by
  unfold State.captureInstant
  refine .ite k ?_
  extract_lets _ _ _ _ _ s1
  have k1 : SamePaths r s1 := .ite (.setReg (.putFrame (.mk k))) (.mk k)
  exact .ite (.mk k) (.ite (.setFlag (.setFlag k1)) k1)

theorem SamePaths.traceEnd (k : SamePaths r s) : SamePaths r s.traceEnd := .setFlag (.setFlag k)

theorem SamePaths.traceInstant {skip inj sat} (k : SamePaths r s) : SamePaths r (s.traceInstant skip inj sat) := by
  unfold State.traceInstant
  refine .ite k ?_
  extract_lets _ _ _ _ _ _ _ _ _ _ s1 m2 _ _
  have k1 : SamePaths r s1 := .ite (.setFlag (.setFld (.putFrame (.mk k)))) (.putFrame (.mk k))
  refine .ite (.mk k) ?_
  clear_value m2
  split
  exacts [.mk k1, .ite (.setFlag (.setFlag (.traceEnd (.mk k1)))) (.mk k1)]

theorem SamePaths.traceFreeze (k : SamePaths r s) : SamePaths r s.traceFreeze := .ite (.setFlag (.setFlag (.traceEnd k))) k
theorem SamePaths.injEnd (k : SamePaths r s) : SamePaths r s.injEnd := .mk (.setFlag (.setFld (.setFld (.setFlag k))))

theorem SamePaths.injInstant {n} (k : SamePaths r s) : SamePaths r (s.injInstant n) := by
  unfold State.injInstant
  refine .ite k ?_
  extract_lets
  refine .ite (.mk k) ?_
  split
  all_goals exact .ite (.injEnd (.mk k)) (.mk (.mk k))

theorem SamePaths.frames {n b} (k : SamePaths r s) : SamePaths r (s.frames n b) := by
  unfold State.frames
  extract_lets s1
  have k1 : SamePaths r s1 := .ite (.captureInstant k) k
  exact .ite (.traceInstant k1) k1

theorem SamePaths.injStart (k : SamePaths r s) : SamePaths r s.injStart :=
  .ite (.setFld k) (.mk (.ite (.setReg (.setFlag (.setFlag (.setFld (.setFld k))))) (.setFlag (.setFld (.setFld k)))))

theorem SamePaths.tuneInjCtl {v} (k : SamePaths r s) : SamePaths r (s.tuneInjCtl v) :=
  .ite (.injStart (.ite (.injAbort k) k)) (.ite (.injAbort k) k)

theorem SamePaths.traceStart (k : SamePaths r s) : SamePaths r s.traceStart :=
  .ite k (.mk (.setFld (.setFlag (.setFlag (.setFlag (.setFlag k))))))

theorem SamePaths.tuneTrcCtl {v} (k : SamePaths r s) : SamePaths r (s.tuneTrcCtl v) := .ite (.traceEnd k) (.ite (.traceStart k) k)

/-! ### The operations of `Sys2Proof/Machine/Le.lean` -/

theorem SamePaths.bankSwap {n} (k : SamePaths r s) : SamePaths r (s.bankSwap n) :=
  .ite (.setFlag (.setFld (.setFlag k))) (.setFld (.setSlot (.forN (fun _ _ k => .setReg (.setBankWord k)) (.setFld (.setFlag k)))))

theorem SamePaths.takeCommand {n} (k : SamePaths r s) : SamePaths r (s.takeCommand n) := by
  unfold State.takeCommand
  extract_lets
  refine .ite k ?_
  split
  exacts [k, .ite (.setSlot k) (.setSlot k)]

theorem SamePaths.windowStart {n} (k : SamePaths r s) : SamePaths r (s.windowStart n) :=
  .ite (.bankSwap (.takeCommand k)) (.takeCommand k)

theorem SamePaths.notAuto {n} (k : SamePaths r s) : SamePaths r (s.notAuto n) :=
  .ite (.slotSafe (.injLoopEvent (.setSlot k))) (.ite (.slotSafe (.injLoopEvent (.setSlot k))) (.injLoopEvent (.setSlot k)))

theorem SamePaths.coastDone {d} (k : SamePaths r s) : SamePaths r (s.coastDone d) := .setFlag (.setFlag (.driveOff k))

theorem SamePaths.feMonitor {n e} (k : SamePaths r s) : SamePaths r (s.feMonitor n e) :=
  .ite k (.ite (.ite k (.ite (.faultAction (.setSlot k)) (.setSlot k))) (.setSlot k))

theorem SamePaths.showState {n} (k : SamePaths r s) : SamePaths r (s.showState n) := .setFld (.setFld k)

theorem SamePaths.runStep {n} (k : SamePaths r s) : SamePaths r (s.runStep n).1 := by
  unfold State.runStep
  extract_lets _ _ _ _ _ coast _ o
  clear_value coast o
  split
  extract_lets _ _ s1 s2 s3 _ s4 s5
  have k1 : SamePaths r s1 := .setFld (.setFld (.showState (.setOut (.setSlot k))))
  have k2 : SamePaths r s2 := .ite (.traceEvent (.setFlag (.setFlag k1))) k1
  have k3 : SamePaths r s3 := by
    unfold s3
    split
    exacts [.setFlag (.setDrive k2), k2]
  have k4 : SamePaths r s4 := by
    unfold s4
    split
    exacts [.ite (.setSlot (.coastDone k3)) k3, k3]
  have k5 : SamePaths r s5 := by
    unfold s5
    split
    exacts [.ite k4 (.feMonitor k4), k4]
  exact k5

theorem SamePaths.openWindow {n} (k : SamePaths r s) : SamePaths r (s.openWindow n) := .setSlot (.takeMove k)

theorem SamePaths.loopStep {n} (k : SamePaths r s) : SamePaths r (s.loopStep n).1 := by
  unfold State.loopStep
  extract_lets _ s1 s2 s3 s4
  have k2 : SamePaths r s2 := .windowStart (.openWindow k)
  have k3 : SamePaths r s3 := .ite k2 (.injLoopEvent k2)
  split
  · exact .enterTrip (.openWindow k)
  · split
    · exact .injInstant (.notAuto k2)
    · split
      · exact .slotSkip (.injInstant k3)
      · exact .runStep (.injInstant k3)

theorem SamePaths.loopWindow {n} (k : SamePaths r s) : SamePaths r (s.loopWindow n) := .ite (.frames (.loopStep k)) k

theorem SamePaths.missInstant {n asleep} (k : SamePaths r s) : SamePaths r (s.missInstant n asleep) := by
  unfold State.missInstant
  extract_lets _ _ s1
  have k1 : SamePaths r s1 := .ite (.slotSkip (.injInstant k)) (.injInstant k)
  exact .ite k1 (.frames k1)

theorem SamePaths.missBetween {a b asleep} (k : SamePaths r s) : SamePaths r (s.missBetween a b asleep) :=
  .forN (fun _ _ k => .ite (.forN (fun _ _ k => .missInstant k) k) k) k

theorem SamePaths.overcurrent {d} (k : SamePaths r s) : SamePaths r (s.overcurrent d) := by
  unfold State.overcurrent
  extract_lets _ s1 s2
  have k1 : SamePaths r s1 := .setFlag (.setFlag (.driveOff k))
  have k2 : SamePaths r s2 := .ite k1 (.traceEvent k1)
  split
  exacts [.enterTrip k2, k2]

theorem SamePaths.conversionEnd {c overlap} (k : SamePaths r s) : SamePaths r (s.conversionEnd c overlap) := by
  unfold State.conversionEnd
  extract_lets _ s1
  have k1 : ∀ {x0 x1 x2}, SamePaths r x2 → SamePaths r (s1 x0 x1 x2) := fun k => .mk k
  split
  exacts [k1 k, .ite (.overcurrent (.setDrive (k1 k))) (.setDrive (k1 k))]

theorem SamePaths.tripClear {v} (k : SamePaths r s) : SamePaths r (s.tripClear v) := .applyTrips (.setFlag (.setFld k))

theorem SamePaths.slotCtlWrite {n v} (k : SamePaths r s) : SamePaths r (s.slotCtlWrite n v) := by
  unfold State.slotCtlWrite
  extract_lets s1
  have k1 : SamePaths r s1 := .ite k (.setFld (.setFld k))
  exact .ite (.request (fun k => .setFlag k) k1) k1

theorem SamePaths.leStateWrite {n k' v} (k : SamePaths r s) : SamePaths r (s.leStateWrite n k' v) :=
  .ite k (.ite (.setFld (.setSlot k)) (.setSlot (.setReg k)))

theorem SamePaths.leParamWrite {n k' v} (k : SamePaths r s) : SamePaths r (s.leParamWrite n k' v) := .ite k (.setReg k)

theorem SamePaths.slotStatWrite {n v} (k : SamePaths r s) : SamePaths r (s.slotStatWrite n v) :=
  .ite (.setSlot (.setFlag (.ite (.setFlag k) k))) (.ite (.setFlag k) k)

theorem SamePaths.pdClear {d v} (k : SamePaths r s) : SamePaths r (s.pdClear d v) := by
  unfold State.pdClear
  extract_lets _ _ s1
  have k1 : SamePaths r s1 := .ite (.applyTrips (.setFlag k)) k
  exact .ite (.setFlag k1) k1

/-! ### The operations of `Sys2Proof/Machine/Prof.lean` -/

theorem SamePaths.setProf {p} (k : SamePaths r s) : SamePaths r (s.setProf p) := .mk k
theorem SamePaths.setProfile {p} (k : SamePaths r s) : SamePaths r (s.setProfile p) := .saFreeze (.showOfs (.setFlag (.setFld k)))

theorem SamePaths.profRequest {p} (k : SamePaths r s) : SamePaths r (s.profRequest p) :=
  .ite (.setFlag (.setProf (.setFld (.setFld k)))) (.setFlag (.setFld (.setFld k)))

theorem SamePaths.sleepEnter (k : SamePaths r s) : SamePaths r s.sleepEnter :=
  .saFreeze (.setProf (.setFlag (.setFlag (.setValid (.busCut (.bistCut (.wflCut k)))))))

theorem SamePaths.profileTake (k : SamePaths r s) : SamePaths r s.profileTake :=
  .ite (.setFlag k) (.ite (.saveOccasion (.sleepEnter (.setProf (.setProfile (.setFlag k))))) (.setProfile (.setFlag k)))

theorem SamePaths.sleepTime (k : SamePaths r s) : SamePaths r s.sleepTime :=
  .setProf (.leasePass (.ntAdvance (.ite k (.setMtime k))))

theorem SamePaths.holdupTakes (k : SamePaths r s) : SamePaths r s.holdupTakes := .bistCut (.injAbort (.traceFreeze (.setProfile k)))

theorem SamePaths.sleepLeave (k : SamePaths r s) : SamePaths r s.sleepLeave :=
  .wflMissClear (.marksRestart (.applyTrips (.setFlag (.setProfile (.setFlag (.setFlag (.setProf (.sleepTime (.setTick
    (.missBetween k))))))))))

theorem SamePaths.hfxoLost (k : SamePaths r s) : SamePaths r s.hfxoLost := .mk (.setReg (.setFlag k))

theorem SamePaths.wakeWindows {l runs} (k : SamePaths r s) : SamePaths r (State.wakeWindows l runs s).1 := by
  induction l generalizing runs s with
  | nil => exact k
  | cons n t ih =>
    unfold State.wakeWindows
    split
    · exact ih k
    · exact ih (.foldl (fun _ _ k => .setSlot k) (.mk (.loopStep (.foldl (fun _ _ k => .setSlot k) (.mk k)))))

theorem SamePaths.wakeFrame {runs r'} (k : SamePaths r s) : SamePaths r (State.wakeFrame runs s r') := by
  unfold State.wakeFrame
  extract_lets s1 _ _
  have k1 : ∀ {x0 x1}, SamePaths r x1 → SamePaths r (s1 x0 x1) := fun k => .foldl (fun _ _ k => .setSlot k) k
  exact k1 (.frames (k1 k))

theorem SamePaths.wakeFrames {runs l left} (k : SamePaths r s) : SamePaths r (State.wakeFrames runs l left s) := by
  induction l generalizing left s with
  | nil => exact .mk k
  | cons x t ih => exact ih (.wakeFrame (.mk k))

theorem SamePaths.wakeLoops (k : SamePaths r s) : SamePaths r s.wakeLoops := .wakeFrames (.wakeWindows k)

theorem SamePaths.wakeWork {w} (k : SamePaths r s) : SamePaths r (s.wakeWork w) :=
  .foldl (fun _ _ k => .calculatorStep k) (.seCycleDue (.wakeLoops (.foldl (fun _ _ k => .rtdConversion k) (.forN (fun _ _ k =>
    .ite (.setRtd k) k) (.foldl (fun _ _ k => .integrate k) (.foldl (fun _ _ k => .conversionEnd k) (.applyTrips k)))))))

theorem SamePaths.profReqWrite {v} (k : SamePaths r s) : SamePaths r (s.profReqWrite v) := .profRequest k

/-! ### The operations of `Sys2Proof/Machine/Boot.lean` -/

theorem SamePaths.setBoot {b} (k : SamePaths r s) : SamePaths r (s.setBoot b) := .mk k
theorem SamePaths.setBootRecord {v} (k : SamePaths r s) : SamePaths r (s.setBootRecord v) := .pmLater k

theorem SamePaths.readStart (k : SamePaths r s) : SamePaths r s.readStart :=
  .ite (.setBoot (.setReg k)) (.ite (.setBoot (.setReg k)) (.setBoot (.setReg k)))

theorem SamePaths.startAbort (k : SamePaths r s) : SamePaths r s.startAbort := .ite k (.setBoot (.setFld (.setFld k)))
theorem SamePaths.startAgain (k : SamePaths r s) : SamePaths r s.startAgain := .ite (.readStart k) k

theorem SamePaths.sealedLoad (k : SamePaths r s) : SamePaths r s.sealedLoad := by
  unfold State.sealedLoad
  extract_lets s1 s2
  have k1 : SamePaths r s1 := by
    unfold s1
    refine .forN (fun _ _ k => ?_) k
    split
    exacts [.mhApply k, k]
  have k2 : SamePaths r s2 := by
    unfold s2
    refine .forN (fun _ _ k => ?_) k1
    split
    exacts [.meApply k, k]
  exact .setFlag k2

theorem SamePaths.pmAnswers (k : SamePaths r s) : SamePaths r s.pmAnswers :=
  .readStart (.setBoot (.returnTotals (.sealedLoad (.ledgerStart (.showParts (.mk (.healthCauses (.lcsShow (.forN (fun _ _ k =>
    .counterCause (.scShow k)) (.scIncrement (.ceCount k)))))))))))

theorem SamePaths.palCode {k' code} (k : SamePaths r s) : SamePaths r (s.palCode k' code) := .ite (.setFld k) (.setFld k)

theorem SamePaths.palRefuse {code} (k : SamePaths r s) : SamePaths r (s.palRefuse code) :=
  .ite (.setBoot (.report (.palCode k))) (.setBoot (.report (.palCode k)))

theorem SamePaths.foldlFst {α β : Type} {f : State × β → α → State × β} {l : List α} {p : State × β}
    (h : ∀ p c, SamePaths r p.1 → SamePaths r (f p c).1) (k : SamePaths r p.1) : SamePaths r (l.foldl f p).1 := by
  induction l generalizing p with
  | nil => exact k
  | cons c l ih => exact ih (h p c k)

theorem SamePaths.palApply {e} (k : SamePaths r s) : SamePaths r (s.palApply e) := by
  unfold State.palApply
  extract_lets
  split
  exacts [.setFld k, .mk k, .mk k, .setFld k, .setBoot k, .wrBytes k, .foldlFst (fun _ _ k => .setBankWord k) k, .setSlot k,
    .setSlot k, .mk k, .mk k, .mk k, .mk k, .setBoot k, k, k, k]

theorem SamePaths.palCanvas {e} (k : SamePaths r s) : SamePaths r (s.palCanvas e) := .ite k (.ite (.canvasLoad k) (.report k))

theorem SamePaths.palParts {r'} (k : SamePaths r s) : SamePaths r (s.palParts r') := by
  unfold State.palParts
  extract_lets _ _ s1 _ _ _
  have k1 : SamePaths r s1 := .forN (fun _ _ k => .ite (.mk k) (.report (.unapplyRecord (.mk k)))) (.mk k)
  exact .showParts (.setBoot (.ite k1 (.ceCount k1)))

theorem SamePaths.palCredential {l k'} (k : SamePaths r s) : SamePaths r (s.palCredential l k') :=
  .ite k (.ite (.report (.unapplyRecord k)) (.ite (.ite k (.vaultWriteAll k)) (.ite (.report (.unapplyRecord k)) (.ite k
    (.vaultWriteAll k)))))

theorem SamePaths.sealWrite {q b calcs no l} (k : SamePaths r s) : SamePaths r (s.sealWrite q b calcs no l) := by
  induction l generalizing s calcs no with
  | nil => exact k
  | cons p l ih =>
    unfold State.sealWrite
    exact ih (.pmProgramAll (.pmProgramAll (.ite (.report k) k)))

theorem SamePaths.sealedInit {r'} (k : SamePaths r s) : SamePaths r (s.sealedInit r') :=
  .ite k (.sealedLoad (.ledgerGrow (.scIncrement (.sealWrite k))))

theorem SamePaths.clearInput {n i code} (k : SamePaths r s) : SamePaths r (s.clearInput n i code) :=
  .report (.setSlot (.ite (.setFld k) (.setFld k)))

theorem SamePaths.slotRefs {loops} (k : SamePaths r s) : SamePaths r (s.slotRefs loops) := by
  unfold State.slotRefs
  refine .forN (fun _ _ k => ?_) k
  refine .ite k ?_
  extract_lets s1 _ _
  have k1 : SamePaths r s1 := .forN (fun _ _ k => .ite (.clearInput k) (.ite k (.clearInput k))) k
  split
  exacts [.ite k1 (.report (.setSlot (.setFld k1))), k1]

theorem SamePaths.refRounds {loops n} (k : SamePaths r s) : SamePaths r (State.refRounds loops n s) := by
  induction n generalizing s with
  | zero => exact k
  | succ n ih => exact .ite (.slotRefs (.dropLinks k)) (ih (.slotRefs (.dropLinks k)))

theorem SamePaths.slotResolve {loops} (k : SamePaths r s) : SamePaths r (s.slotResolve loops) :=
  .refRounds (.slotChecks (.forN (fun _ _ k => .setSlot k) k))

theorem SamePaths.bridgeRefs (k : SamePaths r s) : SamePaths r s.bridgeRefs :=
  .forN (fun _ _ k => .ite k (.reportReg (.refuseFld (.setFld k)))) k

theorem SamePaths.segRefs {n} (k : SamePaths r s) : SamePaths r (State.segRefs n s) := by
  induction n generalizing s with
  | zero => exact k
  | succ n ih =>
    exact .ite k (ih (.foldl (fun _ _ k => .foldl (fun _ _ k => .reportReg (.setFld k)) (.refuseFld k)) k))

theorem SamePaths.segRefuse {i code} (k : SamePaths r s) : SamePaths r (s.segRefuse i code) := .reportReg (.refuseFld k)

theorem SamePaths.traceRefs (k : SamePaths r s) : SamePaths r s.traceRefs := by
  have clear {x : State} {f : Field} {b : Bool} (k : SamePaths r x) : SamePaths r (if b then x
      else ((x.setFld f 0).refuseFld TUNE_TRC_CTL.ARMED 0).reportReg f 0x1301 0 false Code.refusedState (x.fld f) 0) :=
    .ite k (.reportReg (.refuseFld (.setFld k)))
  exact .forN (fun _ _ k => clear (clear k)) (clear k)

theorem SamePaths.plugAdmit (k : SamePaths r s) : SamePaths r s.plugAdmit := by
  unfold State.plugAdmit
  extract_lets
  refine .forN (fun _ _ k => ?_) (.segRefs (.foldl (fun _ _ k => .ite (.segRefuse k) k) (.segRefs (.foldl (fun _ _ k => .ite
    (.segRefuse k) k) (.segRefs (.ite (.reportReg (.setFld k)) k))))))
  refine .ite k ?_
  extract_lets s1
  have k1 : ∀ {x0 x1 x2}, SamePaths r x0 → SamePaths r (s1 x0 x1 x2) := fun k => .ite k (.reportReg (.setFld (.refuseFld k)))
  exact k1 (k1 k)

theorem SamePaths.moduleAdmit (k : SamePaths r s) : SamePaths r s.moduleAdmit :=
  .forN (fun _ _ k => .forN (fun _ _ k => .ite k (.ite (.setWmod k) (.reportReg (.refuseFld k)))) k) k

theorem SamePaths.busArea {c g off size} (k : SamePaths r s) : SamePaths r (s.busArea c g off size).1 := .setFld k

theorem SamePaths.busAreas {c off} (k : SamePaths r s) : SamePaths r (s.busAreas c off).1 := by
  unfold State.busAreas
  split
  · exact k
  · extract_lets _ _ _ _ _ _ _ _ _ _ _ _ _ _ _ _ cut s1
    split
    · exact .report (.refuseFld k)
    · have kcut {x : State} {i a b} (k : SamePaths r x) : SamePaths r (cut i a b x) := .ite k (.report k)
      have k1 : SamePaths r s1 := kcut (kcut (kcut k))
      exact .setFld (.setFld (.setFld (.busArea (.busArea (.busArea (.busArea k1))))))

theorem SamePaths.busDivide (k : SamePaths r s) : SamePaths r s.busDivide := .foldlFst (fun _ _ k => .busAreas k) k

theorem SamePaths.rateClampAt {c k'} (k : SamePaths r s) : SamePaths r (s.rateClampAt c k') :=
  .ite k (.ite k (.foldl (fun _ _ k => .ite k (.reportReg (.setFld k))) k))

theorem SamePaths.rateClamp {c} (k : SamePaths r s) : SamePaths r (s.rateClamp c) := .rateClampAt (.rateClampAt k)

theorem SamePaths.ground (k : SamePaths r s) : SamePaths r s.ground := by
  unfold State.ground
  extract_lets _ _ s1 _
  have k1 : ∀ {x0 x1 x2}, SamePaths r x2 → SamePaths r (s1 x0 x1 x2) := fun k => .setFld (.setFld (.setFld (.setFlag k)))
  exact k1 (k1 (.forN (fun _ _ k => .setReg (.setReg (.setFlag (.setFlag (k1 k))))) (.setBoot (.setReg k))))

theorem SamePaths.healthKept (k : SamePaths r s) : SamePaths r s.healthKept :=
  .setFld (.setFld (.setFld (.forN (fun _ _ k => .setFlag k) (.setFld k))))

theorem SamePaths.programme {r'} (k : SamePaths r s) : SamePaths r (s.programme r') := by
  unfold State.programme
  extract_lets _ s1 _ _ _ _ s2 _ _ _ _
  have k1 : SamePaths r s1 := .healthKept (.ground k)
  have k2 : SamePaths r s2 := .foldl (fun _ _ k => .palApply k) (.setBoot (.mhViews (.ite (.sealedInit k1) k1)))
  exact .busDivide (.foldl (fun _ _ k => .rateClamp k) (.moduleAdmit (.plugAdmit (.foldl (fun _ _ k => .palCanvas k) (.traceRefs
    (.loopAdmission (.bridgeRefs (.slotResolve (.mhViews (.vltShow (.forN (fun _ _ k => .palCredential k) (.ite
    (.palParts k2) k2))))))))))))

theorem SamePaths.startBlocks {program} (k : SamePaths r s) : SamePaths r (s.startBlocks program) := by
  unfold State.startBlocks
  extract_lets _ _ _ _ s1 _ s2 _ _
  have k1 : SamePaths r s1 := .forN (fun _ _ k => .ite (.driveOff k) k) (.setFlag (.setFlag (.setFlag (.setFlag (.setFlag
    (.setTick k))))))
  have k2 : SamePaths r s2 := .showLevels (.wflStart (.pgStart (.pbStart (.ite (.ptStart k1) k1))))
  exact (.ite k2 (.ite (.setFlag (.seStart k2)) (.report (.setFld (.setFld k2)))))

theorem SamePaths.startRegs {us} (k : SamePaths r s) : SamePaths r (s.startRegs us) := by
  unfold State.startRegs
  extract_lets
  split
  exacts [.setVlt (.ite (.setReg (.mk (.setFld (.setFlag (.setReg (.setReg (.setFlag (.setFld (.setFld (.setFld k))))))))))
    (.setBootRecord (.setReg (.mk (.setFld (.setFlag (.setReg (.setReg (.setFlag (.setFld (.setFld (.setFld k)))))))))))), .ite
    (.setReg (.setFld k)) (.setFld k)]

theorem SamePaths.commitReport (k : SamePaths r s) : SamePaths r s.commitReport := .setBoot (.ceCount k)
theorem SamePaths.reportWords {n} (k : SamePaths r s) : SamePaths r (s.reportWords n) := .setBoot (.pmProgramAll k)
theorem SamePaths.reportTick (k : SamePaths r s) : SamePaths r s.reportTick := .ite k (.reportWords k)
theorem SamePaths.fwFirst (k : SamePaths r s) : SamePaths r s.fwFirst := .setBoot k

theorem SamePaths.sealAll (k : SamePaths r s) : SamePaths r s.sealAll :=
  .setBoot (.setFlag (.setFlag (.setFlag (.setFlag (.setFlag (.setFlag (.setFlag k)))))))

theorem SamePaths.handOver {k' us} (k : SamePaths r s) : SamePaths r (s.handOver k' us) := by
  unfold State.handOver
  extract_lets _ _ _ _ s1 _ _ _ _ _ _
  have k1 : SamePaths r s1 := .setReg (.setFlag (.setFld (.setVlt k)))
  exact .mk (.setBoot (.ite k1 (.sealAll (.setFld (.setFlag (.setFlag (.setFld (.setFld k1))))))))

theorem SamePaths.noFirmware (k : SamePaths r s) : SamePaths r s.noFirmware :=
  .mk (.setBoot (.setVlt (.setReg (.setFlag (.setFld k)))))

theorem SamePaths.palRollWrite {v} (k : SamePaths r s) : SamePaths r (s.palRollWrite v) := .ite k (.setFlag k)
theorem SamePaths.bootSelWrite {v} (k : SamePaths r s) : SamePaths r (s.bootSelWrite v) := .setReg (.setBootRecord k)

/-! ### The operations of `Sys2Proof/Machine/Lcs.lean` -/

theorem SamePaths.bistTarget {b} (k : SamePaths r s) : SamePaths r (s.bistTarget b) := by
  unfold State.bistTarget
  split
  exacts [.setFlag k, .ite (.setBit (.setSa k)) (.ite (.saBoundary (.setSa k)) (.setSa k)), .setCh k, k]

theorem SamePaths.bistCmdWrite {v} (k : SamePaths r s) : SamePaths r (s.bistCmdWrite v) :=
  .ite (.ite (.bistCut k) k) (.ite (.setFld (.ite (.bistCut k) k)) (.bistTarget (.setFlag (.setFlag (.setFlag (.setFld (.setFld
    (.setLcs (.ite (.bistCut k) k)))))))))

theorem SamePaths.bistBack {b failed} (k : SamePaths r s) : SamePaths r (s.bistBack b failed) := by
  unfold State.bistBack
  split
  exacts [.ite (.setFlag k) (.goHome (.setFld (.setFlag (.setFlag k)))), .ite (.setBit (.setBit k)) (.ite (.setSa (.setBit k))
    (.ite (.saBoundary (.setSa (.setBit k))) (.setSa (.setBit k)))), .setCh k, .setFlag k]

theorem SamePaths.bistOut {b} (k : SamePaths r s) : SamePaths r (s.bistOut b) := by
  unfold State.bistOut
  split
  exacts [.forN (fun _ _ k => .setSlot k) (.setFlag (.setFlag k)), .setBit (.setBit k), .forN (fun _ _ k => .ite (.txDone k) k)
    (.setCh k), .sealResume (.setFlag k)]

theorem SamePaths.bistEnd {b patterns sig} (k : SamePaths r s) : SamePaths r (s.bistEnd b patterns sig) := by
  unfold State.bistEnd
  extract_lets _ _ _ _ s1 s2 s3 _ _
  have k1 : SamePaths r s1 := .setReg64 (.setReg (.setFlag (.setFlag (.setFlag (.setFlag (.setLcs k))))))
  have k2 : SamePaths r s2 := .bistBack (.setFld k1)
  have k3 : SamePaths r s3 := .bistBack (.setHealth (.setFld k1))
  exact .ite (.ite (.sealResume k2) k2) (.ite (.ite (.mk (.setFlag k3)) k3) (.bistOut (.setHealth (.setFld k1))))

/-! ### The operations of `Sys2Proof/Machine/Resets.lean` -/

theorem SamePaths.rollCut {k' n target} (k : SamePaths r s) : SamePaths r (s.rollCut k' n target) :=
  .forN (fun _ _ k => .scIncrement k) k

theorem SamePaths.cutWork {c} (k : SamePaths r s) : SamePaths r (s.cutWork c) := by
  unfold State.cutWork
  extract_lets _ s1 _
  have k1 : SamePaths r s1 := .ite (.rollCut (.ite (.rollCut k) k)) (.ite (.rollCut k) k)
  exact .reportWords (.vltCut (.pmCut (.sealCut (.saveCut (.ite (.foldl (fun _ _ k => .fuseStep k) k1) k1)))))

theorem SamePaths.causeTicksShow (k : SamePaths r s) : SamePaths r s.causeTicksShow := .forN (fun _ _ k => .setReg64 k) k

theorem SamePaths.resetParts {keep boot} (k : SamePaths r s) : SamePaths r (s.resetParts keep boot) :=
  .vltShow (.expireSlots (.setFlag (.setFlag (.ledgerShow (.scShowAll (.causeTicksShow (.lcsShow (.mk k))))))))

theorem SamePaths.sysrst {c} (k : SamePaths r s) : SamePaths r (s.sysrst c) :=
  .setFld (.setFld (.setFld (.mk (.resetParts (.cutWork k)))))

theorem SamePaths.cprst (k : SamePaths r s) : SamePaths r s.cprst :=
  .timerLevel (.mk (.mk (.fwFirst (.mk (.setFld (.mk (.pmCprst (.sessionClose (.setReg (.holdDrop (.clearMem
    (.resetRegs k))))))))))))

theorem SamePaths.rstReqWrite {v} (k : SamePaths r s) : SamePaths r (s.rstReqWrite v) :=
  .ite k (.ite (.askCprst k) (.ite (.askSysrst k) k))

/-! ### The operations of `Sys2Proof/Machine/Cp.lean` -/

theorem SamePaths.hartAs {x} (k : SamePaths r s) : SamePaths r (s.hartAs x) := .ite k (.setCp k)
theorem SamePaths.fwStatWrite {v} (k : SamePaths r s) : SamePaths r (s.fwStatWrite v) := .ite (.setReg k) k

theorem SamePaths.claim (k : SamePaths r s) : SamePaths r s.claim := by
  unfold State.claim
  split
  exacts [.mk k, .mk (.setCp (.setBit k))]

theorem SamePaths.completionWrite {v} (k : SamePaths r s) : SamePaths r (s.completionWrite v) := .ite (.setCp k) k
theorem SamePaths.wdtReload (k : SamePaths r s) : SamePaths r s.wdtReload := .setCp (.setFld k)
theorem SamePaths.wdtKickWrite {v} (k : SamePaths r s) : SamePaths r (s.wdtKickWrite v) := .ite (.setFlag (.wdtReload k)) k

/-! ### The operations of `Sys2Proof/Machine/Eth.lean` -/

theorem SamePaths.ethOut {c l} (k : SamePaths r s) : SamePaths r (s.ethOut c l) := .setCh k
theorem SamePaths.sendUdp {k' dest payload} (k : SamePaths r s) : SamePaths r (s.sendUdp k' dest payload) := .ethOut k
theorem SamePaths.ethRaw {k' f sof} (k : SamePaths r s) : SamePaths r (s.ethRaw k' f sof) := .rxPost k

theorem SamePaths.segmentFrames {c id ts hdr n l} (k : SamePaths r s) : SamePaths r (s.segmentFrames c id ts hdr n l) := by
  induction n generalizing s id l with
  | zero => exact k
  | succ n ih => exact .ite k (ih (.carFrame k))

theorem SamePaths.entrySegment {k' e} (k : SamePaths r s) : SamePaths r (s.entrySegment k' e) :=
  .ite (.priceRefuse k) (.ite (.ite (.txDone (.setCh (.sendUdp k))) (.setCh (.sendUdp k))) (.txDone (.setCh (.sendUdp k))))

theorem SamePaths.msgSegment {k' m} (k : SamePaths r s) : SamePaths r (s.msgSegment k' m) :=
  .ite (.msgRefuse k) (.ite (.msgSent (.sendUdp k)) (.msgSent (.sendUdp k)))

theorem SamePaths.segmentSend {k'} (k : SamePaths r s) : SamePaths r (s.segmentSend k') := by
  unfold State.segmentSend
  extract_lets
  split
  · exact .ethOut (.mk k)
  · exact .sendUdp (.setCh k)
  · exact .sendUdp (.setCh k)
  · refine .ite k ?_
    split
    · exact .entrySegment k
    · split
      exacts [.msgSegment k, k]
    · exact k

theorem SamePaths.refQueue {c} (k : SamePaths r s) : SamePaths r (s.refQueue c) := .mk (.setCh k)

theorem SamePaths.refInstant (k : SamePaths r s) : SamePaths r s.refInstant := by
  unfold State.refInstant
  extract_lets _ _ s1 s2 _ s3
  have k1 : SamePaths r s1 := .tmQuorum (.tmActing (.mk k))
  have k2 : SamePaths r s2 := .ite (.grantDecide k1) k1
  have k3 : SamePaths r s3 := .forN (fun _ _ k => .ite (.refQueue k) k) (.ite (.grantCopy k2) k2)
  exact .ite k1 (.ite (.forN (fun _ _ k => .ite (.refQueue k) k) k3) k3)

theorem SamePaths.refReceive {c node d sof} (k : SamePaths r s) : SamePaths r (s.refReceive c node d sof) :=
  .ite (.ite (.mk (.grantCopy k)) (.ite (.tmStop (.mk (.mk (.grantCopy k)))) (.mk (.mk (.grantCopy k))))) (.ite (.refPair
    (.grantCopy k)) (.grantCopy k))

theorem SamePaths.ethFrame {k' f sof} (k : SamePaths r s) : SamePaths r (s.ethFrame k' f sof) := by
  unfold State.ethFrame
  extract_lets
  refine .ite k ?_
  refine .ite (.ethRaw k) ?_
  refine .ite ?_ ?_
  · split
    exacts [.ite (.ethOut k) k, .ethRaw k]
  · refine .ite (.countUp k) ?_
    refine .ite (.segmentFrames (.setCh k)) ?_
    refine .ite ?_ (.ethRaw k)
    split
    exacts [.refReceive (.ethRaw k), .ethRaw k]

theorem SamePaths.canFrame {c f sof} (k : SamePaths r s) : SamePaths r (s.canFrame c f sof) := by
  unfold State.canFrame
  extract_lets s1 _
  have k1 : SamePaths r s1 := .recDown (.canReceive k)
  exact .ite (.refReceive k1) k1

theorem SamePaths.refArrives {c node d sof} (k : SamePaths r s) : SamePaths r (s.refArrives c node d sof) :=
  .ite (.recDown (.canReceive k)) (.ethRaw k)

/-! ### The operations of `Sys2Proof/Machine/Pwr.lean` -/

theorem SamePaths.setPwr {p : PwrSt} (k : SamePaths r s) (h : (p.closed, p.holder, p.ho) = s.paths := by rfl) :
    SamePaths r (s.setPwr p) :=
  Eq.trans h k

theorem SamePaths.givePwr {t : State} {p : PwrSt} (k : SamePaths r s) (h : (p.closed, p.holder, p.ho) = s.paths := by rfl) :
    SamePaths r (t.setPwr p) :=
  Eq.trans h k

theorem SamePaths.feedCheck {f mv} (k : SamePaths r s) : SamePaths r (s.feedCheck f mv) :=
  .ite (.setCause (.setFlag (.setPwr (.setPwr k)))) (.setFlag (.setPwr (.setPwr k)))

theorem SamePaths.pfwAssert (k : SamePaths r s) : SamePaths r s.pfwAssert := by
  unfold State.pfwAssert
  refine .ite k ?_
  extract_lets _ s1 _ _ s2
  have k1 : SamePaths r s1 := .ite (.setFlag (.setFlag k)) (.setFlag (.setFlag (.setFlag (.setFlag k))))
  have k2 : SamePaths r s2 := .ite (.holdupTakes (.mk k1)) (.ite (.saveOccasion (.mk k1)) (.mk k1))
  exact .ite (.pfailQueue k2) (.startAbort k2)

theorem SamePaths.holdOpen (k : SamePaths r s) : SamePaths r s.holdOpen := .ite (.setPwr k) (.pgFreeze (.setPwr (.setFlag k)))
theorem SamePaths.hoStat {cause from_} (k : SamePaths r s) : SamePaths r (s.hoStat cause from_) := .setReg k
theorem SamePaths.hoOutcome {h o} (k : SamePaths r s) : SamePaths r (s.hoOutcome h o) := .setFld (.setFld (.setFld k))
theorem SamePaths.feedWake (k : SamePaths r s) : SamePaths r s.feedWake := .ite (.wakeBy k) k

theorem SamePaths.hoComplete {h} (k : SamePaths r s) : SamePaths r (s.hoComplete h) :=
  .ite (.setFlag (.setFlag k)) (.ite (.setFlag (.setFlag (.setFlag k))) (.setFlag (.setFld (.hoOutcome (.setFlag (.setFlag k))))))

theorem SamePaths.warningsEnd (k : SamePaths r s) : SamePaths r s.warningsEnd := .mk k

theorem SamePaths.stallEnter (k : SamePaths r s) : SamePaths r s.stallEnter := by
  unfold State.stallEnter
  extract_lets close s1 s2
  have k2 : SamePaths r s2 := .setFlag (.bistCut (.wflCut (.forN (fun _ _ k => .driveOff k) (.busCut (.holdOpen k)))))
  clear_value s2
  exact .warningsEnd (.saFreeze (.setPwr k2))

theorem SamePaths.vholdCheck {m} (k : SamePaths r s) : SamePaths r (s.vholdCheck m) := by
  unfold State.vholdCheck
  refine .ite k ?_
  extract_lets _ s1 _ _ _
  have k1 : SamePaths r s1 := .ite (.ite (.stallEnter k) k) (.ite (.setPwr k) k)
  exact .ite (.pfwAssert (.setPwr k1)) (.setPwr k1)

theorem SamePaths.pwrShow {m} (k : SamePaths r s) : SamePaths r (s.pwrShow m) := by
  unfold State.pwrShow
  extract_lets _ s1 _ _
  have k1 : SamePaths r s1 := by
    unfold s1
    split
    exacts [.ite (.setPwr k) k, k]
  exact .setFlag (.setFld (.setFlag k1))

theorem SamePaths.hoCmdWrite {v} (k : SamePaths r s) : SamePaths r (s.hoCmdWrite v) :=
  .ite k (.ite (.setFlag (.setFld (.hoStat k))) (.setPwr k))

/-! ### The operations of `Sys2Proof/Machine/Vlt.lean` -/

theorem SamePaths.fwRollWrite {v} (k : SamePaths r s) : SamePaths r (s.fwRollWrite v) := .ite k (.ite k (.setFlag k))

/-! ### The operations of `Sys2Proof/Machine/RegWr.lean` -/

theorem SamePaths.wdtCfgWrite {v} (k : SamePaths r s) : SamePaths r (s.wdtCfgWrite v) :=
  .ite k (.ite (.wdtReload (.regWrite k)) (.regWrite k))

theorem SamePaths.writeIf {ok a v} (k : SamePaths r s) : SamePaths r (s.writeIf ok a v) := .ite (.regWrite k) k

theorem SamePaths.almCfgWrite {n v} (k : SamePaths r s) : SamePaths r (s.almCfgWrite n v) :=
  .ite (.setFld (.regWrite k)) (.regWrite k)

theorem SamePaths.pmCmdWrite {v} (k : SamePaths r s) : SamePaths r (s.pmCmdWrite v) :=
  .pmDiscardWrite (.pmCommitWrite (.pmLoadWrite k))

/-- A row's rule keeps the paths. -/
def WriteRow.KeepsPaths (w : WriteRow) : Prop := ∀ {r s} i v, SamePaths r s → SamePaths r (w.act i v s)

theorem SamePaths.writeBy {l a v} (h : ∀ w ∈ l, w.KeepsPaths) (k : SamePaths r s) : SamePaths r (writeBy l a v s) := by
  unfold Machine.writeBy
  split
  next t ht =>
    obtain ⟨w, hw, e⟩ := List.exists_of_findSome?_eq_some ht
    obtain ⟨i, -, rfl⟩ := Option.map_eq_some_iff.1 e
    exact h w hw i v k
  next => exact .regWrite k

theorem sysRows_keepPaths : ∀ w ∈ sysRows, w.KeepsPaths := by
  simp only [sysRows, List.forall_mem_cons]
  exact ⟨fun _ _ k => .rstReqWrite k, fun _ _ k => .hoCmdWrite k, fun _ _ k => .profReqWrite k, fun _ _ k => .palRollWrite k,
    fun _ _ k => .bootSelWrite k, fun _ _ k => .completionWrite k, fun _ _ k => .regWrite k, fun _ _ k => .wdtCfgWrite k,
    fun _ _ k => .wdtKickWrite k, fun _ _ k => .fwStatWrite k, fun _ _ k => .timerLevel (.regWrite k), fun _ _ k => .setReg k,
    fun _ _ k => .ntStepWrite k, fun _ _ k => .ntRateWrite k, fun _ _ k => .ntCtlWrite k, fun _ _ k => .liveCtlWrite k,
    fun _ _ k => .writeIf k, fun _ _ k => .aonCtlWrite k, fun _ _ k => .aonShiftWrite k, fun _ _ k => .writeIf k,
    fun _ _ k => .writeIf k, fun _ _ k => .almCfgWrite k, List.forall_mem_nil _⟩

theorem loopRows_keepPaths : ∀ w ∈ loopRows, w.KeepsPaths := by
  simp only [loopRows, List.forall_mem_cons]
  exact ⟨fun _ _ k => .tripClear k, fun _ _ k => .slotCtlWrite k, fun _ _ k => .slotStatWrite k,
    fun _ _ k => .ite (.leStateWrite k) k, fun _ _ k => .leParamWrite k, fun _ _ k => .pgTargetWrite k,
    fun _ _ k => .pgPresetWrite k, fun _ _ k => .pgCtlWrite k, fun _ _ k => .pdClear k, fun _ _ k => .writeIf k,
    fun _ _ k => .tuneInjCtl k, fun _ _ k => .writeIf k, fun _ _ k => .writeIf k, fun _ _ k => .writeIf k,
    fun _ _ k => .writeIf k, fun _ _ k => .writeIf k, fun _ _ k => .tuneTrcCtl k, List.forall_mem_nil _⟩

theorem busRows_keepPaths : ∀ w ∈ busRows, w.KeepsPaths := by
  simp only [busRows, List.forall_mem_cons]
  exact ⟨fun _ _ k => .canCtlWrite k, fun _ _ k => .rxAck k, fun _ _ k => .cqAck k, fun _ _ k => .txReqWrite k,
    fun _ _ k => .txAbortWrite k, fun _ _ k => .rxAck k, fun _ _ k => .cqAck k, fun _ _ k => .txReqWrite k,
    fun _ _ k => .txAbortWrite k, fun _ _ k => .setReg k, fun _ _ k => .ptpWrite k, fun _ _ k => .wflCommitWrite k,
    fun _ _ k => .wflOutCpWrite k, fun _ _ k => .seXchgWrite k, fun _ _ k => .forceCmdWrite k, List.forall_mem_nil _⟩

theorem storeRows_keepPaths : ∀ w ∈ storeRows, w.KeepsPaths := by
  simp only [storeRows, List.forall_mem_cons]
  exact ⟨fun _ _ k => .saSwapWrite k, fun _ _ k => .ptCommitWrite k, fun _ _ k => .sealCmdWrite k,
    fun _ _ k => .ledgerAckWrite k, fun _ _ k => .pmCmdWrite k, fun _ _ k => .pmLockWrite (.pmUnlockWrite k),
    fun _ _ k => .scCmdWrite k, fun _ _ k => .setReg k, fun _ _ k => .writeIf k, fun _ _ k => .vltStart k,
    fun _ _ k => .fwRollWrite k, fun _ _ k => .lcsCmdWrite k, fun _ _ k => .ownerWrite k, fun _ _ k => .bistCmdWrite k,
    List.forall_mem_nil _⟩

theorem rowsAt_keepPaths (a : Nat) : ∀ w ∈ rowsAt a, w.KeepsPaths := by
  unfold rowsAt
  split
  · exact sysRows_keepPaths
  · split
    · exact loopRows_keepPaths
    · split
      · exact busRows_keepPaths
      · exact storeRows_keepPaths

theorem SamePaths.cpWrite {a v} (k : SamePaths r s) : SamePaths r (s.cpWrite a v) :=
  .ite k (.ite (.wr32 k) (.ite (.canvasCpWrite k) (.ite (.plugCpWrite k) (.ite (.seCpWrite k) (.writeBy (rowsAt_keepPaths a) k)))))

theorem SamePaths.capture64 {lo hi v} (k : SamePaths r s) : SamePaths r (s.capture64 lo hi v) := .setReg64 k
theorem SamePaths.stateCapture {n} (k : SamePaths r s) : SamePaths r (s.stateCapture n) := .forN (fun _ _ k => .setReg k) k

theorem SamePaths.captureAt {a} (k : SamePaths r s) : SamePaths r (s.captureAt a) :=
  .ite (.capture64 k) (.ite (.capture64 k) (.ite (.capture64 k) (.forN (fun _ _ k => .ite (.stateCapture k) k) (.forN (fun _ _ k
    => .forN (fun _ _ k => .ite (.meCapture k) k) k) (.forN (fun _ _ k => .forN (fun _ _ k => .ite (.mhCapture k) k) k) (.forN
    (fun _ _ k => .ite (.capture64 k) k) k))))))

/-! ### The operations of `Sys2Proof/Machine/WayOps.lean` -/

theorem SamePaths.wayShadow {e} (k : SamePaths r s) : SamePaths r (s.wayShadow e) := by
  unfold State.wayShadow
  extract_lets
  split
  exacts [.leParamWrite k, .setSlot k, .setSlot k, .ite k (.palApply k)]

theorem SamePaths.wayRequest {q} (k : SamePaths r s) : SamePaths r (s.wayRequest q).1 := by
  unfold State.wayRequest
  split
  · exact .setFld k
  · split
    exacts [.request (fun k => .setFlag k) k, .ptCommitWrite k, .wflCommitWrite k, k, k]

theorem SamePaths.wayRequests {l} (k : SamePaths r s) : SamePaths r (s.wayRequests l).1 := by
  induction l generalizing s with
  | nil => exact k
  | cons q t ih =>
    unfold State.wayRequests
    extract_lets
    split
    · exact ih (.wayRequest k)
    · exact .wayRequest k

theorem SamePaths.wayGo {pal rest} (k : SamePaths r s) : SamePaths r (s.wayGo pal rest) :=
  .holdGo (.foldl (fun _ _ k => .wayShadow k) (.ite k (.bootSelWrite k)))

theorem SamePaths.wayCommit {q no pal} (k : SamePaths r s) : SamePaths r (s.wayCommit q no pal).1 := by
  unfold State.wayCommit
  extract_lets
  split
  · exact k
  · split
    · exact .mk (.sealCommit k)
    · split
      · exact k
      · have made {qs} {l : List WayEntry} : SamePaths r ((l.foldl State.wayShadow (if s.holding then s else
          s.holdStart)).wayRequests qs).1 :=
          .wayRequests (.foldl (fun _ _ k => .wayShadow k) (.ite k (.holdStart k)))
        split
        · exact .holdDrop made
        · split
          · exact .mk (.mk made)
          · exact .wayGo (.mk made)

theorem SamePaths.wayWrite {e no} (k : SamePaths r s) : SamePaths r (s.wayWrite e no).1 := by
  unfold State.wayWrite
  extract_lets
  split
  · exact k
  · exact .mk k

theorem SamePaths.flashWrite {k' off l} (k : SamePaths r s) : SamePaths r (s.flashWrite k' off l) := .mk k

/-! ### The operations of `Sys2Proof/Machine/Way.lean` -/

theorem SamePaths.waySend {q r'} (k : SamePaths r s) : SamePaths r (s.waySend q r') := .handMsg k
theorem SamePaths.wayClear {q status body} (k : SamePaths r s) : SamePaths r (s.wayClear q status body) := .waySend k

theorem SamePaths.waySealed {q status body} (k : SamePaths r s) : SamePaths r (s.waySealed q status body) := by
  unfold State.waySealed
  split
  exacts [.wayClear k, .ite (.sessionClose (.waySend (.setWay k))) (.waySend (.setWay k))]

theorem SamePaths.wayAnswer {q status body} (k : SamePaths r s) : SamePaths r (s.wayAnswer q status body) :=
  .ite (.waySealed k) (.wayClear k)

theorem SamePaths.wayBad {q x} (k : SamePaths r s) : SamePaths r (s.wayBad q x) := .wayClear (.ite (.sessionClose k) (.setWay k))

theorem SamePaths.wayOpen {q b} (k : SamePaths r s) : SamePaths r (s.wayOpen q b) := by
  unfold State.wayOpen
  extract_lets s1 _ _ _
  have k1 : SamePaths r s1 := .ite (.sessionClose k) k
  refine .ite (.wayAnswer k1) ?_
  refine .ite (.wayAnswer k1) ?_
  refine .ite (.wayAnswer k1) ?_
  refine .ite (.wayAnswer k1) ?_
  split
  all_goals exact .waySend (.setWay (.takeFree (.takeFree (.takeFree k1))))

theorem SamePaths.wayFinish {q b} (k : SamePaths r s) : SamePaths r (s.wayFinish q b) := by
  unfold State.wayFinish
  split
  · exact .wayAnswer k
  · extract_lets _ _ _ _ s1 _ _ _ _ _ _ _ _
    have k1 : SamePaths r s1 := .vltShow (.vaultWriteAll (.setWay k))
    exact .ite (.wayAnswer (.setWay k)) (.ite (.wayAnswer (.setWay k)) (.ite (.wayAnswer k1) (.waySealed (.showRights (.mk
      (.setWay k1))))))

theorem SamePaths.wayUpload {b} (k : SamePaths r s) : SamePaths r (s.wayUpload b).1 := by
  unfold State.wayUpload
  extract_lets
  split
  · exact k
  · split
    · exact k
    · split
      · exact k
      · exact .flashWrite k

theorem SamePaths.wayAttest {q b} (k : SamePaths r s) : SamePaths r (s.wayAttest q b) :=
  .ite (.wayAnswer k) (.ite (.wayAnswer k) (.ite (.wayAnswer (.takeFree k)) (.wayAnswer (.takeFree k))))

theorem SamePaths.wayRead {q b} (k : SamePaths r s) : SamePaths r (s.wayRead q b) :=
  .ite (.wayAnswer k) (.ite (.wayAnswer k) (.ite (.wayAnswer k) (.wayAnswer k)))

theorem SamePaths.wayCode {q p} (k : SamePaths r p.1) : SamePaths r (State.wayCode q p) := .wayAnswer k

theorem SamePaths.wayRun {q b} (k : SamePaths r s) : SamePaths r (s.wayRun q b) := by
  unfold State.wayRun
  extract_lets m
  refine .ite (.wayAnswer k) (.ite (.wayAnswer k) (.ite (.wayAnswer k) (.ite (.wayAnswer k) ?_)))
  clear_value m
  split
  · exact .wayAnswer k
  · exact .wayRead k
  · exact .wayCode (.wayWrite k)
  · exact .wayCode (.wayUpload k)
  · exact .ite (.wayAnswer k) (.wayAnswer (.ceCount k))
  · exact .wayAnswer (.ceCount k)
  · exact .wayAttest k
  · exact .ite (.wayAnswer k) (.wayAnswer (.profRequest k))
  · have committed (no pal) : SamePaths r (s.wayCommit q no pal).1 := .wayCommit k
    split
    next h =>
      have kt := committed (ofBytes (b.take 4)) (nth b 4 0).toNat
      rw [h] at kt
      exact .wayAnswer kt
    next h =>
      have kt := committed (ofBytes (b.take 4)) (nth b 4 0).toNat
      rw [h] at kt
      exact kt
  · exact .wayOpen k
  · exact .wayFinish k
  · exact .sessionClose (.wayAnswer k)
  · exact .wayAnswer (.ite (.ledgerAck k) k)
  · split
    exacts [.wayAnswer (.bootSelWrite k), .wayAnswer k]
  · exact .mk (.askSysrst (.wayAnswer k))

theorem SamePaths.wayServe {q} (k : SamePaths r s) : SamePaths r (s.wayServe q) := by
  unfold State.wayServe
  refine .ite k ?_
  refine .ite (.wayClear k) ?_
  refine .ite (.wayRun k) ?_
  split
  · exact .wayClear k
  · split
    exacts [.wayBad k, .wayRun (.setWay k)]

theorem SamePaths.wayService {mine chan e} (k : SamePaths r s) : SamePaths r (s.wayService mine chan e) := by
  unfold State.wayService
  split
  exacts [k, .ite (.wayServe k) k]

theorem SamePaths.commitGoesOn (k : SamePaths r s) : SamePaths r s.commitGoesOn := by
  unfold State.commitGoesOn
  split
  exacts [k, .ite k (.ite (.wayAnswer (.wayGo (.mk k))) (.wayAnswer (.mk k)))]

end

end Sys2Proof.Machine
end

section
/-! SUPPORT. The operations of the supply that move the OR-ing paths, the token or the handover keep the paths apart (R39 to R47). -/

namespace Sys2Proof.Machine

section
variable {r s t : State}

/-- A list of flags with one cleared has no flag set that was not. -/
theorem nth_of_putAt_false {l : List Bool} {f g : Nat} (c : nth (putAt l f false) g false = true) : nth l g false = true := by
  simp only [nth, putAt, List.getD_eq_getElem?_getD, List.getElem?_set] at c ⊢
  split at c
  · split at c <;> simp at c
  · exact c

/-- The flag of another place stays. -/
theorem nth_putAt_ne {l : List Bool} {f g : Nat} {b : Bool} (ne : f ≠ g) : nth (putAt l f b) g false = nth l g false := by
  simp [nth, putAt, ne]

theorem nth_putAt_false {l : List Bool} {f : Nat} : nth (putAt l f false) f false = false := by
  simp only [nth, putAt, List.getD_eq_getElem?_getD, List.getElem?_set_self']
  cases l[f]? <;> rfl

theorem PathsApart.same (h : PathsApart s) (k : SamePaths s t) : PathsApart t := by
  obtain ⟨closed, k⟩ := Prod.mk.inj k
  obtain ⟨holder, ho⟩ := Prod.mk.inj k
  unfold PathsApart
  rw [closed, holder, ho]
  exact h

/-- The feeds of a handover are the two feeds. -/
def Handover.InRange (h : Handover) : Prop := h.inn < 2 ∧ h.out < 2

/-- The supply that closes no path, gives no token and names no feed but the two in a handover keeps the paths apart. -/
theorem PathsApart.setPwr {p : PwrSt} (h : PathsApart s)
    (closed : ∀ g, nth p.closed g false = true → nth s.pwr.closed g false = true)
    (holder : ∀ f, p.holder = some f → s.pwr.holder = some f) (ho : ∀ h, p.ho = some h → h.InRange) :
    PathsApart (s.setPwr p) := by
  obtain ⟨both, held, -⟩ := h
  refine ⟨fun ⟨a, b⟩ => both ⟨closed 0 a, closed 1 b⟩, fun f hf => ?_, ho⟩
  obtain ⟨feed, opened⟩ := held f (holder f hf)
  exact ⟨feed, Bool.eq_false_iff.2 fun c => Bool.eq_false_iff.1 opened (closed _ c)⟩

theorem PathsApart.ite {c : Prop} [Decidable c] {a b : State} (ha : PathsApart a) (hb : PathsApart b) :
    PathsApart (if c then a else b) := by
  split
  · exact ha
  · exact hb

theorem PathsApart.inRange (h : PathsApart s) {x : Handover} (e : s.pwr.ho = some x) : x.InRange := h.2.2 x e

theorem PathsApart.faultRaise {f} (h : PathsApart s) : PathsApart (s.faultRaise f) :=
  (h.same (.setFlag rfl)).setPwr (fun _ c => nth_of_putAt_false c) (fun _ e => e) fun _ e => h.inRange e

theorem PathsApart.pwrRead {m} (h : PathsApart s) : PathsApart (s.pwrRead m) := by
  unfold State.pwrRead
  extract_lets _ _ s1 s2 s3
  have h1 : PathsApart s1 := h.same (.setFlag (.setFlag (.setFlag (.setFld (.setFld (.setFld rfl))))))
  have h2 : PathsApart s2 := .ite h1.faultRaise h1
  have h3 : PathsApart s3 := .ite h2.faultRaise h2
  exact h3.same (.setPwr rfl)

theorem PathsApart.pwrCount (h : PathsApart s) : PathsApart s.pwrCount :=
  h.setPwr (fun _ c => c) (fun _ e => e) fun x e => by
    obtain ⟨y, ey, rfl⟩ := Option.map_eq_some_iff.1 e
    exact ⟨(h.inRange ey).1, (h.inRange ey).2⟩

/-- The decision leaves no holder, and a handover from `f` to the other feed. -/
theorem PathsApart.decision {f cause sup} (h : PathsApart s) (feed : f < 2) : PathsApart (s.decision f cause sup) := by
  unfold State.decision
  extract_lets s1 s2 s3 p s4
  have h3 : PathsApart s3 := h.same (.holdOpen (.setFlag (.setFlag (.hoStat (.countUp rfl)))))
  have h4 : PathsApart s4 := h3.setPwr (fun _ c => c) (fun _ e => nomatch e) fun x e => by
    cases e
    exact ⟨by change 1 - f < 2; omega, feed⟩
  exact h4.same (.feedWake (.setFlag rfl))

theorem PathsApart.hoLost (h : PathsApart s) : PathsApart s.hoLost := by
  unfold State.hoLost
  extract_lets s1
  have h1 : PathsApart s1 := h.same (.setFlag (.setFlag (.setFlag rfl)))
  have h2 := h1.setPwr (p := { s1.pwr with ho := none, regAfter := if s1.inHold then some 0 else none }) (fun _ c => c)
    (fun _ e => e) fun _ e => nomatch e
  exact h2.same (.pfwAssert rfl)

theorem PathsApart.deadStandby {x} (h : PathsApart s) (feeds : x.InRange) : PathsApart (s.deadStandby x) := by
  unfold State.deadStandby
  extract_lets s1 p s2 s3
  have h1 : PathsApart s1 := h.same (.holdOpen rfl)
  have h2 : PathsApart s2 := h1.setPwr (fun _ c => c) (fun _ e => nomatch e) fun _ e => h1.inRange e
  have h3 : PathsApart s3 := h2.same (.feedWake (.hoOutcome (.setFlag rfl)))
  split
  · refine (h3.same (.setFlag (.setFlag (.setFlag rfl)))).setPwr (fun _ c => c) (fun _ e => e) fun y e => ?_
    cases e
    exact feeds.symm
  · exact (h3.same (.ite (.setFlag rfl) rfl)).hoLost

theorem PathsApart.regulated {x} (h : PathsApart s) : PathsApart (s.regulated x) := by
  unfold State.regulated
  extract_lets s1 p close
  have h1 : PathsApart s1 := h.same (.ite (.setFld (.hoOutcome rfl)) rfl)
  refine h1.setPwr (fun _ c => c) (fun _ e => e) fun y e => ?_
  change (if x.recovery then none else s1.pwr.ho) = some y at e
  split at e
  · cases e
  · exact h1.inRange e

theorem PathsApart.hoCheck {m x} (h : PathsApart s) (feeds : x.InRange) : PathsApart (s.hoCheck m x) := by
  unfold State.hoCheck
  refine .ite h ?_
  extract_lets ok first h1 now h2 _ s1 s2
  have k1 : PathsApart s1 := h.setPwr (fun _ c => c) (fun _ e => e) fun y e => by
    cases e
    exact feeds
  have k2 : PathsApart s2 := .ite (k1.same (.hoComplete rfl)) k1
  exact .ite k2.regulated k2

theorem PathsApart.hoDue (h : PathsApart s) : PathsApart s.hoDue := by
  unfold State.hoDue
  split
  · exact h
  · next x e =>
    exact .ite h (.ite (h.setPwr (fun _ c => c) (fun _ e => e) fun _ e => nomatch e) (h.deadStandby (h.inRange e)))

/-- A grant opens the path of the other feed before it gives the token. -/
theorem PathsApart.grant {f} (h : PathsApart s) (feed : f < 2) : PathsApart (s.grant f) := by
  obtain ⟨both, -, under⟩ := h
  refine ⟨fun ⟨a, b⟩ => both ⟨nth_of_putAt_false a, nth_of_putAt_false b⟩, fun g e => ?_, under⟩
  cases e
  exact ⟨feed, nth_putAt_false⟩

/-- A check closes no path but that of the feed that holds the token. -/
theorem PathsApart.holderCheck {m f} (h : PathsApart s) (holds : s.pwr.holder = some f) : PathsApart (s.holderCheck m f) := by
  unfold State.holderCheck
  extract_lets mv _ s1
  obtain ⟨feed, opened⟩ := h.2.1 f holds
  have other : nth s1.pwr.closed (1 - f) false = false := (nth_putAt_ne (by omega)).trans opened
  have h1 : PathsApart s1 := by
    refine ⟨fun ⟨a, b⟩ => ?_, fun g e => ?_, h.2.2⟩
    · obtain rfl | rfl : f = 0 ∨ f = 1 := by omega
      · exact Bool.eq_false_iff.1 other b
      · exact Bool.eq_false_iff.1 other a
    · cases holds.symm.trans e
      exact ⟨feed, other⟩
  split
  · split
    · next x e => exact .ite (h1.decision feed) (h1.deadStandby (h1.inRange e))
    · exact h1.decision feed
  · exact .ite (h1.decision feed) (h1.same (.setPwr rfl))

theorem PathsApart.freeGrant (h : PathsApart s) : PathsApart s.freeGrant := by
  unfold State.freeGrant
  refine .ite h ?_
  extract_lets elig
  have feeds {f} (e : elig = some f) : f < 2 := by
    unfold elig at e
    split at e
    · cases e; decide
    · split at e <;> cases e
      decide
  clear_value elig
  split
  · exact h
  · next f =>
    have hg := h.grant (feeds rfl)
    refine .ite hg ((hg.same (.setFlag (.hoStat rfl))).setPwr (fun _ c => c) (fun _ e => e) fun x e => ?_)
    cases e
    exact ⟨feeds rfl, by change 1 - f < 2; omega⟩

theorem PathsApart.supervise {m} (h : PathsApart s) : PathsApart (s.supervise m) := by
  unfold State.supervise
  extract_lets s1 s2 s3 s4
  have h2 : PathsApart s2 := h.pwrCount.pwrRead.same (.feedCheck (.feedCheck rfl))
  have h3 : PathsApart s3 := by
    unfold s3
    split
    · next x e => exact h2.hoCheck (h2.inRange e)
    · exact h2
  have h4 : PathsApart s4 := by
    unfold s4
    split
    · next f e => exact h3.holderCheck e
    · exact h3
  exact h4.hoDue.freeGrant.same (.pwrShow (.vholdCheck rfl))

/-- The first lease closes the path of its feed alone. -/
theorem pathsApart_firstLease (feed : Fin 2) : PathsApart (s.firstLease feed) := by
  have one : ∀ f : Fin 2,
      ¬ (nth (putAt [false, false] f.val true) 0 false = true ∧ nth (putAt [false, false] f.val true) 1 false = true)
        ∧ nth (putAt [false, false] f.val true) (1 - f.val) false = false := by decide
  unfold State.firstLease
  extract_lets s1 s2
  have h1 : PathsApart s1 := ⟨(one feed).1, fun f e => by cases e; exact ⟨feed.isLt, (one feed).2⟩, fun x e => nomatch e⟩
  exact h1.same (.ite (.setFlag (.setFld (.setFlag rfl))) (.setFlag (.setFld (.setFlag rfl))))

theorem PathsApart.leaseAtPor {lease} {feed : Fin 2} (h : PathsApart s) : PathsApart (s.leaseAtPor lease feed) := by
  unfold State.leaseAtPor
  split
  · exact h.setPwr (fun _ c => c) (fun _ e => e) fun _ e => h.inRange e
  · exact pathsApart_firstLease feed

theorem SamePaths.showAtPor {up} (k : SamePaths r s) : SamePaths r (s.showAtPor up) := .setFlag (.mk k)

theorem PathsApart.por {feed : Fin 2} {c} (h : PathsApart s) : PathsApart (s.por feed c) := by
  rw [s.por_eq feed c]
  refine PathsApart.leaseAtPor (h.same ?_)
  exact .showAtPor (.resetParts (.cutWork rfl))
end

section
variable {s : State}

/-- A command's answer keeps the paths apart where it moves on. -/
def OutApart (o : Out) : Prop := ∀ t, o = .next t → PathsApart t

theorem OutApart.out (h : PathsApart s) : OutApart s.out := fun t e => by
  cases e
  exact h.same (.intcLatch rfl)

theorem OutApart.execLeaseExpiry {feed} (h : PathsApart s) : OutApart (execLeaseExpiry feed s) :=
  .out (.ite h (h.setPwr (fun _ c => nth_of_putAt_false c) (fun _ e => e) fun _ e => h.inRange e))

theorem OutApart.execHandoverGrant (h : PathsApart s) : OutApart (execHandoverGrant s) := by
  refine .out ?_
  split
  · exact h
  · next x e =>
    have feeds := h.inRange e
    refine .ite h (.ite ?_ ?_)
    · refine (h.grant feeds.1).setPwr (fun _ c => c) (fun _ e => e) fun y e => ?_
      cases e
      exact feeds
    · exact (h.same (.ite (.setFlag (.ite rfl (.hoOutcome rfl))) (.ite rfl (.hoOutcome rfl)))).hoLost

theorem OutApart.execRailShutdown {c} (h : PathsApart s) : OutApart (execRailShutdown c s) :=
  .out (.ite h (.of_open rfl rfl rfl))
end

end Sys2Proof.Machine
end

section
/-! SUPPORT. Every step keeps the paths of the feeds apart (R39). -/

namespace Sys2Proof.Machine

section
variable {r s : State}

theorem OutKeeps.execEccCountedRead {addr ecc progress} (k : SamePaths r s) :
    OutKeeps r (execEccCountedRead addr ecc progress s) := by
  unfold Machine.execEccCountedRead
  refine .cpAccess (fun k => ?_) k
  extract_lets
  refine .ite (.pmRead (.pmAdvance k)) ?_
  refine .ite ?_ k
  split
  exacts [.mk k, .mk (.canvasErrors k), .mk (.canvasErrors k)]

theorem OutKeeps.execSealedCommitEnd (k : SamePaths r s) : OutKeeps r (execSealedCommitEnd s) := by
  unfold Machine.execSealedCommitEnd
  refine .out ?_
  split
  exacts [k, .ite k (.setFlag (.setFld (.setFlag (.pmServe (.ite (.bookLost (.sealBook (.mk (.pmProgramAll k)))) (.mk
    (.pmProgramAll k)))))))]

theorem OutKeeps.execMeCommitWaitTimeout (k : SamePaths r s) : OutKeeps r (execMeCommitWaitTimeout s) := by
  unfold Machine.execMeCommitWaitTimeout
  refine .out ?_
  split
  exacts [k, .ite (.mk (.setFlag (.sealRefuse k))) k]

theorem OutKeeps.execTotalsSaveEnd (k : SamePaths r s) : OutKeeps r (execTotalsSaveEnd s) := by
  unfold Machine.execTotalsSaveEnd
  refine .out ?_
  split
  · exact k
  · refine .ite k ?_
    extract_lets s1 _ _ _ _ _ _ _ _ _ _ _
    have k1 : SamePaths r s1 := .setFlag (.commitSave k)
    split
    exacts [.pmServe (.mk (.ite (.mk (.showSave (.mk k1))) (.showSave (.mk k1)))), .startSave (.mk (.ite (.ite (.mk (.showSave
      (.mk k1))) (.showSave (.mk k1))) (.laterServe (.ite (.mk (.showSave (.mk k1))) (.showSave (.mk k1))))))]

theorem OutKeeps.execClockRestart (k : SamePaths r s) : OutKeeps r (execClockRestart s) := by
  unfold Machine.execClockRestart
  refine .out ?_
  refine .ite k ?_
  extract_lets _ _ _ _ _ _ _ _ s1 _
  have k1 : SamePaths r s1 := .pmServe (.saFreeze (.setPwr (.setFlag (.setFlag (.setFld (.countUp k))))))
  exact .setFlag (.ite k1 (.leasePass (.ntAdvance (.setMtime k1))))

theorem OutKeeps.execLeResume (k : SamePaths r s) : OutKeeps r (execLeResume s) := by
  unfold Machine.execLeResume
  refine .out ?_
  refine .ite k ?_
  extract_lets _ _ _ s1 _ s2 _ _ _
  have k1 : SamePaths r s1 := SamePaths.givePwr k
  have k2 : SamePaths r s2 := .ite (.forN (fun _ _ k => .seSkip k) k1) k1
  exact .applyTrips (.forN (fun _ _ k => .ite k (.integrate k)) (.flowStall (.ite (.setSe k2) k2)))

theorem OutKeeps.execWakePerSample {w} (k : SamePaths r s) : OutKeeps r (execWakePerSample w s) := by
  unfold Machine.execWakePerSample
  refine .out ?_
  refine .ite k ?_
  extract_lets _ _ _ _ s1 _ _
  have k1 : SamePaths r s1 := .wakeWork (.setFlag (.setProf (.sleepTime (.setTick (.missBetween k)))))
  exact .setFlag (.setProf (.ite (.hfxoLost k1) (.ite k1 (.saveOccasion k1))))

theorem OutKeeps.execFirmwareVerified {us} (k : SamePaths r s) : OutKeeps r (execFirmwareVerified us s) := by
  unfold Machine.execFirmwareVerified
  refine .out ?_
  split
  · exact k
  · refine .ite k ?_
    extract_lets _ _ _ _ s1 s2 _
    have k1 : SamePaths r s1 := .ite (.wrBytes (.reportWords k)) (.reportWords k)
    have k2 : SamePaths r s2 := .ite (.setFld k1) (.setFld k1)
    exact .ite (.handOver k2) (.ite (.noFirmware k2) (.setBoot k2))

theorem OutKeeps.execEngineTick (k : SamePaths r s) : OutKeeps r (execEngineTick s) := by
  unfold Machine.execEngineTick
  refine .out ?_
  refine .ite k ?_
  extract_lets s1 _
  have k1 : SamePaths r s1 := .ntAdvance (.setMtime k)
  exact .commitGoesOn (.reportTick (.setFld (.showRound (.ite (.seShow (.setTick k1)) k1))))

theorem OutKeeps.execOverrun {slot} (k : SamePaths r s) : OutKeeps r (execOverrun slot s) := by
  unfold Machine.execOverrun
  refine .out ?_
  extract_lets _ s1 _ _
  have k1 : SamePaths r s1 := .windowStart (.openWindow k)
  exact .ite k (.ite k (.frames (.slotOverrun (.injInstant (.ite k1 (.injLoopEvent k1))))))

theorem OutKeeps.execCellReschedule {cell} (k : SamePaths r s) : OutKeeps r (execCellReschedule cell s) := by
  unfold Machine.execCellReschedule
  refine .out ?_
  extract_lets _ _ _ s1
  have k1 : SamePaths r s1 := by
    unfold s1
    refine .foldl (fun _ _ k => ?_) (.setFld k)
    extract_lets s2 _
    have k2 : SamePaths r s2 := by
      unfold s2
      split
      exacts [.driveOff k, k]
    exact .setSlot (.setFlag k2)
  exact .ite k (.ite k (.foldl (fun _ _ k => .setSlot k) k1))

theorem OutKeeps.execPgUpdate {chan} (k : SamePaths r s) : OutKeeps r (execPgUpdate chan s) := by
  unfold Machine.execPgUpdate
  refine .out ?_
  extract_lets _ _ s1
  have k1 : SamePaths r s1 := by
    unfold s1
    split
    exacts [.pgEffect (.pgAdvance k), .pgAdvance k]
  exact .ite k (.pgShow (.pgPublish k1))

theorem OutKeeps.execPgPlanComplete {chan} (k : SamePaths r s) : OutKeeps r (execPgPlanComplete chan s) := by
  unfold Machine.execPgPlanComplete
  refine .out ?_
  split
  exacts [k, .ite k (.pgShow (.setPg (.setFlag (.mk k))))]

theorem OutKeeps.execComparePoint {drive} (k : SamePaths r s) : OutKeeps r (execComparePoint drive s) := by
  unfold Machine.execComparePoint
  refine .out ?_
  extract_lets
  refine .ite k ?_
  refine .ite (.setDrive k) ?_
  split
  · exact .setDrive k
  · refine .ite (.setDrive k) ?_
    refine .forN (fun _ _ k => ?_) (.setFlag (.setFlag (.setDrive k)))
    extract_lets
    split
    all_goals exact .ite (.setFlag (.setFld k)) (.setFld k)

theorem OutKeeps.execWflResponse {link frame parity cycles} (k : SamePaths r s) :
    OutKeeps r (execWflResponse link frame parity cycles s) := by
  unfold Machine.execWflResponse
  refine .out ?_
  split
  exacts [k, .ite k (.ite (.wtimeout k) (.wgo (.wanswer k)))]

theorem OutKeeps.execResponseTimeout {link cycles} (k : SamePaths r s) : OutKeeps r (execResponseTimeout link cycles s) := by
  unfold Machine.execResponseTimeout
  refine .out ?_
  split
  exacts [k, .ite k (.wtimeout k)]

theorem OutKeeps.execBistRunStart (k : SamePaths r s) : OutKeeps r (execBistRunStart s) := by
  unfold Machine.execBistRunStart
  refine .out ?_
  split
  · exact k
  · refine .ite k ?_
    extract_lets
    split
    exacts [.setFld (.setLcs k), .setCh (.setLcs k), .setFlag (.setLcs k), .setLcs k]

theorem OutKeeps.execBistRunEnd {patterns sig} (k : SamePaths r s) : OutKeeps r (execBistRunEnd patterns sig s) := by
  unfold Machine.execBistRunEnd
  refine .out ?_
  split
  exacts [k, .ite k (.bistEnd k)]

end

/-- A command leaves the OR-ing paths apart: six commands move the paths, the token or the handover, every other keeps them. -/
theorem exec_outApart {s : State} (i : Instr) (h : PathsApart s) : OutApart (exec i s) := by
  have k : SamePaths s s := rfl
  have keep {o : Out} (ko : OutKeeps s o) : OutApart o := fun t e => h.same (ko t e)
  unfold exec
  cases i with
  | supervisorCheck _ => exact .out h.supervise
  | leaseExpiry _ => exact .execLeaseExpiry h
  | controllerFaultFlag _ => exact .out h.faultRaise
  | handoverGrant => exact .execHandoverGrant h
  | railShutdown _ => exact .execRailShutdown h
  | por _ _ => exact .out h.por
  | pmLoad _ => exact keep (.cpDoes (fun k => .pmLoadWrite k) k)
  | pmCommit _ => exact keep (.cpDoes (fun k => .pmCommitWrite k) k)
  | pmDiscard _ => exact keep (.cpDoes (fun k => .pmDiscardWrite k) k)
  | pmCommitEnd => exact keep (.out (.ite (.setFlag (.setFlag (.dropBuf (.pmAdvance k)))) k))
  | pmUnlock _ => exact keep (.cpDoes (fun k => .pmUnlockWrite k) k)
  | pmLock _ => exact keep (.cpDoes (fun k => .pmLockWrite k) k)
  | unlockWaitEnd _ => exact keep (.out (.mk (.setFld k)))
  | pmScCmd _ => exact keep (.cpDoes (fun k => .scCmdWrite k) k)
  | ceHour => exact keep (.out (.ite (.setCause (.setFlag (.setFld (.mk k)))) (.setCause (.setFld (.mk k)))))
  | eccCountedRead _ _ _ => exact keep (.execEccCountedRead k)
  | integrationInstant _ => exact keep (.out (.ite (.integrate k) k))
  | calculatorStep _ => exact keep (.out (.calculatorStep k))
  | rtdConversion _ _ _ => exact keep (.out (.rtdConversion k))
  | rtdPeriod _ => exact keep (.out (.ite (.setRtd k) k))
  | aiFlowConversion _ _ _ => exact keep (.out (.ite k (.flowConversion (.setCalc k))))
  | mhSealCmd _ => exact keep (.cpDoes (fun k => .sealCmdWrite k) k)
  | sealedCommitEnd => exact keep (.execSealedCommitEnd k)
  | mhLedgerAck _ => exact keep (.cpDoes (fun k => .ledgerAckWrite k) k)
  | meCommitWaitTimeout => exact keep (.execMeCommitWaitTimeout k)
  | meteringSample _ _ => exact keep (.out (.ite k (.portSample (.portSample k))))
  | meteringBlock _ => exact keep (.out (.ite k (.ite (.blockNext k) (.ite k (.resolveNow (.setPort k))))))
  | periodicSave => exact keep (.out (.ite k (.saveOccasion (.mk k))))
  | totalsSaveEnd => exact keep (.execTotalsSaveEnd k)
  | runMark => exact keep (.out (.ite k (.writeRunMark (.mk k))))
  | vaultUp => exact keep (.out (.ite k (.mk (.vltShow (.setVlt (.setAon (.resetRegs k)))))))
  | sysrst _ => exact keep (.out (.ite (.sysrst k) k))
  | cprst => exact keep (.out (.ite (.cprst k) k))
  | rstN => exact keep (.out (.askSysrst k))
  | cprstRequest _ | sysrstRequest _ => exact keep (.cpDoes (fun k => .ite (.rstReqWrite k) k) k)
  | registerWrite _ _ => exact keep (.cpAccess (fun k => .cpWrite k) k)
  | holdWindowClose => exact keep (.out (.ite k (.pgFreeze (.aoRelease (.setPwr (.setFld (.setFlag k)))))))
  | clockRestart => exact keep (.execClockRestart k)
  | leResume => exact keep (.execLeResume k)
  | supervisedHandoverRequest _ => exact keep (.cpDoes (fun k => .hoCmdWrite k) k)
  | feed1h _ => exact keep (.out (.ite k (.givePwr k)))
  | pfWarnDeassert => exact keep (.out (.ite k (.startAgain (.setFlag (.setFlag k)))))
  | holdupEffect => exact keep (.out (.ite k (.holdupTakes (.setProf k))))
  | holdupReturn =>
    exact keep (.out (.ite k (.ite (.setProfile (.setFlag k)) (.ite (.sleepLeave (.setFlag k)) (.setProfile (.setFlag k))))))
  | hfxoStable => exact keep (.out (.ite (.setBoot (.setFlag k)) k))
  | coreReady => exact keep (.out (.ite (.setBoot (.journalCompletion (.setFlag k))) k))
  | hfxoLoss => exact keep (.out (.ite (.hfxoLost k) k))
  | sysProfReq _ => exact keep (.cpDoes (fun k => .profReqWrite k) k)
  | profileChange => exact keep (.out (.ite (.profileTake k) k))
  | wakePerSample _ => exact keep (.execWakePerSample k)
  | wakeSource _ _ => exact keep (.out (.ite (.wakeBy k) k))
  | sleepExit => exact keep (.out (.ite k (.sleepLeave k)))
  | bootTestEnd _ =>
    exact keep (.out (.ite k (.ite (.setBoot (.setCause (.setFlag k))) (.ite (.pmAnswers (.setBoot (.setCause (.setFlag k))))
      (.setBoot (.setCause (.setFlag k)))))))
  | pmReady => exact keep (.out (.ite k (.ite (.pmAnswers (.setFlag k)) (.setFlag k))))
  | qspiIdentTimeout => exact keep (.out (.ite (.palRefuse k) k))
  | paletteReadEnd => exact keep (.out (.ite (.setBoot k) k))
  | signatureVerified => exact keep (.out (.ite k (.ite (.palRefuse k) (.setBoot (.palCode k)))))
  | startTick _ =>
    exact keep (.out (.ite k (.fwFirst (.profRequest (.setBoot (.commitReport (.startRegs (.startBlocks (.programme k)))))))))
  | firmwareVerified _ => exact keep (.execFirmwareVerified k)
  | sysPalRoll _ => exact keep (.cpDoes (fun k => .palRollWrite k) k)
  | sysBootSel _ => exact keep (.cpDoes (fun k => .bootSelWrite k) k)
  | lockstepMismatch => exact keep (.out (.setCp (.askCprst (.setFlag (.countUp k)))))
  | machineTimer => exact keep (.out (.timerLevel k))
  | accessFault _ _ => exact keep (.out (.ite k (.ite (.takeFault (.hartAs k)) (.hartAs k))))
  | sramEccCorrection => exact keep (.out (.countUp k))
  | intcClaim => exact keep (.cpDoes (fun k => .claim k) k)
  | intcCompletion _ => exact keep (.cpDoes (fun k => .completionWrite k) k)
  | sysFwStatClear _ => exact keep (.cpDoes (fun k => .fwStatWrite k) k)
  | sysWdtKick _ => exact keep (.cpDoes (fun k => .wdtKickWrite k) k)
  | wdtPrewarning | wakeUpPattern _ => exact keep (.out (.ite (.setFlag k) k))
  | wdtFirstExpiry => exact keep (.out (.ite (.askCprst (.mk (.wdtReload (.setFlag (.setFlag k))))) k))
  | wdtSecondExpiry => exact keep (.out (.ite (.askSysrst k) k))
  | engineTick => exact keep (.execEngineTick k)
  | conversionEnd _ _ => exact keep (.out (.ite k (.conversionEnd k)))
  | loopWindow _ => exact keep (.out (.loopWindow k))
  | overrun _ => exact keep (.execOverrun k)
  | trip _ => exact keep (.out (.ite k (.applyTrips (.traceEvent (.setFlag (.setFlag (.setBit k)))))))
  | tripLatchClear _ => exact keep (.cpDoes (fun k => .tripClear k) k)
  | swapRequest _ _ => exact keep (.cpDoes (fun k => .ite (.slotCtlWrite k) k) k)
  | leStateWrite _ _ _ => exact keep (.cpDoes (fun k => .leStateWrite k) k)
  | leParamWrite _ _ _ => exact keep (.cpDoes (fun k => .leParamWrite k) k)
  | faultClear _ _ => exact keep (.cpDoes (fun k => .ite (.slotStatWrite k) k) k)
  | cellReschedule _ => exact keep (.execCellReschedule k)
  | planStepBoundary => exact keep (.out (.ite k (.foldl (fun _ _ k => .pgGive k) (.reportFallback (.pbTake (.mk k))))))
  | pgUpdate _ => exact keep (.execPgUpdate k)
  | pgTarget _ _ => exact keep (.cpDoes (fun k => .pgTargetWrite k) k)
  | pgPlanComplete _ => exact keep (.execPgPlanComplete k)
  | pgStop _ _ => exact keep (.cpDoes (fun k => .ite (.pgCtlWrite k) k) k)
  | pgPreset _ _ => exact keep (.cpDoes (fun k => .pgPresetWrite k) k)
  | pgEnable _ _ => exact keep (.cpDoes (fun k => .pgCtlWrite k) k)
  | comparePoint _ => exact keep (.execComparePoint k)
  | pdClrOc _ _ | pdClrHu _ _ => exact keep (.cpDoes (fun k => .ite (.pdClear k) k) k)
  | injectionGo _ | injectionStop _ => exact keep (.cpDoes (fun k => .ite (.tuneInjCtl k) k) k)
  | traceArm _ | traceStop _ => exact keep (.cpDoes (fun k => .ite (.tuneTrcCtl k) k) k)
  | canvasReadyRequest _ _ => exact keep (.cpDoes (fun k => .ite (.canvasRequest k) k) k)
  | canvasLoadCancel _ _ => exact keep (.cpDoes (fun k => .ite (.canvasCancel k) k) k)
  | canvasStoreWrite _ _ _ => exact keep (.cpAccess (fun k => .canvasCpWrite k) k)
  | jobSubmit _ _ _ _ => exact keep (.cpDoes (fun k => .submit k) k)
  | jobStart => exact keep (.out (.saChoose k))
  | waveEnd _ _ => exact keep (.out (.saWaveEnd k))
  | jobDeadline _ => exact keep (.out (.saDeadlines k))
  | saSwap _ => exact keep (.cpDoes (fun k => .saSwapWrite k) k)
  | canvasSwap _ => exact keep (.out (.saSwapNow k))
  | saClockRestart _ => exact keep (.out (.saShow (.saDeadlines k)))
  | ptUpdate => exact keep (.out (.ite k (.ptUpdate k)))
  | ptCommit _ => exact keep (.cpDoes (fun k => .ptCommitWrite k) k)
  | roundBoundary => exact keep (.out (.ite (.roundStart k) k))
  | solveEnd => exact keep (.out (.ite (.reply k) k))
  | replyEnd => exact keep (.out (.ite (.replyEnd k) k))
  | collect => exact keep (.out (.ite k (.ite (.setRnd (.setRnd k)) (.ite (.collectUpdate (.setRnd k)) (.resumePrice (.setRnd k))))))
  | coordLeaseLapse => exact keep (.out (.coordLapse k))
  | candSend => exact keep (.out (.ite (.sendMsg (.candNote (.candEnds k))) k))
  | canFrameReceived _ _ _ => exact keep (.out (.ite (.canFrame k) k))
  | caravanTimeout _ _ => exact keep (.out (.ite (.ctxDrop k) k))
  | canRxAck _ _ => exact keep (.cpDoes (fun k => .rxAck k) k)
  | canCqAck _ _ => exact keep (.cpDoes (fun k => .cqAck k) k)
  | canTxReq _ _ => exact keep (.cpDoes (fun k => .txReqWrite k) k)
  | canFrameStart _ _ => exact keep (.out (.ite (.canStart k) k))
  | canFrameEnd _ _ => exact keep (.out (.ite (.canEnd k) k))
  | canTxAbort _ _ => exact keep (.cpDoes (fun k => .txAbortWrite k) k)
  | recover _ _ | wup _ _ => exact keep (.cpDoes (fun k => .ite (.canCtlWrite k) k) k)
  | busOffRecovery _ => exact keep (.out (.ite (.setFld (.setFld (.setFld k))) k))
  | canMode _ _ => exact keep (.cpDoes (fun k => .canCtlWrite k) k)
  | restrictedOperation _ => exact keep (.out (.ite (.canIdle k) k))
  | heartbeat _ => exact keep (.out (.ite (.setCh k) k))
  | ethDatagram _ _ _ => exact keep (.out (.ite (.ethFrame k) k))
  | reqStatus _ _ | reqRead _ _ | reqWrite _ _ | reqUpload _ _ | reqFetchReport _ _ | reqFetchLedger _ _ | reqFetchAttest _ _
  | reqProfile _ _ | reqCommit _ _ | reqOpen _ _ | reqFinish _ _ | reqClose _ _ | reqLedgerAck _ _ | reqBootSel _ _
  | reqRestart _ _ => exact keep (.out (.wayService k))
  | sessionTimeout => exact keep (.out (.ite (.sessionClose k) k))
  | refSend => exact keep (.out (.ite (.refInstant k) k))
  | refWithdrawn _ => exact keep (.out (.ite k (.setCh k)))
  | refReceive _ _ _ _ => exact keep (.out (.ite (.refReceive (.refArrives k)) k))
  | holdoverExpiry => exact keep (.out (.ite (.setReg (.setValid k)) k))
  | sysNtStep _ => exact keep (.cpDoes (fun k => .ntStepWrite k) k)
  | sysNtRate _ => exact keep (.cpDoes (fun k => .ntRateWrite k) k)
  | fwValid _ | inval _ => exact keep (.cpDoes (fun k => .ite (.ntCtlWrite k) k) k)
  | ptpSend _ _ => exact keep (.cpDoes (fun k => .ptpWrite k) k)
  | ptpTimestamp _ _ => exact keep (.out (.ite k (.setFlag (.setFlag (.mk k)))))
  | load _ | clrhi _ => exact keep (.cpDoes (fun k => .ite (.aonWrite (fun k => .aonCtlWrite k) k) k) k)
  | loadEffect | secondBoundary | alarm _ | tickCounterWrap => exact keep (.out (.ite (.aonEdge k) k))
  | aonShift _ => exact keep (.cpDoes (fun k => .aonWrite (fun k => .aonShiftWrite k) k) k)
  | lockout | lockoutLift => exact keep (.out (.setAon k))
  | vbatSwitch => exact keep (.out (.ite (.setAon k) k))
  | pulseCount _ =>
    exact keep (.out (.ite (.ite (.wakeBy k) k) (.ite (.pulseTake (.setAon (.ite (.wakeBy k) k))) (.ite (.aonEdge (.setAon (.ite
      (.wakeBy k) k))) (.setAon (.ite (.wakeBy k) k))))))
  | wflCycleInstant _ => exact keep (.out (.ite (.wgo (.wcycle k)) k))
  | wflResponse _ _ _ _ => exact keep (.execWflResponse k)
  | responseTimeout _ _ => exact keep (.execResponseTimeout k)
  | wflCommit _ => exact keep (.cpDoes (fun k => .wflCommitWrite k) k)
  | wflOutWrite _ _ => exact keep (.cpDoes (fun k => .wflOutCpWrite k) k)
  | seCycle _ _ => exact keep (.out (.seCycleDue k))
  | seSkip => exact keep (.out (.ite (.seSkip (.setSe k)) k))
  | seXchg _ => exact keep (.cpDoes (fun k => .seXchgWrite k) k)
  | seForceSet _ | seForceClr _ => exact keep (.cpDoes (fun k => .ite (.forceCmdWrite k) k) k)
  | vltHash _ | vltHmac _ | vltCmac _ | vltGcmSeal _ | vltGcmOpen _ | vltSign _ | vltVerify _ | vltEcdh _ | vltGenerate _
  | vltLoadPub _ | vltImport _ | vltExport _ | vltErase _ | vltPolicy _ | vltRandom _ | vltPubkey _ | vltAttest _
  | vltProvision _ | vltCert _ => exact keep (.cpDoes (fun k => .vltStartOp k) k)
  | vltCommandEnd => exact keep (.out (.vltFinish k))
  | vltFwRoll _ => exact keep (.cpDoes (fun k => .fwRollWrite k) k)
  | tamper _ => exact keep (.out (.ite k (.tamper k)))
  | dbgseen => exact keep (.out (.ite (.dbgSeen k) k))
  | vltSelftestDone _ => exact keep (.out (.ite k (.vltShow (.setVlt (.setFlag (.setFlag k))))))
  | trngHealthFail => exact keep (.out (.vltShow (.setFlag (.setFlag k))))
  | trngRetest _ => exact keep (.out (.ite (.vltShow (.setFlag (.setFlag k))) k))
  | lcsProvisioned _ | lcsDeploy _ | lcsEnterService _ | lcsLeaveService _ | lcsDecommission _ | lcsDebugOpen _ =>
    exact keep (.cpDoes (fun k => .ite (.lcsCmdWrite k) k) k)
  | lcsCommandEnd => exact keep (.out (.ite k (.askSysrst (.lcsEnd (.setLcs (.foldl (fun _ _ k => .fuseStep k) k))))))
  | bistRequest _ | bistAbort _ => exact keep (.cpDoes (fun k => .ite (.bistCmdWrite k) k) k)
  | bistRunStart => exact keep (.execBistRunStart k)
  | bistRunEnd _ _ => exact keep (.execBistRunEnd k)
  | bistEntryTimeout => exact keep (.out (.forN (fun _ _ k => .busTestTick k) k))
  | vbatMeasurement _ =>
    exact keep (.out (.ite k (.ite (.setCause (.setLcs (.setFld k))) (.ite (.setCause (.setLcs (.setFld k))) (.setLcs (.setFld
      k))))))
  | liveHold _ | liveGo _ | liveDrop _ => exact keep (.cpDoes (fun k => .ite (.liveCtlWrite k) k) k)
  | holdTimeout => exact keep (.out (.ite (.setFld (.holdDrop k)) k))
  | aonStateLost => exact keep (.out (.ite k (.setVlt (.setAon k))))
  | canErrorDetected _ _ _ _ => exact keep (.out (.ite k (.ite (.canErr k) (.setCounters (.canErr k)))))
  | ethLinkChange _ _ _ => exact keep (.out (.setFlag (.setFlag (.setFlag k))))
  | ethSegmentSend _ => exact keep (.out (.ite (.segmentSend k) k))
  | rollEnd _ =>
    exact keep (.out (.ite k (.ite (.ite (.setFlag (.forN (fun _ _ k => .scIncrement k) k)) k) (.ite (.setFlag (.forN (fun _ _ k
      => .scIncrement k) k)) k))))
  | debugHalt _ => exact keep (.out (.setCp k))
  | dioEdge _ _ => exact keep (.out (.ite k (.setCp (.ite (.wakeBy (.dioSet k)) (.dioSet k)))))
  | capturingRead _ => exact keep (.cpAccess (fun k => .ite (.pmRead k) (.ite (.claim k) (.mk (.captureAt k)))) k)
  | plugStoreWrite _ _ _ => exact keep (.cpAccess (fun k => .plugCpWrite k) k)
  | seAreaWrite _ _ _ => exact keep (.cpAccess (fun k => .seCpWrite k) k)

/-- Settles O60: six commands move the paths, the token or the handover, and each keeps them apart (`PathsApart.supervise` and its
like); every other command, and an LFXO edge, leaves all three as they are (`SamePaths`). -/
theorem feedPathsStayApart : Obligations.FeedPathsStayApart := by
  unfold Obligations.FeedPathsStayApart
  intro s t h e
  unfold step at e
  split at e
  · exact OutApart.out (h.same (.aonEdge rfl)) t e
  · exact exec_outApart _ (h.same (.mk rfl)) t e

end Sys2Proof.Machine
end

section
/-! SUPPORT. The statements of the clocks' family that one state of the model settles: what an LFXO edge and the exit from SLEEP
reach beside the parts that the statements name (R106, R287, R450). -/

namespace Sys2Proof.Machine

/-- A node asleep with the HFXO kept on. A pulse input is filtered, and the wait after a password mismatch ends 10 µs after the start
of SYS_MTIME. -/
def waitAsleep : State :=
  (({ prof := { sleep := true }, pm := { waits := [(0, 10)] } } : State).setFlag SYS_CLK_STAT.HFXO_ON true).setFld (AON_PLS_CFG.FILT 0) 1

/-- Refutes O4: its last clauses take from KeepsAtEdge that an LFXO edge leaves the parameter memory's state alone. But in SLEEP with
the HFXO on the edge advances SYS_MTIME (R106), and a wait of R450 that has then ended is forgotten: the one of `waitAsleep`. -/
theorem not_aonSupplyAndPulses : ¬ Obligations.AonSupplyAndPulses := by
  unfold Obligations.AonSupplyAndPulses
  rintro ⟨-, -, -, -, -, -, sample, -⟩
  obtain ⟨t, run, -, -, -, rest⟩ := sample waitAsleep 0 rfl rfl (by decide) (by decide)
  have edge : t = (waitAsleep.aonEdge false).intcLatch := (State.out_next _ t).1 run
  have ended : (waitAsleep.aonEdge false).pm.waits = [] := by decide +kernel
  have kept : t.pm.waits = [(0, 10)] := congrArg (fun u : State => u.pm.waits) rest
  rw [edge, State.intcLatch_pm, ended] at kept
  exact absurd kept (by decide)

/-- A node asleep that holds the grant's token, woken after the three engine ticks in which the lease ran down. -/
def leaseAsleep : State :=
  let asleep : State := { prof := { sleep := true, woke := true }, aon := { edges := 1 }, rnd := { holding := true } }
  (asleep.setFlag PWR_STAT.PFW false).setReg SYS_COORD 0x00010000

/-- `leaseAsleep` in a HOLDUP that PF_WARN forced and whose end has come. -/
def leaseHeldUp : State := (leaseAsleep.setFlag SYS_PROF_STAT.FORCED true).setFld SYS_PROF_STAT.CUR 3

/-- Refutes O12: its clause on the exit keeps the rounds' state, but the lease runs down by the time that SLEEP took, and a holder whose
lease is over holds the token no longer (R287, R292): the one of `leaseAsleep`. -/
theorem not_sleepAndWake : ¬ Obligations.SleepAndWake := by
  unfold Obligations.SleepAndWake
  rintro ⟨-, -, leave⟩
  obtain ⟨t, run, -, -, -, -, -, -, -, -, rest⟩ := leave leaseAsleep rfl rfl (by decide) (by decide) rfl
  have exit : exec .sleepExit leaseAsleep = leaseAsleep.sleepLeave.out := congrArg State.out (if_neg (by decide))
  have lapsed : leaseAsleep.sleepLeave.rnd.holding = false := by decide +kernel
  have kept : t.rnd.holding = true := congrArg (fun u : State => u.rnd.holding) rest
  rw [(State.out_next _ t).1 (exit.symm.trans run), State.intcLatch_rnd, lapsed] at kept
  exact absurd kept (by decide)

/-- Refutes O11: its clause on the return from the clocks of SLEEP after a wake keeps the rounds' state; but the node of `leaseHeldUp`,
whose lease ran down in SLEEP, holds the token no longer (R287, R292). -/
theorem not_profileChanges : ¬ Obligations.ProfileChanges := by
  unfold Obligations.ProfileChanges
  rintro ⟨-, -, -, -, -, back, -⟩
  obtain ⟨t, run, -, -, -, -, -, -, -, -, rest⟩ := back leaseHeldUp (by decide) (by decide) rfl rfl (by decide) rfl
  have exit : exec .holdupReturn leaseHeldUp = (leaseHeldUp.setFlag SYS_PROF_STAT.FORCED false).sleepLeave.out :=
    congrArg State.out (if_neg (by decide))
  have lapsed : (leaseHeldUp.setFlag SYS_PROF_STAT.FORCED false).sleepLeave.rnd.holding = false := by decide +kernel
  have kept : t.rnd.holding = true := congrArg (fun u : State => u.rnd.holding) rest
  rw [(State.out_next _ t).1 (exit.symm.trans run), State.intcLatch_rnd, lapsed] at kept
  exact absurd kept (by decide)

end Sys2Proof.Machine
end

section
/-! SUPPORT. One bit of a field, and the pending bits through the gateways (R112). -/

namespace Sys2Proof.Machine

/-- A bit put into a number is a field of one bit merged into it. -/
theorem putBit_eq_mergeBits (x i : Nat) (b : Bool) : putBit x i b = mergeBits i i x (b2n b * 2 ^ i) := by
  have field : bits x i i = b2n (bit x i) := by
    rw [bits, show i + 1 - i = 1 by omega, bit, b2n]
    rcases Nat.mod_two_eq_zero_or_one (x / 2 ^ i) with h | h <;> simp [h]
  have low : bit x i = true → 2 ^ i ≤ x := fun h => by
    rw [bit_eq_testBit] at h
    exact Nat.ge_two_pow_of_testBit h
  rw [mergeBits, field, bits_mul_two_pow, show i + 1 - i = 1 by omega, putBit]
  cases hx : bit x i <;> cases b <;> simp [b2n]
  exact (Nat.sub_add_cancel (low hx)).symm

theorem bit_putBit (x i j : Nat) (b : Bool) : bit (putBit x i b) j = if j = i then b else bit x j := by
  rw [putBit_eq_mergeBits, bit_eq_testBit, testBit_mergeBits]
  by_cases same : j = i
  · subst same
    rw [if_pos ⟨le_rfl, le_rfl⟩, if_pos rfl]
    cases b <;> simp [b2n]
  · rw [if_neg (by omega), if_neg same, bit_eq_testBit]

/-- A bit of a field read after one of its bits is set or cleared. -/
theorem State.bit_setBit (s : State) (f : Field) (i : Nat) (b : Bool) {j : Nat} (hj : f.lo + j ≤ f.hi) (word : f.hi < 32) :
    bit ((s.setBit f i b).fld f) j = if j = i then b else bit (s.fld f) j := by
  rw [State.setBit, State.fld_setFld_self _ _ _ (by omega) word, bit_eq_testBit, Nat.testBit_mod_two_pow, decide_eq_true (by omega),
    Bool.true_and, ← bit_eq_testBit, bit_putBit]

theorem State.intPending_eq (s : State) (n : Nat) : s.intPending n = bit (s.fld (INTC_PEND.BITS (n / 32))) (n % 32) := by
  have whole : s.fld (INTC_PEND.BITS (n / 32)) = (s.reg (INTC_PEND (n / 32))).toNat :=
    (Nat.mod_eq_of_lt (by simpa using BitVec.isLt _)).trans (Nat.div_one _)
  rw [State.intPending, whole]

/-- The pending bit of a source after that of another or its own is set or cleared. -/
theorem State.intPending_setBit (s : State) (n m : Nat) (b : Bool) :
    (s.setBit (INTC_PEND.BITS (n / 32)) (n % 32) b).intPending m = if m = n then b else s.intPending m := by
  rw [State.intPending_eq, State.intPending_eq]
  by_cases word : m / 32 = n / 32
  · rw [word, State.bit_setBit _ _ _ _ (by simp only; omega) (Nat.lt_succ_self 31)]
    exact if_congr (by omega) rfl rfl
  · rw [State.fld_setBit_ne _ _ _ _ _ (by simp only [INTC_PEND]; omega), if_neg (by rintro rfl; exact word rfl)]

/-- A gateway leaves the pending bits of the other sources. -/
theorem State.intPending_gateway_ne (s : State) {n m : Nat} (ne : m ≠ n) : (s.gateway n).intPending m = s.intPending m := by
  have set : (s.setBit (INTC_PEND.BITS (n / 32)) (n % 32) true).intPending m = s.intPending m := by
    rw [State.intPending_setBit, if_neg ne]
  unfold State.gateway
  split
  · split <;> exact set
  · rfl

theorem State.gateway_claimed (s : State) {n : Nat} (claimed : s.cp.claimed.contains n = true) : s.gateway n = s := by
  rw [State.gateway, claimed, Bool.not_true, Bool.and_false, if_neg Bool.false_ne_true]

@[simp] theorem State.claimed_gateway (s : State) (n : Nat) : (s.gateway n).cp.claimed = s.cp.claimed := by rw [State.cp_gateway]

@[simp] theorem State.claimed_intcLatch (s : State) : s.intcLatch.cp.claimed = s.cp.claimed := by rw [State.cp_intcLatch]

/-- A claimed source becomes pending through no gateway. -/
theorem State.intPending_gateway_claimed (s : State) {m : Nat} (n : Nat) (claimed : s.cp.claimed.contains m = true) :
    (s.gateway n).intPending m = s.intPending m := by
  by_cases same : m = n
  · rw [s.gateway_claimed (same ▸ claimed)]
  · exact s.intPending_gateway_ne same

theorem State.intPending_intcLatch_claimed (s : State) {m : Nat} (claimed : s.cp.claimed.contains m = true) :
    s.intcLatch.intPending m = s.intPending m := by
  have keeps : ∀ k, (forN (fun n (x : State) => x.gateway n) k s).cp.claimed = s.cp.claimed
      ∧ (forN (fun n (x : State) => x.gateway n) k s).intPending m = s.intPending m := by
    intro k
    induction k with
    | zero => exact ⟨rfl, rfl⟩
    | succ k ih =>
      exact ⟨(State.claimed_gateway _ k).trans ih.1, (State.intPending_gateway_claimed _ k (by rw [ih.1, claimed])).trans ih.2⟩
  exact (keeps 80).2

/-- The gateways below that of the DIO edges leave their request. -/
theorem State.dioReq_gateway_ne (s : State) {n : Nat} (ne : n ≠ 75) : (s.gateway n).cp.dioReq = s.cp.dioReq := by
  unfold State.gateway
  split
  · rfl
  · rfl

/-- The request of a DIO edge passes its gateway, where none is pending or claimed (R112). -/
theorem State.dioReq_gateway (s : State) (req : s.cp.dioReq = true) :
    (s.gateway 75).intPending 75 = true ∨ (s.gateway 75).cp.claimed.contains 75 = true := by
  have level : s.srcLevel 75 = true := req
  unfold State.gateway
  split
  · exact .inl ((s.intPending_setBit 75 75 true).trans (if_pos rfl))
  · next shut =>
    rw [level, Bool.true_and, Bool.and_eq_true, not_and_or] at shut
    simpa using shut

/-- Every command that leaves a request of a DIO edge leaves source 75 pending or claimed. -/
theorem State.dioReq_intcLatch (s : State) (req : s.cp.dioReq = true) :
    s.intcLatch.intPending 75 = true ∨ s.intcLatch.cp.claimed.contains 75 = true := by
  have before : (forN (fun n (x : State) => x.gateway n) 75 s).cp.dioReq = s.cp.dioReq :=
    forN_keeps_lt (fun x => x.cp.dioReq) _ (fun n hn x => x.dioReq_gateway_ne (by omega)) s
  have passed : ∀ k, 76 ≤ k → (forN (fun n (x : State) => x.gateway n) k s).intPending 75 = true
      ∨ (forN (fun n (x : State) => x.gateway n) k s).cp.claimed.contains 75 = true := by
    intro k hk
    induction k, hk using Nat.le_induction with
    | base => exact State.dioReq_gateway _ (before.trans req)
    | succ k hk ih => rwa [forN, State.intPending_gateway_ne _ (by omega), State.claimed_gateway]
  exact passed 80 (by decide)


section claims
variable {s : State}

/-- A claim with no source to claim reads 0 (R112). -/
theorem State.claim_none (none_ : s.claimBest 97 = none) : s.claim = { s with readback := 0 } := by
  rw [State.claim, none_]

/-- A claim takes its source's pending bit and holds the source (R112). -/
theorem State.claim_some {n p : Nat} (best : s.claimBest 97 = some (n, p)) :
    s.claim = { (s.setBit (INTC_PEND.BITS (n / 32)) (n % 32) false).setCp { s.cp with claimed := n :: s.cp.claimed } with
      readback := BitVec.ofNat 32 n } := by
  rw [State.claim, best]
  rfl

theorem Runs.claim_none (none_ : s.claimBest 97 = none) (run : s.cpStopped = false) : Runs .intcClaim s fun t =>
    t.readback = 0 ∧ t.cp.claimed = s.cp.claimed ∧ KeepsRegs s t [] ∧ KeepsMem s t
      ∧ KeepsRest s { t with readback := s.readback } := by
  refine Runs.of_out (State.cpDoes_running State.claim run) ?_
  rw [State.claim_none none_]
  refine ⟨by simp, by simp, KeepsRegs.intcLatch fun _ _ _ => rfl, KeepsMem.intcLatch ⟨rfl, fun _ => rfl⟩, ?rest⟩
  obtain ⟨r, d, latch⟩ := State.intcLatch_updates { s with readback := 0 }
  rw [latch]
  rfl

theorem Runs.claim_some {n p : Nat} (best : s.claimBest 97 = some (n, p)) (lt : n < 96) (run : s.cpStopped = false) :
    Runs .intcClaim s fun t =>
      t.readback = BitVec.ofNat 32 n ∧ t.cp.claimed = n :: s.cp.claimed ∧ t.intPending n = false
      ∧ KeepsRegs s t [] ∧ KeepsMem s t ∧ KeepsRest s { t with readback := s.readback, cp := s.cp } := by
  refine Runs.of_out (State.cpDoes_running State.claim run) ?_
  have claimed : s.claim.cp.claimed = n :: s.cp.claimed := by rw [State.claim_some best]; rfl
  refine ⟨?read, by rw [State.claimed_intcLatch, claimed], ?clear, KeepsRegs.intcLatch fun a _ hp => ?regs,
    KeepsMem.intcLatch ⟨?ecc, fun a => ?mem⟩, ?rest⟩
  case read => rw [State.intcLatch_readback, State.claim_some best]
  case clear =>
    rw [State.intPending_intcLatch_claimed _ (by rw [claimed]; simp), State.claim_some best]
    exact (s.intPending_setBit n n false).trans (if_pos rfl)
  case regs =>
    rw [State.claim_some best]
    exact s.reg_setBit_ne _ _ _ _ (hp _ (by omega))
  case ecc => rw [State.claim_some best]; rfl
  case mem => rw [State.claim_some best]; rfl
  case rest =>
    obtain ⟨r, d, latch⟩ := s.claim.intcLatch_updates
    rw [latch, State.claim_some best]
    rfl

/-- A completion for an enabled source ends its claim (R112). -/
theorem Runs.completion {v : Word}
    (en : bit (s.reg (INTC_EN (INTC_CLAIM.ID.of v / 32))).toNat (INTC_CLAIM.ID.of v % 32) = true) (run : s.cpStopped = false) :
    Runs (.intcCompletion v) s fun t =>
      t.cp.claimed = s.cp.claimed.filter (fun n => n != INTC_CLAIM.ID.of v)
      ∧ KeepsRegs s t [] ∧ KeepsMem s t ∧ KeepsRest s { t with cp := s.cp } := by
  refine Runs.of_out (State.cpDoes_running (fun s => s.completionWrite v) run) ?_
  have frees : s.completionWrite v = s.setCp { s.cp with claimed := s.cp.claimed.filter (· != INTC_CLAIM.ID.of v) } := if_pos en
  rw [frees]
  refine ⟨by simp, KeepsRegs.intcLatch fun _ _ _ => rfl, KeepsMem.intcLatch ⟨rfl, fun _ => rfl⟩, ?rest⟩
  obtain ⟨r, d, latch⟩ := State.intcLatch_updates (s.setCp { s.cp with claimed := s.cp.claimed.filter (· != INTC_CLAIM.ID.of v) })
  rw [latch]
  rfl

end claims

section levels
variable (s : State)

/-- The levels shown for the first `m` trip inputs. -/
def State.levelsShown (m : Nat) : State := forN (fun t s => s.setBit LE_TRIP_STAT.LEVEL t (s.tripActive t)) m s

theorem State.reg_levelsShown (m : Nat) {a : Nat} (h : a ≠ LE_TRIP_STAT) : (s.levelsShown m).reg a = s.reg a :=
  forN_keeps (fun x : State => x.reg a) _ (fun _ x => x.reg_setBit_ne _ _ _ _ h) m s

theorem State.levelsShown_eq (m : Nat) : s.levelsShown m = { s with regs := (s.levelsShown m).regs } :=
  forN_keeps (fun x : State => { x with regs := (s.levelsShown m).regs })
    (fun t x => x.setBit LE_TRIP_STAT.LEVEL t (x.tripActive t)) (fun _ _ => rfl) m s

theorem State.tripActive_levelsShown (m : Nat) {i : Nat} (hi : i < 8) : (s.levelsShown m).tripActive i = s.tripActive i := by
  have pol : (s.levelsShown m).flag (LE_TRIP_CFG.POL i) = s.flag (LE_TRIP_CFG.POL i) := by
    rw [State.flag, State.fld, s.reg_levelsShown m (by simp only [LE_TRIP_CFG, LE_TRIP_STAT]; omega)]
    rfl
  rw [State.tripActive, pol, s.levelsShown_eq m, State.tripActive]

/-- A trip input's bit of LEVEL shows whether it is active (R148). -/
theorem State.bit_levelsShown {m i : Nat} (hm : m ≤ 8) (hi : i < m) :
    bit ((s.levelsShown m).fld LE_TRIP_STAT.LEVEL) i = s.tripActive i := by
  induction m with
  | zero => exact absurd hi (Nat.not_lt_zero i)
  | succ m ih =>
    have next : s.levelsShown (m + 1) = (s.levelsShown m).setBit LE_TRIP_STAT.LEVEL m ((s.levelsShown m).tripActive m) := rfl
    rw [next, State.bit_setBit _ _ _ _ (by simp only; omega) (by decide), s.tripActive_levelsShown m (by omega)]
    by_cases last : i = m
    · rw [if_pos last, last]
    · rw [if_neg last, ih (by omega) (by omega)]

theorem State.showLevels_eq : s.showLevels = { s with regs := s.showLevels.regs } := by
  rw [State.showLevels]
  split
  · exact s.levelsShown_eq 8
  · rfl

theorem State.reg_showLevels {a : Nat} (h : a ≠ LE_TRIP_STAT) : s.showLevels.reg a = s.reg a := by
  rw [State.showLevels]
  split
  · exact s.reg_levelsShown 8 h
  · rfl

theorem State.bit_showLevels (on : s.flag LE_CTL.EN = true) {i : Nat} (hi : i < 8) :
    bit (s.showLevels.fld LE_TRIP_STAT.LEVEL) i = s.tripActive i := by
  rw [State.showLevels, if_pos on]
  exact s.bit_levelsShown le_rfl hi

end levels

section dioEdge
variable (s : State) (d : Fin 32) (level : Bool)

/-- A DIO edge at an input that SYS_SLEEP_CFG and SYS_WAKE_DIO select wakes a node asleep (R79). -/
def State.dioWoken : State :=
  if (s.dioSet d level).flag SYS_SLEEP_CFG.DIO && bit ((s.dioSet d level).reg SYS_WAKE_DIO).toNat d then (s.dioSet d level).wakeBy 3
  else s.dioSet d level

/-- A DIO edge: the ball, the wake, and the request of source 75 (R113). -/
def State.dioEdged : State := (s.dioWoken d level).setCp { (s.dioWoken d level).cp with dioReq := true }

/-- An edge at input `d` wakes the node. -/
def State.dioWakes : Bool := s.inSleep && s.flag SYS_SLEEP_CFG.DIO && bit (s.reg SYS_WAKE_DIO).toNat d

theorem exec_dioEdge (input : nth s.ana.dioOut d false = false) (moves : nth s.ana.dio d false ≠ level) :
    exec (.dioEdge d level) s = (s.dioEdged d level).out :=
  congrArg State.out (if_neg (by simpa [input] using moves))

theorem State.dioSet_eq : s.dioSet d level =
    { s with regs := (s.dioSet d level).regs, ana := { s.ana with dio := putAt s.ana.dio d level } } :=
  State.showLevels_eq _

theorem State.reg_dioSet {a : Nat} (h : a ≠ LE_TRIP_STAT) : (s.dioSet d level).reg a = s.reg a := State.reg_showLevels _ h

theorem State.dioWoken_eq : s.dioWoken d level =
    if s.dioWakes d then
      { (s.dioSet d level).setBit SYS_WAKE_CAUSE.CAUSE 3 true with prof := { s.prof with woke := true } }
    else s.dioSet d level := by
  have cfg : (s.dioSet d level).flag SYS_SLEEP_CFG.DIO = s.flag SYS_SLEEP_CFG.DIO := by
    rw [State.flag, State.fld, s.reg_dioSet d level (by decide)]; rfl
  have asleep : (s.dioSet d level).inSleep = s.inSleep := by rw [State.dioSet_eq]; rfl
  have prof : (s.dioSet d level).prof = s.prof := by rw [State.dioSet_eq]
  rw [State.dioWoken, State.wakeBy, cfg, s.reg_dioSet d level (by decide), asleep, State.dioWakes]
  generalize s.inSleep = asleep, s.flag SYS_SLEEP_CFG.DIO = dio, bit (s.reg SYS_WAKE_DIO).toNat d = selected
  cases asleep <;> cases dio <;> cases selected <;> simp [prof]

/-- A DIO edge changes the levels shown, the ball, what a wake changes and the request. -/
theorem State.dioEdged_updates : ∃ r w, s.dioEdged d level =
    { s with regs := r, ana := { s.ana with dio := putAt s.ana.dio d level }, prof := { s.prof with woke := w },
             cp := { s.cp with dioReq := true } } := by
  rw [State.dioEdged, State.dioWoken_eq, State.dioSet_eq]
  split
  · exact ⟨_, true, rfl⟩
  · exact ⟨_, s.prof.woke, rfl⟩

theorem State.reg_dioEdged {a : Nat} (shown : a ≠ LE_TRIP_STAT) (cause : a ≠ SYS_WAKE_CAUSE ∨ s.dioWakes d = false) :
    (s.dioEdged d level).reg a = s.reg a := by
  rw [State.dioEdged, State.setCp_reg, State.dioWoken_eq]
  split
  · next wakes => exact (State.reg_setBit_ne _ _ _ _ _ (cause.resolve_right (by simp [wakes]))).trans (s.reg_dioSet d level shown)
  · exact s.reg_dioSet d level shown

theorem State.level_dioEdged : (s.dioEdged d level).fld LE_TRIP_STAT.LEVEL = (s.dioSet d level).fld LE_TRIP_STAT.LEVEL := by
  rw [State.dioEdged, State.fld, State.setCp_reg, State.dioWoken_eq]
  split
  · exact State.fld_setBit_ne _ _ LE_TRIP_STAT.LEVEL _ _ (by decide)
  · rfl

/-- An edge that wakes the node marks its cause (R79). -/
theorem State.cause_dioEdged (wakes : s.dioWakes d = true) :
    (s.dioEdged d level).prof.woke = true ∧ bit ((s.dioEdged d level).fld SYS_WAKE_CAUSE.CAUSE) 3 = true := by
  rw [State.dioEdged, State.fld, State.setCp_reg, State.dioWoken_eq, if_pos wakes]
  exact ⟨rfl, (State.bit_setBit _ SYS_WAKE_CAUSE.CAUSE 3 true (by decide) (by decide)).trans (if_pos rfl)⟩

theorem State.prof_dioEdged (still : s.dioWakes d = false) : (s.dioEdged d level).prof = s.prof := by
  rw [State.dioEdged, State.dioWoken_eq, if_neg (by simp [still]), State.dioSet_eq]
  rfl

end dioEdge

/-- Settles O16: a claim, a completion and an edge each come to one update of the state, after which the gateways let no claimed
source become pending, and forward the request of an edge. -/
theorem interruptClaims : Obligations.InterruptClaims := by
  unfold Obligations.InterruptClaims
  refine ⟨fun s => Runs.claim_none, fun s n p => Runs.claim_some, fun s v => Runs.completion, fun s d level input moves => ?edge⟩
  obtain ⟨r, w, edged⟩ := s.dioEdged_updates d level
  have request : (s.dioEdged d level).cp.dioReq = true := by rw [edged]
  refine Runs.of_out (exec_dioEdge s d level input moves) ⟨?ana, State.dioReq_intcLatch _ request, fun on i hi => ?level,
    fun asleep sel ball => ?wakes, fun still => ⟨?prof, ?cause⟩, KeepsRegs.intcLatch fun a ha _ => ?regs,
    KeepsMem.intcLatch ⟨?ecc, fun a => ?mem⟩, ?rest⟩
  case ana => rw [State.intcLatch_ana, edged]
  case level =>
    rw [State.fld_intcLatch _ _ (by decide), State.level_dioEdged, State.intcLatch_ana, edged]
    exact State.bit_showLevels { s with ana := { s.ana with dio := putAt s.ana.dio d level } } on hi
  case wakes =>
    rw [State.fld_intcLatch _ _ (by decide), State.intcLatch_prof]
    exact s.cause_dioEdged d level (by simp [State.dioWakes, asleep, sel, ball])
  case prof => rw [State.intcLatch_prof, s.prof_dioEdged d level still]
  case cause => rw [State.reg_intcLatch _ _ (by decide), s.reg_dioEdged d level (by decide) (.inr still)]
  case regs => exact s.reg_dioEdged d level (by simp_all) (.inl (by simp_all))
  case ecc => rw [edged]
  case mem => rw [edged]; rfl
  case rest =>
    obtain ⟨r', q, latch⟩ := (s.dioEdged d level).intcLatch_updates
    rw [latch, edged]
    rfl

end Sys2Proof.Machine
end

section
/-! SUPPORT. The stored partition table (R441, R448) lies below the spread counters: what writes above it leaves it. -/

namespace Sys2Proof.Machine

/-- The array below the spread counters, and its ECC errors. -/
def State.tables (s : State) : (Nat → Byte) × List (Nat × Bool) :=
  (fun a => if a < 0x38001000 then s.rd8 a else 0, s.ecc.filter fun x => decide (x.1 < 0x1000))

section tables
variable {s t : State}

theorem State.rdBytes_of_tables (h : t.tables = s.tables) {a n : Nat} (low : a + n ≤ 0x38001000) : t.rdBytes a n = s.rdBytes a n := by
  induction n generalizing a with
  | zero => rfl
  | succ n ih =>
    have byte := congrFun (congrArg Prod.fst h) a
    simp only [State.tables, if_pos (by omega : a < 0x38001000)] at byte
    rw [State.rdBytes, byte, ih (by omega), State.rdBytes]

theorem State.pmWord_of_tables (h : t.tables = s.tables) {off : Nat} (low : off < 0x1000) : t.pmWord off = s.pmWord off := by
  rw [State.pmWord, State.rd64, State.rdBytes_of_tables h (by simp only [pmAddr, pmWordAt]; omega), State.pmWord, State.rd64]

/-- Whether a range below the spread counters is sound, the errors below them tell. -/
theorem State.pmSound_low (s : State) {off n : Nat} (low : off + n ≤ 0x1000) :
    s.pmSound off n = (s.ecc.filter fun x => decide (x.1 < 0x1000)).all fun x =>
      !x.2 || decide (x.1 + 8 ≤ off) || decide (off + n ≤ x.1) := by
  rw [State.pmSound, List.all_filter]
  refine List.all_congr rfl fun x => ?_
  by_cases lt : x.1 < 0x1000
  · simp [lt]
  · simp [lt, (by omega : off + n ≤ x.1)]

theorem State.pmSound_of_tables (h : t.tables = s.tables) {off n : Nat} (low : off + n ≤ 0x1000) : t.pmSound off n = s.pmSound off n := by
  rw [t.pmSound_low low, s.pmSound_low low]
  exact congrArg (fun l : List (Nat × Bool) => l.all _) (congrArg Prod.snd h)

theorem State.tableGen_of_tables (h : t.tables = s.tables) {k : Nat} (hk : k < 2) : t.tableGen k = s.tableGen k := by
  have range : partTableAt k + 0x288 ≤ 0x1000 := by simp only [partTableAt]; omega
  rw [State.tableGen, State.pmWord_of_tables h (by omega), State.pmSound_of_tables h range, State.tableGen]

theorem State.tableCopy_of_tables (h : t.tables = s.tables) : t.tableCopy = s.tableCopy := by
  rw [State.tableCopy, State.tableGen_of_tables h (by decide), State.tableGen_of_tables h (by decide), State.tableCopy]

theorem State.tableCopy_lt {k : Nat} (h : s.tableCopy = some k) : k < 2 := by
  unfold State.tableCopy at h
  split at h
  · split at h
    · exact Option.some.inj h ▸ Nat.one_lt_two
    · exact Option.some.inj h ▸ Nat.zero_lt_two
  · exact Option.some.inj h ▸ Nat.zero_lt_two
  · exact Option.some.inj h ▸ Nat.one_lt_two
  · exact absurd h (by simp)

theorem State.partAt_of_tables (h : t.tables = s.tables) {off i : Nat} (low : off < 0xC00) (hi : i < 16) :
    t.partAt off i = s.partAt off i := by
  have word : ∀ j < 8, t.pmWord (off + 40 * i + 8 * j) = s.pmWord (off + 40 * i + 8 * j) := fun j hj =>
    State.pmWord_of_tables h (by omega)
  simp only [State.partAt, word 0 (by decide), word 1 (by decide), word 2 (by decide), word 3 (by decide), word 4 (by decide)]

/-- What stands above the table does not change what it says. -/
theorem State.storedParts_of_tables (h : t.tables = s.tables) : t.storedParts = s.storedParts := by
  rw [State.storedParts, State.tableCopy_of_tables h, State.storedParts]
  split
  · next k copy =>
    have lt := State.tableCopy_lt copy
    exact List.map_congr_left fun i hi => State.partAt_of_tables h (by simp only [partTableAt]; omega) (List.mem_range.1 hi)
  · rfl

theorem State.tables_of_array (mem : t.mem = s.mem) (ecc : t.ecc = s.ecc) : t.tables = s.tables := by
  simp only [State.tables, State.rd8, mem, ecc]

end tables

section writes
variable (s : State)

theorem State.tables_pmProgram {off : Nat} (v : Nat) (above : 0x1000 ≤ off) (inside : off < 0x80000) :
    (s.pmProgram off v).tables = s.tables := by
  refine Prod.ext (funext fun a => ?_) ?_
  · simp only [State.tables]
    split
    · next low =>
      exact State.rd8_of_outside (own := noByte) (mem := fun b => decide (0x38001000 ≤ b))
        (State.outside_pmProgram v fun i _ => decide_eq_true (by simp only [pmAddr, pmWordAt]; omega)) (decide_eq_false (by omega))
    · rfl
  · simp only [State.tables, State.pmProgram, List.filter_filter]
    refine List.filter_congr fun x _ => ?_
    by_cases low : x.1 < 0x1000
    · have ne : (x.1 != off) = true := bne_iff_ne.2 (by omega)
      simp [ne]
    · simp [low]

theorem State.tables_setCause {b : Nat} (v : Bool) (hb : b < 10) : (s.setCause b v).tables = s.tables := by
  have later : ∀ (t : State) n, (t.pmLater 4 (0x2800 + 8 * (1 + b)) n).tables = t.tables := fun t n => by
    unfold State.pmLater
    split
    · rfl
    · exact t.tables_pmProgram n (by omega) (by omega)
  unfold State.setCause
  extract_lets word cause seen event tick
  split
  · rfl
  split
  · exact later event tick
  · rfl

theorem State.tables_counterCause (k : Nat) : (s.counterCause k).tables = s.tables := by
  unfold State.counterCause
  split
  · exact s.tables_setCause true (by decide)
  · rfl

theorem State.tables_ceCount (n : Nat) : (s.ceCount n).tables = s.tables := by
  unfold State.ceCount
  split <;> rfl

theorem State.tables_scIncrement {k : Nat} (hk : k < 32) : (s.scIncrement k).tables = s.tables := by
  unfold State.scIncrement
  split
  · rfl
  · next j v _ =>
    split
    · rfl
    · exact (State.tables_counterCause _ k).trans
        (s.tables_pmProgram _ (by simp only [scCell]; omega) (by simp only [scCell]; omega))

/-- The causes that the health record raises (R507) keep what raising each of them keeps. -/
theorem State.keeps_healthCauses {β : Type} (p : State → β) (h : ∀ (t : State) (b : Nat), b < 10 → p (t.setCause b true) = p t) :
    p s.healthCauses = p s := by
  have raised : ∀ (t : State) (on : Bool) (b : Nat), b < 10 → p (if on then t.setCause b true else t) = p t := fun t on b hb => by
    split
    · exact h t b hb
    · rfl
  unfold State.healthCauses
  extract_lets sa le can me
  exact (raised me _ 0 (by decide)).trans ((raised can _ 8 (by decide)).trans ((raised le _ 7 (by decide)).trans
    ((raised sa _ 3 (by decide)).trans (raised s _ 2 (by decide)))))

end writes

end Sys2Proof.Machine
end

section
/-! SUPPORT. What step 5 of the start, done once (R81), leaves alone: the totals' return (R327, R333 to R336) and the sealed values
(R294, R316, R536) above all. -/

namespace Sys2Proof.Machine

/-- The blocks whose registers step 5 writes. -/
abbrev step5Blocks : List Nat := [0x4000, 0x4002, 0x4008, 0x4009, 0x400E, 0x400F, 0x4010, 0x4011]

/-- The state but for what step 5 takes up: the totals, the calculators, the ports, and the array with its counts. -/
def State.hideStart (s : State) : State :=
  { s with ecc := [], pm := { s.pm with later := [], ceNow := 0 }, tot := {}, mh := {}, me := {} }

/-- What lies outside step 5. -/
def State.butStart (s : State) : State × (Nat → Word) × (Nat → Byte) := s.outside hideStart (blocks step5Blocks) inPm

section butStart
variable {s t : State}

theorem State.butStart_of_butArray (h : t.butArray = s.butArray) : t.butStart = s.butStart :=
  State.outside_mono h (fun x => { x with pm := { x.pm with ceNow := 0 }, tot := {}, mh := {}, me := {} }) (fun _ => rfl)
    (blocks_mono (by simp)) fun _ h => h

theorem State.butStart_of_butSaves (h : t.butSaves = s.butSaves) : t.butStart = s.butStart :=
  State.outside_mono h State.hideStart (fun _ => rfl)
    (fun a ha => by
      rw [List.contains_iff_mem] at ha
      rcases List.mem_pair.1 ha with rfl | rfl <;> rfl)
    fun _ h => absurd h (by simp [noByte])

/-- An operation that writes registers alone keeps, with the registers outside its blocks, everything else. -/
theorem State.butStart_of_regs (regs : t = { s with regs := t.regs }) (h : t.butShows = s.butShows) : t.butStart = s.butStart := by
  refine Prod.ext ?_ (Prod.ext (funext fun a => ?_) (funext fun a => ?_))
  · rw [regs]; rfl
  · simp only [State.butStart, State.outside]
    split
    · rfl
    · next out =>
      exact State.reg_of_outside h (Bool.eq_false_iff.2 (mt (blocks_mono (by simp) a) out))
  · rw [regs]; rfl

theorem State.butStart_withParts (h : t.butStart = s.butStart) (l : List PmPart) :
    ({ t with pm := { t.pm with parts := l } } : State).butStart = ({ s with pm := { s.pm with parts := l } } : State).butStart :=
  Prod.ext (congrArg (fun x : State => { x with pm := { x.pm with parts := l } }) (congrArg Prod.fst h) :) (congrArg Prod.snd h :)

end butStart

section operations
variable (s : State)

theorem State.butStart_setReg {a : Nat} (v : Word) (h : blocks step5Blocks a = true) : (s.setReg a v).butStart = s.butStart :=
  State.outside_setReg v h

theorem State.butStart_setFld {f : Field} (v : Nat) (h : blocks step5Blocks f.addr = true) : (s.setFld f v).butStart = s.butStart :=
  State.outside_setFld v h

theorem State.butStart_setFlag {f : Field} (b : Bool) (h : blocks step5Blocks f.addr = true) : (s.setFlag f b).butStart = s.butStart :=
  State.outside_setFlag b h

theorem State.butStart_setCalc (c : Nat) (m : MhCalc) : (s.setCalc c m).butStart = s.butStart := rfl

theorem State.butStart_mhAdd (c q x : Nat) : (s.mhAdd c q x).butStart = s.butStart := rfl

theorem State.butStart_setPort (p : Nat) (m : MePort) : (s.setPort p m).butStart = s.butStart := rfl

theorem State.butStart_withMe (x : MeSt) : ({ s with me := x } : State).butStart = s.butStart := rfl

theorem State.butStart_withTot (x : TotSt) : ({ s with tot := x } : State).butStart = s.butStart := rfl

theorem State.butStart_ceCount (n : Nat) : (s.ceCount n).butStart = s.butStart := by
  unfold State.ceCount
  split
  · rfl
  · exact s.butStart_setFld _ rfl

theorem State.butStart_scIncrement {k : Nat} (hk : k < 32) : (s.scIncrement k).butStart = s.butStart :=
  State.butStart_of_butArray (s.butArray_scIncrement hk)

theorem State.butStart_setCause {b : Nat} (v : Bool) (hb : b < 10) : (s.setCause b v).butStart = s.butStart :=
  State.butStart_of_butArray (s.butArray_setCause v hb)

theorem State.butStart_counterCause (k : Nat) : (s.counterCause k).butStart = s.butStart := by
  unfold State.counterCause
  split
  · exact s.butStart_setCause true (by decide)
  · rfl

theorem State.butStart_lcsShow : s.lcsShow.butStart = s.butStart := State.butStart_of_regs rfl s.butShows_lcsShow

theorem State.butStart_healthCauses : s.healthCauses.butStart = s.butStart :=
  s.keeps_healthCauses State.butStart fun t _ hb => t.butStart_setCause true hb

theorem State.butStart_showParts : s.showParts.butStart = s.butStart := by
  refine forN_keeps_lt State.butStart _ (fun i hi t => ?_) s
  have stat : blocks step5Blocks (PM_PART_STAT i) = true := by simp [blocks, PM_PART_STAT]; omega
  have map : blocks step5Blocks (PM_PART_MAP i) = true := by simp [blocks, PM_PART_MAP]; omega
  extract_lets p defined rights
  exact (State.butStart_setFld _ _ map).trans ((State.butStart_setFld _ _ map).trans ((State.butStart_setFlag _ _ stat).trans
    ((State.butStart_setFlag _ _ stat).trans ((State.butStart_setFlag _ _ stat).trans (State.butStart_setFlag _ _ stat)))))

theorem State.butStart_ledgerStart : s.ledgerStart.butStart = s.butStart :=
  (State.butStart_setFlag _ _ rfl).trans ((State.butStart_setFld _ _ rfl).trans (s.butStart_setFld _ rfl))

theorem State.butStart_mhViews : s.mhViews.butStart = s.butStart := by
  unfold State.mhViews
  extract_lets fields inputs
  have shown : fields.butStart = s.butStart := by
    refine forN_keeps_lt State.butStart _ (fun c hc t => ?_) s
    have cfg : blocks step5Blocks (MH_C_CFG c) = true := by simp [blocks, MH_C_CFG]; omega
    extract_lets rtds flow
    exact (State.butStart_setFld _ _ cfg).trans ((State.butStart_setFld _ _ cfg).trans ((State.butStart_setFld _ _ cfg).trans
      ((State.butStart_setFld _ _ cfg).trans ((State.butStart_setFld _ _ cfg).trans ((State.butStart_setFld _ _ cfg).trans
        ((State.butStart_setFld _ _ cfg).trans (State.butStart_setFld _ _ cfg)))))))
  have counted : inputs.butStart = fields.butStart := by
    refine forN_keeps_lt State.butStart _ (fun c _ t => ?_) fields
    split
    · exact t.butStart_setFlag _ (by simp [blocks, AON_PLS_CFG]; omega)
    · rfl
  refine (forN_keeps_lt State.butStart _ (fun n hn t => ?_) inputs).trans (counted.trans shown)
  have stat : blocks step5Blocks (ANA_RTD_STAT n) = true := by simp [blocks, ANA_RTD_STAT]; omega
  have cfg : blocks step5Blocks (ANA_RTD_CFG n) = true := by simp [blocks, ANA_RTD_CFG]; omega
  split
  · exact t.butStart_setFlag _ stat
  · exact (State.butStart_setFlag _ _ cfg).trans ((State.butStart_setFld _ _ cfg).trans ((State.butStart_setFlag _ _ cfg).trans
      (State.butStart_setFlag _ _ stat)))

theorem State.butStart_mhApply {c : Nat} (hc : c < 8) (vals : List Nat) : (s.mhApply c vals).butStart = s.butStart := by
  have fields : ∀ k < 22, blocks step5Blocks (MH_C_FIELD c k) = true := fun k hk => by simp [blocks, MH_C_FIELD]; omega
  unfold State.mhApply
  extract_lets leaves other set m applied
  have shown : set.butStart = s.butStart := forN_keeps_lt State.butStart _ (fun k hk t => t.butStart_setReg _ (fields k hk)) s
  exact (State.butStart_mhViews _).trans ((set.butStart_setCalc c _).trans shown)

theorem State.butStart_meApply {p : Nat} (hp : p < 2) (vals : List Nat) : (s.meApply p vals).butStart = s.butStart := by
  have fields : ∀ k < 47, blocks step5Blocks (ME_P_FIELD p k) = true := fun k hk => by simp [blocks, ME_P_FIELD]; omega
  have cfg : blocks step5Blocks (ME_P_CFG p) = true := by simp [blocks, ME_P_CFG]; omega
  unfold State.meApply
  extract_lets set
  have shown : set.butStart = s.butStart := forN_keeps_lt State.butStart _ (fun k hk t => t.butStart_setReg _ (fields k hk)) s
  exact (State.butStart_withMe _ _).trans ((State.butStart_setFld _ _ cfg).trans ((State.butStart_setFld _ _ cfg).trans
    ((set.butStart_setFld _ cfg).trans shown)))

theorem State.butStart_sealedLoad : s.sealedLoad.butStart = s.butStart := by
  unfold State.sealedLoad
  extract_lets calcs ports
  have calculators : calcs.butStart = s.butStart := by
    refine forN_keeps_lt State.butStart _ (fun c hc t => ?_) s
    split
    · exact t.butStart_mhApply hc _
    · rfl
  have meters : ports.butStart = calcs.butStart := by
    refine forN_keeps_lt State.butStart _ (fun p hp t => ?_) calcs
    split
    · exact t.butStart_meApply hp _
    · rfl
  exact (ports.butStart_setFlag _ rfl).trans (meters.trans calculators)

end operations

section totals
variable (s : State)

theorem State.butStart_mhShow {c : Nat} (hc : c < 8) : (s.mhShow c).butStart = s.butStart :=
  forN_keeps_lt State.butStart _ (fun q hq t => t.butStart_setReg _ (by simp [blocks, MH_C_ACC_LO]; omega)) s

theorem State.butStart_meShow {p : Nat} (hp : p < 2) : (s.meShow p).butStart = s.butStart :=
  forN_keeps_lt State.butStart _ (fun q hq t => t.butStart_setReg _ (by simp [blocks, ME_P_ACC_LO]; omega)) s

theorem State.butStart_loadCalc (a : Nat) {c : Nat} (hc : c < 8) : (s.loadCalc a c).butStart = s.butStart := by
  have stat : blocks step5Blocks (MH_C_STAT c) = true := by simp [blocks, MH_C_STAT]; omega
  have time : blocks step5Blocks (MH_C_FTIME c) = true := by simp [blocks, MH_C_FTIME]; omega
  unfold State.loadCalc
  extract_lets o st k loaded ftime shown
  exact (State.butStart_mhShow _ hc).trans ((State.butStart_setFld _ _ stat).trans ((State.butStart_setFld _ _ stat).trans
    ((State.butStart_setFld _ _ stat).trans ((loaded.butStart_setReg _ time).trans (s.butStart_setCalc c _)))))

theorem State.butStart_loadPort (a : Nat) {p : Nat} (hp : p < 2) : (s.loadPort a p).butStart = s.butStart :=
  (State.butStart_meShow _ hp).trans (s.butStart_setPort p _)

theorem State.butStart_loadTotals (a : Nat) : (s.loadTotals a).butStart = s.butStart :=
  (forN_keeps_lt State.butStart _ (fun _ hp t => t.butStart_loadPort a hp) _).trans
    (forN_keeps_lt State.butStart _ (fun _ hc t => t.butStart_loadCalc a hc) s)

theorem State.butStart_ledgerGrow (n : Nat) : (s.ledgerGrow n).butStart = s.butStart := by
  unfold State.ledgerGrow
  extract_lets held grown
  have moved : grown.butStart = s.butStart := (State.butStart_setFld _ _ rfl).trans (s.butStart_setFld _ rfl)
  split
  · exact (State.butStart_setFlag _ _ rfl).trans ((grown.butStart_setFlag _ rfl).trans moved)
  · exact moved

theorem State.butStart_mergeWrite (l : Nat) (es : List LedgerEntry) : (s.mergeWrite l es).butStart = s.butStart :=
  (State.butStart_ledgerGrow _ _).trans (State.butStart_of_butArray (s.butArray_pmProgramAll _))

theorem State.butStart_showSave : s.showSave.butStart = s.butStart := by
  unfold State.showSave
  split
  · rfl
  · exact (State.butStart_setFld _ _ rfl).trans ((State.butStart_setFld _ _ rfl).trans (s.butStart_setFld _ rfl))

theorem State.butStart_startSave (k : SaveKind) (n : Nat) : (s.startSave k n).butStart = s.butStart :=
  State.butStart_of_butSaves (s.butSaves_startSave k n)

/-- An entry added to a merge writes at most the count of lost ones (R309). -/
theorem Merge.butStart_book (m : Merge) (e : LedgerEntry) (outage : Bool) : (m.book e outage).st.butStart = m.st.butStart := by
  unfold Merge.book
  split
  · exact m.st.butStart_setFld _ rfl
  · rfl

theorem Merge.butStart_calc (t0 : Nat) (m : Merge) (c : Nat) : (m.calc t0 c).st.butStart = m.st.butStart := by
  unfold Merge.calc
  extract_lets s k now hours n counted dv volumed litres
  have read : counted.butStart = m.st.butStart := s.butStart_setCalc c _
  have flowed : volumed.butStart = m.st.butStart := (counted.butStart_mhAdd c 2 dv).trans read
  split
  · rfl
  split
  · exact (Merge.butStart_book _ _ _).trans (s.butStart_setCalc c _)
  split
  · exact read
  split
  · exact (Merge.butStart_book _ _ _).trans ((volumed.butStart_mhAdd c 5 dv).trans flowed)
  split
  · exact (Merge.butStart_book _ _ _).trans ((volumed.butStart_mhAdd c _ _).trans flowed)
  · exact (Merge.butStart_book _ _ _).trans flowed

theorem Merge.butStart_unsaved (m : Merge) (a : Nat) : (m.unsaved a).st.butStart = m.st.butStart := by
  unfold Merge.unsaved
  split
  next lower upper _ =>
  extract_lets calcs
  refine (foldl_keeps (fun m : Merge => m.st.butStart) _ (fun p _ m => ?_) _).trans
    (foldl_keeps (fun m : Merge => m.st.butStart) _ (fun c _ m => ?_) m)
  all_goals
    split
    · exact m.butStart_book _ _
    · rfl

/-- The totals' return writes the array, its counters and the registers of the totals (R327, R333 to R336). -/
theorem State.butStart_returnTotals : s.returnTotals.butStart = s.butStart := by
  unfold State.returnTotals
  split
  · extract_lets lost
    have noted : lost.butStart = s.butStart := by
      unfold lost
      split
      · exact s.butStart_setFld _ rfl
      · rfl
    split
    · exact (State.butStart_withTot _ _).trans ((lost.butStart_setFld _ rfl).trans noted)
    · exact (State.butStart_startSave _ _ _).trans ((lost.butStart_withTot _).trans noted)
  · next a _ =>
    extract_lets counted totals tot loaded t0 unsaved merged bounded lreq written flags area calcs
    have count : counted.butStart = s.butStart := by
      unfold counted
      split
      · rfl
      · exact s.butStart_scIncrement (by decide)
    have load : loaded.butStart = s.butStart := by
      unfold loaded
      rw [State.butStart_withTot, State.butStart_setFld _ _ rfl, State.butStart_loadTotals, count]
    have merge : merged.st.butStart = loaded.butStart :=
      foldl_keeps (fun m : Merge => m.st.butStart) _ (fun c _ m => m.butStart_calc t0 c) _
    have bound : bounded.st.butStart = merged.st.butStart := by
      unfold bounded
      split
      · exact merged.butStart_unsaved a
      · rfl
    have write : written.butStart = s.butStart := (State.butStart_mergeWrite _ _ _).trans (bound.trans (merge.trans load))
    have shown : area.butStart = s.butStart :=
      (State.butStart_showSave _).trans ((State.butStart_setFld _ _ rfl).trans ((State.butStart_setFlag _ _ rfl).trans
        ((written.butStart_setFlag _ rfl).trans write)))
    have accs : calcs.butStart = area.butStart := forN_keeps_lt State.butStart _ (fun _ hc t => t.butStart_mhShow hc) area
    exact (calcs.butStart_startSave _ _).trans (accs.trans shown)

end totals

end Sys2Proof.Machine
end

section
/-! SUPPORT. Step 5 of the start as one step, and the clauses of the steward's start (R65, R81, R82, R454, R506). -/

namespace Sys2Proof.Machine

section step5
variable (s : State)

/-- Step 5 up to the partition table: the counts and the health. -/
def State.step5Counted : State :=
  (forN (fun k s => (s.scShow k).counterCause k) 32 ((s.ceCount (s.pmSoft 0 0x40000)).scIncrement 3)).lcsShow.healthCauses

/-- Step 5 up to the palette read. -/
def State.step5Taken : State :=
  let t : State := { s.step5Counted with pm := { s.step5Counted.pm with parts := s.step5Counted.storedParts } }
  t.showParts.ledgerStart.sealedLoad.returnTotals

theorem State.pmAnswers_eq : s.pmAnswers = (s.step5Taken.setBoot { s.step5Taken.boot with read := true }).readStart := by
  simp only [State.pmAnswers, State.step5Taken, State.step5Counted]

theorem State.butStart_step5Counted : s.step5Counted.butStart = s.butStart := by
  have shows : ∀ k < 32, ∀ t : State, ((t.scShow k).counterCause k).butStart = t.butStart := fun k hk t =>
    (State.butStart_counterCause _ k).trans (State.butStart_of_butArray (t.butArray_scShow hk))
  rw [State.step5Counted, State.butStart_healthCauses, State.butStart_lcsShow, forN_keeps_lt State.butStart _ shows,
    State.butStart_scIncrement _ (by decide), State.butStart_ceCount]

/-- The counts and the health leave the stored table. -/
theorem State.storedParts_step5Counted : s.step5Counted.storedParts = s.storedParts := by
  have shows : ∀ k < 32, ∀ t : State, ((t.scShow k).counterCause k).tables = t.tables := fun k _ t =>
    (State.tables_counterCause _ k).trans (State.tables_of_array rfl rfl)
  have lcs : ∀ t : State, t.lcsShow.tables = t.tables := fun t => State.tables_of_array rfl rfl
  refine State.storedParts_of_tables ?_
  rw [State.step5Counted, State.keeps_healthCauses _ State.tables fun t _ hb => t.tables_setCause true hb, lcs,
    forN_keeps_lt State.tables _ shows, State.tables_scIncrement _ (by decide), State.tables_ceCount]

/-- Step 5 takes the stored table into use; beside it, it writes its own blocks and the array. -/
theorem State.butStart_step5Taken :
    s.step5Taken.butStart = ({ s with pm := { s.pm with parts := s.storedParts } } : State).butStart := by
  rw [State.step5Taken, State.butStart_returnTotals, State.butStart_sealedLoad, State.butStart_ledgerStart, State.butStart_showParts,
    s.storedParts_step5Counted]
  exact State.butStart_withParts s.butStart_step5Counted s.storedParts

/-- The steward turns to a slot, to the ground configuration, or waits for the end of PF_WARN (R82, R83, R86). -/
theorem State.readStart_updates : ∃ v b, s.readStart = (s.setReg SYS_BOOT_SEL v).setBoot b ∧ b.read = s.boot.read
    ∧ (b.step = 5 ∨ b.step = 6 ∨ b.step = 9) := by
  unfold State.readStart
  extract_lets r sel
  split
  · exact ⟨_, _, rfl, rfl, .inl rfl⟩
  split
  · exact ⟨_, _, rfl, rfl, .inr (.inr rfl)⟩
  · exact ⟨_, _, rfl, rfl, .inr (.inl rfl)⟩

end step5

/-- What the statement on the steward's start says of a state `t` in which step 5 has been done. -/
def Step5Done (s t : State) : Prop :=
  t.boot.read = true ∧ (t.boot.step = 5 ∨ t.boot.step = 6 ∨ t.boot.step = 9) ∧ t.pm.parts = s.storedParts
    ∧ KeepsBlocks s t step5Blocks ∧ KeepsMemButPm s t
    ∧ KeepsRest s { t with boot := s.boot, pm := s.pm, tot := s.tot, mh := s.mh, me := s.me }

/-- Step 5 after registers of its blocks have been written and the steward has noted where it stands. -/
theorem Step5Done.pmAnswers {s u : State} (apart : ∃ r b, u = { s with regs := r, boot := b })
    (regs : ∀ a, blocks step5Blocks a = false → u.reg a = s.reg a) : Step5Done s u.pmAnswers.intcLatch := by
  obtain ⟨r, b, rfl⟩ := apart
  generalize hu : ({ s with regs := r, boot := b } : State) = u at regs
  have kept := u.butStart_step5Taken
  obtain ⟨v, b', started, read, step⟩ := (u.step5Taken.setBoot { u.step5Taken.boot with read := true }).readStart_updates
  obtain ⟨r', d, latch⟩ := u.pmAnswers.intcLatch_updates
  have hidden := State.hide_of_outside kept
  have stored : u.storedParts = s.storedParts := State.storedParts_of_tables (hu ▸ State.tables_of_array rfl rfl)
  rw [State.pmAnswers_eq, started] at latch ⊢
  clear started
  generalize u.step5Taken = w at kept hidden latch read ⊢
  refine ⟨?read, ?step, ?parts, fun a ha hp => ?regs, KeepsMemOut.intcLatch ⟨fun a ha => ?mem, fun x hx => ?ecc⟩, ?rest⟩
  case read => rw [State.intcLatch_boot]; exact read
  case step => rw [State.intcLatch_boot]; exact step
  case parts =>
    rw [State.intcLatch_pm, ← stored]
    exact (congrArg (fun x : State => x.pm.parts) hidden :)
  case regs =>
    have out : blocks step5Blocks a = false := Bool.eq_false_iff.2 (by simpa [blocks] using ha)
    have sel : a ≠ SYS_BOOT_SEL := fun h => ha (by rw [h]; decide)
    have back : ((w.setReg SYS_BOOT_SEL v).setBoot b').reg a = w.reg a := w.reg_setReg_ne _ _ _ sel
    rw [State.reg_intcLatch_ne _ _ hp]
    exact back.trans ((State.reg_of_outside kept out).trans (regs a out))
  case mem =>
    refine (State.rd8_of_outside kept (inPm_of_outside ha)).trans ?_
    rw [← hu]
    rfl
  case ecc => simp only [pmAddr] at hx; omega
  case rest =>
    rw [latch]
    subst hu
    exact (congrArg (fun x : State =>
      { x with regs := s.regs, mem := s.mem, ecc := s.ecc, boot := s.boot, pm := s.pm, tot := s.tot, mh := s.mh, me := s.me,
               cp := { x.cp with dioReq := s.cp.dioReq } }) hidden :)

section journal
variable (s : State)

/-- What the completion of the journals leaves alone (R438, R454): all but their own registers, the array and the reads corrected. -/
def State.butJournal (s : State) : State × (Nat → Word) × (Nat → Byte) :=
  s.outside (fun s => { s with ecc := [], pm := { s.pm with ceNow := 0 } }) [PM_JRNL, PM_ECC].contains inPm

theorem State.butJournal_setFld {f : Field} (v : Nat) (h : [PM_JRNL, PM_ECC].contains f.addr = true) :
    (s.setFld f v).butJournal = s.butJournal := State.outside_setFld v h

theorem State.butJournal_withEcc (l : List (Nat × Bool)) : ({ s with ecc := l } : State).butJournal = s.butJournal := rfl

theorem State.butJournal_pmProgram (off v : Nat) : (s.pmProgram off v).butJournal = s.butJournal := by
  rw [State.pmProgram, State.butJournal_withEcc]
  exact State.outside_wrBytes fun i hi => inPm_pmWord off (by rwa [length_toBytes] at hi)

theorem State.butJournal_pmProgramAll (l : List (Nat × Nat)) : (s.pmProgramAll l).butJournal = s.butJournal := by
  induction l generalizing s with
  | nil => rfl
  | cons w l ih => exact (ih (s.pmProgram w.1 w.2)).trans (s.butJournal_pmProgram w.1 w.2)

theorem State.butJournal_ceCount (n : Nat) : (s.ceCount n).butJournal = s.butJournal := by
  unfold State.ceCount
  split
  · rfl
  · exact s.butJournal_setFld _ rfl

theorem State.butJournal_journalPart (p : PmPart) : (s.journalPart p).butJournal = s.butJournal := by
  unfold State.journalPart
  split
  · rfl
  extract_lets ctl home words completed read
  split
  · rw [State.butJournal_setFld _ _ rfl, State.butJournal_pmProgram, State.butJournal_pmProgramAll, State.butJournal_ceCount]
  · rw [State.butJournal_setFld _ _ rfl, State.butJournal_pmProgram, State.butJournal_ceCount]

theorem State.butJournal_journalCompletion : s.journalCompletion.butJournal = s.butJournal := by
  rw [State.journalCompletion, foldl_keeps State.butJournal _ fun p _ x => x.butJournal_journalPart p, State.butJournal_setFld _ _ rfl,
    State.butJournal_setFld _ _ rfl]

end journal

section clauses
variable {s : State}

/-- The HFXO is stable (R65). -/
theorem Runs.hfxoStable (at_ : s.boot.step = 1) : Runs .hfxoStable s fun t =>
    t.boot = { s.boot with step := 2 } ∧ t.flag SYS_CLK_STAT.HFXO_ON = true ∧ KeepsRegs s t [SYS_CLK_STAT] ∧ KeepsMem s t
    ∧ KeepsRest s { t with boot := s.boot } := by
  let u := (s.setFlag SYS_CLK_STAT.HFXO_ON true).setBoot { s.boot with step := 2 }
  obtain ⟨r, d, latch⟩ := u.intcLatch_updates
  refine Runs.of_out (u := u) (congrArg State.out (if_pos at_)) ⟨State.intcLatch_boot u, ?on,
    KeepsRegs.intcLatch fun a ha _ => s.reg_setFlag_ne _ _ _ (by simpa using ha), KeepsMem.intcLatch ⟨rfl, fun _ => rfl⟩, ?rest⟩
  case on => exact (State.flag_latched (by decide)).trans (s.flag_setFlag_self _ _ rfl (by decide))
  case rest =>
    rw [latch]
    rfl

/-- The PLL has locked, and the journals are completed (R81, R454). -/
theorem Runs.coreReady (at_ : s.boot.step = 2) (on : s.pwr.stall = false) : Runs .coreReady s fun t =>
    t.boot = { s.boot with step := 3 } ∧ t.flag SYS_CLK_STAT.PLL_LOCK = true ∧ KeepsRegs s t [SYS_CLK_STAT, PM_JRNL, PM_ECC]
    ∧ KeepsMemButPm s t ∧ KeepsRest s { t with boot := s.boot, pm := { t.pm with ceNow := s.pm.ceNow } } := by
  let u := s.setFlag SYS_CLK_STAT.PLL_LOCK true
  have locked : exec .coreReady s = (u.journalCompletion.setBoot { s.boot with step := 3 }).out :=
    congrArg State.out (if_pos ⟨at_, by simp [on]⟩)
  have kept := u.butJournal_journalCompletion
  generalize u.journalCompletion = v at kept locked
  obtain ⟨r, d, latch⟩ := (v.setBoot { s.boot with step := 3 }).intcLatch_updates
  refine Runs.of_out locked ⟨State.intcLatch_boot _, ?lock, KeepsRegs.intcLatch fun a ha _ => ?regs,
    KeepsMemOut.intcLatch ⟨fun a ha => State.rd8_of_outside kept (inPm_of_outside ha), fun x hx => ?ecc⟩, ?rest⟩
  case lock =>
    have shown : v.reg SYS_CLK_STAT = u.reg SYS_CLK_STAT := State.reg_of_outside kept (by decide)
    refine (State.flag_latched (by decide)).trans (.trans ?_ (s.flag_setFlag_self SYS_CLK_STAT.PLL_LOCK true rfl (by decide)))
    exact congrArg (fun w : Word => bits w.toNat 1 1 == 1) shown
  case regs =>
    rw [List.mem_cons, not_or] at ha
    obtain ⟨clk, own⟩ := ha
    exact (State.reg_of_outside kept (by simpa using own)).trans (s.reg_setFlag_ne _ _ _ clk)
  case ecc => simp only [pmAddr] at hx; omega
  case rest =>
    rw [latch]
    exact (congrArg (fun x : State =>
      { x with regs := s.regs, mem := s.mem, ecc := s.ecc, boot := s.boot, pm := { x.pm with ceNow := s.pm.ceNow },
               cp := { x.cp with dioReq := s.cp.dioReq } }) (State.hide_of_outside kept) :)

end clauses

section bootTest
variable (s : State)

/-- The result of the boot test shown in LCS_HEALTH, with its cause (R506, R507). -/
def State.testShown (pass : Bool) : State := (s.setFlag LCS_HEALTH.CPBOOT (!pass)).setCause 9 (!pass)

theorem State.reg_testShown (pass : Bool) {a : Nat} (h : a ∉ LCS_HEALTH :: causeRegs 9) : (s.testShown pass).reg a = s.reg a := by
  rw [List.mem_cons, not_or] at h
  obtain ⟨health, cause⟩ := h
  exact (State.reg_of_outside (State.outside_setCause_causeRegs _ (!pass) (by decide)) (by simpa using cause)).trans
    (s.reg_setFlag_ne _ _ _ health)

theorem State.cpboot_testShown (pass : Bool) : (s.testShown pass).flag LCS_HEALTH.CPBOOT = !pass := by
  have shown : (s.testShown pass).reg LCS_HEALTH = (s.setFlag LCS_HEALTH.CPBOOT (!pass)).reg LCS_HEALTH :=
    State.reg_of_outside (State.outside_setCause_causeRegs _ (!pass) (by decide)) (by decide)
  rw [State.flag, State.fld, shown]
  exact s.flag_setFlag_self _ _ rfl (by decide)

/-- A cause that clears shows in registers alone. -/
theorem State.setCause_false (b : Nat) : s.setCause b false = { s with regs := (s.setCause b false).regs } := by
  unfold State.setCause
  extract_lets word cause seen event tick
  split <;> rfl

theorem State.testShown_pass : s.testShown true = { s with regs := (s.testShown true).regs } :=
  (s.setFlag LCS_HEALTH.CPBOOT false).setCause_false 9

/-- A boot test that has passed. -/
def State.testPassed : State := (s.testShown true).setBoot { (s.testShown true).boot with tested := true }

theorem State.testPassed_eq :
    s.testPassed = { s with regs := (s.testShown true).regs, boot := { s.boot with tested := true } } := by
  rw [State.testPassed, s.testShown_pass]
  rfl

theorem State.reg_testPassed (a : Nat) : s.testPassed.reg a = (s.testShown true).reg a := rfl

variable {s} (at_ : s.boot.step = 3) (untested : s.boot.tested = false)
include at_ untested

theorem exec_bootTestEnd_fail : exec (.bootTestEnd false) s =
    ((s.testShown false).setBoot { (s.testShown false).boot with step := 4, tested := true }).out :=
  congrArg State.out (if_neg (by simp [at_, untested]))

/-- A boot test that passes goes on with step 5 where the parameter memory answers. -/
theorem exec_bootTestEnd_pass :
    exec (.bootTestEnd true) s = (if s.flag PM_STAT.READY then s.testPassed.pmAnswers else s.testPassed).out := by
  have ready : s.testPassed.flag PM_STAT.READY = s.flag PM_STAT.READY := by
    rw [State.flag, State.fld, s.reg_testPassed, s.reg_testShown true (by decide), State.flag, State.fld]
  have passes : exec (.bootTestEnd true) s =
      (if s.testPassed.flag PM_STAT.READY then s.testPassed.pmAnswers else s.testPassed).out :=
    congrArg State.out (if_neg (by simp [at_, untested]))
  rw [passes, ready]

theorem Runs.bootTest_fail : Runs (.bootTestEnd false) s fun t =>
    t.boot = { s.boot with step := 4, tested := true } ∧ t.flag LCS_HEALTH.CPBOOT = true
    ∧ KeepsRegs s t (LCS_HEALTH :: causeRegs 9) ∧ KeepsMemOut s t 0x38002850 8
    ∧ KeepsRest s { t with boot := s.boot, pm := { t.pm with later := s.pm.later } } := by
  have frame := (s.setFlag LCS_HEALTH.CPBOOT true).outside_setCause_causeRegs (b := 9) true (by decide)
  have hidden := State.hide_of_outside frame
  obtain ⟨r, d, latch⟩ := ((s.testShown false).setBoot { (s.testShown false).boot with step := 4, tested := true }).intcLatch_updates
  refine Runs.of_out (exec_bootTestEnd_fail at_ untested) ⟨?boot, (State.flag_latched (by decide)).trans (s.cpboot_testShown false),
    KeepsRegs.intcLatch fun a ha _ => s.reg_testShown false ha,
    KeepsMemOut.intcLatch (KeepsMemOut.setCause (s.setFlag LCS_HEALTH.CPBOOT true) (b := 9) true (by decide)), ?rest⟩
  case boot =>
    have stays : (s.testShown false).boot = s.boot := (congrArg State.boot hidden :)
    rw [State.intcLatch_boot, stays]
    rfl
  case rest =>
    rw [latch]
    exact (congrArg (fun x : State =>
      { x with regs := s.regs, mem := s.mem, ecc := s.ecc, boot := s.boot, pm := { x.pm with later := s.pm.later },
               cp := { x.cp with dioReq := s.cp.dioReq } }) hidden :)

theorem Runs.bootTest_waits (off : s.flag PM_STAT.READY = false) : Runs (.bootTestEnd true) s fun t =>
    t.boot = { s.boot with tested := true } ∧ t.flag LCS_HEALTH.CPBOOT = false
    ∧ KeepsRegs s t (LCS_HEALTH :: causeRegs 9) ∧ KeepsMem s t ∧ KeepsRest s { t with boot := s.boot } := by
  have waits : exec (.bootTestEnd true) s = s.testPassed.out := by
    rw [exec_bootTestEnd_pass at_ untested, off, if_neg Bool.false_ne_true]
  obtain ⟨r, d, latch⟩ := s.testPassed.intcLatch_updates
  refine Runs.of_out waits ⟨by rw [State.intcLatch_boot, s.testPassed_eq], ?flag,
    KeepsRegs.intcLatch fun a ha _ => (s.reg_testPassed a).trans (s.reg_testShown true ha),
    KeepsMem.intcLatch (by rw [s.testPassed_eq]; exact ⟨rfl, fun _ => rfl⟩), ?rest⟩
  case flag =>
    refine (State.flag_latched (by decide)).trans (.trans ?_ (s.cpboot_testShown true))
    rw [State.flag, State.fld, s.reg_testPassed, State.flag, State.fld]
  case rest =>
    rw [latch, s.testPassed_eq]
    rfl

theorem Runs.bootTest_answered (on : s.flag PM_STAT.READY = true) : Runs (.bootTestEnd true) s (Step5Done s) := by
  have answers : exec (.bootTestEnd true) s = s.testPassed.pmAnswers.out := by
    rw [exec_bootTestEnd_pass at_ untested, on, if_pos rfl]
  have own : ∀ b ∈ LCS_HEALTH :: causeRegs 9, blocks step5Blocks b = true := by decide
  refine Runs.of_out answers (Step5Done.pmAnswers ⟨_, _, s.testPassed_eq⟩ fun a ha => ?_)
  exact (s.reg_testPassed a).trans (s.reg_testShown true fun mem => by simp [own a mem] at ha)

end bootTest

section pmReady
variable {s : State} (at_ : s.boot.step = 3) (off : s.flag PM_STAT.READY = false)
include at_ off

/-- The parameter memory answers, and where the boot test has ended step 5 follows (R81, R455). -/
theorem exec_pmReady : exec .pmReady s =
    (if s.boot.tested then (s.setFlag PM_STAT.READY true).pmAnswers else s.setFlag PM_STAT.READY true).out :=
  congrArg State.out (if_neg (by simp [at_, off]))

theorem Runs.pmReady_waits (untested : s.boot.tested = false) : Runs .pmReady s fun t =>
    t.flag PM_STAT.READY = true ∧ OnlyRegs s t [PM_STAT] := by
  refine Runs.of_out (exec_pmReady at_ off) ?_
  rw [untested, if_neg Bool.false_ne_true]
  exact ⟨(State.flag_latched (by decide)).trans (s.flag_setFlag_self _ _ rfl (by decide)), (OnlyRegs.setReg s _ _).intcLatch⟩

theorem Runs.pmReady_answers (tested : s.boot.tested = true) : Runs .pmReady s (Step5Done s) := by
  refine Runs.of_out (exec_pmReady at_ off) ?_
  rw [tested, if_pos rfl]
  exact Step5Done.pmAnswers ⟨_, _, rfl⟩ fun a ha => s.reg_setFlag_ne _ _ _ fun same => absurd (same ▸ ha) (by decide)

end pmReady

/-- Settles O13: each of the steward's events is one update, and step 5 keeps what lies outside the units it takes up. The stored
partition table it puts into use is the one at the start, as the counts and the health are written above it. -/
theorem stewardStarts : Obligations.StewardStarts := by
  unfold Obligations.StewardStarts
  exact ⟨fun s => Runs.hfxoStable, fun s => Runs.coreReady, fun s => Runs.bootTest_fail, fun s => Runs.bootTest_waits,
    fun s => Runs.bootTest_answered, fun s at_ untested off => Runs.pmReady_waits at_ off untested,
    fun s at_ tested off => Runs.pmReady_answers at_ off tested⟩

end Sys2Proof.Machine
end

section
/-! SUPPORT. FETCH_ATTEST while a start-up self-test of the vault has failed (R477, R479): the node refuses it. -/

namespace Sys2Proof.Machine

theorem State.asksClear.unsealed {s : State} {c e n : Nat} {q : WayReq} (asks : s.asksClear c e n q) : q.sec = false := by
  obtain ⟨-, clear, -⟩ := asks
  rw [WayReq.sec, clear]
  rfl

/-- A request in clear that software owns is served with its body (R367, R368). -/
theorem State.wayService_asksClear {s : State} {c e n : Nat} {q : WayReq} (asks : s.asksClear c e n q) {mine : Nat → Bool}
    (takes : mine n = true) : s.wayService mine c e = s.wayRun q (q.rec_.drop 12) := by
  have unsealed := asks.unsealed
  obtain ⟨⟨entry, serves, service, length, target, version, status⟩, clear, seq⟩ := asks
  have own : q.num 4 2 % 2 ^ 13 = s.nodeId := by
    rw [target]
    exact Nat.mod_eq_of_lt (Nat.mod_lt _ (by decide))
  have inRange : q.num 4 2 < 8192 := target ▸ Nat.mod_lt _ (by decide)
  have wellFormed : ¬ (q.num 0 1 ≠ 1 ∨ 1 < q.num 2 1 ∨ q.num 3 1 ≠ 0 ∨ 2 ^ 13 ≤ q.num 4 2 ∨ (!q.sec ∧ q.seq ≠ 0)) := by
    simp [version, clear, status, seq, inRange]
  simp only [State.wayService, entry, serves, service, takes, Bool.and_self, if_true, State.wayServe]
  rw [if_neg (by rw [not_or]; exact ⟨by omega, not_not.2 own⟩), if_neg wellFormed, unsealed]
  rfl

/-- FETCH_ATTEST goes to the vault, with firmware running or not (R99, R369). -/
theorem State.wayRun_fetchAttest (s : State) {q : WayReq} {b : List Byte} (service : q.service = 7) (long : 36 ≤ b.length) :
    s.wayRun q b = s.wayAttest q b := by
  have fits : ¬ b.length < serviceLen 7 := Nat.not_lt.2 long
  simp [State.wayRun, service, groundServices, serviceRight, fits]

/-- With a failed self-test no attestation is made (R477, R479, R487). -/
theorem State.wayAttest_untested {s : State} (root : s.zeroed = false) (failed : s.untested = true) (q : WayReq) (b : List Byte) :
    s.wayAttest q b = s.wayAnswer q Code.refusedSelftest [] := by
  simp [State.wayAttest, root, failed]

/-- A response in clear takes no open value. -/
theorem State.free_wayClear (s : State) (q : WayReq) (status : Nat) (body : List Byte) : (s.wayClear q status body).free = s.free := by
  unfold State.wayClear State.waySend State.handMsg
  extract_lets
  split <;> rfl

/-- FETCH_ATTEST is answered with REFUSED_SELFTEST while a self-test has failed (R479). -/
theorem exec_reqFetchAttest_untested {s : State} {c : Fin 10} {e : Fin 512} {q : WayReq} (asks : s.asksClear c e 7 q)
    (long : 48 ≤ q.rec_.length) (root : s.zeroed = false) (failed : s.untested = true) :
    exec (.reqFetchAttest c e) s = (s.wayClear q Code.refusedSelftest []).out := by
  obtain ⟨⟨-, -, service, -⟩, -, -⟩ := id asks
  have body : 36 ≤ (q.rec_.drop 12).length := by rw [List.length_drop]; omega
  refine congrArg State.out ?_
  rw [State.wayService_asksClear asks rfl, s.wayRun_fetchAttest service body, State.wayAttest_untested root failed, State.wayAnswer,
    asks.unsealed, if_neg Bool.false_ne_true]

/-- FETCH_ATTEST with a nonce of zeros and offset 0, from channel 0 (R368, R487). -/
def attestRequest : WayReq := ⟨0, [1, 7, 0, 0, 0xFF, 0x1F, 0, 0, 0, 0, 0, 0] ++ List.replicate 36 0, []⟩

/-- A started node whose self-tests have ended with a failure, and whose caravan queue of channel 0 holds that request in its first
entry: queues of four entries, one owned; entries at 0x31010000, contexts at 0x31030000. -/
def attestAsked : State :=
  let s := ({ boot := { step := 10 } } : State).setFlag VLT_STAT.ST_DONE true |>.setFlag VLT_STAT.ST_FAIL true
  let s := (s.setFld (busField 0 0x1C 31 23) 4).setFld (busField 0 0x38 28 16) 1 |>.setFld (busField 0 0x38 12 0) 1
  let s := (s.setFld (busField 0 0x28 31 0) 0x31010000).setFld (busField 0 0x24 31 0) 0x31030000
  ((s.wr32 0x31010000 (4 * 2 ^ 20)).wr32 0x31010008 attestRequest.rec_.length).wrBytes 0x31030000 attestRequest.rec_

theorem attestAsked_asks : attestAsked.asksClear (0 : Fin 10) (0 : Fin 512) 7 attestRequest := by
  unfold State.asksClear State.asks
  decide +kernel

/-- Refutes O43: in its clause on FETCH_ATTEST no premise says that the self-tests have passed (R477, R479). In `attestAsked` they have
ended, with ST_FAIL set: the node answers REFUSED_SELFTEST and takes no open value, where the clause has one taken for the signature.
The clause on OPEN lacks the same premise. -/
theorem not_waystationInClear : ¬ Obligations.WaystationInClear := by
  unfold Obligations.WaystationInClear
  rintro ⟨-, -, -, -, fetchAttest, -, -⟩
  have long : 48 ≤ attestRequest.rec_.length := by decide +kernel
  have root : attestAsked.zeroed = false := by decide +kernel
  have failed : attestAsked.untested = true := by decide +kernel
  obtain ⟨t, run, -, taken, -⟩ :=
    fetchAttest attestAsked 0 0 _ attestAsked_asks long root (by decide +kernel) (by decide +kernel)
  rw [exec_reqFetchAttest_untested attestAsked_asks long root failed, State.out_next] at run
  have kept : t.free = attestAsked.free := by rw [run, State.intcLatch_free, State.free_wayClear]
  omega

end Sys2Proof.Machine
end

section
/-! SUPPORT. The steward's slots, the boot record and the counters of versions (R83, R85, R88, R103, R484). -/

namespace Sys2Proof.Machine

theorem OnlyRegs.setFld (s : State) (f : Field) (v : Nat) : OnlyRegs s (s.setFld f v) [f.addr] := .setReg s _ _

theorem OnlyRegs.setFlag (s : State) (f : Field) (b : Bool) : OnlyRegs s (s.setFlag f b) [f.addr] := .setReg s _ _

/-- Where registers alone have changed and the steward moves on, everything else is kept. -/
theorem OnlyRegs.setBoot {s u : State} {l : List Nat} (h : OnlyRegs s u l) (b : BootSt) :
    let t := (u.setBoot b).intcLatch
    KeepsRegs s t l ∧ KeepsMem s t ∧ KeepsRest s { t with boot := s.boot } := by
  obtain ⟨regs, mem, rest⟩ := h
  obtain ⟨r, d, latch⟩ := (u.setBoot b).intcLatch_updates
  refine ⟨KeepsRegs.intcLatch fun a ha hp => (regs a ha hp :), KeepsMem.intcLatch (mem :), ?_⟩
  rw [latch]
  exact (congrArg (fun x : State => { x with boot := s.boot }) rest :)

section slots
variable (s : State)

theorem State.boot_palCode (k code : Nat) : (s.palCode k code).boot = s.boot := by
  unfold State.palCode
  split <;> rfl

theorem OnlyRegs.palCode (k code : Nat) : OnlyRegs s (s.palCode k code) [SYS_PAL_STAT] := by
  unfold State.palCode
  split
  exacts [.setFld s _ _, .setFld s _ _]

theorem State.fld_palCode (k : Nat) {code : Nat} (h : code < 256) :
    (s.palCode k code).fld (if k = 0 then SYS_PAL_STAT.A_CODE else SYS_PAL_STAT.B_CODE) = code := by
  unfold State.palCode
  split
  · exact (State.fld_setFld_self _ _ _ (by decide) (by decide)).trans (Nat.mod_eq_of_lt h)
  · exact (State.fld_setFld_self _ _ _ (by decide) (by decide)).trans (Nat.mod_eq_of_lt h)

/-- The entry of the condition report on the slot refused (R96). -/
def State.refusal (code : Nat) : Nat × RptEntry :=
  (0, ⟨0, s.boot.slot, 0xFFFF, code, if code = Code.refusedAuth then s.flashNum s.boot.slot 0x10 4 else 0, 0⟩)

/-- What the steward goes on with after a refusal: the other slot, or the ground configuration (R83, R85). -/
def State.afterRefusal (code : Nat) : BootSt :=
  if s.boot.second then { s.boot with step := 9, slotUsed := none, result := {}, report := s.boot.report ++ [s.refusal code] }
  else { s.boot with step := 6, slot := 1 - s.boot.slot, second := true, report := s.boot.report ++ [s.refusal code] }

theorem State.palRefuse_eq (code : Nat) : s.palRefuse code = (s.palCode s.boot.slot code).setBoot (s.afterRefusal code) := by
  simp only [State.palRefuse, State.report, State.place, State.afterRefusal, State.refusal, State.boot_palCode, if_true]
  split <;> rfl

theorem exec_qspiIdentTimeout (at_ : s.boot.step = 6) :
    exec .qspiIdentTimeout s = ((s.palCode s.boot.slot Code.format).setBoot (s.afterRefusal Code.format)).out := by
  rw [← s.palRefuse_eq]
  exact congrArg State.out (if_pos at_)

theorem Runs.qspiIdentTimeout_first (at_ : s.boot.step = 6) (first : s.boot.second = false) : Runs .qspiIdentTimeout s fun t =>
    t.boot = { s.boot with step := 6, slot := 1 - s.boot.slot, second := true,
                           report := s.boot.report ++ [(0, ⟨0, s.boot.slot, 0xFFFF, Code.format, 0, 0⟩)] }
    ∧ t.fld (if s.boot.slot = 0 then SYS_PAL_STAT.A_CODE else SYS_PAL_STAT.B_CODE) = Code.format
    ∧ KeepsRegs s t [SYS_PAL_STAT] ∧ KeepsMem s t ∧ KeepsRest s { t with boot := s.boot } := by
  refine Runs.of_out (exec_qspiIdentTimeout s at_) ⟨?boot, ?code, (OnlyRegs.palCode s _ _).setBoot _⟩
  case boot =>
    rw [State.intcLatch_boot]
    exact if_neg (by simp [first])
  case code =>
    rw [State.fld_intcLatch _ _ (by split <;> decide)]
    exact s.fld_palCode _ (by decide)

theorem Runs.qspiIdentTimeout_second (at_ : s.boot.step = 6) (second : s.boot.second = true) : Runs .qspiIdentTimeout s fun t =>
    t.boot.step = 9 ∧ t.boot.slotUsed = none
    ∧ KeepsRegs s t [SYS_PAL_STAT] ∧ KeepsMem s t ∧ KeepsRest s { t with boot := s.boot } := by
  have ground : s.afterRefusal Code.format = _ := if_pos second
  refine Runs.of_out (exec_qspiIdentTimeout s at_) ⟨?step, ?used, (OnlyRegs.palCode s _ _).setBoot _⟩
  · rw [State.intcLatch_boot, ground]; rfl
  · rw [State.intcLatch_boot, ground]; rfl

theorem Runs.paletteReadEnd (at_ : s.boot.step = 6) : Runs .paletteReadEnd s fun t =>
    t.boot = { s.boot with step := 7 } ∧ KeepsRegs s t [] ∧ KeepsMem s t ∧ KeepsRest s { t with boot := s.boot } :=
  Runs.of_out (congrArg State.out (if_pos at_)) ⟨State.intcLatch_boot _, (OnlyRegs.refl s []).setBoot _⟩

theorem Runs.signatureVerified (at_ : s.boot.step = 7) (done : s.flag VLT_STAT.ST_DONE = true) : Runs .signatureVerified s fun t =>
    (s.palCheck s.boot.slot = Code.ok →
      t.boot = { s.boot with step := 9, slotUsed := some s.boot.slot, result := s.palParse s.boot.slot })
    ∧ (s.palCheck s.boot.slot ≠ Code.ok → t.boot.slotUsed = (if s.boot.second then none else s.boot.slotUsed)
      ∧ t.boot.step = if s.boot.second then 9 else 6)
    ∧ KeepsRegs s t [SYS_PAL_STAT] ∧ KeepsMem s t ∧ KeepsRest s { t with boot := s.boot } := by
  have due : ¬ (s.boot.step ≠ 7 ∨ !s.flag VLT_STAT.ST_DONE) := by simp [at_, done]
  by_cases ok : s.palCheck s.boot.slot = Code.ok
  · have answer : exec .signatureVerified s = ((s.palCode s.boot.slot Code.ok).setBoot
        { s.boot with step := 9, slotUsed := some s.boot.slot, result := s.palParse s.boot.slot }).out :=
      congrArg State.out ((if_neg due).trans (if_neg (not_not.2 ok)))
    exact Runs.of_out answer ⟨fun _ => State.intcLatch_boot _, fun bad => absurd ok bad, (OnlyRegs.palCode s _ _).setBoot _⟩
  · have answer : exec .signatureVerified s
        = ((s.palCode s.boot.slot (s.palCheck s.boot.slot)).setBoot (s.afterRefusal (s.palCheck s.boot.slot))).out := by
      rw [← s.palRefuse_eq]
      exact congrArg State.out ((if_neg due).trans (if_pos ok))
    refine Runs.of_out answer ⟨fun good => absurd good ok, fun _ => ?_, (OnlyRegs.palCode s _ _).setBoot _⟩
    rw [State.intcLatch_boot]
    show (s.afterRefusal _).slotUsed = _ ∧ (s.afterRefusal _).step = _
    unfold State.afterRefusal
    split <;> exact ⟨rfl, rfl⟩

end slots

section record
variable {s : State} {v : Word}

/-- With the array free the boot record is programmed at once (R442). -/
theorem State.setBootRecord_free (free : s.pmBlocked 4 = false) (n : Nat) :
    s.setBootRecord n = s.pmProgram 0 (n + 0x424F4F54 * 2 ^ 32) := if_neg (by simp [free])

theorem KeepsMemOut.pmProgram (s : State) {off : Nat} (v : Nat) (word : off % 8 = 0) :
    KeepsMemOut s (s.pmProgram off v) (pmAddr off) 8 := by
  have at_ : pmWordAt off = off := by simp only [pmWordAt]; omega
  refine ⟨fun a ha => ?_, fun x hx => ?_⟩
  · refine State.rd8_wrBytes_out s _ _ a ?_
    rw [at_, length_toBytes]
    exact ha
  · have ne : x.1 ≠ off := fun h => by rw [h] at hx; omega
    simp [State.pmProgram, ne]

theorem KeepsRegs.pmProgram (s : State) (off v : Nat) : KeepsRegs s (s.pmProgram off v) [] := fun a ha hp =>
  (KeepsRegs.wrBytes s (pmAddr (pmWordAt off)) (toBytes 8 v) a ha hp :)

theorem KeepsRest.pmProgram (s : State) (off v : Nat) : KeepsRest s (s.pmProgram off v) := by
  obtain ⟨m, written⟩ := s.wrBytes_updates (pmAddr (pmWordAt off)) (toBytes 8 v)
  rw [State.pmProgram, State.wr64, written]
  rfl

theorem Runs.sysBootSel (free : s.pmBlocked 4 = false) (run : s.cpStopped = false) : Runs (.sysBootSel v) s fun t =>
    t.reg SYS_BOOT_SEL = BitVec.ofNat 32 (v.toNat % 4)
    ∧ t.mem = (s.setBootRecord (s.bootRecord - s.bootRecord % 4 + v.toNat % 4)).mem
    ∧ KeepsRegs s t [SYS_BOOT_SEL] ∧ KeepsMemOut s t 0x38000000 8 ∧ KeepsRest s t := by
  have answer : exec (.sysBootSel v) s = (s.bootSelWrite v).out := State.cpDoes_running (fun s => s.bootSelWrite v) run
  rw [State.bootSelWrite] at answer
  refine Runs.of_out answer ?_
  generalize s.bootRecord - s.bootRecord % 4 + v.toNat % 4 = n
  have mem : KeepsMemOut s (s.setBootRecord n) 0x38000000 8 := s.setBootRecord_free free n ▸ KeepsMemOut.pmProgram s (off := 0) _ rfl
  have regs : KeepsRegs s (s.setBootRecord n) [] := s.setBootRecord_free free n ▸ KeepsRegs.pmProgram s _ _
  have rest : KeepsRest s (s.setBootRecord n) := s.setBootRecord_free free n ▸ KeepsRest.pmProgram s _ _
  generalize s.setBootRecord n = w at mem regs rest ⊢
  refine ⟨(State.reg_intcLatch _ _ (.inl (by decide))).trans (State.reg_setReg_self _ _ _), State.intcLatch_mem _,
    KeepsRegs.intcLatch fun a ha hp => ?_, KeepsMemOut.intcLatch mem, KeepsRest.intcLatch rest⟩
  exact (State.reg_setReg_ne _ _ _ _ (by simpa using ha)).trans (regs a (by simp) hp)

end record

section roll
variable (s : State)

theorem Runs.sysPalRoll {v : Word} (key : SYS_PAL_ROLL.KEY.of v = 0x7140) (go : SYS_PAL_ROLL.GO.of v = 1)
    (idle : s.flag SYS_PAL_STAT.ROLL_BUSY = false) (image : s.flag SYS_ROLE.GROUND = false) (run : s.cpStopped = false) :
    Runs (.sysPalRoll v) s fun t => t.flag SYS_PAL_STAT.ROLL_BUSY = true ∧ OnlyRegs s t [SYS_PAL_STAT] := by
  have takes : s.palRollWrite v = s.setFlag SYS_PAL_STAT.ROLL_BUSY true := if_neg (by simp [key, go, idle, image])
  have answer : exec (.sysPalRoll v) s = (s.setFlag SYS_PAL_STAT.ROLL_BUSY true).out := by
    rw [← takes]
    exact State.cpDoes_running (fun s => s.palRollWrite v) run
  exact Runs.of_out answer ⟨(State.flag_intcLatch _ _ (.inl (by decide))).trans (s.flag_setFlag_self _ _ rfl (by decide)),
    (OnlyRegs.setFlag s _ _).intcLatch⟩

/-- Counter `k` brought up to the version `n` (R88, R484). -/
def State.rollTo (k n : Nat) : State := forN (fun _ (s : State) => s.scIncrement k) (n - s.scValue k) s

theorem State.butArray_rollTo {k : Nat} (hk : k < 32) (n : Nat) : (s.rollTo k n).butArray = s.butArray :=
  forN_keeps_lt State.butArray _ (fun _ _ t => t.butArray_scIncrement hk) s

/-- What the end of a roll leaves alone, where its flag stands in block `b`. -/
theorem State.rollTo_keeps {k : Nat} (hk : k < 32) (n : Nat) (f : Field) (b : Nat) (block : f.addr / 0x10000 = b) :
    let t := ((s.rollTo k n).setFlag f false).intcLatch
    KeepsBlocks s t [b, 0x400E, 0x4010] ∧ KeepsMemButPm s t ∧ KeepsRest s { t with pm := { t.pm with later := s.pm.later } } := by
  have kept := s.butArray_rollTo hk n
  obtain ⟨r, d, latch⟩ := ((s.rollTo k n).setFlag f false).intcLatch_updates
  refine ⟨fun a ha hp => ?regs, KeepsMemOut.intcLatch ⟨fun a ha => ?mem, fun x hx => ?ecc⟩, ?rest⟩
  case regs =>
    rw [State.reg_intcLatch_ne _ _ hp, State.reg_setFlag_ne _ _ _ _ fun same => ha (by simp [same, block])]
    refine State.reg_of_outside kept (Bool.eq_false_iff.2 fun own => ha ?_)
    rw [blocks, List.contains_iff_mem] at own
    exact List.mem_cons_of_mem _ own
  case mem => exact State.rd8_of_outside kept (inPm_of_outside ha)
  case ecc => simp only [pmAddr] at hx; omega
  case rest =>
    have hidden := State.hide_of_outside kept
    rw [latch]
    exact (congrArg (fun x : State => { x with regs := s.regs, mem := s.mem, ecc := s.ecc, pm := { x.pm with later := s.pm.later },
                                               cp := { x.cp with dioReq := s.cp.dioReq } }) hidden :)

theorem Runs.rollEnd_palette (busy : s.flag SYS_PAL_STAT.ROLL_BUSY = true) (free : s.pmBlocked 5 = false) :
    Runs (.rollEnd false) s fun t => t.flag SYS_PAL_STAT.ROLL_BUSY = false
      ∧ t.mem = (forN (fun _ (s : State) => s.scIncrement 0) ((s.reg SYS_PAL_VER).toNat - s.scValue 0) s).mem
      ∧ KeepsBlocks s t [0x4000, 0x400E, 0x4010] ∧ KeepsMemButPm s t
      ∧ KeepsRest s { t with pm := { t.pm with later := s.pm.later } } := by
  have answer : exec (.rollEnd false) s = ((s.rollTo 0 (s.reg SYS_PAL_VER).toNat).setFlag SYS_PAL_STAT.ROLL_BUSY false).out :=
    congrArg State.out ((if_neg (by simp [free])).trans ((if_neg Bool.false_ne_true).trans (if_pos busy)))
  exact Runs.of_out answer ⟨(State.flag_intcLatch _ _ (.inl (by decide))).trans (State.flag_setFlag_self _ _ _ rfl (by decide)),
    State.intcLatch_mem _, s.rollTo_keeps (by decide) _ _ _ (by decide)⟩

theorem Runs.rollEnd_firmware (busy : s.flag VLT_STAT.FW_ROLL_BUSY = true) (free : s.pmBlocked 5 = false) :
    Runs (.rollEnd true) s fun t => t.flag VLT_STAT.FW_ROLL_BUSY = false
      ∧ t.mem = (forN (fun _ (s : State) => s.scIncrement 4) ((s.reg VLT_FW_VER).toNat - s.scValue 4) s).mem
      ∧ KeepsBlocks s t [0x400F, 0x400E, 0x4010] ∧ KeepsMemButPm s t
      ∧ KeepsRest s { t with pm := { t.pm with later := s.pm.later } } := by
  have answer : exec (.rollEnd true) s = ((s.rollTo 4 (s.reg VLT_FW_VER).toNat).setFlag VLT_STAT.FW_ROLL_BUSY false).out :=
    congrArg State.out ((if_neg (by simp [free])).trans ((if_pos rfl).trans (if_pos busy)))
  exact Runs.of_out answer ⟨(State.flag_intcLatch _ _ (.inl (by decide))).trans (State.flag_setFlag_self _ _ _ rfl (by decide)),
    State.intcLatch_mem _, s.rollTo_keeps (by decide) _ _ _ (by decide)⟩

end roll

end Sys2Proof.Machine
end

section
/-! SUPPORT. What the start tick leaves alone (R81, R92 to R100). -/

namespace Sys2Proof.Machine

/-- The parts of the state that the start tick does not reach. -/
def State.besideStart (s : State) : State :=
  { s with regs := [], mem := [], ecc := [], boot := {}, prof := {}, le := {}, pm := {}, vlt := {}, pt := {}, wfl := [], mh := {}, me := {},
           se := {}, rnd := {}, way := {}, ana := {} }

/-- `t` has those parts of `r`. -/
def StartKeeps (r t : State) : Prop := t.besideStart = r.besideStart

section
variable {r s : State}

theorem StartKeeps.mk {regs mem ecc boot prof le pm vlt pt wfl mh me se rnd way ana} (k : StartKeeps r s) :
    StartKeeps r { s with regs, mem, ecc, boot, prof, le, pm, vlt, pt, wfl, mh, me, se, rnd, way, ana } := k

theorem StartKeeps.ite {c : Prop} [Decidable c] {a b : State} (ha : StartKeeps r a) (hb : StartKeeps r b) :
    StartKeeps r (if c then a else b) := by
  split
  exacts [ha, hb]

theorem StartKeeps.forN {f : Nat → State → State} {n : Nat} (h : ∀ i x, StartKeeps r x → StartKeeps r (f i x)) (k : StartKeeps r s) :
    StartKeeps r (forN f n s) := by
  induction n with
  | zero => exact k
  | succ n ih => exact h n _ ih

theorem StartKeeps.foldl {α : Type} {f : State → α → State} {l : List α} (h : ∀ x c, StartKeeps r x → StartKeeps r (f x c))
    (k : StartKeeps r s) : StartKeeps r (l.foldl f s) := by
  induction l generalizing s with
  | nil => exact k
  | cons c l ih => exact ih (h s c k)

theorem StartKeeps.setReg {a v} (k : StartKeeps r s) : StartKeeps r (s.setReg a v) := .mk k
theorem StartKeeps.setFld {f v} (k : StartKeeps r s) : StartKeeps r (s.setFld f v) := .setReg k
theorem StartKeeps.setFlag {f b} (k : StartKeeps r s) : StartKeeps r (s.setFlag f b) := .setFld k
theorem StartKeeps.setBit {f i b} (k : StartKeeps r s) : StartKeeps r (s.setBit f i b) := .setFld k
theorem StartKeeps.setReg64 {lo hi v} (k : StartKeeps r s) : StartKeeps r (s.setReg64 lo hi v) := .setReg (.setReg k)
theorem StartKeeps.wr8 {a v} (k : StartKeeps r s) : StartKeeps r (s.wr8 a v) := .mk k
theorem StartKeeps.wrBytes {a l} (k : StartKeeps r s) : StartKeeps r (s.wrBytes a l) := by
  obtain ⟨m, written⟩ := s.wrBytes_updates a l
  rw [written]
  exact .mk k
theorem StartKeeps.wr16 {a v} (k : StartKeeps r s) : StartKeeps r (s.wr16 a v) := .wrBytes k
theorem StartKeeps.wr32 {a v} (k : StartKeeps r s) : StartKeeps r (s.wr32 a v) := .wrBytes k
theorem StartKeeps.wr64 {a v} (k : StartKeeps r s) : StartKeeps r (s.wr64 a v) := .wrBytes k
theorem StartKeeps.clearMem {p} (k : StartKeeps r s) : StartKeeps r (s.clearMem p) := .mk k
theorem StartKeeps.ceCount {n} (k : StartKeeps r s) : StartKeeps r (s.ceCount n) := .ite k (.mk (.setFld k))
theorem StartKeeps.pmProgram {off v} (k : StartKeeps r s) : StartKeeps r (s.pmProgram off v) := .mk (.wr64 k)
theorem StartKeeps.pmProgramAll {l} (k : StartKeeps r s) : StartKeeps r (s.pmProgramAll l) := by
  induction l generalizing s with
  | nil => exact k
  | cons p l ih =>
    unfold State.pmProgramAll
    exact ih (.pmProgram k)
theorem StartKeeps.pmLater {c off v} (k : StartKeeps r s) : StartKeeps r (s.pmLater c off v) := .ite (.mk k) (.pmProgram k)
theorem StartKeeps.scShow {k'} (k : StartKeeps r s) : StartKeeps r (s.scShow k') := .setReg (.setReg k)
theorem StartKeeps.setCause {b v} (k : StartKeeps r s) : StartKeeps r (s.setCause b v) :=
  .ite k (.ite (.setReg64 (.pmLater (.setFlag (.setReg (.setReg k))))) (.setFlag (.setReg (.setReg k))))
theorem StartKeeps.counterCause {k'} (k : StartKeeps r s) : StartKeeps r (s.counterCause k') := .ite (.setCause k) k
theorem StartKeeps.scIncrement {k'} (k : StartKeeps r s) : StartKeeps r (s.scIncrement k') := by
  unfold State.scIncrement
  split
  exacts [k, .ite k (.counterCause (.scShow (.pmProgram k)))]
theorem StartKeeps.ledgerGrow {n} (k : StartKeeps r s) : StartKeeps r (s.ledgerGrow n) :=
  .ite (.setFlag (.setFlag (.setFld (.setFld k)))) (.setFld (.setFld k))
theorem StartKeeps.setCalc {c m} (k : StartKeeps r s) : StartKeeps r (s.setCalc c m) := .mk k
theorem StartKeeps.mhViews (k : StartKeeps r s) : StartKeeps r s.mhViews := by
  unfold State.mhViews
  extract_lets s1 s2
  have k1 : StartKeeps r s1 := by
    refine .forN (fun _ _ k => ?_) k
    exact .setFld (.setFld (.setFld (.setFld (.setFld (.setFld (.setFld (.setFld k)))))))
  have k2 : StartKeeps r s2 := .forN (fun _ _ k => .ite (.setFlag k) k) k1
  refine .forN (fun _ _ k => ?_) k2
  split
  exacts [.setFlag k, .setFlag (.setFld (.setFlag (.setFlag k)))]
theorem StartKeeps.mhApply {c vals} (k : StartKeeps r s) : StartKeeps r (s.mhApply c vals) := by
  unfold State.mhApply
  extract_lets _ _ s1
  have k1 : StartKeeps r s1 := .forN (fun _ _ k => .setReg k) k
  exact .mhViews (.setCalc k1)
theorem StartKeeps.meViews {p} (k : StartKeeps r s) : StartKeeps r (s.meViews p) := .setFld (.setFld (.setFld k))
theorem StartKeeps.meApply {p vals} (k : StartKeeps r s) : StartKeeps r (s.meApply p vals) :=
  .mk (.meViews (.forN (fun _ _ k => .setReg k) k))
theorem StartKeeps.wrWords {a l} (k : StartKeeps r s) : StartKeeps r (s.wrWords a l) := by
  induction l generalizing s a with
  | nil => exact k
  | cons p l ih => exact ih (.wr32 k)
theorem StartKeeps.setCanvasState {i st} (k : StartKeeps r s) : StartKeeps r (s.setCanvasState i st) := .wr32 k
theorem StartKeeps.setCanvasCode {i code} (k : StartKeeps r s) : StartKeeps r (s.setCanvasCode i code) := .wr8 k
theorem StartKeeps.setHdrSeq {a v} (k : StartKeeps r s) : StartKeeps r (s.setHdrSeq a v) := .wr16 k
theorem StartKeeps.canvasReady {i} (k : StartKeeps r s) : StartKeeps r (s.canvasReady i) := .forN (fun _ _ k => .setHdrSeq k) (.wr32 k)
theorem StartKeeps.canvasLoad {slot w} (k : StartKeeps r s) : StartKeeps r (s.canvasLoad slot w).1 := by
  unfold State.canvasLoad
  extract_lets
  split
  · exact k
  · exact .setCanvasCode (.setCanvasState (.wr32 (.canvasReady (.wrWords (.wrWords k)))))
theorem StartKeeps.setSlot {n x} (k : StartKeeps r s) : StartKeeps r (s.setSlot n x) := .mk k
theorem StartKeeps.setBankWord {n k' v} (k : StartKeeps r s) : StartKeeps r (s.setBankWord n k' v) := .mk k
theorem StartKeeps.setDrive {d x} (k : StartKeeps r s) : StartKeeps r (s.setDrive d x) := .mk k
theorem StartKeeps.driveOff {d} (k : StartKeeps r s) : StartKeeps r (s.driveOff d) := .setDrive (.setFlag (.setFlag k))
theorem StartKeeps.showLevels (k : StartKeeps r s) : StartKeeps r s.showLevels := .ite (.forN (fun _ _ k => .setBit k) k) k
theorem StartKeeps.setTick {t} (k : StartKeeps r s) : StartKeeps r (s.setTick t) := .mk (.setReg k)
theorem StartKeeps.pgShow {c} (k : StartKeeps r s) : StartKeeps r (s.pgShow c) := .setFlag (.setFlag k)
theorem StartKeeps.pgQueue {c r'} (k : StartKeeps r s) : StartKeeps r (s.pgQueue c r') := .pgShow (.mk k)
theorem StartKeeps.pgRequest {c t} (k : StartKeeps r s) : StartKeeps r (s.pgRequest c t) := .ite k (.ite k (.pgQueue k))
theorem StartKeeps.pgGive {c t} (k : StartKeeps r s) : StartKeeps r (s.pgGive c t) := .pgRequest (.setReg k)
theorem StartKeeps.pgFreeze (k : StartKeeps r s) : StartKeeps r s.pgFreeze := .ite (.forN (fun _ _ k => .setFlag k) k) k
theorem StartKeeps.pgFlags (k : StartKeeps r s) : StartKeeps r s.pgFlags := .pgFreeze (.forN (fun _ _ k => .setFlag k) k)
theorem StartKeeps.setFallback {b} (k : StartKeeps r s) : StartKeeps r (s.setFallback b) := .setFlag (.setFlag k)
theorem StartKeeps.setStale {n} (k : StartKeeps r s) : StartKeeps r (s.setStale n) := .setFld (.mk k)
theorem StartKeeps.pbStart (k : StartKeeps r s) : StartKeeps r s.pbStart :=
  .ite (.foldl (fun _ _ k => .pgGive k) (.setFallback (.setStale (.setFlag k)))) (.setFlag k)
theorem StartKeeps.pgStart (k : StartKeeps r s) : StartKeeps r s.pgStart := .pgFlags (.forN (fun _ _ k => .ite k (.pgRequest k)) k)
theorem StartKeeps.setPtSeg {i g} (k : StartKeeps r s) : StartKeeps r (s.setPtSeg i g) := .mk k
theorem StartKeeps.ptShow {i} (k : StartKeeps r s) : StartKeeps r (s.ptShow i) := by
  unfold State.ptShow
  extract_lets
  refine .forN (fun _ _ k => ?_) k
  split
  exacts [.wrBytes k, k]
theorem StartKeeps.ptRestart {i} (k : StartKeeps r s) : StartKeeps r (s.ptRestart i) :=
  .ptShow (.setFlag (.setFlag (.setFld (.setPtSeg k))))
theorem StartKeeps.ptVols (k : StartKeeps r s) : StartKeeps r s.ptVols := .mk k
theorem StartKeeps.ptStart (k : StartKeeps r s) : StartKeeps r s.ptStart :=
  .setFlag (.mk (.forN (fun _ _ k => .ptRestart (.setPtSeg k)) (.ptVols (.mk k))))
theorem StartKeeps.setLink {l x} (k : StartKeeps r s) : StartKeeps r (s.setLink l x) := .mk k
theorem StartKeeps.setWmod {l m x} (k : StartKeeps r s) : StartKeeps r (s.setWmod l m x) := .setLink k
theorem StartKeeps.setWstate {l m st} (k : StartKeeps r s) : StartKeeps r (s.setWstate l m st) :=
  .ite (.setFlag (.setBit (.setFld k))) (.ite (.setFlag (.setBit (.setFld k))) (.ite (.setFlag (.setBit (.setFld k))) (.setBit
    (.setFld k))))
theorem StartKeeps.wflStart (k : StartKeeps r s) : StartKeeps r s.wflStart :=
  .forN (fun _ _ k => .forN (fun _ _ k => .setWstate (.setWmod k)) k) k
theorem StartKeeps.svRaw {w v} (k : StartKeeps r s) : StartKeeps r (s.svRaw w v) := .wr32 k
theorem StartKeeps.svSet {w v} (k : StartKeeps r s) : StartKeeps r (s.svSet w v) := .svRaw k
theorem StartKeeps.seInstances {l} (k : StartKeeps r s) : StartKeeps r (s.seInstances l) :=
  .foldl (fun _ _ k => .forN (fun _ _ k => .svRaw k) k) (.clearMem k)
theorem StartKeeps.seInit {h p} (k : StartKeeps r s) : StartKeeps r (s.seInit h p) := .forN (fun _ _ k => .ite (.svSet k) k) k
theorem StartKeeps.seRunAt {base} (k : StartKeeps r s) : StartKeeps r (s.seRunAt base) := .setFlag (.setFld (.setFld k))
theorem StartKeeps.seStart {base} (k : StartKeeps r s) : StartKeeps r (s.seStart base) :=
  .seRunAt (.seInit (.seInstances (.seInstances k)))
theorem StartKeeps.setVlt {v} (k : StartKeeps r s) : StartKeeps r (s.setVlt v) := .mk k
theorem StartKeeps.vaultWrite {a v} (k : StartKeeps r s) : StartKeeps r (s.vaultWrite a v) := .setVlt k
theorem StartKeeps.vaultWriteAll {l} (k : StartKeeps r s) : StartKeeps r (s.vaultWriteAll l) := by
  induction l generalizing s with
  | nil => exact k
  | cons p l ih => exact ih (.vaultWrite k)
theorem StartKeeps.vltShow (k : StartKeeps r s) : StartKeeps r s.vltShow := by
  unfold State.vltShow
  extract_lets _ _ _ _ s1
  have k1 : StartKeeps r s1 := .forN (fun _ _ k => .setFld (.setFld (.setReg k))) (.setFld (.setFlag (.setFlag (.setFlag k))))
  exact .ite (.setCause k1) k1
theorem StartKeeps.thriftTable (k : StartKeeps r s) : StartKeeps r s.thriftTable :=
  .forN (fun _ _ k => .setFld (.setFld (.setFld k))) (.forN (fun _ _ k => .setSlot k) (.setFlag k))
theorem StartKeeps.showOfs (k : StartKeeps r s) : StartKeeps r s.showOfs := .forN (fun _ _ k => .ite (.setFld k) k) k
theorem StartKeeps.report {e} (k : StartKeeps r s) : StartKeeps r (s.report e) := .mk k
theorem StartKeeps.reportReg {f type inst record code given applied} (k : StartKeeps r s) :
    StartKeeps r (s.reportReg f type inst record code given applied) := by
  unfold State.reportReg
  split
  all_goals exact .report k
theorem StartKeeps.unapply {l} (k : StartKeeps r s) : StartKeeps r (s.unapply l) := .mk k
theorem StartKeeps.refuseFld {f v} (k : StartKeeps r s) : StartKeeps r (s.refuseFld f v) := .setFld (.unapply k)
theorem StartKeeps.unapplyRecord {type inst} (k : StartKeeps r s) : StartKeeps r (s.unapplyRecord type inst) := .unapply k
theorem StartKeeps.slotRefuse {n code} (k : StartKeeps r s) : StartKeeps r (s.slotRefuse n code) := .report (.setSlot k)
theorem StartKeeps.slotChecks (k : StartKeeps r s) : StartKeeps r s.slotChecks := by
  unfold State.slotChecks
  refine .forN (fun _ _ k => ?_) k
  refine .ite k ?_
  split
  exacts [.slotRefuse k, k]
theorem StartKeeps.dropLinks (k : StartKeeps r s) : StartKeeps r s.dropLinks :=
  .foldl (fun _ _ k => .slotRefuse (.setBankWord (.unapply k))) k
theorem StartKeeps.loopAdmission (k : StartKeeps r s) : StartKeeps r s.loopAdmission := by
  unfold State.loopAdmission
  extract_lets _ s1 _ _ _
  have k1 : StartKeeps r s1 := by
    unfold s1
    refine .forN (fun _ _ k => ?_) k
    refine .ite k ?_
    extract_lets _ _ _ _ _ s2
    have k2 : StartKeeps r s2 := .ite k (.report (.setFld k))
    exact .ite k2 (.report (.setFld k2))
  exact .showOfs (.thriftTable (.foldl (fun _ _ k => .setFld (.setFld (.setSlot (.setFlag (.setFld (.setFld (.setFld (.setFlag
    (.ite (.ite k (.report k)) (.report (.ite k (.report k)))))))))))) (.foldl (fun _ _ k => .slotRefuse k) k1)))
theorem StartKeeps.showParts (k : StartKeeps r s) : StartKeeps r s.showParts :=
  .forN (fun _ _ k => .setFld (.setFld (.setFlag (.setFlag (.setFlag (.setFlag k)))))) k
theorem StartKeeps.setProf {p} (k : StartKeeps r s) : StartKeeps r (s.setProf p) := .mk k
theorem StartKeeps.profRequest {p} (k : StartKeeps r s) : StartKeeps r (s.profRequest p) :=
  .ite (.setFlag (.setProf (.setFld (.setFld k)))) (.setFlag (.setFld (.setFld k)))
theorem StartKeeps.setBoot {b} (k : StartKeeps r s) : StartKeeps r (s.setBoot b) := .mk k
theorem StartKeeps.setBootRecord {v} (k : StartKeeps r s) : StartKeeps r (s.setBootRecord v) := .pmLater k
theorem StartKeeps.sealedLoad (k : StartKeeps r s) : StartKeeps r s.sealedLoad := by
  unfold State.sealedLoad
  extract_lets s1 s2
  have k1 : StartKeeps r s1 := by
    unfold s1
    refine .forN (fun _ _ k => ?_) k
    split
    exacts [.mhApply k, k]
  have k2 : StartKeeps r s2 := by
    unfold s2
    refine .forN (fun _ _ k => ?_) k1
    split
    exacts [.meApply k, k]
  exact .setFlag k2
theorem StartKeeps.foldlFst {α β : Type} {f : State × β → α → State × β} {l : List α} {p : State × β}
    (h : ∀ p c, StartKeeps r p.1 → StartKeeps r (f p c).1) (k : StartKeeps r p.1) : StartKeeps r (l.foldl f p).1 := by
  induction l generalizing p with
  | nil => exact k
  | cons c l ih => exact ih (h p c k)
theorem StartKeeps.palApply {e} (k : StartKeeps r s) : StartKeeps r (s.palApply e) := by
  unfold State.palApply
  extract_lets
  split
  exacts [.setFld k, .mk k, .mk k, .setFld k, .setBoot k, .wrBytes k, .foldlFst (fun _ _ k => .setBankWord k) k, .setSlot k,
    .setSlot k, .mk k, .mk k, .mk k, .mk k, .setBoot k, k, k, k]
theorem StartKeeps.palCanvas {e} (k : StartKeeps r s) : StartKeeps r (s.palCanvas e) := .ite k (.ite (.canvasLoad k) (.report k))
theorem StartKeeps.palParts {r'} (k : StartKeeps r s) : StartKeeps r (s.palParts r') := by
  unfold State.palParts
  extract_lets _ _ s1 _ _ _
  have k1 : StartKeeps r s1 := .forN (fun _ _ k => .ite (.mk k) (.report (.unapplyRecord (.mk k)))) (.mk k)
  exact .showParts (.setBoot (.ite k1 (.ceCount k1)))
theorem StartKeeps.palCredential {l k'} (k : StartKeeps r s) : StartKeeps r (s.palCredential l k') :=
  .ite k (.ite (.report (.unapplyRecord k)) (.ite (.ite k (.vaultWriteAll k)) (.ite (.report (.unapplyRecord k)) (.ite k
    (.vaultWriteAll k)))))
theorem StartKeeps.sealWrite {q b calcs no l} (k : StartKeeps r s) : StartKeeps r (s.sealWrite q b calcs no l) := by
  induction l generalizing s calcs no with
  | nil => exact k
  | cons p l ih =>
    unfold State.sealWrite
    exact ih (.pmProgramAll (.pmProgramAll (.ite (.report k) k)))
theorem StartKeeps.sealedInit {r'} (k : StartKeeps r s) : StartKeeps r (s.sealedInit r') :=
  .ite k (.sealedLoad (.ledgerGrow (.scIncrement (.sealWrite k))))
theorem StartKeeps.clearInput {n i code} (k : StartKeeps r s) : StartKeeps r (s.clearInput n i code) :=
  .report (.setSlot (.ite (.setFld k) (.setFld k)))
theorem StartKeeps.slotRefs {loops} (k : StartKeeps r s) : StartKeeps r (s.slotRefs loops) := by
  unfold State.slotRefs
  refine .forN (fun _ _ k => ?_) k
  refine .ite k ?_
  extract_lets s1 _ _
  have k1 : StartKeeps r s1 := .forN (fun _ _ k => .ite (.clearInput k) (.ite k (.clearInput k))) k
  split
  exacts [.ite k1 (.report (.setSlot (.setFld k1))), k1]
theorem StartKeeps.refRounds {loops n} (k : StartKeeps r s) : StartKeeps r (State.refRounds loops n s) := by
  induction n generalizing s with
  | zero => exact k
  | succ n ih => exact .ite (.slotRefs (.dropLinks k)) (ih (.slotRefs (.dropLinks k)))
theorem StartKeeps.slotResolve {loops} (k : StartKeeps r s) : StartKeeps r (s.slotResolve loops) :=
  .refRounds (.slotChecks (.forN (fun _ _ k => .setSlot k) k))
theorem StartKeeps.bridgeRefs (k : StartKeeps r s) : StartKeeps r s.bridgeRefs :=
  .forN (fun _ _ k => .ite k (.reportReg (.refuseFld (.setFld k)))) k
theorem StartKeeps.segRefs {n} (k : StartKeeps r s) : StartKeeps r (State.segRefs n s) := by
  induction n generalizing s with
  | zero => exact k
  | succ n ih =>
    exact .ite k (ih (.foldl (fun _ _ k => .foldl (fun _ _ k => .reportReg (.setFld k)) (.refuseFld k)) k))
theorem StartKeeps.segRefuse {i code} (k : StartKeeps r s) : StartKeeps r (s.segRefuse i code) := .reportReg (.refuseFld k)
theorem StartKeeps.traceRefs (k : StartKeeps r s) : StartKeeps r s.traceRefs := by
  have clear {x : State} {f : Field} {b : Bool} (k : StartKeeps r x) : StartKeeps r (if b then x
      else ((x.setFld f 0).refuseFld TUNE_TRC_CTL.ARMED 0).reportReg f 0x1301 0 false Code.refusedState (x.fld f) 0) :=
    .ite k (.reportReg (.refuseFld (.setFld k)))
  exact .forN (fun _ _ k => clear (clear k)) (clear k)
theorem StartKeeps.plugAdmit (k : StartKeeps r s) : StartKeeps r s.plugAdmit := by
  unfold State.plugAdmit
  extract_lets
  refine .forN (fun _ _ k => ?_) (.segRefs (.foldl (fun _ _ k => .ite (.segRefuse k) k) (.segRefs (.foldl (fun _ _ k => .ite
    (.segRefuse k) k) (.segRefs (.ite (.reportReg (.setFld k)) k))))))
  refine .ite k ?_
  extract_lets s1
  have k1 : ∀ {x0 x1 x2}, StartKeeps r x0 → StartKeeps r (s1 x0 x1 x2) := fun k => .ite k (.reportReg (.setFld (.refuseFld k)))
  exact k1 (k1 k)
theorem StartKeeps.moduleAdmit (k : StartKeeps r s) : StartKeeps r s.moduleAdmit :=
  .forN (fun _ _ k => .forN (fun _ _ k => .ite k (.ite (.setWmod k) (.reportReg (.refuseFld k)))) k) k
theorem StartKeeps.busArea {c g off size} (k : StartKeeps r s) : StartKeeps r (s.busArea c g off size).1 := .setFld k
theorem StartKeeps.busAreas {c off} (k : StartKeeps r s) : StartKeeps r (s.busAreas c off).1 := by
  unfold State.busAreas
  split
  · exact k
  · extract_lets _ _ _ _ _ _ _ _ _ _ _ _ _ _ _ _ cut s1
    split
    · exact .report (.refuseFld k)
    · have kcut {x : State} {i a b} (k : StartKeeps r x) : StartKeeps r (cut i a b x) := .ite k (.report k)
      have k1 : StartKeeps r s1 := kcut (kcut (kcut k))
      exact .setFld (.setFld (.setFld (.busArea (.busArea (.busArea (.busArea k1))))))
theorem StartKeeps.busDivide (k : StartKeeps r s) : StartKeeps r s.busDivide := .foldlFst (fun _ _ k => .busAreas k) k
theorem StartKeeps.rateClampAt {c k'} (k : StartKeeps r s) : StartKeeps r (s.rateClampAt c k') :=
  .ite k (.ite k (.foldl (fun _ _ k => .ite k (.reportReg (.setFld k))) k))
theorem StartKeeps.rateClamp {c} (k : StartKeeps r s) : StartKeeps r (s.rateClamp c) := .rateClampAt (.rateClampAt k)
theorem StartKeeps.ground (k : StartKeeps r s) : StartKeeps r s.ground := by
  unfold State.ground
  extract_lets _ _ s1 _
  have k1 : ∀ {x0 x1 x2}, StartKeeps r x2 → StartKeeps r (s1 x0 x1 x2) := fun k => .setFld (.setFld (.setFld (.setFlag k)))
  exact k1 (k1 (.forN (fun _ _ k => .setReg (.setReg (.setFlag (.setFlag (k1 k))))) (.setBoot (.setReg k))))
theorem StartKeeps.healthKept (k : StartKeeps r s) : StartKeeps r s.healthKept :=
  .setFld (.setFld (.setFld (.forN (fun _ _ k => .setFlag k) (.setFld k))))
theorem StartKeeps.programme {r'} (k : StartKeeps r s) : StartKeeps r (s.programme r') := by
  unfold State.programme
  extract_lets _ s1 _ _ _ _ s2 _ _ _ _
  have k1 : StartKeeps r s1 := .healthKept (.ground k)
  have k2 : StartKeeps r s2 := .foldl (fun _ _ k => .palApply k) (.setBoot (.mhViews (.ite (.sealedInit k1) k1)))
  exact .busDivide (.foldl (fun _ _ k => .rateClamp k) (.moduleAdmit (.plugAdmit (.foldl (fun _ _ k => .palCanvas k) (.traceRefs
    (.loopAdmission (.bridgeRefs (.slotResolve (.mhViews (.vltShow (.forN (fun _ _ k => .palCredential k) (.ite
    (.palParts k2) k2))))))))))))
theorem StartKeeps.startBlocks {program} (k : StartKeeps r s) : StartKeeps r (s.startBlocks program) := by
  unfold State.startBlocks
  extract_lets _ _ _ _ s1 _ s2 _ _
  have k1 : StartKeeps r s1 := .forN (fun _ _ k => .ite (.driveOff k) k) (.setFlag (.setFlag (.setFlag (.setFlag (.setFlag
    (.setTick k))))))
  have k2 : StartKeeps r s2 := .showLevels (.wflStart (.pgStart (.pbStart (.ite (.ptStart k1) k1))))
  exact (.ite k2 (.ite (.setFlag (.seStart k2)) (.report (.setFld (.setFld k2)))))
theorem StartKeeps.startRegs {us} (k : StartKeeps r s) : StartKeeps r (s.startRegs us) := by
  unfold State.startRegs
  extract_lets
  split
  exacts [.setVlt (.ite (.setReg (.mk (.setFld (.setFlag (.setReg (.setReg (.setFlag (.setFld (.setFld (.setFld k))))))))))
    (.setBootRecord (.setReg (.mk (.setFld (.setFlag (.setReg (.setReg (.setFlag (.setFld (.setFld (.setFld k)))))))))))), .ite
    (.setReg (.setFld k)) (.setFld k)]
theorem StartKeeps.commitReport (k : StartKeeps r s) : StartKeeps r s.commitReport := .setBoot (.ceCount k)
theorem StartKeeps.fwFirst (k : StartKeeps r s) : StartKeeps r s.fwFirst := .setBoot k

end

/-- The state that the start tick's steps leave, ahead of the start-up profile's request and the firmware slot (R100). -/
def State.startStep (s : State) (us : Nat) : State :=
  let u := (((s.programme s.boot.result).startBlocks s.boot.result.program).startRegs us).commitReport
  u.setBoot { u.boot with step := 10, startEdge := u.aon.edges, result := {} }

theorem StartKeeps.startStep (s : State) (us : Nat) : StartKeeps s (s.startStep us) :=
  .setBoot (.commitReport (.startRegs (.startBlocks (.programme (Eq.refl s.besideStart)))))

theorem State.boot_profRequest (s : State) (p : Nat) : (s.profRequest p).boot = s.boot := by
  unfold State.profRequest
  dsimp only
  split <;> rfl

theorem Runs.startTick {s : State} (us : Nat) (at_ : s.boot.step = 9) (power : s.flag PWR_STAT.PFW = false) (saved : s.tot.save = none) :
    Runs (.startTick us) s fun t =>
      t.boot.step = 10 ∧ t.started = true ∧ t.boot.result = {} ∧ t.boot.fallback = false
      ∧ KeepsRest s { t with boot := s.boot, prof := s.prof, le := s.le, pm := s.pm, vlt := s.vlt, pt := s.pt, wfl := s.wfl, mh := s.mh,
                             me := s.me, se := s.se, rnd := s.rnd, way := s.way, ana := s.ana } := by
  obtain ⟨p, answer⟩ : ∃ p, exec (.startTick us) s = ((s.startStep us).profRequest p).fwFirst.out :=
    ⟨_, congrArg State.out (if_neg (by simp [at_, power, saved]))⟩
  refine Runs.of_out answer ?_
  have kept : StartKeeps s ((s.startStep us).profRequest p).fwFirst := .fwFirst (.profRequest (.startStep s us))
  have step : ((s.startStep us).profRequest p).fwFirst.boot.step = 10 := congrArg BootSt.step ((s.startStep us).boot_profRequest p)
  have result : ((s.startStep us).profRequest p).fwFirst.boot.result = {} :=
    congrArg BootSt.result ((s.startStep us).boot_profRequest p)
  have fallback : ((s.startStep us).profRequest p).fwFirst.boot.fallback = false := rfl
  generalize ((s.startStep us).profRequest p).fwFirst = u at kept step result fallback
  obtain ⟨r, d, latch⟩ := u.intcLatch_updates
  rw [latch]
  refine ⟨step, by simp [State.started, step], result, fallback, ?_⟩
  exact (congrArg (fun x : State =>
    { x with
      regs := s.regs, mem := s.mem, ecc := s.ecc, boot := s.boot, prof := s.prof, le := s.le, pm := s.pm, vlt := s.vlt, pt := s.pt,
      wfl := s.wfl, mh := s.mh, me := s.me, se := s.se, rnd := s.rnd, way := s.way, ana := s.ana,
      cp := { x.cp with dioReq := s.cp.dioReq } })
    kept :)

end Sys2Proof.Machine
end

section
/-! SUPPORT. The end of a firmware image's checks (R96, R101, R102, R482, R483). -/

namespace Sys2Proof.Machine

/-- `t` has the flash, the life cycle and the self-test's result of `s`, on which the checks of an image rest (R85, R482). -/
structure ImagesAlike (s t : State) : Prop where
  flash : t.flash = s.flash
  lcs : t.lcs = s.lcs
  fail : t.flag VLT_STAT.ST_FAIL = s.flag VLT_STAT.ST_FAIL

/-- The version of the firmware image in slot `k` (R481). -/
def State.fwVersion (s : State) (k : Nat) : Nat := s.flashNum k (s.flashNum k 0x1C 4 + 0x10) 4

section
variable {s t : State}

theorem ImagesAlike.flashBytes (alike : ImagesAlike s t) (k off n : Nat) : t.flashBytes k off n = s.flashBytes k off n := by
  induction n generalizing off with
  | zero => rfl
  | succ n ih => simp only [State.flashBytes, State.flashByte, alike.flash, ih]

theorem ImagesAlike.flashNum (alike : ImagesAlike s t) : t.flashNum = s.flashNum := by
  funext k off n
  exact congrArg ofBytes (alike.flashBytes k off n)

theorem ImagesAlike.flashZero (alike : ImagesAlike s t) : t.flashZero = s.flashZero := by
  funext k a b
  exact congrArg (List.all · (· == 0)) (alike.flashBytes k a (b - a))

theorem ImagesAlike.owned (alike : ImagesAlike s t) : t.owned = s.owned := by
  have bits : t.fuseBit = s.fuseBit := funext fun i => by rw [State.fuseBit, State.fuseBit, alike.lcs]
  rw [State.owned, State.owned, State.lcState, State.lcState, bits, alike.lcs]

theorem ImagesAlike.trailerOk (alike : ImagesAlike s t) : t.trailerOk = s.trailerOk := by
  funext k off n owned
  simp only [State.trailerOk, State.imageHash, alike.flashBytes, alike.lcs, alike.fail]

theorem ImagesAlike.palCheck5 (alike : ImagesAlike s t) : t.palCheck5 = s.palCheck5 := by
  funext k
  rw [State.palCheck5, State.palCheck5, State.palLen, State.palLen, alike.flashNum, alike.flashZero, alike.trailerOk, alike.owned]

theorem ImagesAlike.fwVersion (alike : ImagesAlike s t) (k : Nat) : t.fwVersion k = s.fwVersion k := by
  rw [State.fwVersion, State.fwVersion, alike.flashNum]

/-- Where the counter refuses the image in both or in neither, its checks end alike. -/
theorem ImagesAlike.fwCheck (alike : ImagesAlike s t) {k : Nat}
    (counter : t.fwVersion k < t.scValue 4 ↔ s.fwVersion k < s.scValue 4) : t.fwCheck k = s.fwCheck k := by
  rw [alike.fwVersion] at counter
  simp only [State.fwVersion] at counter
  simp only [State.fwCheck, alike.palCheck5, alike.flashNum, alike.flashZero, alike.trailerOk, alike.owned, counter]

end

/-- A version is a number of 4 bytes. -/
theorem State.fwVersion_le (s : State) (k : Nat) : s.fwVersion k ≤ 0xFFFFFFFF := by
  simp only [State.fwVersion, State.flashNum, State.flashBytes, ofBytes]
  omega

theorem State.scCellValue_le {s : State} {c j v : Nat} (cell : s.scCellValue c j = some v) : v ≤ 0xFFFFFFFF := by
  rw [State.scCellValue, scValid] at cell
  split at cell
  · contradiction
  · split at cell
    · have : v = s.pmWord (scCell c j) % 2 ^ 32 := (Option.some.inj cell).symm
      omega
    · contradiction

/-- The best cell's value is the value of a cell (R456). -/
theorem State.scBest_cell {s : State} {c n i w : Nat} (best : s.scBest c n = some (i, w)) : ∃ j, s.scCellValue c j = some w := by
  induction n generalizing i w with
  | zero => contradiction
  | succ n ih =>
    rw [State.scBest] at best
    cases cell : s.scCellValue c n with
    | none => exact ih (by simpa [cell] using best)
    | some v =>
      cases below : s.scBest c n with
      | none => exact ⟨n, by simp_all⟩
      | some p =>
        simp only [cell, below] at best
        split at best
        · exact ⟨n, by simp_all⟩
        · exact ih (below.trans best)

/-- A counter never shows more than its end (R456). -/
theorem State.scValue_le (s : State) (c : Nat) : s.scValue c ≤ 0xFFFFFFFF := by
  rw [State.scValue]
  split
  · next best =>
    obtain ⟨j, cell⟩ := State.scBest_cell best
    exact State.scCellValue_le cell
  · exact le_rfl

/-- The registers that the end of a firmware image's checks can change (R101, R102, R483). -/
def firmwareRegs : List Nat :=
  [SYS_START_TIME, SYS_WDT_CFG, SYS_WDT_STAT, LE_CTL, SA_CTL, PT_CTL, MH_CTL, ME_CTL, WFL_CTL, SE_CTL, VLT_BOOT, VLT_FW_VER]

/-- The array, and CP SRAM as far as an image is copied to it (R482). -/
def inReportOrCopy (a : Nat) : Bool := inPm a || (decide (0x20000000 ≤ a) && decide (a < 0x20300000))

def State.hideFirmware (s : State) : State := { s with ecc := [], boot := {}, cp := {}, vlt := {} }

/-- What the end of a firmware image's checks leaves alone. -/
def State.butFirmware (s : State) : State × (Nat → Word) × (Nat → Byte) :=
  s.outside State.hideFirmware firmwareRegs.contains inReportOrCopy

section firmware
variable {s : State}

/-- The report's words written, the image of slot `k` copied to CP SRAM and its code shown (R482). -/
def State.fwCopied (s : State) (k : Nat) : State :=
  let r := s.reportWords s.boot.rpt.length
  let o := r.flashNum k 0x1C 4
  let c := if r.palCheck5 k = Code.ok then r.wrBytes 0x20000000 (r.flashBytes k o (min (r.flashNum k (o + 8) 4) 0x300000)) else r
  if k = 0 then c.setFld VLT_BOOT.A_CODE (r.fwCheck k) else c.setFld VLT_BOOT.B_CODE (r.fwCheck k)

/-- What follows the checks of the image in slot `k`, which end with `code` (R102, R483). -/
def State.fwDone (s : State) (k us code : Nat) : State :=
  if code = Code.ok then s.handOver k us
  else if s.boot.fwSecond then s.noFirmware
  else s.setBoot { s.boot with fwSlot := some (1 - k), fwSecond := true }

theorem exec_firmwareVerified {k : Nat} (us : Nat) (slot : s.boot.fwSlot = some k) (done : s.flag VLT_STAT.ST_DONE = true)
    (goes : s.boot.rpt = [] ∨ s.reportWaits = false) :
    exec (.firmwareVerified us) s
      = ((s.fwCopied k).fwDone k us ((s.reportWords s.boot.rpt.length).fwCheck k)).out := by
  refine congrArg State.out ?_
  simp only [slot]
  rw [if_neg (by rcases goes with none | goes <;> simp [*])]
  rfl

theorem State.butFirmware_setBoot (s : State) (b : BootSt) : (s.setBoot b).butFirmware = s.butFirmware := rfl
theorem State.butFirmware_setVlt (s : State) (v : VltSt) : (s.setVlt v).butFirmware = s.butFirmware := rfl

theorem State.butFirmware_setReg (s : State) {a : Nat} (v : Word) (ha : firmwareRegs.contains a = true) :
    (s.setReg a v).butFirmware = s.butFirmware := State.outside_setReg v ha
theorem State.butFirmware_setFld (s : State) {f : Field} (v : Nat) (hf : firmwareRegs.contains f.addr = true) :
    (s.setFld f v).butFirmware = s.butFirmware := State.outside_setFld v hf
theorem State.butFirmware_setFlag (s : State) {f : Field} (b : Bool) (hf : firmwareRegs.contains f.addr = true) :
    (s.setFlag f b).butFirmware = s.butFirmware := State.outside_setFlag b hf

theorem State.butFirmware_ecc (s : State) (l : List (Nat × Bool)) : { s with ecc := l }.butFirmware = s.butFirmware := rfl

theorem State.butFirmware_pmProgram (s : State) (off v : Nat) : (s.pmProgram off v).butFirmware = s.butFirmware := by
  rw [State.pmProgram, State.butFirmware_ecc]
  refine State.outside_wrBytes fun i hi => ?_
  rw [length_toBytes] at hi
  rw [inReportOrCopy, inPm_pmWord off hi, Bool.true_or]

theorem State.butFirmware_pmProgramAll (s : State) (l : List (Nat × Nat)) : (s.pmProgramAll l).butFirmware = s.butFirmware := by
  induction l generalizing s with
  | nil => rfl
  | cons w l ih => exact (ih (s.pmProgram w.1 w.2)).trans (s.butFirmware_pmProgram w.1 w.2)

theorem State.length_flashBytes (s : State) (k off n : Nat) : (s.flashBytes k off n).length = n := by
  induction n generalizing off with
  | zero => rfl
  | succ n ih => rw [State.flashBytes, List.length_cons, ih]

theorem State.butFirmware_copy (s : State) (k o n : Nat) :
    (s.wrBytes 0x20000000 (s.flashBytes k o (min n 0x300000))).butFirmware = s.butFirmware :=
  State.outside_wrBytes fun i hi => by
    rw [State.length_flashBytes] at hi
    simp only [inReportOrCopy, Bool.or_eq_true, Bool.and_eq_true, decide_eq_true_eq]
    omega

theorem State.butFirmware_fwCopied (s : State) (k : Nat) : (s.fwCopied k).butFirmware = s.butFirmware := by
  unfold State.fwCopied
  extract_lets r o c
  have report : r.butFirmware = s.butFirmware := s.butFirmware_pmProgramAll _
  have copied : c.butFirmware = r.butFirmware := by
    unfold c
    split
    · exact r.butFirmware_copy _ _ _
    · rfl
  clear_value c r
  split <;> exact (State.butFirmware_setFld _ _ (by decide)).trans (copied.trans report)

theorem State.butFirmware_sealAll (s : State) : s.sealAll.butFirmware = s.butFirmware := by
  rw [State.sealAll, State.butFirmware_setBoot]
  repeat rw [State.butFirmware_setFlag _ _ (by decide)]

/-- The CP under the firmware that the hand-over starts (R483). -/
def CpSt.handedOver (c : CpSt) : CpSt :=
  { c with fw := true, cprst := false, halted := false, machine := true, pmp := List.replicate 16 (0, 0) }

/-- The seals of the first hand-over (R101), with the start time and the watchdog. -/
def State.handSeal (s : State) (us : Nat) : State :=
  let s := (s.setFld SYS_START_TIME.HAND ((us + 99) / 100)).setFld SYS_WDT_CFG.TIMEOUT (s.boot.wdt.getD 2048)
  let s := (s.setFlag SYS_WDT_CFG.ESCALATE true).setFlag SYS_WDT_CFG.EN true
  (s.setFld SYS_WDT_STAT.REMAIN (max 1 (s.fld SYS_WDT_CFG.TIMEOUT))).sealAll

theorem State.butFirmware_handSeal (s : State) (us : Nat) : (s.handSeal us).butFirmware = s.butFirmware := by
  rw [State.handSeal, State.butFirmware_sealAll]
  rw [State.butFirmware_setFld _ _ (by decide)]
  repeat rw [State.butFirmware_setFlag _ _ (by decide)]
  repeat rw [State.butFirmware_setFld _ _ (by decide)]

/-- The image's measurement and the registers that name it (R483, R489). -/
def State.handName (s : State) (k : Nat) : State :=
  let o := s.flashNum k 0x1C 4
  let n := s.flashNum k (o + 8) 4
  let s := s.setVlt { s.vlt with mFw := some (s.imageHash k o n) }
  ((s.setFld VLT_BOOT.SLOT k).setFlag VLT_BOOT.UNOWNED (!s.owned)).setReg VLT_FW_VER (BitVec.ofNat 32 (s.flashNum k (o + 0x10) 4))

theorem State.handOver_eq (s : State) (k us : Nat) :
    s.handOver k us =
      let u := if s.boot.sealed_ then s.handName k else (s.handName k).handSeal us
      { u.setBoot { u.boot with fwSlot := none } with cp := u.cp.handedOver } := rfl

theorem State.butFirmware_cp (s : State) (c : CpSt) : { s with cp := c }.butFirmware = s.butFirmware := rfl

theorem State.butFirmware_handName (s : State) (k : Nat) : (s.handName k).butFirmware = s.butFirmware := by
  rw [State.handName, State.butFirmware_setReg _ _ (by decide), State.butFirmware_setFlag _ _ (by decide),
    State.butFirmware_setFld _ _ (by decide), State.butFirmware_setVlt]

theorem State.butFirmware_handOver (s : State) (k us : Nat) : (s.handOver k us).butFirmware = s.butFirmware := by
  rw [State.handOver_eq]
  extract_lets u
  have named : u.butFirmware = s.butFirmware := by
    unfold u
    split
    · exact s.butFirmware_handName k
    · exact (State.butFirmware_handSeal _ _).trans (s.butFirmware_handName k)
  rw [State.butFirmware_cp, State.butFirmware_setBoot, named]

theorem State.butFirmware_noFirmware (s : State) : s.noFirmware.butFirmware = s.butFirmware := by
  rw [State.noFirmware, State.butFirmware_cp, State.butFirmware_setBoot, State.butFirmware_setVlt,
    State.butFirmware_setReg _ _ (by decide), State.butFirmware_setFlag _ _ (by decide), State.butFirmware_setFld _ _ (by decide)]

theorem State.butFirmware_fwDone (s : State) (k us code : Nat) : (s.fwDone k us code).butFirmware = s.butFirmware := by
  unfold State.fwDone
  split
  · exact s.butFirmware_handOver k us
  split
  · exact s.butFirmware_noFirmware
  · rfl

theorem State.boot_wrBytes (s : State) (a : Nat) (l : List Byte) : (s.wrBytes a l).boot = s.boot := by
  obtain ⟨m, written⟩ := s.wrBytes_updates a l
  rw [written]

theorem State.cp_wrBytes (s : State) (a : Nat) (l : List Byte) : (s.wrBytes a l).cp = s.cp := by
  obtain ⟨m, written⟩ := s.wrBytes_updates a l
  rw [written]

theorem State.cp_pmProgramAll (s : State) (l : List (Nat × Nat)) : (s.pmProgramAll l).cp = s.cp :=
  (congrArg (fun x : State => x.cp) (State.hide_of_outside (s.butArray_pmProgramAll l)) :)

theorem State.boot_reportWords_all (s : State) : (s.reportWords s.boot.rpt.length).boot = { s.boot with rpt := [] } :=
  congrArg (fun l => { s.boot with rpt := l }) s.boot.rpt.drop_length

/-- The copy changes the steward's words due and no more of the steward. -/
theorem State.boot_fwCopied (s : State) (k : Nat) : (s.fwCopied k).boot = { s.boot with rpt := [] } := by
  unfold State.fwCopied
  extract_lets r o c
  have report : r.boot = { s.boot with rpt := [] } := s.boot_reportWords_all
  have copied : c.boot = r.boot := by
    unfold c
    split
    · exact r.boot_wrBytes _ _
    · rfl
  clear_value c r
  split <;> exact copied.trans report

theorem State.cp_fwCopied (s : State) (k : Nat) : (s.fwCopied k).cp = s.cp := by
  unfold State.fwCopied
  extract_lets r o c
  have report : r.cp = s.cp := s.cp_pmProgramAll _
  have copied : c.cp = r.cp := by
    unfold c
    split
    · exact r.cp_wrBytes _ _
    · rfl
  clear_value c r
  split <;> exact copied.trans report

theorem State.handName_boot (s : State) (k : Nat) : (s.handName k).boot = s.boot := rfl
theorem State.handSeal_boot (s : State) (us : Nat) : (s.handSeal us).boot = { s.boot with sealed_ := true } := rfl
theorem State.handName_cp (s : State) (k : Nat) : (s.handName k).cp = s.cp := rfl
theorem State.handSeal_cp (s : State) (us : Nat) : (s.handSeal us).cp = s.cp := rfl

theorem State.boot_handOver (s : State) (k us : Nat) :
    (s.handOver k us).boot = { s.boot with fwSlot := none, sealed_ := true } := by
  rw [State.handOver_eq]
  by_cases sealed : s.boot.sealed_ = true
  · rw [if_pos sealed]
    show { (s.handName k).boot with fwSlot := none } = _
    rw [State.handName_boot, ← sealed]
  · rw [if_neg sealed]
    show { ((s.handName k).handSeal us).boot with fwSlot := none } = _
    rw [State.handSeal_boot, State.handName_boot]

theorem State.cp_handOver (s : State) (k us : Nat) : (s.handOver k us).cp = s.cp.handedOver := by
  rw [State.handOver_eq]
  by_cases sealed : s.boot.sealed_ = true
  · rw [if_pos sealed]
    exact congrArg CpSt.handedOver (s.handName_cp k)
  · rw [if_neg sealed]
    exact congrArg CpSt.handedOver (((s.handName k).handSeal_cp us).trans (s.handName_cp k))

/-- Firmware refused in slot `k`: the other slot follows, or none runs (R102). -/
theorem State.fwDone_refused (s : State) {k us code : Nat} (bad : code ≠ Code.ok) :
    (s.fwDone k us code).cp.fw = s.cp.fw ∧ (s.fwDone k us code).boot.rpt = s.boot.rpt
      ∧ (s.fwDone k us code).boot.fwSlot = if s.boot.fwSecond then none else some (1 - k) := by
  rw [State.fwDone, if_neg bad]
  by_cases second : s.boot.fwSecond = true
  · rw [if_pos second, if_pos second]
    exact ⟨rfl, rfl, rfl⟩
  · rw [if_neg second, if_neg second]
    exact ⟨rfl, rfl, rfl⟩

/-- What `butFirmware` keeps, the clause's frame says. -/
theorem KeepsRest.of_butFirmware {u : State} (kept : u.butFirmware = s.butFirmware) :
    KeepsRegs s u.intcLatch firmwareRegs
    ∧ (∀ a, a < 0x20000000 ∨ 0x20300000 ≤ a ∧ a < 0x38000000 ∨ 0x38080000 ≤ a → u.intcLatch.rd8 a = s.rd8 a)
    ∧ KeepsRest s { u.intcLatch with boot := s.boot, cp := s.cp, vlt := s.vlt } := by
  refine ⟨KeepsRegs.intcLatch fun a ha _ => State.reg_of_outside kept (by simpa using ha), fun a ha => ?bytes, ?rest⟩
  case bytes =>
    have out : inReportOrCopy a = false := by
      simp only [inReportOrCopy, inPm, Bool.or_eq_false_iff, Bool.and_eq_false_iff, decide_eq_false_iff_not]
      omega
    rw [← State.rd8_of_outside kept out, State.rd8, State.intcLatch_mem, State.rd8]
  case rest =>
    have hidden := State.hide_of_outside kept
    obtain ⟨r, d, latch⟩ := u.intcLatch_updates
    rw [latch]
    exact (congrArg (fun x : State => { x with regs := s.regs, mem := s.mem, ecc := s.ecc, boot := s.boot, cp := s.cp, vlt := s.vlt })
      hidden :)

/-- The clause on FIRMWARE_VERIFIED, where the report's words do not change whether the image passes. -/
theorem Runs.firmwareVerified {k : Nat} (us : Nat) (slot : s.boot.fwSlot = some k) (done : s.flag VLT_STAT.ST_DONE = true)
    (goes : s.boot.rpt = [] ∨ s.reportWaits = false)
    (same : (s.reportWords s.boot.rpt.length).fwCheck k = Code.ok ↔ s.fwCheck k = Code.ok) :
    Runs (.firmwareVerified us) s fun t =>
      (s.fwCheck k = Code.ok → t.cp.fw = true ∧ t.cp.machine = true ∧ t.cp.pmp = List.replicate 16 (0, 0) ∧ t.boot.fwSlot = none
          ∧ t.boot.sealed_ = true)
      ∧ t.boot.rpt = [] ∧ (s.fwCheck k ≠ Code.ok → t.cp.fw = s.cp.fw
        ∧ t.boot.fwSlot = if s.boot.fwSecond then none else some (1 - k))
      ∧ KeepsRegs s t firmwareRegs
      ∧ (∀ a, a < 0x20000000 ∨ 0x20300000 ≤ a ∧ a < 0x38000000 ∨ 0x38080000 ≤ a → t.rd8 a = s.rd8 a)
      ∧ KeepsRest s { t with boot := s.boot, cp := s.cp, vlt := s.vlt } := by
  refine Runs.of_out (exec_firmwareVerified us slot done goes) ?_
  rw [ne_eq, ← same]
  generalize (s.reportWords s.boot.rpt.length).fwCheck k = code
  have kept : ((s.fwCopied k).fwDone k us code).butFirmware = s.butFirmware :=
    (State.butFirmware_fwDone _ _ _ _).trans (s.butFirmware_fwCopied k)
  have boot := s.boot_fwCopied k
  have cp := s.cp_fwCopied k
  generalize s.fwCopied k = w at kept boot cp ⊢
  rw [State.intcLatch_boot, State.cp_intcLatch]
  by_cases ok : code = Code.ok
  · have handed : w.fwDone k us code = w.handOver k us := if_pos ok
    rw [handed] at kept ⊢
    refine ⟨fun _ => ?_, ?_, fun bad => absurd ok bad, KeepsRest.of_butFirmware kept⟩
    · rw [State.boot_handOver, State.cp_handOver]
      exact ⟨rfl, rfl, rfl, rfl, rfl⟩
    · rw [State.boot_handOver, boot]
  · obtain ⟨fw, rpt, other⟩ := w.fwDone_refused (k := k) (us := us) ok
    refine ⟨fun good => absurd good ok, rpt.trans (by rw [boot]), fun _ => ⟨fw.trans (by rw [cp]), other.trans (by rw [boot])⟩,
      KeepsRest.of_butFirmware kept⟩

end firmware
/-- Bytes written are read back. -/
theorem State.rdBytes_wrBytes (s : State) (a : Nat) (l : List Byte) : (s.wrBytes a l).rdBytes a l.length = l := by
  induction l generalizing s a with
  | nil => rfl
  | cons x t ih =>
    have first : (s.wrBytes a (x :: t)).rd8 a = x := s.rd8_wrBytes_in a (x :: t) 0 (by simp)
    rw [List.length_cons, State.rdBytes, first]
    exact congrArg (x :: ·) (ih (s.wr8 a x) (a + 1))

/-- A word programmed is read back, its low 64 bits. -/
theorem State.pmWord_pmProgram (s : State) (off v : Nat) : (s.pmProgram off v).pmWord off = ofBytes (toBytes 8 v) := by
  have bytes := s.rdBytes_wrBytes (pmAddr (pmWordAt off)) (toBytes 8 v)
  rw [length_toBytes] at bytes
  exact congrArg ofBytes bytes

/-- A word programmed has no uncorrectable error (R437). -/
theorem State.pmBad_pmProgram (s : State) (off v : Nat) : (s.pmProgram off v).pmBad off = false := by
  simp [State.pmBad, State.pmProgram]

/-- The best cell holds at least what any cell before it holds (R456). -/
theorem State.scBest_ge {s : State} {c j v : Nat} (cell : s.scCellValue c j = some v) :
    ∀ n, j < n → ∃ i w, s.scBest c n = some (i, w) ∧ v ≤ w := by
  intro n
  induction n with
  | zero => simp
  | succ n ih =>
    intro lt
    rcases Nat.lt_succ_iff_lt_or_eq.1 lt with below | rfl
    · obtain ⟨i, w, best, le⟩ := ih below
      simp only [State.scBest, best]
      cases s.scCellValue c n with
      | none => exact ⟨i, w, rfl, le⟩
      | some x =>
        dsimp only
        split
        · next more => exact ⟨n, x, rfl, by omega⟩
        · exact ⟨i, w, rfl, le⟩
    · simp only [State.scBest, cell]
      cases s.scBest c j with
      | none => exact ⟨j, v, rfl, le_rfl⟩
      | some p =>
        obtain ⟨i, w⟩ := p
        dsimp only
        split
        · exact ⟨j, v, rfl, le_rfl⟩
        · next more => exact ⟨i, w, rfl, by omega⟩

/-- A counter shows at least the value of a cell of its own (R456). -/
theorem State.le_scValue {s : State} {c j v : Nat} (cell : s.scCellValue c j = some v) (lt : j < 16) : v ≤ s.scValue c := by
  obtain ⟨i, w, best, le⟩ := State.scBest_ge cell 16 lt
  rw [State.scValue, best]
  exact le

/-- Cell 0 of counter 4 programmed to the highest value of a counter. -/
abbrev counterFull : Nat × Nat := (scCell 4 0, 0xFFFFFFFF)

theorem State.scCellValue_setBoot (s : State) (b : BootSt) (c j : Nat) : (s.setBoot b).scCellValue c j = s.scCellValue c j := rfl

/-- The word that fills counter 4 alone written as the report's. -/
theorem State.reportWords_counterFull {s : State} (due : s.boot.rpt = [counterFull]) :
    s.reportWords 1 = (s.pmProgram (scCell 4 0) 0xFFFFFFFF).setBoot { s.boot with rpt := [] } := by
  rw [State.reportWords, due]
  rfl

theorem State.scValue_counterFull {s : State} (due : s.boot.rpt = [counterFull]) : 0xFFFFFFFF ≤ (s.reportWords 1).scValue 4 := by
  refine State.le_scValue (j := 0) ?_ (by decide)
  rw [State.reportWords_counterFull due, State.scCellValue_setBoot, State.scCellValue, State.pmBad_pmProgram, State.pmWord_pmProgram]
  decide +kernel

/-- What the report's words do not change of an image's checks. -/
theorem ImagesAlike.reportWords (s : State) (n : Nat) : ImagesAlike s (s.reportWords n) := by
  have kept := s.butArray_pmProgramAll (s.boot.rpt.take n)
  have hidden := State.hide_of_outside kept
  refine ⟨(congrArg (fun x : State => x.flash) hidden :), (congrArg (fun x : State => x.lcs) hidden :), ?_⟩
  have reg : (s.pmProgramAll (s.boot.rpt.take n)).reg VLT_STAT.ST_FAIL.addr = s.reg VLT_STAT.ST_FAIL.addr :=
    State.reg_of_outside kept (by decide)
  exact congrArg (fun w : Word => VLT_STAT.ST_FAIL.of w == 1) reg

/-- An image of the highest version passes whatever counter 4 shows. -/
theorem ImagesAlike.fwCheck_highest {s t : State} (alike : ImagesAlike s t) {k : Nat} (highest : s.fwVersion k = 0xFFFFFFFF) :
    t.fwCheck k = s.fwCheck k := by
  have le := t.scValue_le 4
  have le' := s.scValue_le 4
  refine alike.fwCheck ?_
  rw [alike.fwVersion, highest]
  omega

/-- An image older than counter 4 is not accepted (R482). -/
theorem State.fwCheck_old {s : State} {k : Nat} (old : s.fwVersion k < s.scValue 4) : s.fwCheck k ≠ Code.ok := by
  rw [State.fwVersion] at old
  unfold State.fwCheck
  extract_lets p o n entry
  split
  · assumption
  split
  · decide
  split
  · decide
  split
  · decide
  split
  · decide
  · decide

theorem State.scCellValue_congr {s t : State} (mem : t.mem = s.mem) (ecc : t.ecc = s.ecc) : t.scCellValue = s.scCellValue := by
  have bytes : t.rdBytes = s.rdBytes := by
    funext a n
    induction n generalizing a with
    | zero => rfl
    | succ n ih => rw [State.rdBytes, State.rdBytes, ih, State.rd8, State.rd8, mem]
  funext c j
  rw [State.scCellValue, State.scCellValue, State.pmBad, State.pmBad, ecc, State.pmWord, State.pmWord, State.rd64, State.rd64, bytes]

theorem State.scBest_congr {s t : State} (cells : t.scCellValue = s.scCellValue) : t.scBest = s.scBest := by
  funext c n
  induction n with
  | zero => rfl
  | succ n ih => rw [State.scBest, State.scBest, cells, ih]

theorem State.scValue_congr {s t : State} (mem : t.mem = s.mem) (ecc : t.ecc = s.ecc) : t.scValue = s.scValue := by
  funext c
  rw [State.scValue, State.scValue, State.scBest_congr (State.scCellValue_congr mem ecc)]

/-- `s` with the image of slot `k` under evaluation and, in the report still to be written, the word that fills counter 4. -/
def State.counterWordDue (s : State) (k : Nat) : State :=
  { s.setFlag VLT_STAT.ST_DONE true with
    boot := { s.boot with fwSlot := some k, rpt := [counterFull] }, cp := { s.cp with fw := false }, pwr := {}, tot := {}, mh := {},
    rst := {} }

theorem State.fwCheck_counterWordDue (s : State) (k : Nat) : (s.counterWordDue k).fwCheck k = s.fwCheck k := by
  have alike : ImagesAlike s (s.counterWordDue k) := ⟨rfl, rfl, s.flag_setFlag_disjoint _ _ _ (by decide) (by decide)⟩
  have counter : (s.counterWordDue k).scValue = s.scValue := State.scValue_congr rfl rfl
  refine alike.fwCheck ?_
  rw [alike.fwVersion, counter]

/-- Under O14 every image that passes has the highest version: any other one passes before the word that fills counter 4 is written, and
not after, when the model takes the check. -/
theorem State.fwVersion_of_stewardEvaluates (holds : Obligations.StewardEvaluates) {s : State} {k : Nat}
    (accepted : s.fwCheck k = Code.ok) : s.fwVersion k = 0xFFFFFFFF := by
  unfold Obligations.StewardEvaluates at holds
  obtain ⟨-, -, -, -, -, firmware, -⟩ := holds
  by_contra lower
  have passes : (s.counterWordDue k).fwCheck k = Code.ok := (s.fwCheck_counterWordDue k).trans accepted
  have version : (s.counterWordDue k).fwVersion k < 0xFFFFFFFF := Nat.lt_of_le_of_ne (s.fwVersion_le k) lower
  have slot : (s.counterWordDue k).boot.fwSlot = some k := rfl
  have due : (s.counterWordDue k).boot.rpt = [counterFull] := rfl
  have done : (s.counterWordDue k).flag VLT_STAT.ST_DONE = true := s.flag_setFlag_self _ _ rfl (by decide)
  have goes : (s.counterWordDue k).reportWaits = false := rfl
  have off : (s.counterWordDue k).cp.fw = false := rfl
  generalize s.counterWordDue k = u at passes version slot due done goes off
  have refused : (u.reportWords u.boot.rpt.length).fwCheck k ≠ Code.ok := by
    refine State.fwCheck_old ?_
    rw [(ImagesAlike.reportWords u _).fwVersion, congrArg List.length due]
    exact Nat.lt_of_lt_of_le version (State.scValue_counterFull due)
  obtain ⟨t, run, runs, -⟩ := firmware u 0 k slot done (.inr goes)
  obtain ⟨fw, -⟩ := runs passes
  obtain ⟨same, -⟩ := (u.fwCopied k).fwDone_refused (k := k) (us := 0) refused
  rw [exec_firmwareVerified 0 slot done (.inr goes), State.out_next] at run
  rw [u.cp_fwCopied, off] at same
  rw [run, State.cp_intcLatch] at fw
  exact Bool.false_ne_true (same.symm.trans fw)

/-- The clauses of O14 hold, the one on FIRMWARE_VERIFIED where every image that passes has the highest version: it takes the check
before the report's words are written, the model after them, and no premise keeps those words out of the cells of counter 4. An image
of a lower version that passes refutes O14, by `State.fwVersion_of_stewardEvaluates`. Whether there is one depends on
`Config.ecdsaVerify`, which the model leaves open: so O14 is not settled. -/
theorem stewardEvaluates_iff_highest :
    Obligations.StewardEvaluates ↔ ∀ (s : State) (k : Nat), s.fwCheck k = Code.ok → s.fwVersion k = 0xFFFFFFFF := by
  refine ⟨fun holds _ _ => State.fwVersion_of_stewardEvaluates holds, fun highest => ?_⟩
  refine ⟨Runs.qspiIdentTimeout_first, Runs.qspiIdentTimeout_second, Runs.paletteReadEnd, Runs.signatureVerified,
    fun _ => Runs.startTick, ?firmware, fun _ _ => Runs.sysBootSel, fun s _ => Runs.sysPalRoll s, Runs.rollEnd_palette,
    Runs.rollEnd_firmware⟩
  intro s us k slot done goes
  refine Runs.firmwareVerified us slot done goes ?_
  have alike := ImagesAlike.reportWords s s.boot.rpt.length
  constructor
  · intro passes
    have version := highest _ k passes
    rw [alike.fwVersion] at version
    rwa [alike.fwCheck_highest version] at passes
  · intro passes
    rwa [alike.fwCheck_highest (highest s k passes)]

end Sys2Proof.Machine
end

section
/-! SUPPORT. Every command ends with the gateways, and each gateway forwards its source's request and disturbs no other (R112, R113). -/

namespace Sys2Proof.Machine

/-- Every command answers through `State.out`, whatever its effect. -/
theorem exec_eq_out (c : Instr) (s : State) : ∃ u : State, exec c s = u.out := by
  cases c <;> exact ⟨_, rfl⟩

/-- Every step, an LFXO edge too, ends with the gateways. -/
theorem step_eq_intcLatch {s t : State} (run : step s = .next t) : ∃ u : State, t = u.intcLatch := by
  have answers : ∃ u : State, step s = u.out := by
    unfold step
    split
    · exact ⟨_, rfl⟩
    · exact exec_eq_out _ _
  obtain ⟨u, out⟩ := answers
  exact ⟨u, (State.out_next u t).1 (out.symm.trans run)⟩

/-- Source `n` does not request, or it is pending or claimed (R112). -/
def State.Forwarded (s : State) (n : Nat) : Prop :=
  s.srcLevel n = true → s.intPending n = true ∨ s.cp.claimed.contains n = true

/-- What a source requests rests on registers other than the pending ones, and for source 75 on the request of a DIO edge alone. -/
theorem State.srcLevel_congr {s t : State} (regs : ∀ a, a < 0x40131000 ∨ 0x4013100C ≤ a → t.reg a = s.reg a) {n : Nat}
    (dio : n = 75 → t.cp.dioReq = s.cp.dioReq) : t.srcLevel n = s.srcLevel n := by
  rcases eq_or_ne n 75 with rfl | other
  · exact dio rfl
  unfold State.srcLevel
  simp only [if_neg other, PD_EVT, PD_IEN, ME_P_EVT, ME_P_IEN, CAN_EVT, CAN_IEN, ETH_EVT, ETH_IEN, WFL_L_EVT, WFL_L_IEN]
  -- Both sides branch alike: one goal is left for each line of R113's table.
  repeat' (apply ite_congr rfl <;> intro _)
  all_goals simp (disch := decide) only [State.evtOn, State.flag, State.fld, regs]
  all_goals simp (disch := omega) only [regs]

/-- A gateway leaves what every other source requests. -/
theorem State.srcLevel_gateway_ne (s : State) {m n : Nat} (hm : m < 80) (ne : n ≠ m) : (s.gateway m).srcLevel n = s.srcLevel n := by
  refine State.srcLevel_congr (fun a ha => s.reg_gateway m a ?_) fun dio => s.dioReq_gateway_ne (dio ▸ ne.symm)
  simp only [INTC_PEND]
  omega

/-- A gateway forwards its source's request. -/
theorem State.forwarded_gateway_self (s : State) (n : Nat) : (s.gateway n).Forwarded n := by
  have set : (s.setBit (INTC_PEND.BITS (n / 32)) (n % 32) true).intPending n = true :=
    (s.intPending_setBit n n true).trans (if_pos rfl)
  unfold State.gateway
  split
  · split <;> exact fun _ => .inl set
  · next shut =>
    intro level
    rw [level, Bool.true_and, Bool.and_eq_true, not_and_or] at shut
    simpa using shut

/-- A gateway leaves the other sources forwarded. -/
theorem State.Forwarded.gateway {s : State} {m n : Nat} (done : s.Forwarded n) (hm : m < 80) (ne : n ≠ m) :
    (s.gateway m).Forwarded n := by
  rw [State.Forwarded, s.srcLevel_gateway_ne hm ne, s.intPending_gateway_ne ne, State.claimed_gateway]
  exact done

/-- The gateways forward every request. -/
theorem State.intcSettled_intcLatch (s : State) : IntcSettled s.intcLatch := by
  have passed : ∀ k ≤ 80, ∀ n < k, (forN (fun i (x : State) => x.gateway i) k s).Forwarded n := by
    intro k
    induction k with
    | zero => exact fun _ n hn => absurd hn (Nat.not_lt_zero n)
    | succ k ih =>
      intro hk n hn
      rcases Nat.lt_succ_iff_lt_or_eq.1 hn with below | rfl
      · exact (ih (by omega) n below).gateway (by omega) (by omega)
      · exact State.forwarded_gateway_self _ n
  exact passed 80 le_rfl

/-- Settles O17: every step ends with the gateways, and after them every source that requests is pending or claimed. -/
theorem everyRequestIsForwarded : Obligations.EveryRequestIsForwarded := by
  unfold Obligations.EveryRequestIsForwarded
  intro s t run
  obtain ⟨u, rfl⟩ := step_eq_intcLatch run
  exact u.intcSettled_intcLatch

end Sys2Proof.Machine
end

section
/-! SUPPORT. The statements of the control processor's family that one state of the model settles: an access of a debugger after a
lockstep mismatch (R105), a wait of R450 under a partition's number that the node does not have, and the owner words after a cut during
DEPLOY (R494). -/

namespace Sys2Proof.Machine

/-- The state that command `c` leaves. -/
def State.after (s : State) (c : Instr) : Option State :=
  match exec c s with
  | .next t => some t
  | _ => none

/-- What the model evaluates of the state that a command leaves holds of the state that it answers. -/
theorem State.of_after {α : Type} {s t : State} {c : Instr} {f : State → α} {x : α} (run : exec c s = .next t)
    (shown : (s.after c).map f = some x) : f t = x := by
  rw [State.after, run] at shown
  exact Option.some.inj shown

/-- The harts have differed, and the CPRST that follows has not come yet (R105). -/
def hartsDiffer : State where
  cp := { mismatch := true }

/-- A debugger's read at an address that no region of R107 holds. -/
def debugReadUnmapped : CpAccess where
  addr := 0x10000000
  kind := .read
  size := 2
  who := .debug

/-- Refutes O15: its clause on a stopped CP names ACCESS_FAULT among the CP's commands and keeps everything, but a debugger's accesses go
on after a lockstep mismatch (R105): the one of `debugReadUnmapped` shows in sberror. -/
theorem not_cpFaults : ¬ Obligations.CpFaults := by
  unfold Obligations.CpFaults
  rintro ⟨-, -, -, -, -, -, -, -, stopped, -⟩
  obtain ⟨t, run, -, -, rest⟩ := stopped hartsDiffer (.accessFault debugReadUnmapped false) rfl rfl
  have shown : t.cp.sberror = 2 := State.of_after (f := fun u => u.cp.sberror) run (by decide +kernel)
  have kept : t.cp.sberror = 0 := congrArg (fun u : State => u.cp.sberror) rest
  exact absurd (shown.symm.trans kept) (by decide)

/-- The PLL drives the engine, and a wait of R450 runs under the number 16, which no partition has. -/
def strangerWaits : State := ({ pm := { waits := [(16, 20000)] } } : State).setFlag SYS_CLK_STAT.PLL_LOCK true

/-- Refutes O19: its clause on ENGINE_TICK lets PM_PART_STAT 0 to 15 change and no other register of the parameter memory, but has no
premise that every wait is one of the 16 partitions. In `strangerWaits`, which no run reaches, the tick shows the wait in the register
behind them. -/
theorem not_watchdogAndTick : ¬ Obligations.WatchdogAndTick := by
  unfold Obligations.WatchdogAndTick
  rintro ⟨-, -, -, -, -, tick⟩
  obtain ⟨t, run, -, -, -, -, -, regs, -⟩ := tick strangerWaits (by decide) rfl rfl
  have shown : t.reg (PM_PART_STAT 16) = 2 := State.of_after (f := fun u => u.reg (PM_PART_STAT 16)) run (by decide +kernel)
  have kept : t.reg (PM_PART_STAT 16) = 0 := regs (PM_PART_STAT 16) (by decide) (by decide)
  exact absurd (shown.symm.trans kept) (by decide)

/-- A node that reads PROVISIONED after a cut during DEPLOY, with one owner fuse programmed (R494). -/
def deployCut : State where
  lcs := { fuses := [3, 0, 0, 0], owner := [1, 0, 0, 0, 0, 0, 0, 0] }

/-- Refutes O56: its clause on the owner words has a word that is staged in PROVISIONED read back, but LCS_OWNER reads the fuses where one
is programmed (R492): the word staged in `deployCut`, whose first word reads 1. -/
theorem not_writesHeldBack : ¬ Obligations.WritesHeldBack := by
  unfold Obligations.WritesHeldBack
  rintro ⟨-, -, -, -, -, -, staged⟩
  obtain ⟨t, run, -, reads, -⟩ := staged deployCut 0 3 (.inl (by decide)) (by decide) rfl
  have shown : t.reg (LCS_OWNER 0) = 1 := State.of_after (f := fun u => u.reg (LCS_OWNER 0)) run (by decide +kernel)
  exact absurd (shown.symm.trans reads) (by decide)

end Sys2Proof.Machine
end

section
/-! SUPPORT. What a CP read of a register captures (R108, R148, R375, R389). -/

namespace Sys2Proof.Machine

/-- The access of a CAPTURING_READ: a word, read in machine mode. -/
abbrev wordRead (addr : Word) : CpAccess := { addr := addr, kind := .read, size := 2, who := .machine }

/-- In the peripheral blocks an aligned word read faults in the AON domain during its lockout, and nowhere else. -/
theorem State.accessFaults_registerRead (s : State) {addr : Word} (aligned : addr.toNat % 4 = 0) (h : inBlocks addr.toNat = true) :
    s.accessFaults (wordRead addr) false = true ↔ s.aon.locked = true ∧ 0x40020000 ≤ addr.toNat ∧ addr.toNat < 0x40030000 := by
  simp [State.accessFaults, h, cpMisaligned, aligned, cpDenied, atomicKind, and_assoc]

/-- The state with the register at `a` read: what the read captures, and the word that it returns. -/
def State.registerRead (s : State) (a : Nat) : State := { s.captureAt a with readback := (s.captureAt a).cpWord a }

theorem State.reg_registerRead (s : State) (a b : Nat) : (s.registerRead a).reg b = (s.captureAt a).reg b := rfl

/-- What a read of the word at `a` does: a word of the parameter memory, a claim, or a register. -/
def State.wordTaken (s : State) (a : Nat) : State :=
  if 0x38000000 ≤ a ∧ a < 0x38080000 then s.pmRead (a - 0x38000000) .good
  else if a = INTC_CLAIM then s.claim
  else s.registerRead a

theorem exec_capturingRead (addr : Word) (s : State) :
    exec (.capturingRead addr) s = s.cpAccess addr .read 2 fun s => s.wordTaken addr.toNat := rfl

/-- A read of a register outside the interrupt controller captures and returns its word. -/
theorem exec_capturingRead_register {s : State} {a : Nat} (aligned : a % 4 = 0) (lo : 0x40000000 ≤ a) (hi : a < 0x40130000)
    (granted : s.aon.locked = false ∨ a < 0x40020000 ∨ 0x40030000 ≤ a) (run : s.cpStopped = false) :
    exec (.capturingRead (BitVec.ofNat 32 a)) s = (s.registerRead a).out := by
  have addr : (BitVec.ofNat 32 a).toNat = a := by rw [BitVec.toNat_ofNat]; omega
  have block : inBlocks a = true := by simp only [inBlocks, Bool.and_eq_true, decide_eq_true_eq]; omega
  have passes : s.accessFaults (wordRead (BitVec.ofNat 32 a)) false = false := by
    rw [Bool.eq_false_iff, ne_eq, s.accessFaults_registerRead (by rwa [addr]) (by rwa [addr]), addr]
    rintro ⟨locked, inAon⟩
    rcases granted with unlocked | outside
    · exact Bool.false_ne_true (unlocked.symm.trans locked)
    · omega
  rw [exec_capturingRead, State.cpAccess_effect _ run passes, addr, State.wordTaken, if_neg (by omega),
    if_neg (by rw [INTC_CLAIM]; omega)]

/-- During the lockout a read of the AON domain takes the trap of a load alone (R108, R396). -/
theorem exec_capturingRead_lockedOut {s : State} {addr : Word} (aligned : addr.toNat % 4 = 0) (locked : s.aon.locked = true)
    (lo : 0x40020000 ≤ addr.toNat) (hi : addr.toNat < 0x40030000) (run : s.cpStopped = false) :
    exec (.capturingRead addr) s = (s.trapTaken 5).out := by
  have block : inBlocks addr.toNat = true := by simp only [inBlocks, Bool.and_eq_true, decide_eq_true_eq]; omega
  rw [exec_capturingRead, State.cpAccess_fault _ run ((s.accessFaults_registerRead aligned block).2 ⟨locked, lo, hi⟩),
    s.takeFault_trap (wordRead addr) (by simp [cpDenied]) nofun, faultCause]

/-- The state with the number `v` captured in the registers `lo` and `hi`, and its low word returned. -/
def State.counterRead (s : State) (lo hi v : Nat) : State := { s.setReg64 lo hi v with readback := BitVec.ofNat 32 v }

/-- A register that is one RO field is read as it stands. -/
theorem State.cpWord_readOnly (s : State) {a x : Nat} (block : 0x40000000 ≤ a)
    (desc : regDesc a = some ⟨a, [], [⟨31, 0, .ro, x⟩]⟩) : s.cpWord a = s.reg a := by
  rw [State.cpWord, if_neg (by omega), if_neg (by omega), if_neg (by omega), desc]
  simp [RegDesc.read]

/-- A read of a counter's low word captures both its words, returns the low one and changes nothing else (R389). -/
theorem Runs.counterRead {s : State} {lo hi v x : Nat} (captures : s.captureAt lo = s.setReg64 lo hi v)
    (desc : regDesc lo = some ⟨lo, [], [⟨31, 0, .ro, x⟩]⟩)
    (place : 0x40000000 ≤ lo ∧ lo < 0x40130000 ∧ lo % 4 = 0 ∧ hi = lo + 4)
    (granted : s.aon.locked = false ∨ lo < 0x40020000 ∨ 0x40030000 ≤ lo) (run : s.cpStopped = false) :
    Runs (.capturingRead (BitVec.ofNat 32 lo)) s fun t =>
      t.readback = BitVec.ofNat 32 v ∧ t.reg lo = BitVec.ofNat 32 v ∧ t.reg hi = BitVec.ofNat 32 (v / 2 ^ 32)
      ∧ KeepsRegs s t [lo, hi] ∧ KeepsMem s t ∧ KeepsRest s { t with readback := s.readback } := by
  obtain ⟨block, below, aligned, above⟩ := place
  have low : (s.setReg64 lo hi v).reg lo = BitVec.ofNat 32 v :=
    (State.reg_setReg_ne _ _ _ _ (by omega)).trans (State.reg_setReg_self _ _ _)
  have effect : s.registerRead lo = s.counterRead lo hi v := by
    rw [State.registerRead, captures, State.cpWord_readOnly _ block desc, low]
    rfl
  refine Runs.of_out (exec_capturingRead_register aligned block below granted run) ?_
  rw [effect]
  refine ⟨by simp [State.counterRead], ?low, ?high, KeepsRegs.intcLatch fun a ha _ => ?regs,
    KeepsMem.intcLatch ⟨rfl, fun _ => rfl⟩, ?rest⟩
  case low => exact (State.reg_intcLatch _ _ (.inl (by omega))).trans low
  case high => exact (State.reg_intcLatch _ _ (.inl (by omega))).trans (State.reg_setReg_self _ _ _)
  case regs =>
    obtain ⟨notLo, notHi⟩ : a ≠ lo ∧ a ≠ hi := by simpa using ha
    exact (State.reg_setReg_ne _ _ _ _ notHi).trans (State.reg_setReg_ne _ _ _ _ notLo)
  case rest =>
    obtain ⟨r, d, latch⟩ := (s.counterRead lo hi v).intcLatch_updates
    rw [latch]
    rfl

/-- What does nothing at any index, `forN` does not. -/
theorem forN_idle {σ : Type} {f : Nat → σ → σ} {m : Nat} (idle : ∀ i < m, ∀ x, f i x = x) (x : σ) : forN f m x = x := by
  induction m with
  | zero => rfl
  | succ m ih => rw [forN, ih fun i hi => idle i (Nat.lt_succ_of_lt hi), idle m m.lt_succ_self]

/-- What does nothing at any other index, `forN` does once. -/
theorem forN_only {σ : Type} {f : Nat → σ → σ} {n m : Nat} (hn : n < m) (others : ∀ i < m, i ≠ n → ∀ x, f i x = x) (x : σ) :
    forN f m x = f n x := by
  induction m with
  | zero => exact absurd hn (Nat.not_lt_zero n)
  | succ m ih =>
    rcases Nat.lt_succ_iff_lt_or_eq.1 hn with below | rfl
    · rw [forN, others m m.lt_succ_self (by omega), ih below fun i hi => others i (by omega)]
    · rw [forN, forN_idle fun i hi => others i (by omega) (by omega)]

section slotState
variable (s : State) (n : Nat)

/-- The first `m` state words of slot `n` captured. -/
def State.wordsCaptured (m : Nat) : State :=
  forN (fun k s => s.setReg (LE_STATE n (k + 1)) (BitVec.ofInt 32 (nth (s.slot n).st k {}).m)) m s

theorem State.wordsCaptured_eq (m : Nat) : s.wordsCaptured n m = { s with regs := (s.wordsCaptured n m).regs } :=
  forN_keeps (fun x : State => { x with regs := (s.wordsCaptured n m).regs })
    (fun k s => s.setReg (LE_STATE n (k + 1)) (BitVec.ofInt 32 (nth (s.slot n).st k {}).m)) (fun _ _ => rfl) m s

theorem State.reg_wordsCaptured (m : Nat) {k : Nat} (hk : k < m) :
    (s.wordsCaptured n m).reg (LE_STATE n (k + 1)) = BitVec.ofInt 32 (nth (s.slot n).st k {}).m := by
  induction m with
  | zero => exact absurd hk (Nat.not_lt_zero k)
  | succ m ih =>
    have next : s.wordsCaptured n (m + 1) = (s.wordsCaptured n m).setReg (LE_STATE n (m + 1))
        (BitVec.ofInt 32 (nth ((s.wordsCaptured n m).slot n).st m {}).m) := rfl
    rw [next, State.reg_setReg]
    by_cases last : k = m
    · subst last
      rw [if_pos rfl, s.wordsCaptured_eq n k]
      rfl
    · rw [if_neg (by simp only [LE_STATE]; omega), ih (by omega)]

theorem State.reg_wordsCaptured_ne (m : Nat) {a : Nat} (h : ∀ k < m, a ≠ LE_STATE n (k + 1)) :
    (s.wordsCaptured n m).reg a = s.reg a :=
  forN_keeps_lt (fun x : State => x.reg a) _ (fun k hk x => x.reg_setReg_ne _ _ _ (h k hk)) s

/-- A read of LE_STATE word 0 captures the slot's state words and no counter (R148). -/
theorem State.captureAt_leState {n : Nat} (hn : n < 64) : s.captureAt (LE_STATE n 0) = s.stateCapture n := by
  have noStamp : ∀ k < 2, ∀ x : State, (if LE_STATE n 0 = ETH_PTP_TXTS_LO k then
      x.capture64 (ETH_PTP_TXTS_LO k) (ETH_PTP_TXTS_HI k) (nth x.net.ptpTs k 0) else x) = x :=
    fun k hk x => if_neg (by simp only [LE_STATE, ETH_PTP_TXTS_LO]; omega)
  have noHeat : ∀ c < 8, ∀ x : State,
      forN (fun q x => if LE_STATE n 0 = MH_C_ACC_LO c q then x.mhCapture c q else x) 6 x = x :=
    fun c hc => forN_idle fun q hq x => if_neg (by simp only [LE_STATE, MH_C_ACC_LO]; omega)
  have noPower : ∀ p < 2, ∀ x : State,
      forN (fun q x => if LE_STATE n 0 = ME_P_ACC_LO p q then x.meCapture p q else x) 7 x = x :=
    fun p hp => forN_idle fun q hq x => if_neg (by simp only [LE_STATE, ME_P_ACC_LO]; omega)
  rw [State.captureAt, if_neg (by simp only [LE_STATE, AON_TICK0]; omega), if_neg (by simp only [LE_STATE, LE_TICK_LO]; omega),
    if_neg (by simp only [LE_STATE, SYS_NT_LO]; omega)]
  dsimp only
  rw [forN_only hn fun i hi ne y => if_neg (by simp only [LE_STATE]; omega), if_pos rfl, forN_idle noPower, forN_idle noHeat,
    forN_idle noStamp]

end slotState

/-- A read of LE_STATE word 0 captures words 1 to 16 (R148). -/
theorem Runs.capturesSlot {s : State} (n : Fin 64) (run : s.cpStopped = false) :
    Runs (.capturingRead (BitVec.ofNat 32 (LE_STATE n 0))) s fun t =>
      (∀ k < 16, t.reg (LE_STATE n (k + 1)) = BitVec.ofInt 32 (nth (s.slot n).st k {}).m)
      ∧ KeepsRegs s t ((List.range 16).map fun k => LE_STATE n (k + 1)) ∧ KeepsMem s t
      ∧ KeepsRest s { t with readback := s.readback } := by
  have hn := n.isLt
  have lo : 0x40032000 ≤ LE_STATE n 0 := by simp only [LE_STATE]; omega
  have hi : LE_STATE n 0 < 0x40034000 := by simp only [LE_STATE]; omega
  have aligned : LE_STATE n 0 % 4 = 0 := by simp only [LE_STATE]; omega
  have captured : s.captureAt (LE_STATE n 0) = s.wordsCaptured n 16 := s.captureAt_leState hn
  refine Runs.of_out (exec_capturingRead_register aligned (by omega) (by omega) (.inr (.inr (by omega))) run)
    ⟨fun k hk => ?words, KeepsRegs.intcLatch fun a ha _ => ?regs, KeepsMem.intcLatch ⟨?ecc, fun a => ?mem⟩, ?rest⟩
  case words =>
    rw [State.reg_intcLatch _ _ (.inl (by simp only [LE_STATE]; omega)), State.reg_registerRead, captured,
      s.reg_wordsCaptured n 16 hk]
  case regs =>
    rw [State.reg_registerRead, captured]
    exact s.reg_wordsCaptured_ne n 16 fun k hk same => ha (List.mem_map.2 ⟨k, List.mem_range.2 hk, same.symm⟩)
  case ecc => rw [State.registerRead, captured, s.wordsCaptured_eq]
  case mem => rw [State.registerRead, captured, s.wordsCaptured_eq]; rfl
  case rest =>
    obtain ⟨r, d, latch⟩ := (s.registerRead (LE_STATE n 0)).intcLatch_updates
    rw [latch, State.registerRead, captured, s.wordsCaptured_eq]
    rfl

/-- Settles O57: a read of a counter's low word comes to `setReg64` of the counter, one of LE_STATE word 0 to a capture of the slot's
words, and a read during the lockout to the trap of a load. -/
theorem capturingReads : Obligations.CapturingReads := by
  unfold Obligations.CapturingReads
  refine ⟨?tick, ?nt, ?aon, ?locked, fun _ => Runs.capturesSlot⟩
  case tick =>
    intro s run
    have captures : s.captureAt LE_TICK_LO = s.setReg64 LE_TICK_LO LE_TICK_HI s.le.tick := by
      rw [State.captureAt, if_neg (by decide), if_pos rfl, State.capture64]
    exact Runs.counterRead captures (x := 0) (by decide +kernel) (by decide) (.inr (by decide)) run
  case nt =>
    intro s run
    have captures : s.captureAt SYS_NT_LO = s.setReg64 SYS_NT_LO SYS_NT_HI s.nt := by
      rw [State.captureAt, if_neg (by decide), if_neg (by decide), if_pos rfl, State.capture64]
    obtain ⟨t, next, word, -, rest⟩ := Runs.counterRead captures (x := 0) (by decide +kernel) (by decide) (.inr (by decide)) run
    exact ⟨t, next, word, rest⟩
  case aon =>
    intro s unlocked run
    have captures : s.captureAt AON_TICK0 = s.setReg64 AON_TICK0 AON_TICK1 s.aon.count := by
      rw [State.captureAt, if_pos rfl, State.capture64]
    obtain ⟨t, next, word, -, rest⟩ := Runs.counterRead captures (x := 0) (by decide +kernel) (by decide) (.inl unlocked) run
    exact ⟨t, next, word, rest⟩
  case locked =>
    intro s locked run
    exact Runs.of_out (exec_capturingRead_lockedOut (by decide) locked (by decide) (by decide) run)
      ⟨by simp, by simp, KeepsRegs.intcLatch fun _ _ _ => rfl, KeepsMem.intcLatch ⟨rfl, fun _ => rfl⟩, KeepsRest.trapTaken s 5⟩

end Sys2Proof.Machine
end

section
/-! SUPPORT. The writes of AON_CTL and AON_SHIFT (R390 to R392, R395, R396). -/

namespace Sys2Proof.Machine

section shiftLost
variable (s : State)

theorem State.reg_shiftLost {a : Nat} (stat : a ≠ AON_STAT) (evt : a ≠ AON_EVT) : s.shiftLost.reg a = s.reg a := by
  rw [State.shiftLost, State.reg_setFlag_ne _ _ _ _ evt, State.reg_setFlag_ne _ _ _ _ stat, State.reg_setFlag_ne _ _ _ _ stat,
    State.setAon_reg]

/-- A shift that is lost pends no longer (R392). -/
theorem State.shiftPend_shiftLost : s.shiftLost.flag AON_STAT.SHIFT_PEND = false := by
  rw [State.shiftLost, State.flag_setFlag_ne _ _ _ _ (by decide), State.flag_setFlag_disjoint _ _ _ _ (by decide) (by decide),
    State.flag_setFlag_self _ _ _ rfl (by decide)]

theorem State.loadPend_shiftLost : s.shiftLost.flag AON_STAT.LOAD_PEND = s.flag AON_STAT.LOAD_PEND := by
  rw [State.shiftLost, State.flag_setFlag_ne _ _ _ _ (by decide), State.flag_setFlag_disjoint _ _ _ _ (by decide) (by decide),
    State.flag_setFlag_disjoint _ _ _ _ (by decide) (by decide), State.setAon_flag]

/-- A shift that is lost shows in AON_STAT and as an event (R392). -/
theorem State.shiftLost_shown : s.shiftLost.flag AON_STAT.SHIFT_LOST = true ∧ s.shiftLost.flag AON_EVT.SHIFT_LOST = true := by
  rw [State.shiftLost, State.flag_setFlag_self _ AON_EVT.SHIFT_LOST _ rfl (by decide), State.flag_setFlag_ne _ _ _ _ (by decide),
    State.flag_setFlag_self _ _ _ rfl (by decide)]
  exact ⟨rfl, rfl⟩

end shiftLost

/-- A command that changes registers and the AON domain leaves all else, and so do the gateways. -/
theorem keepsMem_keepsRest_of_aonOnly {s u : State} (h : u = { s with regs := u.regs, aon := u.aon }) :
    KeepsMem s u.intcLatch ∧ KeepsRest s { u.intcLatch with aon := s.aon } := by
  obtain ⟨r, d, latch⟩ := u.intcLatch_updates
  constructor
  · exact KeepsMem.intcLatch (by rw [h]; exact ⟨rfl, fun _ => rfl⟩)
  · rw [latch, h]
    rfl

/-- AON_CTL.LOAD takes the staged count; `clrhi` is the state of CLRHI after the write. -/
def State.loadArmed (s : State) (clrhi : Bool) : State :=
  (s.setAon { s.aon with load := some s.staged, aged := false, clrhi := clrhi }).setFlag AON_STAT.LOAD_PEND true

/-- A write of AON_CTL without LOAD, or while one pends, arms CLRHI at most (R390, R395). -/
theorem State.aonCtlWrite_noLoad {s : State} {v : Word} (h : AON_CTL.LOAD.of v ≠ 1 ∨ s.aon.load.isSome) :
    s.aonCtlWrite v = { s with aon := { s.aon with clrhi := decide (AON_CTL.CLRHI.of v = 1) || s.aon.clrhi } } := by
  unfold State.aonCtlWrite
  by_cases clrhi : AON_CTL.CLRHI.of v = 1
  · rw [if_pos clrhi]
    exact (if_pos h).trans (by simp [clrhi, State.setAon])
  · rw [if_neg clrhi]
    exact (if_pos h).trans (by simp [clrhi])

/-- A LOAD while none pends arms the staged count and discards an armed shift (R390, R392). -/
theorem State.aonCtlWrite_load {s : State} {v : Word} (load : AON_CTL.LOAD.of v = 1) (idle : s.aon.load = none) : ∃ c,
    s.aonCtlWrite v = if s.aon.shift.isSome then (s.loadArmed c).shiftLost else s.loadArmed c := by
  have acts : ¬(AON_CTL.LOAD.of v ≠ 1 ∨ s.aon.load.isSome) := by simp [load, idle]
  unfold State.aonCtlWrite
  by_cases clrhi : AON_CTL.CLRHI.of v = 1
  · rw [if_pos clrhi]
    exact ⟨true, if_neg acts⟩
  · rw [if_neg clrhi]
    exact ⟨s.aon.clrhi, if_neg acts⟩

theorem exec_load {s : State} {v : Word} (load : AON_CTL.LOAD.of v = 1) (run : s.cpStopped = false) :
    exec (.load v) s = (s.aonWrite fun s => s.aonCtlWrite v).out := by
  have does : exec (.load v) s = s.cpDoes fun s => if AON_CTL.LOAD.of v = 1 then s.aonWrite fun s => s.aonCtlWrite v else s := rfl
  rw [does, State.cpDoes_running _ run, if_pos load]

theorem exec_clrhi {s : State} {v : Word} (clrhi : AON_CTL.CLRHI.of v = 1) (run : s.cpStopped = false) :
    exec (.clrhi v) s = (s.aonWrite fun s => s.aonCtlWrite v).out := by
  have does : exec (.clrhi v) s = s.cpDoes fun s => if AON_CTL.CLRHI.of v = 1 then s.aonWrite fun s => s.aonCtlWrite v else s := rfl
  rw [does, State.cpDoes_running _ run, if_pos clrhi]

theorem exec_aonShift {s : State} (v : Word) (run : s.cpStopped = false) :
    exec (.aonShift v) s = (s.aonWrite fun s => s.aonShiftWrite v).out :=
  State.cpDoes_running (fun s => s.aonWrite fun s => s.aonShiftWrite v) run

theorem State.aonWrite_open {s : State} (f : State → State) (h : s.aon.locked = false) : s.aonWrite f = f s :=
  if_neg (by simp [h])

theorem State.aonWrite_locked {s : State} (f : State → State) (h : s.aon.locked = true) : s.aonWrite f = s.trapTaken 7 := if_pos h

/-- LOAD while none pends (R390, R392). -/
theorem Runs.load {s : State} {v : Word} (load : AON_CTL.LOAD.of v = 1) (unlocked : s.aon.locked = false) (idle : s.aon.load = none)
    (run : s.cpStopped = false) : Runs (.load v) s fun t =>
      t.aon.load = some s.staged ∧ t.aon.count = s.aon.count ∧ t.aon.shift = none ∧ t.flag AON_STAT.LOAD_PEND = true
      ∧ (s.aon.shift.isSome = true → t.flag AON_STAT.SHIFT_LOST = true ∧ t.flag AON_STAT.SHIFT_PEND = false)
      ∧ KeepsRegs s t [AON_STAT, AON_EVT] ∧ KeepsMem s t ∧ KeepsRest s { t with aon := s.aon } := by
  obtain ⟨c, write⟩ := State.aonCtlWrite_load load idle
  have pend : (s.loadArmed c).flag AON_STAT.LOAD_PEND = true := State.flag_setFlag_self _ _ _ rfl (by decide)
  have regs {a : Nat} (h : a ≠ AON_STAT) : (s.loadArmed c).reg a = s.reg a := State.reg_setFlag_ne _ _ _ _ h
  refine Runs.of_out ((exec_load load run).trans (congrArg State.out (State.aonWrite_open _ unlocked))) ?_
  rw [write]
  split
  case isTrue armed =>
    obtain ⟨shown, -⟩ := (s.loadArmed c).shiftLost_shown
    obtain ⟨mem, rest⟩ := keepsMem_keepsRest_of_aonOnly (s := s) (u := (s.loadArmed c).shiftLost) rfl
    refine ⟨?load, ?count, ?shift, ?pend, fun _ => ⟨?lost, ?gone⟩, KeepsRegs.intcLatch fun a ha _ => ?regs, mem, rest⟩
    case load | count | shift => rw [State.intcLatch_aon]; rfl
    case pend => rw [State.flag_intcLatch _ _ (by decide), State.loadPend_shiftLost, pend]
    case lost => rw [State.flag_intcLatch _ _ (by decide), shown]
    case gone => rw [State.flag_intcLatch _ _ (by decide), State.shiftPend_shiftLost]
    case regs =>
      obtain ⟨stat, evt⟩ : a ≠ AON_STAT ∧ a ≠ AON_EVT := by simpa using ha
      rw [State.reg_shiftLost _ stat evt, regs stat]
  case isFalse none_ =>
    obtain ⟨mem, rest⟩ := keepsMem_keepsRest_of_aonOnly (s := s) (u := s.loadArmed c) rfl
    refine ⟨?load, ?count, ?shift, ?pend, fun armed => absurd armed none_, KeepsRegs.intcLatch fun a ha _ => ?regs, mem, rest⟩
    case load | count => rw [State.intcLatch_aon]; rfl
    case shift => rw [State.intcLatch_aon]; exact Option.not_isSome_iff_eq_none.1 none_
    case pend => rw [State.flag_intcLatch _ _ (by decide), pend]
    case regs => exact regs (by simp_all)

/-- A write of AON_CTL with no LOAD to take changes no count, no register and no shift (R392, R395). -/
theorem Runs.aonCtl_noLoad {s : State} {v : Word} {c : Instr} (effect : exec c s = (s.aonWrite fun s => s.aonCtlWrite v).out)
    (unlocked : s.aon.locked = false) (h : AON_CTL.LOAD.of v ≠ 1 ∨ s.aon.load.isSome) : Runs c s fun t =>
      t.aon = { s.aon with clrhi := decide (AON_CTL.CLRHI.of v = 1) || s.aon.clrhi }
      ∧ KeepsRegs s t [] ∧ KeepsMem s t ∧ KeepsRest s { t with aon := s.aon } := by
  refine Runs.of_out (effect.trans (congrArg State.out (State.aonWrite_open _ unlocked))) ?_
  rw [State.aonCtlWrite_noLoad h]
  exact ⟨State.intcLatch_aon _, KeepsRegs.intcLatch fun _ _ _ => rfl, keepsMem_keepsRest_of_aonOnly rfl⟩

/-- The state with the shift of AON_SHIFT written. -/
def State.shiftWritten (s : State) (v : Word) : State := s.setFld AON_SHIFT.K (AON_SHIFT.K.of v)

theorem State.shift_shiftWritten (s : State) (v : Word) : (s.shiftWritten v).fld AON_SHIFT.K = AON_SHIFT.K.of v :=
  (s.fld_setFld_self AON_SHIFT.K _ (by decide) (by decide)).trans (Nat.mod_eq_of_lt (bits_lt _ _ _))

/-- The shift that AON_SHIFT arms (R391). -/
def State.shiftArmed (s : State) (v : Word) : State :=
  ((s.shiftWritten v).setAon { s.aon with shift := some (signed 16 v.toNat) }).setFlag AON_STAT.SHIFT_PEND true

theorem State.aonShiftWrite_idle {s : State} (v : Word) (idle : s.aon.load = none) : s.aonShiftWrite v = s.shiftArmed v :=
  if_neg (by simp [idle])

theorem State.aonShiftWrite_pending {s : State} (v : Word) {b : Nat} (pends : s.aon.load = some b) :
    s.aonShiftWrite v = (s.shiftWritten v).shiftLost := if_pos (by simp [pends])

/-- A write of AON_SHIFT while no LOAD pends arms the shift (R391). -/
theorem Runs.aonShift {s : State} (v : Word) (unlocked : s.aon.locked = false) (idle : s.aon.load = none)
    (run : s.cpStopped = false) : Runs (.aonShift v) s fun t =>
      t.aon = { s.aon with shift := some (signed 16 v.toNat) } ∧ t.fld AON_SHIFT.K = AON_SHIFT.K.of v
      ∧ t.flag AON_STAT.SHIFT_PEND = true ∧ KeepsRegs s t [AON_SHIFT, AON_STAT] ∧ KeepsMem s t
      ∧ KeepsRest s { t with aon := s.aon } := by
  refine Runs.of_out ((exec_aonShift v run).trans (congrArg State.out (State.aonWrite_open _ unlocked))) ?_
  rw [State.aonShiftWrite_idle v idle]
  refine ⟨State.intcLatch_aon _, ?k, ?pend, KeepsRegs.intcLatch fun a ha _ => ?regs, keepsMem_keepsRest_of_aonOnly rfl⟩
  case k =>
    rw [State.fld_intcLatch _ _ (by decide), State.shiftArmed, State.fld_setFlag_ne _ _ _ _ (by decide), State.setAon_fld,
      State.shift_shiftWritten]
  case pend =>
    rw [State.flag_intcLatch _ _ (by decide), State.shiftArmed, State.flag_setFlag_self _ _ _ rfl (by decide)]
  case regs =>
    obtain ⟨shift, stat⟩ : a ≠ AON_SHIFT ∧ a ≠ AON_STAT := by simpa using ha
    rw [State.shiftArmed, State.reg_setFlag_ne _ _ _ _ stat, State.setAon_reg, State.shiftWritten, State.reg_setFld_ne _ _ _ _ shift]

/-- A write of AON_SHIFT while a LOAD pends is lost (R392). -/
theorem Runs.aonShift_lost {s : State} (v : Word) {b : Nat} (unlocked : s.aon.locked = false) (pends : s.aon.load = some b)
    (run : s.cpStopped = false) : Runs (.aonShift v) s fun t =>
      t.aon = { s.aon with shift := none } ∧ t.flag AON_STAT.SHIFT_LOST = true ∧ t.flag AON_EVT.SHIFT_LOST = true
      ∧ KeepsRegs s t [AON_SHIFT, AON_STAT, AON_EVT] ∧ KeepsMem s t ∧ KeepsRest s { t with aon := s.aon } := by
  obtain ⟨stat, evt⟩ := (s.shiftWritten v).shiftLost_shown
  refine Runs.of_out ((exec_aonShift v run).trans (congrArg State.out (State.aonWrite_open _ unlocked))) ?_
  rw [State.aonShiftWrite_pending v pends]
  refine ⟨State.intcLatch_aon _, ?stat, ?evt, KeepsRegs.intcLatch fun a ha _ => ?regs, keepsMem_keepsRest_of_aonOnly rfl⟩
  case stat => rw [State.flag_intcLatch _ _ (by decide), stat]
  case evt => rw [State.flag_intcLatch _ _ (by decide), evt]
  case regs =>
    obtain ⟨shift, stat, evt⟩ : a ≠ AON_SHIFT ∧ a ≠ AON_STAT ∧ a ≠ AON_EVT := by simpa using ha
    rw [State.reg_shiftLost _ stat evt, State.shiftWritten, State.reg_setFld_ne _ _ _ _ shift]

/-- During the lockout a write of the AON domain takes the trap of a store alone (R108, R396). -/
theorem Runs.aonWrite_lockedOut {s : State} {c : Instr} {f : State → State} (effect : exec c s = (s.aonWrite f).out)
    (locked : s.aon.locked = true) : Runs c s fun t =>
      t.cp.trap = some 7 ∧ t.cp.machine = true ∧ KeepsRegs s t [] ∧ KeepsMem s t
      ∧ KeepsRest s { t with cp := { t.cp with trap := s.cp.trap, machine := s.cp.machine } } :=
  Runs.of_out (effect.trans (congrArg State.out (State.aonWrite_locked f locked)))
    ⟨by simp, by simp, KeepsRegs.intcLatch fun _ _ _ => rfl, KeepsMem.intcLatch ⟨rfl, fun _ => rfl⟩, KeepsRest.trapTaken s 7⟩

/-- Settles O1: a write of AON_CTL or AON_SHIFT comes to what it arms (`State.loadArmed`, a shift, CLRHI) and, where it discards a
shift, to `State.shiftLost`; during the lockout to the trap of a store. -/
theorem aonCounterWrites : Obligations.AonCounterWrites := by
  unfold Obligations.AonCounterWrites
  refine ⟨fun _ _ => Runs.load, ?again, fun _ => Runs.aonShift, fun _ v _ => Runs.aonShift_lost v, ?clrhi, ?lockedOut⟩
  case again =>
    intro s v b load unlocked pends run
    obtain ⟨t, next, aon, frame⟩ := Runs.aonCtl_noLoad (exec_load load run) unlocked (.inr (by rw [pends]; rfl))
    exact ⟨t, next, by rw [aon, pends], by rw [aon], frame⟩
  case clrhi =>
    intro s v clrhi noLoad unlocked run
    obtain ⟨t, next, aon, frame⟩ := Runs.aonCtl_noLoad (exec_clrhi clrhi run) unlocked (.inl (by omega))
    exact ⟨t, next, by rw [aon, decide_eq_true clrhi, Bool.true_or], frame⟩
  case lockedOut =>
    intro s v c locked run command
    have effect : ∃ f, exec c s = (s.aonWrite f).out := by
      rcases command with rfl | ⟨rfl, load⟩ | ⟨rfl, clrhi⟩
      · exact ⟨_, exec_aonShift v run⟩
      · exact ⟨_, exec_load load run⟩
      · exact ⟨_, exec_clrhi clrhi run⟩
    obtain ⟨f, effect⟩ := effect
    exact Runs.aonWrite_lockedOut effect locked

end Sys2Proof.Machine
end

section
/-! SUPPORT. Trips of the loop slots (R142 to R144, R170, R172): what a slot that enters or leaves its tripped state writes, and what the
pass over all slots leaves. -/

namespace Sys2Proof.Machine

/-- The registers that the safe value of slot `n` writes, with those of the drives and of TUNE. -/
def safeRegs (n a : Nat) : Bool := a == LE_SLOT_OUT n || blocks [0x4004, 0x4005] a

/-- The same with the slot's status. -/
def tripRegs (n a : Nat) : Bool := a == LE_SLOT_STAT n || safeRegs n a

/-- What lies outside the registers `own`, the state of the loops and of TUNE, and the analogue outputs. -/
def State.butLoops (own : Nat → Bool) (s : State) : State × (Nat → Word) × (Nat → Byte) :=
  s.outside (fun s => { s with le := {}, tune := {}, ana := { s.ana with ao := [], aoNext := [] } }) own noByte

/-- The registers of LE, PD and TUNE. -/
abbrev loopRegs : Nat → Bool := blocks [0x4003, 0x4004, 0x4005]

section butLoops
variable {own : Nat → Bool} {s t : State}

theorem State.butLoops_setReg (s : State) (a : Nat) (v : Word) (h : own a = true) : (s.setReg a v).butLoops own = s.butLoops own :=
  State.outside_setReg v h

theorem State.butLoops_setFld (s : State) (f : Field) (v : Nat) (h : own f.addr = true) :
    (s.setFld f v).butLoops own = s.butLoops own := s.butLoops_setReg f.addr _ h

theorem State.butLoops_setFlag (s : State) (f : Field) (b : Bool) (h : own f.addr = true) :
    (s.setFlag f b).butLoops own = s.butLoops own := s.butLoops_setReg f.addr _ h

theorem State.butLoops_setSlot (s : State) (n : Nat) (x : LeSlot) : (s.setSlot n x).butLoops own = s.butLoops own := rfl

theorem State.butLoops_setDrive (s : State) (d : Nat) (x : PdSt) : (s.setDrive d x).butLoops own = s.butLoops own := rfl

theorem State.butLoops_traceEvent (s : State) (b : Nat) : (s.traceEvent b).butLoops own = s.butLoops own := rfl

theorem State.butLoops_mono {own' : Nat → Bool} (h : t.butLoops own = s.butLoops own) (le : ∀ a, own a = true → own' a = true) :
    t.butLoops own' = s.butLoops own' := State.outside_mono h id (fun _ => rfl) le fun _ ha => ha

theorem KeepsMem.of_butLoops (h : t.butLoops own = s.butLoops own) : KeepsMem s t :=
  ⟨(congrArg State.ecc (State.hide_of_outside h) :), fun _ => State.rd8_of_outside h rfl⟩

theorem KeepsMem.keepsMemOut {u : State} (h : KeepsMem s u) (a n : Nat) : KeepsMemOut s u a n :=
  ⟨fun b _ => h.2 b, fun x _ => by rw [h.1]⟩

/-- What changes the registers and the state of the loops alone leaves what they leave alone. -/
theorem KeepsButLoops.of_butLoops (h : t.butLoops loopRegs = s.butLoops loopRegs) : KeepsButLoops s t.intcLatch := by
  have mem : KeepsMemOut s t.intcLatch 0x32000000 0x100000 := (KeepsMem.of_butLoops h).intcLatch.keepsMemOut _ _
  refine ⟨fun a ha hp => ?regs, fun _ _ => mem, fun _ => mem, ?rest⟩
  case regs =>
    rw [State.reg_intcLatch_ne _ _ hp]
    exact State.reg_of_outside h (by simpa [blocks] using ha)
  case rest =>
    obtain ⟨r, d, latch⟩ := t.intcLatch_updates
    rw [latch]
    exact (congrArg (fun x : State =>
      { x with regs := s.regs, mem := s.mem, ecc := s.ecc, le := s.le, tune := s.tune,
               ana := { x.ana with ao := s.ana.ao, aoNext := s.ana.aoNext }, cp := { x.cp with dioReq := s.cp.dioReq } })
      (State.hide_of_outside h) :)

end butLoops

section places
variable {n d : Nat}

/-! Which registers these are. -/

theorem safeRegs_out : safeRegs n (LE_SLOT_OUT n) = true := by simp [safeRegs]

theorem safeRegs_pdStat (hd : d < 4) : safeRegs n (PD_STAT d) = true := by
  have block : (PD_STAT d) / 0x10000 = 0x4004 := by simp only [PD_STAT]; omega
  simp [safeRegs, blocks, block]

theorem safeRegs_pdEvt (hd : d < 4) : safeRegs n (PD_EVT d) = true := by
  have block : (PD_EVT d) / 0x10000 = 0x4004 := by simp only [PD_EVT]; omega
  simp [safeRegs, blocks, block]

theorem safeRegs_tune {a : Nat} (h : a / 0x10000 = 0x4005) : safeRegs n a = true := by simp [safeRegs, blocks, h]

/-- A trip writes no register below those of the slots. -/
theorem tripRegs_below {a : Nat} (low : a < 0x40030100) : tripRegs n a = false := by
  have block : a / 0x10000 ≠ 0x4004 ∧ a / 0x10000 ≠ 0x4005 := by omega
  have slot : a ≠ LE_SLOT_STAT n ∧ a ≠ LE_SLOT_OUT n := by simp only [LE_SLOT_STAT, LE_SLOT_OUT]; omega
  simp [tripRegs, safeRegs, blocks, block, slot]

/-- A safe value writes no slot's status. -/
theorem safeRegs_slotStat {m : Nat} (hm : m < 64) : safeRegs n (LE_SLOT_STAT m) = false := by
  have block : LE_SLOT_STAT m / 0x10000 = 0x4003 := by simp only [LE_SLOT_STAT]; omega
  have out : LE_SLOT_STAT m ≠ LE_SLOT_OUT n := by simp only [LE_SLOT_STAT, LE_SLOT_OUT]; omega
  simp [safeRegs, blocks, block, out]

/-- A trip writes the status of no other slot. -/
theorem tripRegs_slotStat {m : Nat} (hm : m < 64) (ne : m ≠ n) : tripRegs n (LE_SLOT_STAT m) = false := by
  have stat : LE_SLOT_STAT m ≠ LE_SLOT_STAT n := by simp only [LE_SLOT_STAT]; omega
  rw [tripRegs, safeRegs_slotStat hm, beq_false_of_ne stat, Bool.or_self]

/-- All that a trip of a slot writes belongs to the loops. -/
theorem loopRegs_of_tripRegs (hn : n < 64) {a : Nat} (h : tripRegs n a = true) : loopRegs a = true := by
  simp only [tripRegs, safeRegs, blocks, Bool.or_eq_true, beq_iff_eq, List.contains_iff_mem, List.mem_cons, List.not_mem_nil,
    or_false, LE_SLOT_STAT, LE_SLOT_OUT] at h ⊢
  omega

end places

section trips
variable (s : State) (n : Nat)

theorem State.slotDrive_lt {d : Nat} (h : s.slotDrive n = some d) : d < 4 := by
  unfold State.slotDrive at h
  split at h
  · exact Option.some.inj h ▸ Nat.mod_lt _ (by decide)
  · exact absurd h nofun

theorem State.butLoops_driveOff {d : Nat} (hd : d < 4) : (s.driveOff d).butLoops (safeRegs n) = s.butLoops (safeRegs n) :=
  (State.butLoops_setDrive ..).trans ((State.butLoops_setFlag _ (PD_STAT.RUN d) false (safeRegs_pdStat hd)).trans
    (s.butLoops_setFlag (PD_STAT.OFF d) true (safeRegs_pdStat hd)))

theorem State.butLoops_driveTrip : (s.driveTrip n).butLoops (safeRegs n) = s.butLoops (safeRegs n) := by
  unfold State.driveTrip
  split
  case h_2 => rfl
  case h_1 d drive =>
    have hd := s.slotDrive_lt n drive
    refine (State.butLoops_setFlag _ (PD_STAT.TRIP d) _ (safeRegs_pdStat hd)).trans ?_
    split
    · exact s.butLoops_setFlag (PD_EVT.TRIP d) true (safeRegs_pdEvt hd)
    · rfl

theorem State.butLoops_setOut (w : Word) (view : Bf) (force : Bool) :
    (s.setOut n w view force).butLoops (safeRegs n) = s.butLoops (safeRegs n) := by
  have written : (s.setReg (LE_SLOT_OUT n) w).butLoops (safeRegs n) = s.butLoops (safeRegs n) := s.butLoops_setReg _ w safeRegs_out
  unfold State.setOut State.aoWrite
  extract_lets shown
  split
  · split <;> exact written
  · exact written

theorem State.butLoops_slotSafe (force : Bool) : (s.slotSafe n force).butLoops (safeRegs n) = s.butLoops (safeRegs n) := by
  unfold State.slotSafe
  split
  · next d drive => exact s.butLoops_driveOff n (s.slotDrive_lt n drive)
  · extract_lets w
    split
    · exact s.butLoops_setOut n _ _ _
    · exact s.butLoops_setOut n _ _ _

theorem State.butLoops_injAbort (c : Nat) : (s.injAbort c).butLoops (safeRegs n) = s.butLoops (safeRegs n) := by
  unfold State.injAbort
  extract_lets run captured ended
  have capture : captured.butLoops (safeRegs n) = s.butLoops (safeRegs n) := by
    unfold captured
    split
    · exact s.butLoops_setFlag TUNE_STAT.CAP_RUN false (safeRegs_tune rfl)
    · rfl
  have ends : ended.butLoops (safeRegs n) = s.butLoops (safeRegs n) :=
    (State.butLoops_setFld _ TUNE_INJ_STAT.ABORT _ (safeRegs_tune rfl)).trans
      ((State.butLoops_setFld _ TUNE_INJ_STAT.CODE _ (safeRegs_tune rfl)).trans
        ((captured.butLoops_setFlag TUNE_STAT.INJ_RUN false (safeRegs_tune rfl)).trans capture))
  split
  · exact (ended.butLoops_setFlag TUNE_EVT.INJ_END true (safeRegs_tune rfl)).trans ends
  · exact capture

theorem State.butLoops_injLoopEvent : (s.injLoopEvent n).butLoops (safeRegs n) = s.butLoops (safeRegs n) := by
  unfold State.injLoopEvent
  split
  · exact s.butLoops_injAbort n 1
  · rfl

/-- Slot `n` as it is marked tripped, its output still to be made safe. -/
def State.tripMarked : State :=
  ((s.driveTrip n).setFlag (LE_SLOT_STAT.TRIPPED n) true).setSlot n { (s.driveTrip n).slot n with auto := false }

theorem State.enterTrip_eq : s.enterTrip n = if (s.driveTrip n).flag (LE_SLOT_STAT.TRIPPED n) then s.driveTrip n
    else ((s.tripMarked n).slotSafe n true).injLoopEvent n := rfl

theorem State.butLoops_safe_tripMarked : (((s.tripMarked n).slotSafe n true).injLoopEvent n).butLoops (safeRegs n)
    = (s.tripMarked n).butLoops (safeRegs n) := (State.butLoops_injLoopEvent _ n).trans (State.butLoops_slotSafe _ n true)

theorem safeRegs_le_tripRegs {a : Nat} (h : safeRegs n a = true) : tripRegs n a = true := by rw [tripRegs, h, Bool.or_true]

theorem tripRegs_stat : tripRegs n (LE_SLOT_STAT n) = true := by simp [tripRegs]

theorem State.butTrip_driveTrip : (s.driveTrip n).butLoops (tripRegs n) = s.butLoops (tripRegs n) :=
  State.butLoops_mono (s.butLoops_driveTrip n) fun _ => safeRegs_le_tripRegs n

theorem State.butTrip_enterTrip : (s.enterTrip n).butLoops (tripRegs n) = s.butLoops (tripRegs n) := by
  have marked : (s.tripMarked n).butLoops (tripRegs n) = s.butLoops (tripRegs n) :=
    (State.butLoops_setSlot ..).trans ((State.butLoops_setFlag _ (LE_SLOT_STAT.TRIPPED n) true (tripRegs_stat n)).trans
      (s.butTrip_driveTrip n))
  rw [s.enterTrip_eq]
  split
  · exact s.butTrip_driveTrip n
  · exact (State.butLoops_mono (s.butLoops_safe_tripMarked n) fun _ => safeRegs_le_tripRegs n).trans marked

theorem State.butTrip_leaveTrip : (s.leaveTrip n).butLoops (tripRegs n) = s.butLoops (tripRegs n) := by
  unfold State.leaveTrip
  split
  · exact (State.butTrip_driveTrip _ n).trans (s.butLoops_setFlag (LE_SLOT_STAT.TRIPPED n) false (tripRegs_stat n))
  · rfl

/-- A slot that enters its tripped state shows it (R143). -/
theorem State.tripped_enterTrip (hn : n < 64) : (s.enterTrip n).flag (LE_SLOT_STAT.TRIPPED n) = true := by
  rw [s.enterTrip_eq]
  split
  · next already => exact already
  · rw [State.flag, State.fld, State.reg_of_outside (s.butLoops_safe_tripMarked n) (safeRegs_slotStat hn)]
    exact State.flag_setFlag_self _ (LE_SLOT_STAT.TRIPPED n) true rfl (by simp)

/-! A trip touches no overcurrent flag: PD_STAT.OC ends by PD_CLR alone (R170). -/

section overcurrent
variable (d : Nat)

theorem State.oc_setFlag {f : Field} (b : Bool) (h : f.hi < 3 ∨ 3 < f.lo) :
    (s.setFlag f b).flag (PD_STAT.OC d) = s.flag (PD_STAT.OC d) :=
  s.flag_setFlag_disjoint f (PD_STAT.OC d) b h.symm (show 3 < 32 by decide)

theorem State.oc_driveOff (e : Nat) : (s.driveOff e).flag (PD_STAT.OC d) = s.flag (PD_STAT.OC d) := by
  rw [State.driveOff, State.setDrive_flag, State.oc_setFlag _ d false (.inl (by simp)), s.oc_setFlag d true (.inl (by simp))]

theorem State.oc_driveTrip : (s.driveTrip n).flag (PD_STAT.OC d) = s.flag (PD_STAT.OC d) := by
  unfold State.driveTrip
  split
  · extract_lets hit shown
    rw [State.oc_setFlag _ d hit (.inl (by simp))]
    unfold shown
    split
    · exact s.oc_setFlag d true (.inl (by simp))
    · rfl
  · rfl

theorem State.oc_setOut (w : Word) (view : Bf) (force : Bool) :
    (s.setOut n w view force).flag (PD_STAT.OC d) = s.flag (PD_STAT.OC d) := by
  have written : (s.setReg (LE_SLOT_OUT n) w).flag (PD_STAT.OC d) = s.flag (PD_STAT.OC d) :=
    s.flag_setReg_ne _ w (PD_STAT.OC d) (by simp only [PD_STAT, LE_SLOT_OUT]; omega)
  unfold State.setOut State.aoWrite
  extract_lets shown
  split
  · split <;> exact written
  · exact written

theorem State.oc_slotSafe (force : Bool) : (s.slotSafe n force).flag (PD_STAT.OC d) = s.flag (PD_STAT.OC d) := by
  unfold State.slotSafe
  split
  · exact s.oc_driveOff d _
  · extract_lets w
    split
    · exact s.oc_setOut n d _ _ _
    · exact s.oc_setOut n d _ _ _

theorem State.oc_injLoopEvent (hd : d < 4) : (s.injLoopEvent n).flag (PD_STAT.OC d) = s.flag (PD_STAT.OC d) := by
  have apart : sessionRegs (PD_STAT d) = false := by interval_cases d <;> rfl
  unfold State.injLoopEvent
  split
  · rw [State.flag, State.fld, State.reg_of_outside (s.regsBut_injAbort 1) apart, State.flag, State.fld]
  · rfl

theorem State.oc_enterTrip (hd : d < 4) : (s.enterTrip n).flag (PD_STAT.OC d) = s.flag (PD_STAT.OC d) := by
  have marked : (s.tripMarked n).flag (PD_STAT.OC d) = s.flag (PD_STAT.OC d) :=
    (State.oc_setFlag _ d true (.inr (by simp))).trans (s.oc_driveTrip n d)
  rw [s.enterTrip_eq]
  split
  · exact s.oc_driveTrip n d
  · rw [State.oc_injLoopEvent _ n d hd, State.oc_slotSafe, marked]

theorem State.oc_leaveTrip : (s.leaveTrip n).flag (PD_STAT.OC d) = s.flag (PD_STAT.OC d) := by
  unfold State.leaveTrip
  split
  · exact (State.oc_driveTrip _ n d).trans (s.oc_setFlag d false (.inr (by simp)))
  · rfl

end overcurrent
end trips

/-! The pass over all slots (R143, R144). -/

section pass
variable (s : State)

/-- Slot `n` enters or leaves its tripped state, as the latches and the overcurrents stand. -/
def State.tripPass (n : Nat) (s : State) : State := if s.tripNow n then s.enterTrip n else s.leaveTrip n

theorem State.applyTrips_eq : s.applyTrips = if s.stalled || s.inSleep then s else forN State.tripPass 64 s := rfl

theorem State.butLoops_tripPass (n : Nat) : (s.tripPass n).butLoops (tripRegs n) = s.butLoops (tripRegs n) := by
  unfold State.tripPass
  split
  · exact s.butTrip_enterTrip n
  · exact s.butTrip_leaveTrip n

theorem State.butLoops_applyTrips : s.applyTrips.butLoops loopRegs = s.butLoops loopRegs := by
  rw [s.applyTrips_eq]
  split
  · rfl
  · exact forN_keeps_lt (State.butLoops loopRegs) _ (fun n hn x =>
      State.butLoops_mono (x.butLoops_tripPass n) fun _ => loopRegs_of_tripRegs hn) s

/-- The registers below those of the slots hold through the pass: those of the trip inputs, LE_STAT and LE_EVT. -/
theorem State.reg_forN_tripPass (m : Nat) {a : Nat} (low : a < 0x40030100) : (forN State.tripPass m s).reg a = s.reg a :=
  forN_keeps (fun x : State => x.reg a) _ (fun n x => State.reg_of_outside (x.butLoops_tripPass n) (tripRegs_below low)) m s

theorem State.reg_applyTrips {a : Nat} (low : a < 0x40030100) : s.applyTrips.reg a = s.reg a := by
  rw [s.applyTrips_eq]
  split
  · rfl
  · exact s.reg_forN_tripPass 64 low

theorem State.fld_applyTrips (f : Field) (low : f.addr < 0x40030100) : s.applyTrips.fld f = s.fld f := by
  rw [State.fld, s.reg_applyTrips low, State.fld]

theorem State.flag_applyTrips (f : Field) (low : f.addr < 0x40030100) : s.applyTrips.flag f = s.flag f := by
  rw [State.flag, s.fld_applyTrips f low, State.flag]

theorem State.oc_applyTrips {d : Nat} (hd : d < 4) : s.applyTrips.flag (PD_STAT.OC d) = s.flag (PD_STAT.OC d) := by
  rw [s.applyTrips_eq]
  split
  · rfl
  · refine forN_keeps (fun x : State => x.flag (PD_STAT.OC d)) _ (fun n x => ?_) 64 s
    unfold State.tripPass
    split
    · exact x.oc_enterTrip n d hd
    · exact x.oc_leaveTrip n d

/-- Whether an input hits a slot, registers below those of the slots say. -/
theorem State.tripHits_congr {s t : State} (low : ∀ a, a < 0x40030100 → t.reg a = s.reg a) {i : Nat} (hi : i < 8) (n : Nat) :
    t.tripHits i n = s.tripHits i n := by
  simp only [State.tripHits, State.flag, State.fld, State.reg64]
  rw [low (LE_TRIP_CFG.EN i).addr (by simp only [LE_TRIP_CFG]; omega), low LE_TRIP_STAT.LATCH.addr (by decide),
    low (LE_TRIP_MASK_LO i) (by simp only [LE_TRIP_MASK_LO]; omega), low (LE_TRIP_MASK_HI i) (by simp only [LE_TRIP_MASK_HI]; omega)]

theorem State.tripNow_of_hits {s : State} {i n : Nat} (hi : i < 8) (h : s.tripHits i n = true) : s.tripNow n = true := by
  rw [State.tripNow, State.tripInput, List.any_eq_true.2 ⟨i, List.mem_range.2 hi, h⟩, Bool.true_or]

/-- Every slot that a latched input masks is tripped when the pass has come by it, and stays so (R143). -/
theorem State.tripped_forN {i n : Nat} (hi : i < 8) (hn : n < 64) (h : s.tripHits i n = true) {m : Nat} (past : n < m) :
    (forN State.tripPass m s).flag (LE_SLOT_STAT.TRIPPED n) = true := by
  induction m with
  | zero => exact absurd past (Nat.not_lt_zero n)
  | succ m ih =>
    rw [forN]
    rcases Nat.lt_succ_iff_lt_or_eq.1 past with before | rfl
    · rw [State.flag, State.fld,
        State.reg_of_outside (State.butLoops_tripPass _ m) (tripRegs_slotStat hn (Nat.ne_of_lt before))]
      exact ih before
    · have hits := (State.tripHits_congr (fun _ => s.reg_forN_tripPass n) hi n).trans h
      rw [State.tripPass, if_pos (State.tripNow_of_hits hi hits)]
      exact State.tripped_enterTrip _ n hn

theorem State.tripped_applyTrips {i n : Nat} (run : s.stalled = false) (awake : s.inSleep = false) (hi : i < 8) (hn : n < 64)
    (h : s.tripHits i n = true) : s.applyTrips.flag (LE_SLOT_STAT.TRIPPED n) = true := by
  rw [s.applyTrips_eq, if_neg (by simp [run, awake])]
  exact s.tripped_forN hi hn h hn

end pass

/-! The commands of R142 to R144, R159, R170 and R171. -/

section commands

/-- The trip input's latch, its flag and its event (R142, R143). -/
def State.tripLatched (s : State) (i : Nat) : State :=
  (((s.setBit LE_TRIP_STAT.LATCH i true).setFlag LE_STAT.TRIP_ANY true).setFlag LE_EVT.TRIP true).traceEvent 4

theorem exec_trip {s : State} {i : Fin 8} (en : s.flag (LE_TRIP_CFG.EN i) = true) (level : bit (s.fld LE_TRIP_STAT.LEVEL) i = true)
    (latch : bit (s.fld LE_TRIP_STAT.LATCH) i = false) : exec (.trip i) s = (s.tripLatched i).applyTrips.out :=
  congrArg State.out (if_neg (by simp [en, level, latch]))

theorem State.butLoops_tripLatched (s : State) (i : Nat) : (s.tripLatched i).butLoops loopRegs = s.butLoops loopRegs := by
  rw [State.tripLatched, State.butLoops_traceEvent, State.butLoops_setFlag _ LE_EVT.TRIP true rfl,
    State.butLoops_setFlag _ LE_STAT.TRIP_ANY true rfl, State.setBit, State.butLoops_setFld _ LE_TRIP_STAT.LATCH _ rfl]

/-- The settings of the trip inputs lie between LE_EVT and LE_TRIP_STAT. -/
theorem State.reg_tripLatched (s : State) (i : Nat) {a : Nat} (above : 0x40030008 < a) (below : a < 0x400300A0) :
    (s.tripLatched i).reg a = s.reg a :=
  (State.reg_setFlag_ne _ LE_EVT.TRIP true a (Nat.ne_of_gt above)).trans
    ((State.reg_setFlag_ne _ LE_STAT.TRIP_ANY true a (Nat.ne_of_gt (Nat.lt_trans (by decide) above))).trans
      (s.reg_setBit_ne LE_TRIP_STAT.LATCH i true a (Nat.ne_of_lt below)))

theorem State.fld_tripLatched_latch (s : State) (i : Nat) :
    (s.tripLatched i).fld LE_TRIP_STAT.LATCH = (s.setBit LE_TRIP_STAT.LATCH i true).fld LE_TRIP_STAT.LATCH :=
  (State.fld_setFlag_ne _ LE_EVT.TRIP LE_TRIP_STAT.LATCH true (by decide)).trans
    (State.fld_setFlag_ne _ LE_STAT.TRIP_ANY LE_TRIP_STAT.LATCH true (by decide))

/-- An input that is latched hits the slots of its mask (R142). -/
theorem State.tripHits_tripLatched {s : State} {i n : Nat} (hi : i < 8) (en : s.flag (LE_TRIP_CFG.EN i) = true)
    (mask : bit (s.reg64 (LE_TRIP_MASK_LO i) (LE_TRIP_MASK_HI i)) n = true) : (s.tripLatched i).tripHits i n = true := by
  have cfg : (s.tripLatched i).reg (LE_TRIP_CFG i) = s.reg (LE_TRIP_CFG i) :=
    s.reg_tripLatched i (by simp only [LE_TRIP_CFG]; omega) (by simp only [LE_TRIP_CFG]; omega)
  have lo : (s.tripLatched i).reg (LE_TRIP_MASK_LO i) = s.reg (LE_TRIP_MASK_LO i) :=
    s.reg_tripLatched i (by simp only [LE_TRIP_MASK_LO]; omega) (by simp only [LE_TRIP_MASK_LO]; omega)
  have hi' : (s.tripLatched i).reg (LE_TRIP_MASK_HI i) = s.reg (LE_TRIP_MASK_HI i) :=
    s.reg_tripLatched i (by simp only [LE_TRIP_MASK_HI]; omega) (by simp only [LE_TRIP_MASK_HI]; omega)
  rw [State.tripHits, State.flag, State.fld, cfg, s.fld_tripLatched_latch,
    State.bit_setBit _ _ _ _ (by simp; omega) (by decide), if_pos rfl, State.reg64, lo, hi', ← State.reg64, mask,
    Bool.and_true, Bool.and_true]
  exact en

theorem Runs.trip (s : State) (i : Fin 8) (en : s.flag (LE_TRIP_CFG.EN i) = true) (level : bit (s.fld LE_TRIP_STAT.LEVEL) i = true)
    (latch : bit (s.fld LE_TRIP_STAT.LATCH) i = false) (run : s.stalled = false) (awake : s.inSleep = false) :
    Runs (.trip i) s fun t =>
      bit (t.fld LE_TRIP_STAT.LATCH) i = true ∧ t.flag LE_STAT.TRIP_ANY = true ∧ t.flag LE_EVT.TRIP = true
      ∧ KeepsButLoops s t ∧ KeepsMem s t
      ∧ ∀ n < 64, bit (s.reg64 (LE_TRIP_MASK_LO i) (LE_TRIP_MASK_HI i)) n = true → t.flag (LE_SLOT_STAT.TRIPPED n) = true := by
  have kept : (s.tripLatched i).applyTrips.butLoops loopRegs = s.butLoops loopRegs :=
    (State.butLoops_applyTrips _).trans (s.butLoops_tripLatched i)
  refine Runs.of_out (exec_trip en level latch) ⟨?latched, ?any, ?event, .of_butLoops kept, (KeepsMem.of_butLoops kept).intcLatch,
    fun n hn mask => ?tripped⟩
  case latched =>
    rw [State.fld_intcLatch _ _ (by decide), State.fld_applyTrips _ _ (by decide), s.fld_tripLatched_latch,
      State.bit_setBit _ _ _ _ (by simp; omega) (by decide), if_pos rfl]
  case any =>
    rw [State.flag_intcLatch _ _ (by decide), State.flag_applyTrips _ _ (by decide)]
    exact (State.flag_setFlag_ne _ LE_EVT.TRIP LE_STAT.TRIP_ANY true (by decide)).trans
      (State.flag_setFlag_self _ LE_STAT.TRIP_ANY true rfl (by decide))
  case event =>
    rw [State.flag_intcLatch _ _ (by decide), State.flag_applyTrips _ _ (by decide)]
    exact State.flag_setFlag_self _ LE_EVT.TRIP true rfl (by decide)
  case tripped =>
    rw [State.flag_intcLatch _ _ (by simp only [LE_SLOT_STAT]; omega)]
    exact State.tripped_applyTrips _ run awake i.isLt hn (State.tripHits_tripLatched i.isLt en mask)

/-- Clearing the bits that `clr` names, one after the other. -/
theorem bit_foldl_clear (clr : Nat → Bool) (l : List Nat) (x i : Nat) :
    bit (l.foldl (fun y t => if clr t then putBit y t false else y) x) i = (bit x i && !(l.contains i && clr i)) := by
  induction l generalizing x with
  | nil => simp
  | cons t l ih =>
    have one : bit (if clr t then putBit x t false else x) i = (bit x i && !(i == t && clr i)) := by
      by_cases same : i = t
      · subst same
        cases h : clr i <;> simp [bit_putBit]
      · cases h : clr t <;> simp [bit_putBit, same]
    rw [List.foldl_cons, ih, one, List.contains_cons]
    cases clr i <;> simp [Bool.and_assoc]

/-- The latches that a write of LE_TRIP_STAT leaves (R144). -/
def State.latchesLeft (s : State) (v : Word) : Nat :=
  (List.range 8).foldl (fun l t => if bit v.toNat t && !(bit (s.fld LE_TRIP_STAT.LEVEL) t) then putBit l t false else l)
    (s.fld LE_TRIP_STAT.LATCH)

theorem State.tripClear_eq (s : State) (v : Word) :
    s.tripClear v = ((s.setFld LE_TRIP_STAT.LATCH (s.latchesLeft v)).setFlag LE_STAT.TRIP_ANY (s.latchesLeft v != 0)).applyTrips := rfl

theorem State.bit_latchesLeft (s : State) (v : Word) (i : Nat) : bit (s.latchesLeft v) i
    = (bit (s.fld LE_TRIP_STAT.LATCH) i && !((List.range 8).contains i && (bit v.toNat i && !bit (s.fld LE_TRIP_STAT.LEVEL) i))) :=
  bit_foldl_clear (fun t => bit v.toNat t && !bit (s.fld LE_TRIP_STAT.LEVEL) t) _ _ i

theorem State.latchesLeft_lt (s : State) (v : Word) : s.latchesLeft v < 2 ^ 8 := by
  refine Nat.lt_pow_two_of_testBit _ fun i hi => ?_
  have outside : bit (s.fld LE_TRIP_STAT.LATCH) i = false := by
    rw [bit_eq_testBit]
    exact Nat.testBit_lt_two_pow (Nat.lt_of_lt_of_le (bits_lt _ 7 0) (Nat.pow_le_pow_right (by decide) hi))
  rw [← bit_eq_testBit, s.bit_latchesLeft, outside, Bool.false_and]

theorem Runs.tripLatchClear (s : State) (v : Word) (run : s.cpStopped = false) : Runs (.tripLatchClear v) s fun t =>
    (∀ i < 8, bit (t.fld LE_TRIP_STAT.LATCH) i
      = (bit (s.fld LE_TRIP_STAT.LATCH) i && !(bit v.toNat i && !bit (s.fld LE_TRIP_STAT.LEVEL) i)))
    ∧ t.flag LE_STAT.TRIP_ANY = (t.fld LE_TRIP_STAT.LATCH != 0) ∧ KeepsButLoops s t ∧ KeepsMem s t := by
  have kept : (s.tripClear v).butLoops loopRegs = s.butLoops loopRegs := by
    rw [s.tripClear_eq, State.butLoops_applyTrips, State.butLoops_setFlag _ LE_STAT.TRIP_ANY _ rfl,
      State.butLoops_setFld _ LE_TRIP_STAT.LATCH _ rfl]
  have latch : (s.tripClear v).intcLatch.fld LE_TRIP_STAT.LATCH = s.latchesLeft v := by
    rw [State.fld_intcLatch _ _ (by decide), s.tripClear_eq, State.fld_applyTrips _ _ (by decide),
      State.fld_setFlag_ne _ _ _ _ (by decide), State.fld_setFld_self _ _ _ (by decide) (by decide)]
    exact Nat.mod_eq_of_lt (s.latchesLeft_lt v)
  refine Runs.of_out (State.cpDoes_running (fun s => s.tripClear v) run)
    ⟨fun i hi => ?left, ?any, .of_butLoops kept, (KeepsMem.of_butLoops kept).intcLatch⟩
  case left =>
    rw [latch, s.bit_latchesLeft, List.contains_iff_mem.2 (List.mem_range.2 hi), Bool.true_and]
  case any =>
    rw [latch, State.flag_intcLatch _ _ (by decide), s.tripClear_eq, State.flag_applyTrips _ _ (by decide),
      State.flag_setFlag_self _ _ _ rfl (by decide)]

/-! A fault's end (R159). -/

theorem State.slot_setSlot_self (s : State) {n : Nat} (x : LeSlot) (h : n < s.le.slots.length) : (s.setSlot n x).slot n = x := by
  simp [State.slot, State.setSlot, nth, putAt, h]

theorem State.slot_setSlot_ne (s : State) {n m : Nat} (x : LeSlot) (h : m ≠ n) : (s.setSlot n x).slot m = s.slot m := by
  simp [State.slot, State.setSlot, nth, putAt, List.getElem?_set_ne (Ne.symm h)]

/-- A slot that is not there reads as the default, whatever is put in its place. -/
theorem State.slot_setSlot_absent (s : State) {n : Nat} (x : LeSlot) (h : s.le.slots.length ≤ n) : (s.setSlot n x).slot n = {} := by
  simp [State.slot, State.setSlot, nth, putAt, h]

/-- The status of slot `n` with the flags cleared that `v` names. -/
def State.statCleared (s : State) (n : Nat) (v : Word) : State :=
  (if (LE_SLOT_STAT.SAT n).of v = 1 then s.setFlag (LE_SLOT_STAT.SAT n) false else s).setFlag (LE_SLOT_STAT.FAULT n) false

theorem State.statCleared_updates (s : State) (n : Nat) (v : Word) : ∃ r, s.statCleared n v = { s with regs := r } := by
  unfold State.statCleared
  split
  · exact ⟨_, rfl⟩
  · exact ⟨_, rfl⟩

theorem State.reg_statCleared (s : State) (n : Nat) (v : Word) {a : Nat} (h : a ≠ LE_SLOT_STAT n) :
    (s.statCleared n v).reg a = s.reg a := by
  refine (State.reg_setFlag_ne _ (LE_SLOT_STAT.FAULT n) false a h).trans ?_
  split
  · exact s.reg_setFlag_ne (LE_SLOT_STAT.SAT n) false a h
  · rfl

theorem State.slotStatWrite_fault {s : State} {n : Nat} {v : Word} (h : (LE_SLOT_STAT.FAULT n).of v = 1) :
    s.slotStatWrite n v = (s.statCleared n v).setSlot n { s.slot n with act := 0, cmd := (s.slot n).staleEnable } := by
  refine (if_pos h).trans ?_
  split
  · next sat => rw [State.statCleared, if_pos sat]; rfl
  · next sat => rw [State.statCleared, if_neg sat]

theorem exec_faultClear {s : State} {n : Fin 64} {v : Word} (h : (LE_SLOT_STAT.FAULT n).of v = 1) (run : s.cpStopped = false) :
    exec (.faultClear n v) s = ((s.statCleared n v).setSlot n { s.slot n with act := 0, cmd := (s.slot n).staleEnable }).out := by
  rw [← State.slotStatWrite_fault h]
  exact (State.cpDoes_running _ run).trans (congrArg State.out (if_pos h))

theorem Runs.faultClear (s : State) (n : Fin 64) (v : Word) (h : (LE_SLOT_STAT.FAULT n).of v = 1) (run : s.cpStopped = false) :
    Runs (.faultClear n v) s fun t =>
      t.flag (LE_SLOT_STAT.FAULT n) = false ∧ (t.slot n).act = 0
      ∧ (n < s.le.slots.length →
      (t.slot n).cmd = if (s.slot n).seLock then (s.slot n).cmd.map (fun w => putBit w 1 false) else (s.slot n).cmd)
      ∧ KeepsRegs s t [LE_SLOT_STAT n] ∧ KeepsMem s t ∧ KeepsRest s { t with le := s.le } := by
  obtain ⟨r, cleared⟩ := s.statCleared_updates n v
  have there : n < s.le.slots.length → n < (s.statCleared n v).le.slots.length := by rw [cleared]; exact id
  refine Runs.of_out (exec_faultClear h run) ⟨?flag, ?act, fun present => ?cmd, KeepsRegs.intcLatch fun a ha _ => ?regs,
    KeepsMem.intcLatch ?mem, ?rest⟩
  case flag =>
    rw [State.flag_intcLatch _ _ (by simp only [LE_SLOT_STAT]; omega), State.setSlot_flag]
    exact State.flag_setFlag_self _ (LE_SLOT_STAT.FAULT n) false rfl (by simp)
  case act =>
    rw [State.intcLatch_slot]
    by_cases present : n < s.le.slots.length
    · rw [State.slot_setSlot_self _ _ (there present)]
    · rw [State.slot_setSlot_absent _ _ (by rw [cleared]; exact Nat.le_of_not_lt present)]
  case cmd =>
    rw [State.intcLatch_slot, State.slot_setSlot_self _ _ (there present)]
    rfl
  case regs => exact s.reg_statCleared n v (by simpa using ha)
  case mem => rw [cleared]; exact ⟨rfl, fun _ => rfl⟩
  case rest =>
    obtain ⟨r', d, latch⟩ :=
      ((s.statCleared n v).setSlot n { s.slot n with act := 0, cmd := (s.slot n).staleEnable }).intcLatch_updates
    rw [latch, cleared]
    rfl

/-! Overcurrents and coasts (R170, R171). -/

/-- A write of PD_CLR.OC with every phase within the limit. -/
def State.ocEnded (s : State) (d : Nat) : State := (s.setFlag (PD_STAT.OC d) false).applyTrips

theorem State.butLoops_ocEnded (s : State) {d : Nat} (hd : d < 4) : (s.ocEnded d).butLoops loopRegs = s.butLoops loopRegs :=
  (State.butLoops_applyTrips _).trans (s.butLoops_setFlag (PD_STAT.OC d) false (by interval_cases d <;> rfl))

/-- Every phase of drive `d` is within its limit. -/
def State.phasesWithin (s : State) (d : Nat) : Bool :=
  (s.drive d).codes.all fun c => s.fld (PD_OCL.LIMIT d) == 0 || decide (c.natAbs ≤ s.fld (PD_OCL.LIMIT d))

theorem State.pdClear_eq (s : State) (d : Nat) (v : Word) :
    s.pdClear d v =
      let u := if (PD_CLR.OC d).of v = 1 && s.phasesWithin d then s.ocEnded d else s
      if (PD_CLR.HU d).of v = 1 then u.setFlag (PD_STAT.HU d) false else u := rfl

theorem State.butLoops_pdClear (s : State) {d : Nat} (v : Word) (hd : d < 4) :
    (s.pdClear d v).butLoops loopRegs = s.butLoops loopRegs := by
  have oc : (if (PD_CLR.OC d).of v = 1 && s.phasesWithin d then s.ocEnded d else s).butLoops loopRegs = s.butLoops loopRegs := by
    split
    · exact s.butLoops_ocEnded hd
    · rfl
  rw [s.pdClear_eq]
  dsimp only
  split
  · exact (State.butLoops_setFlag _ (PD_STAT.HU d) false (by interval_cases d <;> rfl)).trans oc
  · exact oc

theorem State.oc_ocEnded (s : State) {d : Nat} (hd : d < 4) : (s.ocEnded d).flag (PD_STAT.OC d) = false := by
  rw [State.ocEnded, State.oc_applyTrips _ hd, State.flag_setFlag_self _ (PD_STAT.OC d) false rfl (by simp)]

/-- A clear of OC within the limit ends the overcurrent, whether it ends a coast too or not. -/
theorem State.oc_pdClear {s : State} {d : Nat} {v : Word} (hd : d < 4) (oc : (PD_CLR.OC d).of v = 1) (ends : s.phasesWithin d = true) :
    (s.pdClear d v).flag (PD_STAT.OC d) = false := by
  have acts : (decide ((PD_CLR.OC d).of v = 1) && s.phasesWithin d) = true := by rw [decide_eq_true oc, ends, Bool.and_self]
  rw [s.pdClear_eq, if_pos acts]
  dsimp only
  split
  · rw [State.oc_setFlag _ d false (.inr (by simp)), s.oc_ocEnded hd]
  · exact s.oc_ocEnded hd

theorem State.hu_pdClear {s : State} {d : Nat} {v : Word} (hu : (PD_CLR.HU d).of v = 1) :
    (s.pdClear d v).flag (PD_STAT.HU d) = false := by
  rw [s.pdClear_eq]
  exact (congrArg (State.flag · (PD_STAT.HU d)) (if_pos hu)).trans
    (State.flag_setFlag_self _ (PD_STAT.HU d) false rfl (by simp))

theorem Runs.pdClrOc (s : State) (d : Fin 4) (v : Word) (oc : (PD_CLR.OC d).of v = 1)
    (within : ∀ c ∈ (s.drive d).codes, s.fld (PD_OCL.LIMIT d) = 0 ∨ c.natAbs ≤ s.fld (PD_OCL.LIMIT d)) (run : s.cpStopped = false) :
    Runs (.pdClrOc d v) s fun t => t.flag (PD_STAT.OC d) = false ∧ KeepsButLoops s t ∧ KeepsMem s t := by
  have effect : exec (.pdClrOc d v) s = (s.pdClear d v).out := (State.cpDoes_running _ run).trans (congrArg State.out (if_pos oc))
  have ends : s.phasesWithin d = true := List.all_eq_true.2 fun c hc => by simpa using within c hc
  have kept := s.butLoops_pdClear v d.isLt
  refine Runs.of_out effect ⟨?_, .of_butLoops kept, (KeepsMem.of_butLoops kept).intcLatch⟩
  rw [State.flag_intcLatch _ _ (by simp only [PD_STAT]; omega), State.oc_pdClear d.isLt oc ends]

theorem Runs.pdClrHu (s : State) (d : Fin 4) (v : Word) (hu : (PD_CLR.HU d).of v = 1) (run : s.cpStopped = false) :
    Runs (.pdClrHu d v) s fun t => t.flag (PD_STAT.HU d) = false ∧ KeepsButLoops s t ∧ KeepsMem s t
      ∧ ((PD_CLR.OC d).of v = 0 → OnlyRegs s t [PD_STAT d]) := by
  have effect : exec (.pdClrHu d v) s = (s.pdClear d v).out := (State.cpDoes_running _ run).trans (congrArg State.out (if_pos hu))
  have kept := s.butLoops_pdClear v d.isLt
  refine Runs.of_out effect ⟨?flag, .of_butLoops kept, (KeepsMem.of_butLoops kept).intcLatch, fun noOc => ?only⟩
  case flag => rw [State.flag_intcLatch _ _ (by simp only [PD_STAT]; omega), State.hu_pdClear hu]
  case only =>
    have coast : s.pdClear d v = s.setFlag (PD_STAT.HU d) false := by
      have idle : ¬ (decide ((PD_CLR.OC d).of v = 1) && s.phasesWithin d) = true := by rw [noOc]; exact Bool.false_ne_true
      rw [s.pdClear_eq, if_neg idle]
      exact if_pos hu
    rw [coast]
    exact (OnlyRegs.setReg s (PD_STAT d) _).intcLatch

end commands

/-- Settles O21: each command's clause is the lemma named after it; the trips' turn on the pass over all slots (`State.applyTrips`), which
trips what a latched input masks and writes nothing outside the loops. -/
theorem tripsAndFaults : Obligations.TripsAndFaults := by
  unfold Obligations.TripsAndFaults
  exact ⟨Runs.trip, Runs.tripLatchClear, Runs.faultClear, Runs.pdClrOc, Runs.pdClrHu⟩

end Sys2Proof.Machine
end

section
/-! SUPPORT. Admission of a set of slots (R126, R127, R157): every slot asked for is placed or refused and not both, and a place is in a
cell of those given. -/

namespace Sys2Proof.Machine

/-- Slot `n` has been placed or refused. -/
def Admission.has (a : Admission) (n : Nat) : Bool :=
  a.placed.any (fun (x : Placed) => x.slot == n) || a.refused.any fun x => x.1 == n

theorem Admission.has_iff (a : Admission) (n : Nat) : a.has n = true ↔ (∃ p ∈ a.placed, p.slot = n) ∨ ∃ r ∈ a.refused, r.1 = n := by
  simp [Admission.has]

/-- A slot that asks with its inner slot dealt with in `a` is refused, or placed in a cell of those given, behind its inner slot. -/
inductive Settles (g : AdmitCfg) (q : SlotReq) (a : Admission) : Admission → Prop
  | refused (code : Nat) : Settles g q a { a with refused := (q.slot, code) :: a.refused }
  | placed (p : Placed) (slot : p.slot = q.slot) (cell : (∀ n, g.pin n = none) → p.cell ∈ g.cells)
      (inner : ∀ j, q.inner = some j → ∃ i ∈ a.placed, i.slot = j) : Settles g q a { a with placed := p :: a.placed }

theorem mem_putCell {load : Nat → Nat × Nat} {c d : Nat} {l : List Nat} : d ∈ putCell load c l ↔ d = c ∨ d ∈ l := by
  induction l with
  | nil => simp [putCell]
  | cons x l ih =>
    unfold putCell
    dsimp only
    split
    · exact List.mem_cons
    · rw [List.mem_cons, ih, List.mem_cons]
      exact or_left_comm

theorem mem_foldr_putCell {load : Nat → Nat × Nat} {d : Nat} {l : List Nat} : d ∈ l.foldr (putCell load) [] ↔ d ∈ l := by
  induction l with
  | nil => rfl
  | cons x l ih => rw [List.foldr_cons, mem_putCell, ih, List.mem_cons]

/-- Without a cell that the slot must keep, a place is in one of the cells given (R127). -/
theorem tryPlace_cell {g : AdmitCfg} {l : List Placed} {q : SlotReq} {k p c o : Nat} (free : g.pin q.slot = none)
    (h : tryPlace g l q k p = some (c, o)) : c ∈ g.cells := by
  unfold tryPlace at h
  rw [free] at h
  obtain ⟨d, mem, found⟩ := List.exists_of_findSome?_eq_some h
  dsimp only at found
  split at found
  · exact absurd found nofun
  · obtain ⟨o', -, place⟩ := Option.map_eq_some_iff.1 found
    obtain ⟨rfl, -⟩ := Prod.mk.inj place
    exact mem_foldr_putCell.1 mem

theorem raisePeriod_place {g : AdmitCfg} {l : List Placed} {q : SlotReq} {p step fuel k : Nat} {pl : Placed}
    (h : raisePeriod g l q p step fuel k = some pl) : pl.slot = q.slot ∧ (g.pin q.slot = none → pl.cell ∈ g.cells) := by
  induction fuel generalizing k with
  | zero => exact absurd h nofun
  | succ fuel ih =>
    unfold raisePeriod at h
    split at h
    · exact absurd h nofun
    split at h
    · next c o place =>
      obtain rfl := Option.some.inj h
      exact ⟨rfl, fun free => tryPlace_cell free place⟩
    · split at h
      · exact ih h
      · exact absurd h nofun

/-- What is done for the inner slot of `q` before `q` itself (R157). -/
def admitInner (g : AdmitCfg) (reqs : List SlotReq) (fuel : Nat) (q : SlotReq) (a : Admission) : Admission :=
  match q.inner with
  | none => a
  | some j => match reqs.find? (fun (x : SlotReq) => x.slot == j) with
    | some qi => admitSlot g reqs fuel qi a
    | none => a

theorem admitInner_cases (g : AdmitCfg) (reqs : List SlotReq) (fuel : Nat) (q : SlotReq) (a : Admission) :
    admitInner g reqs fuel q a = a
      ∨ ∃ qi ∈ reqs, q.inner = some qi.slot ∧ admitInner g reqs fuel q a = admitSlot g reqs fuel qi a := by
  unfold admitInner
  split
  · exact .inl rfl
  · next j inner =>
    split
    · next qi found =>
      have slot : qi.slot = j := by simpa using List.find?_some found
      exact .inr ⟨qi, List.mem_of_find?_eq_some found, slot ▸ inner, rfl⟩
    · exact .inl rfl

/-- Slot `q` placed from period `k` and phase `p` on, or refused, with its inner slot dealt with in `b`. -/
def admitFrom (g : AdmitCfg) (q : SlotReq) (b : Admission) (k p step : Nat) : Admission :=
  if g.cycles < q.r + q.w then { b with refused := (q.slot, 0x10) :: b.refused } else
  match raisePeriod g b.placed q p step 100000 k with
  | some pl => { b with placed := pl :: b.placed }
  | none => { b with refused := (q.slot, 0x10) :: b.refused }

theorem Settles.admitFrom {g : AdmitCfg} {q : SlotReq} {b : Admission} (k p step : Nat)
    (inner : ∀ j, q.inner = some j → ∃ i ∈ b.placed, i.slot = j) : Settles g q b (admitFrom g q b k p step) := by
  unfold Machine.admitFrom
  split
  · exact .refused 0x10
  split
  · next pl place =>
    obtain ⟨slot, cell⟩ := raisePeriod_place place
    exact .placed pl slot (fun free => cell (free _)) inner
  · exact .refused 0x10

/-- All that admission of one slot can do. -/
theorem admitSlot_cases (g : AdmitCfg) (reqs : List SlotReq) (fuel : Nat) (q : SlotReq) (a : Admission) :
    (a.has q.slot = true ∧ admitSlot g reqs (fuel + 1) q a = a)
      ∨ (a.has q.slot = false ∧ Settles g q (admitInner g reqs fuel q a) (admitSlot g reqs (fuel + 1) q a)) := by
  by_cases had : a.has q.slot = true
  · exact .inl ⟨had, if_pos had⟩
  refine .inr ⟨Bool.eq_false_iff.2 had, ?_⟩
  rw [Admission.has] at had
  unfold admitSlot
  rw [if_neg had]
  extract_lets b link
  change Settles g q b _
  rcases inner : q.inner with _ | j
  · have noLink : link = none := by simp only [link, inner, Option.map_none]
    rw [noLink]
    exact .admitFrom q.k q.p 1 (by simp [inner])
  rcases found : b.placed.find? (fun (x : Placed) => x.slot == j) with _ | i
  · have unplaced : link = some none := by simp only [link, inner, Option.map_some, found]
    rw [unplaced]
    exact .refused 0x12
  · have behind : link = some (some i) := by simp only [link, inner, Option.map_some, found]
    have slot : i.slot = j := by simpa using List.find?_some found
    rw [behind]
    exact .admitFrom _ _ i.k (by simpa [inner] using ⟨i, List.mem_of_find?_eq_some found, slot⟩)

/-- Slot `j` is the inner slot of slot `n` (R157). -/
def InnerOf (reqs : List SlotReq) (j n : Nat) : Prop := ∃ q ∈ reqs, q.slot = n ∧ q.inner = some j

/-- The cascade links from slot `n` on come to an end. -/
inductive LinksEnd (reqs : List SlotReq) : Nat → Prop
  | intro (n : Nat) (inner : ∀ j, InnerOf reqs j n → LinksEnd reqs j) : LinksEnd reqs n

/-- A slot whose links end is on no circle of links. -/
theorem LinksEnd.not_circle {reqs : List SlotReq} {n : Nat} (h : LinksEnd reqs n) : ¬ Relation.TransGen (InnerOf reqs) n n := by
  induction h with
  | intro n _ ih =>
    intro circle
    obtain ⟨j, path, last⟩ := Relation.TransGen.tail'_iff.1 circle
    exact ih j last (.head' last path)

/-- What admission keeps: placed slots are in the cells given and behind links that end, refused ones were asked for, and no slot is
both. -/
structure Admission.Sound (g : AdmitCfg) (reqs : List SlotReq) (a : Admission) : Prop where
  cells : (∀ n, g.pin n = none) → ∀ p ∈ a.placed, p.cell ∈ g.cells
  linked : ∀ p ∈ a.placed, LinksEnd reqs p.slot
  asked : ∀ r ∈ a.refused, ∃ q ∈ reqs, q.slot = r.1
  apart : ∀ p ∈ a.placed, ∀ r ∈ a.refused, p.slot ≠ r.1

theorem Admission.Sound.empty (g : AdmitCfg) (reqs : List SlotReq) : Admission.Sound g reqs {} :=
  ⟨fun _ _ h => absurd h List.not_mem_nil, fun _ h => absurd h List.not_mem_nil, fun _ h => absurd h List.not_mem_nil,
    fun _ h => absurd h List.not_mem_nil⟩

section settles
variable {g : AdmitCfg} {reqs : List SlotReq} {q : SlotReq} {a b c : Admission}

/-- Admission of `q` deals with `q`, and with no further slot. -/
theorem Settles.has_iff (h : Settles g q b c) (n : Nat) : c.has n = true ↔ n = q.slot ∨ b.has n = true := by
  cases h with
  | refused code =>
    simp only [Admission.has_iff, List.exists_mem_cons_iff]
    rw [or_left_comm, eq_comm]
  | placed p slot =>
    simp only [Admission.has_iff, List.exists_mem_cons_iff]
    rw [or_assoc, slot, eq_comm]

/-- Settling `q` keeps soundness. Its links lead back to `q` where it has been dealt with ahead of itself (`fresh`), and then neither `q` nor
its inner slot has been placed. -/
theorem Settles.sound (h : Settles g q b c) (hq : q ∈ reqs) (distinct : ∀ x ∈ reqs, ∀ y ∈ reqs, x.slot = y.slot → x = y)
    (sound : b.Sound g reqs)
    (fresh : b.has q.slot = true → ∃ j, q.inner = some j ∧ Relation.ReflTransGen (InnerOf reqs) q.slot j) : c.Sound g reqs := by
  have circle : ∀ j, q.inner = some j → Relation.ReflTransGen (InnerOf reqs) q.slot j →
      ¬ LinksEnd reqs j ∧ ¬ LinksEnd reqs q.slot := fun j inner back =>
    have link : InnerOf reqs j q.slot := ⟨q, hq, rfl, inner⟩
    ⟨fun ends => ends.not_circle (.head' link back), fun ends => ends.not_circle (.tail' back link)⟩
  cases h with
  | refused code =>
    refine ⟨sound.cells, sound.linked, ?asked, ?apart⟩
    case asked => exact List.forall_mem_cons.2 ⟨⟨q, hq, rfl⟩, sound.asked⟩
    case apart =>
      refine fun p hp => List.forall_mem_cons.2 ⟨fun (same : p.slot = q.slot) => ?_, sound.apart p hp⟩
      obtain ⟨j, inner, back⟩ := fresh ((b.has_iff _).2 (.inl ⟨p, hp, same⟩))
      exact (circle j inner back).2 (same ▸ sound.linked p hp)
  | placed p slot cell behind =>
    refine ⟨fun free => List.forall_mem_cons.2 ⟨cell free, sound.cells free⟩, List.forall_mem_cons.2 ⟨?linked, sound.linked⟩,
      sound.asked, List.forall_mem_cons.2 ⟨fun r hr same => ?apart, sound.apart⟩⟩
    case linked =>
      refine .intro _ fun j ⟨q', hq', slot', inner⟩ => ?_
      obtain rfl := distinct q' hq' q hq (slot'.trans slot)
      obtain ⟨i, hi, rfl⟩ := behind j inner
      exact sound.linked i hi
    case apart =>
      obtain ⟨j, inner, back⟩ := fresh ((b.has_iff _).2 (.inr ⟨r, hr, same.symm.trans slot⟩))
      obtain ⟨i, hi, rfl⟩ := behind j inner
      exact (circle _ inner back).1 (sound.linked i hi)

end settles

/-- Admission of `q` from `a` on: soundness is kept, what `a` has dealt with stays so, and what is new lies on the links of `q`. -/
structure Admits (g : AdmitCfg) (reqs : List SlotReq) (q : SlotReq) (a c : Admission) : Prop where
  sound : a.Sound g reqs → c.Sound g reqs
  keeps : ∀ n, a.has n = true → c.has n = true
  along : ∀ n, c.has n = true → a.has n = true ∨ Relation.ReflTransGen (InnerOf reqs) n q.slot

theorem Admits.refl (g : AdmitCfg) (reqs : List SlotReq) (q : SlotReq) (a : Admission) : Admits g reqs q a a :=
  ⟨id, fun _ => id, fun _ => .inl⟩

theorem admitSlot_admits {g : AdmitCfg} {reqs : List SlotReq} (distinct : ∀ x ∈ reqs, ∀ y ∈ reqs, x.slot = y.slot → x = y) (fuel : Nat)
    {q : SlotReq} (hq : q ∈ reqs) (a : Admission) : Admits g reqs q a (admitSlot g reqs fuel q a) := by
  induction fuel generalizing q a with
  | zero => exact .refl g reqs q a
  | succ fuel ih =>
    rcases admitSlot_cases g reqs fuel q a with ⟨-, same⟩ | ⟨new, settles⟩
    · rw [same]
      exact .refl g reqs q a
    rcases admitInner_cases g reqs fuel q a with same | ⟨qi, hqi, inner, first⟩
    · rw [same] at settles
      refine ⟨fun sound => settles.sound hq distinct sound fun had => absurd (had.symm.trans new) (by decide),
        fun n had => (settles.has_iff n).2 (.inr had), fun n has => ?_⟩
      rcases (settles.has_iff n).1 has with rfl | had
      · exact .inr .refl
      · exact .inl had
    · have link : InnerOf reqs qi.slot q.slot := ⟨q, hq, rfl, inner⟩
      rw [first] at settles
      obtain ⟨sound, keeps, along⟩ := ih hqi a
      refine ⟨fun sound_a => settles.sound hq distinct (sound sound_a) fun has => ⟨_, inner, ?back⟩,
        fun n had => (settles.has_iff n).2 (.inr (keeps n had)), fun n has => ?along⟩
      case back => exact (along _ has).resolve_left (by rw [new]; exact Bool.false_ne_true)
      case along =>
        rcases (settles.has_iff n).1 has with rfl | has
        · exact .inr .refl
        · exact (along n has).imp_right fun path => path.tail link

/-- With fuel left, the slot is dealt with. -/
theorem admitSlot_has (g : AdmitCfg) (reqs : List SlotReq) (fuel : Nat) (q : SlotReq) (a : Admission) :
    (admitSlot g reqs (fuel + 1) q a).has q.slot = true := by
  rcases admitSlot_cases g reqs fuel q a with ⟨has, same⟩ | ⟨-, settles⟩
  · rw [same, has]
  · exact (settles.has_iff _).2 (.inl rfl)

theorem mem_putReq {q x : SlotReq} {l : List SlotReq} : x ∈ putReq q l ↔ x = q ∨ x ∈ l := by
  induction l with
  | nil => simp [putReq]
  | cons y l ih =>
    unfold putReq
    split
    · exact List.mem_cons
    · rw [List.mem_cons, ih, List.mem_cons]
      exact or_left_comm

theorem mem_foldr_putReq {x : SlotReq} {l : List SlotReq} : x ∈ l.foldr putReq [] ↔ x ∈ l := by
  induction l with
  | nil => rfl
  | cons y l ih => rw [List.foldr_cons, mem_putReq, ih, List.mem_cons]

/-- Admission of a set of slots of which no two are the same is sound, and deals with every one (R127). -/
theorem admitSlots_sound (g : AdmitCfg) {reqs : List SlotReq} (distinct : ∀ x ∈ reqs, ∀ y ∈ reqs, x.slot = y.slot → x = y) :
    (admitSlots g reqs).Sound g reqs ∧ ∀ q ∈ reqs, (admitSlots g reqs).has q.slot = true := by
  have fold : ∀ l : List SlotReq, (∀ q ∈ l, q ∈ reqs) → ∀ a : Admission, a.Sound g reqs →
      (l.foldl (fun a q => admitSlot g reqs 65 q a) a).Sound g reqs
      ∧ (∀ n, a.has n = true → (l.foldl (fun a q => admitSlot g reqs 65 q a) a).has n = true)
      ∧ ∀ q ∈ l, (l.foldl (fun a q => admitSlot g reqs 65 q a) a).has q.slot = true := by
    intro l
    induction l with
    | nil => exact fun _ a sound => ⟨sound, fun _ => id, fun _ h => absurd h List.not_mem_nil⟩
    | cons q l ih =>
      intro from_ a sound
      obtain ⟨hq, hl⟩ := List.forall_mem_cons.1 from_
      have admits := admitSlot_admits (g := g) distinct 65 hq a
      obtain ⟨sound', keeps, has⟩ := ih hl (admitSlot g reqs 65 q a) (admits.sound sound)
      exact ⟨sound', fun n had => keeps n (admits.keeps n had),
        List.forall_mem_cons.2 ⟨keeps _ (admitSlot_has g reqs 64 q a), has⟩⟩
  obtain ⟨sound, -, has⟩ := fold (reqs.foldr putReq []) (fun _ => mem_foldr_putReq.1) {} (.empty g reqs)
  exact ⟨sound, fun q hq => has q (mem_foldr_putReq.2 hq)⟩

end Sys2Proof.Machine
end

section
/-! SUPPORT. A cell that leaves service (R129, R148, R502). -/

namespace Sys2Proof.Machine

/-! What a new state of one slot changes of the slots. -/

section setSlot
variable (s : State) {n m : Nat} (x : LeSlot)

/-- A field that the new state of a slot has from the old one is kept for every slot. -/
theorem State.slot_setSlot_keeps {β : Type} (f : LeSlot → β) (h : f x = f (s.slot n)) (m : Nat) :
    f ((s.setSlot n x).slot m) = f (s.slot m) := by
  by_cases other : m = n
  · subst other
    by_cases present : m < s.le.slots.length
    · rw [s.slot_setSlot_self x present, h]
    · have absent := Nat.le_of_not_lt present
      rw [s.slot_setSlot_absent x absent]
      exact congrArg f (List.getD_eq_default s.le.slots {} absent).symm
  · rw [s.slot_setSlot_ne x other]

theorem State.slots_length_setSlot : (s.setSlot n x).le.slots.length = s.le.slots.length := List.length_set ..

end setSlot

/-! The slots that the admission without the cell refuses. -/

/-- The drive of a slot without a place goes to its off state. -/
def State.undriven (s : State) (n : Nat) : State := match s.slotDrive n with | some d => s.driveOff d | none => s

/-- Such a slot is admitted no longer. -/
def State.unadmitted (s : State) (n : Nat) : State := (s.undriven n).setFlag (LE_SLOT_CFG.ADM n) false

/-- A slot with no move and not configured. -/
def LeSlot.still (x : LeSlot) : LeSlot := { x with move := none, named := false }

/-- A slot without a place, as log entry 25 has it. `exec_cellReschedule` ties it to the model. -/
def State.unplace (s : State) (r : Nat × Nat) : State := (s.unadmitted r.1).setSlot r.1 ((s.unadmitted r.1).slot r.1).still

/-- What lies outside the registers `l`, the slots and the drives. -/
def State.butSlots (l : List Nat) (s : State) : State × (Nat → Word) × (Nat → Byte) :=
  s.outside (fun s => { s with le := { s.le with slots := [], pd := [] } }) l.contains noByte

/-- The registers of the slots' configurations and the drives' status. -/
abbrev unplaceRegs : List Nat := (List.range 64).map LE_SLOT_CFG ++ (List.range 4).map PD_STAT

section unplace
variable (s : State) (r : Nat × Nat)

theorem State.slots_unadmitted (n : Nat) : (s.unadmitted n).le.slots = s.le.slots := by
  unfold State.unadmitted State.undriven
  split <;> rfl

theorem State.slot_unadmitted (n m : Nat) : (s.unadmitted n).slot m = s.slot m := by
  rw [State.slot, s.slots_unadmitted, State.slot]

theorem State.butSlots_setFlag {l : List Nat} (s : State) (f : Field) (b : Bool) (h : f.addr ∈ l) :
    (s.setFlag f b).butSlots l = s.butSlots l := State.outside_setFlag b (List.contains_iff_mem.2 h)

theorem State.butSlots_setSlot {l : List Nat} (s : State) (n : Nat) (x : LeSlot) : (s.setSlot n x).butSlots l = s.butSlots l := rfl

theorem State.butSlots_setDrive {l : List Nat} (s : State) (d : Nat) (x : PdSt) : (s.setDrive d x).butSlots l = s.butSlots l := rfl

theorem State.butSlots_undriven (n : Nat) {l : List Nat} (h : ∀ d < 4, PD_STAT d ∈ l) : (s.undriven n).butSlots l = s.butSlots l := by
  unfold State.undriven
  split
  · next d drive =>
    have stat := h d (s.slotDrive_lt n drive)
    rw [State.driveOff, State.butSlots_setDrive, State.butSlots_setFlag _ _ _ stat, State.butSlots_setFlag _ _ _ stat]
  · rfl

theorem State.butSlots_unplace {l : List Nat} (cfg : LE_SLOT_CFG r.1 ∈ l) (stat : ∀ d < 4, PD_STAT d ∈ l) :
    (s.unplace r).butSlots l = s.butSlots l := by
  rw [State.unplace, State.butSlots_setSlot, State.unadmitted, State.butSlots_setFlag _ _ _ cfg, s.butSlots_undriven r.1 stat]

theorem State.still_unplace (m : Nat) : ((s.unplace r).slot m).still = (s.slot m).still := by
  rw [State.unplace, ← s.slot_unadmitted r.1 m]
  exact State.slot_setSlot_keeps _ ((s.unadmitted r.1).slot r.1).still LeSlot.still rfl m

theorem State.slots_length_unplace : (s.unplace r).le.slots.length = s.le.slots.length := by
  rw [State.unplace, State.slots_length_setSlot, s.slots_unadmitted]

theorem State.move_unplace_self (present : r.1 < s.le.slots.length) : ((s.unplace r).slot r.1).move = none := by
  rw [State.unplace, State.slot_setSlot_self _ _ (by rwa [s.slots_unadmitted])]
  rfl

theorem State.slot_unplace_ne {m : Nat} (h : m ≠ r.1) : (s.unplace r).slot m = s.slot m := by
  rw [State.unplace, State.slot_setSlot_ne _ _ h, s.slot_unadmitted]

theorem State.admitted_unplace (n : Nat) : (s.unplace r).admitted n = (s.admitted n && !(r.1 == n)) := by
  have drive : (s.undriven r.1).admitted n = s.admitted n := by
    have apart : LE_SLOT_CFG n ∉ (List.range 4).map PD_STAT := by
      simp only [List.mem_map, List.mem_range, not_exists, not_and, LE_SLOT_CFG, PD_STAT]
      omega
    have kept := s.butSlots_undriven r.1 (l := (List.range 4).map PD_STAT) fun d hd => List.mem_map.2 ⟨d, List.mem_range.2 hd, rfl⟩
    rw [State.admitted, State.flag, State.fld, State.reg_of_outside kept (by simpa using apart)]
    rfl
  rw [State.admitted, State.unplace, State.setSlot_flag, State.unadmitted, ← drive]
  by_cases same : r.1 = n
  · rw [same, State.flag_setFlag_self _ _ _ rfl (by simp), beq_self_eq_true, Bool.not_true, Bool.and_false]
  · rw [State.flag_setFlag_ne _ _ _ _ (by simp only [LE_SLOT_CFG]; omega), beq_false_of_ne same, Bool.not_false, Bool.and_true]
    rfl

end unplace

/-- All slots without a place. -/
def State.unplaceAll (s : State) (l : List (Nat × Nat)) : State := l.foldl State.unplace s

section unplaceAll
variable (s : State) {l : List (Nat × Nat)}

theorem State.butSlots_unplaceAll {regs : List Nat} (h : ∀ r ∈ l, LE_SLOT_CFG r.1 ∈ regs ∧ ∀ d < 4, PD_STAT d ∈ regs) :
    (s.unplaceAll l).butSlots regs = s.butSlots regs :=
  foldl_keeps (State.butSlots regs) _ (fun r hr x => x.butSlots_unplace r (h r hr).1 (h r hr).2) s

theorem State.still_unplaceAll (m : Nat) : ((s.unplaceAll l).slot m).still = (s.slot m).still :=
  foldl_keeps (fun x : State => (x.slot m).still) _ (fun r _ x => x.still_unplace r m) s

theorem State.slots_length_unplaceAll : (s.unplaceAll l).le.slots.length = s.le.slots.length :=
  foldl_keeps (fun x : State => x.le.slots.length) _ (fun r _ x => x.slots_length_unplace r) s

/-- Exactly the slots without a place are admitted no longer. -/
theorem State.admitted_unplaceAll (n : Nat) :
    (s.unplaceAll l).admitted n = (s.admitted n && !l.any fun r => r.1 == n) := by
  induction l generalizing s with
  | nil => simp [State.unplaceAll]
  | cons r l ih =>
    have rest := ih (s.unplace r)
    rw [State.unplaceAll, List.foldl_cons, ← State.unplaceAll, rest, s.admitted_unplace r n, List.any_cons, Bool.not_or, Bool.and_assoc]

/-- A slot without a place has no move. -/
theorem State.move_unplaceAll {n : Nat} (present : n < s.le.slots.length) (h : ∃ r ∈ l, r.1 = n) :
    ((s.unplaceAll l).slot n).move = none := by
  have stays : ∀ (l : List (Nat × Nat)) (t : State), n < t.le.slots.length → (t.slot n).move = none →
      ((t.unplaceAll l).slot n).move = none := by
    intro l
    induction l with
    | nil => exact fun _ _ none_ => none_
    | cons r l ih =>
      intro t present none_
      refine ih (t.unplace r) (by rwa [t.slots_length_unplace]) ?_
      by_cases same : r.1 = n
      · subst same
        exact t.move_unplace_self r present
      · rwa [t.slot_unplace_ne r (Ne.symm same)]
  induction l generalizing s with
  | nil => simp at h
  | cons r l ih =>
    by_cases same : r.1 = n
    · subst same
      exact stays l _ (by rwa [s.slots_length_unplace]) (s.move_unplace_self r present)
    · exact ih (s.unplace r) (by rwa [s.slots_length_unplace]) (by simpa [same] using h)

end unplaceAll

/-! The places that the admission without the cell gives. -/

/-- A slot with the move to its place; for a self-test (`bist`) it notes where it was (R129, R502). -/
def State.moved (s : State) (bist : Bool) (p : Placed) : LeSlot :=
  let x := s.slot p.slot
  { x with move := some (p.cell, p.ofs, p.k, p.p)
           home := if bist then some (s.fld (LE_SLOT_CFG.CELL p.slot), x.ofs) else x.home }

/-- All slots with a place. -/
def State.moveAll (s : State) (bist : Bool) (l : List Placed) : State := l.foldl (fun s p => s.setSlot p.slot (s.moved bist p)) s

/-- A slot without its move and where it was. -/
def LeSlot.unmoved (x : LeSlot) : LeSlot := { x with move := none, home := none }

section moveAll
variable (s : State) (bist : Bool) {l : List Placed}

theorem State.moveAll_cons (p : Placed) (l : List Placed) :
    s.moveAll bist (p :: l) = (s.setSlot p.slot (s.moved bist p)).moveAll bist l := rfl

theorem State.moveAll_updates (l : List Placed) : ∃ slots, s.moveAll bist l = { s with le := { s.le with slots := slots } } := by
  induction l generalizing s with
  | nil => exact ⟨s.le.slots, rfl⟩
  | cons p l ih =>
    obtain ⟨slots, rest⟩ := ih (s.setSlot p.slot (s.moved bist p))
    exact ⟨slots, rest⟩

theorem State.reg_moveAll (a : Nat) : (s.moveAll bist l).reg a = s.reg a := by
  obtain ⟨slots, h⟩ := s.moveAll_updates bist l
  rw [h]
  rfl

theorem State.butSlots_moveAll {regs : List Nat} : (s.moveAll bist l).butSlots regs = s.butSlots regs := by
  obtain ⟨slots, h⟩ := s.moveAll_updates bist l
  rw [h]
  rfl

theorem State.fld_moveAll (f : Field) : (s.moveAll bist l).fld f = s.fld f := by rw [State.fld, s.reg_moveAll, State.fld]

theorem State.admitted_moveAll (n : Nat) : (s.moveAll bist l).admitted n = s.admitted n := by
  rw [State.admitted, State.flag, s.fld_moveAll, State.admitted, State.flag]

theorem State.unmoved_moveAll (n : Nat) : ((s.moveAll bist l).slot n).unmoved = (s.slot n).unmoved :=
  foldl_keeps (fun x : State => (x.slot n).unmoved) _ (fun p _ x => x.slot_setSlot_keeps (x.moved bist p) LeSlot.unmoved rfl n) s

/-- Without a self-test a slot changes its move alone. -/
theorem State.still_moveAll (n : Nat) : ((s.moveAll false l).slot n).still = (s.slot n).still :=
  foldl_keeps (fun x : State => (x.slot n).still) _ (fun p _ x => x.slot_setSlot_keeps (x.moved false p) LeSlot.still rfl n) s

/-- A slot without a place stays as it is. -/
theorem State.slot_moveAll_absent {n : Nat} (h : ∀ p ∈ l, p.slot ≠ n) : (s.moveAll bist l).slot n = s.slot n :=
  foldl_keeps (fun x : State => x.slot n) _ (fun p hp x => x.slot_setSlot_ne (x.moved bist p) (Ne.symm (h p hp))) s

/-- A slot with a place has a move to it. -/
theorem State.slot_moveAll_placed {n : Nat} (present : n < s.le.slots.length) (h : ∃ p ∈ l, p.slot = n) :
    ∃ p ∈ l, p.slot = n ∧ ((s.moveAll bist l).slot n).move = some (p.cell, p.ofs, p.k, p.p)
      ∧ (bist = true → ((s.moveAll bist l).slot n).home = some (s.fld (LE_SLOT_CFG.CELL n), (s.slot n).ofs)) := by
  induction l generalizing s with
  | nil => simp at h
  | cons q l ih =>
    by_cases later : ∃ p ∈ l, p.slot = n
    · obtain ⟨p, hp, slot, move, home⟩ := ih (s.setSlot q.slot (s.moved bist q)) (by rwa [s.slots_length_setSlot]) later
      refine ⟨p, List.mem_cons_of_mem _ hp, slot, move, fun bist => (home bist).trans ?_⟩
      rw [s.slot_setSlot_keeps (s.moved _ q) LeSlot.ofs rfl n]
      rfl
    · obtain rfl : q.slot = n := by simpa [later] using h
      have last : (s.moveAll bist (q :: l)).slot q.slot = s.moved bist q := by
        rw [s.moveAll_cons, State.slot_moveAll_absent _ _ (by simpa using later), s.slot_setSlot_self _ present]
      rw [last]
      exact ⟨q, List.mem_cons_self, rfl, rfl, fun bist => by simp [State.moved, bist]⟩

end moveAll

/-! What the slots ask for when cell `c` leaves service. -/

section replan
variable (s : State)

/-- What the slots as placed ask for. -/
def State.placedReqs : List SlotReq := s.placedSlots.map fun a => s.slotReq a.slot a.k a.p

theorem State.mem_placedReqs {q : SlotReq} :
    q ∈ s.placedReqs ↔ ∃ n < 64, s.admitted n = true ∧ q = s.slotReq n (s.slotPeriod n) (s.slotPhase n) := by
  simp only [State.placedReqs, State.placedSlots, List.mem_map, List.mem_filterMap, List.mem_range]
  constructor
  · rintro ⟨a, ⟨n, hn, place⟩, rfl⟩
    split at place
    · next admitted =>
      obtain rfl := Option.some.inj place
      exact ⟨n, hn, admitted, rfl⟩
    · exact absurd place nofun
  · rintro ⟨n, hn, admitted, rfl⟩
    exact ⟨_, ⟨n, hn, if_pos admitted⟩, rfl⟩

/-- A slot asks once. -/
theorem State.placedReqs_distinct : ∀ x ∈ s.placedReqs, ∀ y ∈ s.placedReqs, x.slot = y.slot → x = y := by
  intro x hx y hy same
  obtain ⟨n, -, -, rfl⟩ := s.mem_placedReqs.1 hx
  obtain ⟨m, -, -, rfl⟩ := s.mem_placedReqs.1 hy
  obtain rfl : n = m := same
  rfl

/-- The cells left without cell `c`. -/
abbrev State.cellsBut (c : Nat) (raise : Bool) : AdmitCfg :=
  { cycles := 4000, cells := s.cellsIn.filter (· != c), pin := fun _ => none, raise := raise }

variable (c : Nat) (raise : Bool)

theorem State.replan_sound : (s.replan c raise).Sound (s.cellsBut c raise) s.placedReqs
    ∧ ∀ q ∈ s.placedReqs, (s.replan c raise).has q.slot = true := admitSlots_sound _ s.placedReqs_distinct

theorem State.replan_refused_lt : ∀ r ∈ (s.replan c raise).refused, r.1 < 64 := by
  intro r hr
  obtain ⟨sound, -⟩ := s.replan_sound c raise
  obtain ⟨q, hq, slot⟩ := sound.asked r hr
  obtain ⟨n, hn, -, rfl⟩ := s.mem_placedReqs.1 hq
  exact slot ▸ hn

theorem State.replan_cell : ∀ p ∈ (s.replan c raise).placed, p.cell ≠ c := by
  intro p hp
  obtain ⟨sound, -⟩ := s.replan_sound c raise
  have cell := sound.cells (fun _ => rfl) p hp
  simpa using (List.mem_filter.1 cell).2

/-- An admitted slot that is not refused has a place. -/
theorem State.replan_placed {n : Nat} (hn : n < 64) (admitted : s.admitted n = true)
    (kept : (s.replan c raise).refused.any (fun r => r.1 == n) = false) : ∃ p ∈ (s.replan c raise).placed, p.slot = n := by
  obtain ⟨-, has⟩ := s.replan_sound c raise
  have dealt : (s.replan c raise).has n = true := has _ (s.mem_placedReqs.2 ⟨n, hn, admitted, rfl⟩)
  refine (((s.replan c raise).has_iff n).1 dealt).resolve_right ?_
  rintro ⟨r, hr, same⟩
  exact Bool.false_ne_true (kept.symm.trans (List.any_eq_true.2 ⟨r, hr, beq_iff_eq.2 same⟩))

end replan

/-! The command. -/

section reschedule
variable (s : State) (c : Fin 4)

/-- Cell `c` out of service, with the slots left out that have no place without it. -/
def State.unplaced (s : State) (c : Nat) (bist : Bool) : State :=
  (s.setBit LE_STAT.CELL_EN c false).unplaceAll (s.replan c (!bist)).refused

/-- Cell `c` out of service, its slots placed anew or without a place. -/
def State.rescheduled (s : State) (c : Nat) (bist : Bool) : State := (s.unplaced c bist).moveAll bist (s.replan c (!bist)).placed

theorem exec_cellReschedule : exec (.cellReschedule c) s = State.out
    (if (!s.flag (LE_CELL_STAT.BIST c) && !s.flag (LE_CELL_STAT.DIS c)) || !bit (s.fld LE_STAT.CELL_EN) c then s else
      if s.flag (LE_CELL_STAT.BIST c) && !(s.replan c (!s.flag (LE_CELL_STAT.BIST c))).refused.isEmpty then s else
        s.rescheduled c (s.flag (LE_CELL_STAT.BIST c))) := rfl

variable {s c}

theorem exec_cellReschedule_failed (bist : s.flag (LE_CELL_STAT.BIST c) = false) (dis : s.flag (LE_CELL_STAT.DIS c) = true)
    (en : bit (s.fld LE_STAT.CELL_EN) c = true) : exec (.cellReschedule c) s = (s.rescheduled c false).out := by
  rw [exec_cellReschedule, bist, dis, en]
  rfl

theorem exec_cellReschedule_tested (bist : s.flag (LE_CELL_STAT.BIST c) = true) (en : bit (s.fld LE_STAT.CELL_EN) c = true)
    (fits : (s.replan c false).refused = []) : exec (.cellReschedule c) s = (s.rescheduled c true).out := by
  rw [exec_cellReschedule, bist, en, Bool.not_true, fits]
  rfl

theorem exec_cellReschedule_idle (h : (s.flag (LE_CELL_STAT.BIST c) = true ∧ (s.replan c false).refused ≠ [])
      ∨ (s.flag (LE_CELL_STAT.BIST c) = false ∧ s.flag (LE_CELL_STAT.DIS c) = false) ∨ bit (s.fld LE_STAT.CELL_EN) c = false) :
    exec (.cellReschedule c) s = s.out := by
  rw [exec_cellReschedule]
  rcases h with ⟨bist, unfit⟩ | ⟨bist, dis⟩ | out
  · have unfit : (s.replan c false).refused.isEmpty = false := Bool.eq_false_iff.2 fun h => unfit (List.isEmpty_iff.1 h)
    rw [bist, Bool.not_true, unfit, Bool.not_false, Bool.and_self, if_pos rfl, ite_self]
  · rw [bist, dis]
    rfl
  · rw [out, Bool.not_false, Bool.or_true, if_pos rfl]

end reschedule

section rescheduled
variable (s : State) (c : Nat) (bist : Bool)

theorem State.butSlots_rescheduled {l : List Nat} (stat : LE_STAT ∈ l)
    (unplaced : ∀ r ∈ (s.replan c (!bist)).refused, LE_SLOT_CFG r.1 ∈ l ∧ ∀ d < 4, PD_STAT d ∈ l) :
    (s.rescheduled c bist).butSlots l = s.butSlots l := by
  rw [State.rescheduled, State.butSlots_moveAll, State.unplaced, State.butSlots_unplaceAll _ unplaced]
  exact State.outside_setFld (f := LE_STAT.CELL_EN) _ (List.contains_iff_mem.2 stat)

/-- The registers of the slots' configurations and the drives' status hold those of the slots without a place. -/
theorem State.unplaceRegs_refused (raise : Bool) : ∀ r ∈ (s.replan c raise).refused,
    LE_SLOT_CFG r.1 ∈ unplaceRegs ∧ ∀ d < 4, PD_STAT d ∈ unplaceRegs := fun r hr =>
  ⟨List.mem_append_left _ (List.mem_map.2 ⟨r.1, List.mem_range.2 (s.replan_refused_lt c raise r hr), rfl⟩),
    fun d hd => List.mem_append_right _ (List.mem_map.2 ⟨d, List.mem_range.2 hd, rfl⟩)⟩

theorem leStat_notMem_unplaceRegs : LE_STAT ∉ unplaceRegs := by decide

theorem State.cellEn_rescheduled (hc : c < 4) : bit ((s.rescheduled c bist).intcLatch.fld LE_STAT.CELL_EN) c = false := by
  have kept : (s.unplaced c bist).reg LE_STAT = (s.setBit LE_STAT.CELL_EN c false).reg LE_STAT :=
    State.reg_of_outside (State.butSlots_unplaceAll _ (s.unplaceRegs_refused c _))
      (Bool.eq_false_iff.2 fun h => leStat_notMem_unplaceRegs (List.contains_iff_mem.1 h))
  rw [State.fld_intcLatch _ _ (by decide), State.rescheduled, State.fld_moveAll]
  exact (congrArg (fun w : Word => bit (bits w.toNat 3 0) c) kept).trans
    ((s.bit_setBit LE_STAT.CELL_EN c false (by simp; omega) (by decide)).trans (if_pos rfl))

theorem State.slot_setBit (s : State) (f : Field) (i : Nat) (b : Bool) (n : Nat) : (s.setBit f i b).slot n = s.slot n := rfl

/-- Exactly the slots without a place are admitted no longer. -/
theorem State.admitted_rescheduled {n : Nat} (hn : n < 64) : (s.rescheduled c bist).intcLatch.admitted n
    = (s.admitted n && !(s.replan c (!bist)).refused.any fun r => r.1 == n) := by
  have cfg : (s.setBit LE_STAT.CELL_EN c false).admitted n = s.admitted n :=
    State.flag_setBit_ne s LE_STAT.CELL_EN (LE_SLOT_CFG.ADM n) c false (by simp only [LE_SLOT_CFG, LE_STAT]; omega)
  rw [State.admitted, State.flag_intcLatch _ _ (by simp only [LE_SLOT_CFG]; omega), ← State.admitted, State.rescheduled,
    State.admitted_moveAll, State.unplaced, State.admitted_unplaceAll, cfg]

theorem State.slots_length_unplaced : (s.unplaced c bist).le.slots.length = s.le.slots.length :=
  State.slots_length_unplaceAll (s.setBit LE_STAT.CELL_EN c false)

theorem State.still_unplaced (n : Nat) : ((s.unplaced c bist).slot n).still = (s.slot n).still :=
  State.still_unplaceAll (s.setBit LE_STAT.CELL_EN c false) n

/-- An admitted slot that is not refused has a move off the cell, and with a self-test it notes where it was. -/
theorem State.movesOff_rescheduled {n : Nat} (hn : n < 64) (present : n < s.le.slots.length)
    (admitted : (s.rescheduled c bist).intcLatch.admitted n = true) : s.MovesOff (s.rescheduled c bist).intcLatch c (!bist) n
      ∧ (bist = true → ((s.rescheduled c bist).intcLatch.slot n).home
          = some ((s.unplaced c bist).fld (LE_SLOT_CFG.CELL n), (s.slot n).ofs)) := by
  rw [s.admitted_rescheduled c bist hn, Bool.and_eq_true, Bool.not_eq_true'] at admitted
  obtain ⟨p, hp, slot, move, home⟩ := (s.unplaced c bist).slot_moveAll_placed bist (by rwa [s.slots_length_unplaced])
    (s.replan_placed c (!bist) hn admitted.1 admitted.2)
  have ofs : ((s.unplaced c bist).slot n).ofs = (s.slot n).ofs := (congrArg LeSlot.ofs (s.still_unplaced c bist n) :)
  rw [State.intcLatch_slot, ← ofs]
  refine ⟨⟨p, hp, slot, s.replan_cell c (!bist) p hp, (congrArg LeSlot.move (State.intcLatch_slot _ n)).trans move⟩,
    home⟩

/-- A refused slot has no place, and so no move. -/
theorem State.move_rescheduled_refused {n : Nat} (hn : n < 64) (present : n < s.le.slots.length) (was : s.admitted n = true)
    (out : (s.rescheduled c bist).intcLatch.admitted n = false) : ((s.rescheduled c bist).intcLatch.slot n).move = none := by
  rw [s.admitted_rescheduled c bist hn, was, Bool.true_and, Bool.not_eq_false', List.any_eq_true] at out
  obtain ⟨r, hr, same⟩ := out
  obtain rfl : r.1 = n := beq_iff_eq.1 same
  obtain ⟨sound, -⟩ := s.replan_sound c (!bist)
  rw [State.intcLatch_slot, State.rescheduled, State.slot_moveAll_absent _ _ fun p hp => sound.apart p hp r hr]
  exact State.move_unplaceAll (s.setBit LE_STAT.CELL_EN c false) present ⟨r, hr, rfl⟩

/-- Slots that differ in what `still` leaves out differ in nothing else. -/
theorem LeSlot.eq_of_still {x y : LeSlot} (h : x.still = y.still) : { x with move := y.move, named := y.named } = y :=
  congrArg (fun z : LeSlot => { z with move := y.move, named := y.named }) h

theorem LeSlot.eq_of_unmoved {x y : LeSlot} (h : x.unmoved = y.unmoved) : { x with move := y.move, home := y.home } = y :=
  congrArg (fun z : LeSlot => { z with move := y.move, home := y.home }) h

theorem KeepsRegs.of_butSlots {s t : State} {l : List Nat} (h : t.butSlots l = s.butSlots l) : KeepsRegs s t l := fun a ha _ =>
  State.reg_of_outside h (by simpa using ha)

theorem KeepsMem.of_butSlots {s t : State} {l : List Nat} (h : t.butSlots l = s.butSlots l) : KeepsMem s t :=
  ⟨(congrArg State.ecc (State.hide_of_outside h) :), fun _ => State.rd8_of_outside h rfl⟩

theorem KeepsRest.of_butSlots {s t : State} {l : List Nat} (h : t.butSlots l = s.butSlots l) :
    KeepsRest s { t.intcLatch with le := { t.intcLatch.le with slots := s.le.slots, pd := s.le.pd } } := by
  obtain ⟨r, d, latch⟩ := t.intcLatch_updates
  rw [latch]
  exact (congrArg (fun x : State =>
    { x with regs := s.regs, mem := s.mem, ecc := s.ecc, le := { x.le with slots := s.le.slots, pd := s.le.pd },
             cp := { x.cp with dioReq := s.cp.dioReq } }) (State.hide_of_outside h) :)

end rescheduled

/-- A cell that failed (R129, R148). -/
theorem Runs.cellReschedule_failed (s : State) (c : Fin 4) (bist : s.flag (LE_CELL_STAT.BIST c) = false)
    (dis : s.flag (LE_CELL_STAT.DIS c) = true) (en : bit (s.fld LE_STAT.CELL_EN) c = true) : Runs (.cellReschedule c) s fun t =>
      bit (t.fld LE_STAT.CELL_EN) c = false
      ∧ (∀ n < 64, s.admitted n = true → t.admitted n = !(s.replan c true).refused.any (fun r => r.1 == n))
      ∧ (∀ n < s.le.slots.length, t.admitted n = true → n < 64 → s.MovesOff t c true n)
      ∧ (∀ n < s.le.slots.length, s.admitted n = true → n < 64 → t.admitted n = false → (t.slot n).move = none)
      ∧ (∀ n, { t.slot n with move := (s.slot n).move, named := (s.slot n).named } = s.slot n)
      ∧ KeepsRegs s t (LE_STAT :: (List.range 64).map LE_SLOT_CFG ++ (List.range 4).map PD_STAT) ∧ KeepsMem s t
      ∧ KeepsRest s { t with le := { t.le with slots := s.le.slots, pd := s.le.pd } } := by
  have kept : (s.rescheduled c false).butSlots (LE_STAT :: unplaceRegs) = s.butSlots (LE_STAT :: unplaceRegs) :=
    s.butSlots_rescheduled c false List.mem_cons_self fun r hr =>
      have ⟨cfg, drives⟩ := s.unplaceRegs_refused c true r hr
      ⟨List.mem_cons_of_mem _ cfg, fun d hd => List.mem_cons_of_mem _ (drives d hd)⟩
  refine Runs.of_out (exec_cellReschedule_failed bist dis en) ⟨s.cellEn_rescheduled c false c.isLt, fun n hn was => ?admitted,
    fun n present admitted hn => (s.movesOff_rescheduled c false hn present admitted).1,
    fun n present was hn out => s.move_rescheduled_refused c false hn present was out, fun n => LeSlot.eq_of_still ?slots,
    (KeepsRegs.of_butSlots kept).intcLatch, (KeepsMem.of_butSlots kept).intcLatch, KeepsRest.of_butSlots kept⟩
  case admitted => rw [s.admitted_rescheduled c false hn, was, Bool.true_and, Bool.not_false]
  case slots => rw [State.intcLatch_slot, State.rescheduled, State.still_moveAll, s.still_unplaced]

/-- A cell that a self-test asks for, with a place for each of its slots (R129, R502). -/
theorem Runs.cellReschedule_tested (s : State) (c : Fin 4) (bist : s.flag (LE_CELL_STAT.BIST c) = true)
    (en : bit (s.fld LE_STAT.CELL_EN) c = true) (fits : (s.replan c false).refused = []) : Runs (.cellReschedule c) s fun t =>
      bit (t.fld LE_STAT.CELL_EN) c = false
      ∧ (∀ n < s.le.slots.length, t.admitted n = true → n < 64 →
          s.MovesOff t c false n ∧ (t.slot n).home = some (s.fld (LE_SLOT_CFG.CELL n), (s.slot n).ofs))
      ∧ (∀ n, { t.slot n with move := (s.slot n).move, home := (s.slot n).home } = s.slot n)
      ∧ KeepsRegs s t [LE_STAT] ∧ KeepsMem s t ∧ KeepsRest s { t with le := { t.le with slots := s.le.slots } } := by
  have kept : (s.rescheduled c true).butSlots [LE_STAT] = s.butSlots [LE_STAT] :=
    s.butSlots_rescheduled c true List.mem_cons_self fun r hr => absurd (fits ▸ hr : r ∈ []) List.not_mem_nil
  have all : s.unplaced c true = s.setBit LE_STAT.CELL_EN c false := by
    rw [State.unplaced, Bool.not_true, fits]
    rfl
  refine Runs.of_out (exec_cellReschedule_tested bist en fits) ⟨s.cellEn_rescheduled c true c.isLt,
    fun n present admitted hn => ?moves, fun n => LeSlot.eq_of_unmoved ?slots, (KeepsRegs.of_butSlots kept).intcLatch,
    (KeepsMem.of_butSlots kept).intcLatch, ?rest⟩
  case moves =>
    obtain ⟨moves, home⟩ := s.movesOff_rescheduled c true hn present admitted
    rw [all, State.fld_setBit_ne _ _ _ _ _ (by simp only [LE_SLOT_CFG, LE_STAT]; omega)] at home
    exact ⟨moves, home rfl⟩
  case slots => rw [State.intcLatch_slot, State.rescheduled, State.unmoved_moveAll, all, State.slot_setBit]
  case rest =>
    obtain ⟨slots, placed⟩ := (s.unplaced c true).moveAll_updates true (s.replan c false).placed
    obtain ⟨r, d, latch⟩ := (s.rescheduled c true).intcLatch_updates
    rw [latch, State.rescheduled, Bool.not_true, placed, all]
    rfl

/-- A cell that stays as it is, in service or out of it (R129, R502). -/
theorem Runs.cellReschedule_idle (s : State) (c : Fin 4)
    (h : (s.flag (LE_CELL_STAT.BIST c) = true ∧ (s.replan c false).refused ≠ [])
      ∨ (s.flag (LE_CELL_STAT.BIST c) = false ∧ s.flag (LE_CELL_STAT.DIS c) = false) ∨ bit (s.fld LE_STAT.CELL_EN) c = false) :
    Runs (.cellReschedule c) s (OnlyRegs s · []) := Runs.of_out (exec_cellReschedule_idle h) (OnlyRegs.refl s []).intcLatch

end Sys2Proof.Machine
end

section
/-! SUPPORT. Writes of the slots' control, bank and state words (R129, R141, R148, R512). -/

namespace Sys2Proof.Machine

section swaps
variable {s : State} {n : Fin 64} {v : Word}

/-- Enable and mode of a slot as a write of LE_SLOT_CTL leaves them: those of a slot that the scan engine owns stay (R141). -/
def State.ctlTaken (s : State) (n : Nat) (v : Word) : State :=
  if s.seOwned n then s
  else (s.setFld (LE_SLOT_CTL.EN n) ((LE_SLOT_CTL.EN n).of v)).setFld (LE_SLOT_CTL.MODE n) ((LE_SLOT_CTL.MODE n).of v)

theorem State.ctlTaken_updates (s : State) (n : Nat) (v : Word) : ∃ r, s.ctlTaken n v = { s with regs := r } := by
  unfold State.ctlTaken
  split
  · exact ⟨_, rfl⟩
  · exact ⟨_, rfl⟩

theorem State.reg_ctlTaken (s : State) (n : Nat) (v : Word) {a : Nat} (h : a ≠ LE_SLOT_CTL n) : (s.ctlTaken n v).reg a = s.reg a := by
  unfold State.ctlTaken
  split
  · rfl
  · rw [State.reg_setFld_ne _ _ _ _ h, State.reg_setFld_ne _ _ _ _ h]

theorem State.fld_ctlTaken_en (s : State) (n : Nat) (v : Word) : (s.ctlTaken n v).fld (LE_SLOT_CTL.EN n)
    = if s.seOwned n then s.fld (LE_SLOT_CTL.EN n) else (LE_SLOT_CTL.EN n).of v := by
  unfold State.ctlTaken
  split
  · rfl
  · rw [State.fld_setFld_disjoint _ _ _ _ (.inl (by simp)) (by simp), State.fld_setFld_self _ _ _ le_rfl (by simp)]
    exact Nat.mod_eq_of_lt (bits_lt _ _ _)

theorem State.fld_ctlTaken_mode (s : State) (n : Nat) (v : Word) : (s.ctlTaken n v).fld (LE_SLOT_CTL.MODE n)
    = if s.seOwned n then s.fld (LE_SLOT_CTL.MODE n) else (LE_SLOT_CTL.MODE n).of v := by
  unfold State.ctlTaken
  split
  · rfl
  · rw [State.fld_setFld_self _ _ _ (by simp) (by simp)]
    exact Nat.mod_eq_of_lt (bits_lt _ _ _)

theorem State.swap_ctlTaken (s : State) (n : Nat) (v : Word) :
    (s.ctlTaken n v).flag (LE_SLOT_CTL.SWAP n) = s.flag (LE_SLOT_CTL.SWAP n) := by
  unfold State.ctlTaken
  split
  · rfl
  · rw [State.flag_setFld_disjoint _ _ _ _ (.inr (by simp)) (by simp), State.flag_setFld_disjoint _ _ _ _ (.inr (by simp)) (by simp)]

theorem State.live_ctlTaken (s : State) (n : Nat) (v : Word) : (s.ctlTaken n v).live = s.live := by
  obtain ⟨r, h⟩ := s.ctlTaken_updates n v
  rw [h]

theorem slotCtl_ne_liveStat (n : Nat) : LE_SLOT_CTL n ≠ SYS_LIVE_STAT := by simp only [LE_SLOT_CTL, SYS_LIVE_STAT]; omega

theorem State.holding_ctlTaken (s : State) (n : Nat) (v : Word) : (s.ctlTaken n v).holding = s.holding := by
  rw [State.holding, State.flag, State.fld, s.reg_ctlTaken n v (slotCtl_ne_liveStat n).symm]
  rfl

theorem exec_swapRequest (swap : (LE_SLOT_CTL.SWAP n).of v = 1) (run : s.cpStopped = false) : exec (.swapRequest n v) s
    = ((s.ctlTaken n v).request (.swap n) fun s => s.setFlag (LE_SLOT_CTL.SWAP n) true).out :=
  (State.cpDoes_running _ run).trans (congrArg State.out ((if_pos swap).trans (if_pos swap)))

theorem slotCtl_latch (n : Fin 64) : LE_SLOT_CTL n < 0x40131000 ∨ 0x4013100C ≤ LE_SLOT_CTL n := by simp only [LE_SLOT_CTL]; omega

/-- Without a hold a swap is asked for at once (R141). -/
theorem Runs.swapRequest (s : State) (n : Fin 64) (v : Word) (swap : (LE_SLOT_CTL.SWAP n).of v = 1) (free : s.holding = false)
    (run : s.cpStopped = false) : Runs (.swapRequest n v) s fun t =>
      t.flag (LE_SLOT_CTL.SWAP n) = true
      ∧ t.fld (LE_SLOT_CTL.EN n) = (if s.seOwned n then s.fld (LE_SLOT_CTL.EN n) else (LE_SLOT_CTL.EN n).of v)
      ∧ t.fld (LE_SLOT_CTL.MODE n) = (if s.seOwned n then s.fld (LE_SLOT_CTL.MODE n) else (LE_SLOT_CTL.MODE n).of v)
      ∧ OnlyRegs s t [LE_SLOT_CTL n] := by
  have effect : exec (.swapRequest n v) s = ((s.ctlTaken n v).setFlag (LE_SLOT_CTL.SWAP n) true).out := by
    rw [exec_swapRequest swap run, State.request, if_pos (by rw [s.holding_ctlTaken, free]; rfl)]
  obtain ⟨r, taken⟩ := s.ctlTaken_updates n v
  refine Runs.of_out effect ⟨?swap, ?en, ?mode, OnlyRegs.intcLatch ⟨fun a ha _ => ?regs, ?mem, ?rest⟩⟩
  case swap => rw [State.flag_intcLatch _ _ (slotCtl_latch n), State.flag_setFlag_self _ _ _ rfl (by simp)]
  case en =>
    rw [State.fld_intcLatch _ _ (slotCtl_latch n), State.fld_setFlag_disjoint _ _ _ _ (.inl (by simp)) (by simp), s.fld_ctlTaken_en]
  case mode =>
    rw [State.fld_intcLatch _ _ (slotCtl_latch n), State.fld_setFlag_disjoint _ _ _ _ (.inl (by simp)) (by simp), s.fld_ctlTaken_mode]
  case regs =>
    have ne : a ≠ LE_SLOT_CTL n := by simpa using ha
    rw [State.reg_setFlag_ne _ _ _ _ ne, s.reg_ctlTaken n v ne]
  case mem => rw [taken]; exact ⟨rfl, fun _ => rfl⟩
  case rest => rw [taken]; rfl

/-- Two swap requests have the same target if they name the same slot. -/
theorem HeldReq.same_swap (q : HeldReq) (n : Nat) : q.same (.swap n) = true ↔ q = .swap n := by
  cases q <;> simp [HeldReq.same]

theorem HeldReq.any_same_swap (l : List HeldReq) (n : Nat) : l.any (·.same (.swap n)) = true ↔ .swap n ∈ l := by
  simp [HeldReq.same_swap]

theorem HeldReq.map_same_swap (l : List HeldReq) (n : Nat) : (l.map fun q => if q.same (.swap n) then .swap n else q) = l := by
  refine (List.map_congr_left fun q _ => ?_).trans (List.map_id l)
  split
  · next same => exact ((q.same_swap n).1 same).symm
  · rfl

/-- What a hold makes of a swap request (R512): kept once, or refused for want of room. -/
theorem State.request_swap_held {s : State} (n : Nat) (act : State → State) (hold : s.holding = true) : s.request (.swap n) act =
    if .swap n ∈ s.live.held then s.setHeld s.live.held
    else if s.live.held.length < 256 then s.setHeld (s.live.held ++ [.swap n])
    else s.setFld SYS_LIVE_STAT.CODE Code.refusedCapacity := by
  rw [State.request, hold, Bool.not_true, if_neg Bool.false_ne_true, HeldReq.map_same_swap]
  simp only [HeldReq.any_same_swap]

/-- Under a hold a swap request changes the list of the requests held and SYS_LIVE_STAT alone (R512). -/
theorem State.request_swap_updates {s : State} (n : Nat) (act : State → State) (hold : s.holding = true) : ∃ l x,
    s.request (.swap n) act = { s.setReg SYS_LIVE_STAT x with live := { s.live with held := l } }
    ∧ (.swap n ∈ s.live.held → l = s.live.held)
    ∧ (.swap n ∉ s.live.held → s.live.held.length < 256 → l = s.live.held ++ [.swap n])
    ∧ (.swap n ∈ s.live.held ∨ s.live.held.length < 256 → bits x.toNat 7 0 = min 0xFF l.length)
    ∧ (.swap n ∉ s.live.held → 256 ≤ s.live.held.length → l = s.live.held ∧ bits x.toNat 15 8 = Code.refusedCapacity) := by
  have count : ∀ l : List HeldReq, ∃ x, s.setHeld l = { s.setReg SYS_LIVE_STAT x with live := { s.live with held := l } }
      ∧ bits x.toNat 7 0 = min 0xFF l.length := fun l =>
    ⟨_, rfl, (SYS_LIVE_STAT.HELD.bits_put _ _ (by decide) (by decide)).trans (Nat.mod_eq_of_lt (by
      simp only
      omega))⟩
  rw [State.request_swap_held n act hold]
  by_cases kept : HeldReq.swap n ∈ s.live.held
  · obtain ⟨x, held, shown⟩ := count s.live.held
    rw [if_pos kept]
    exact ⟨_, x, held, fun _ => rfl, fun new => absurd kept new, fun _ => shown, fun new => absurd kept new⟩
  rw [if_neg kept]
  by_cases room : s.live.held.length < 256
  · obtain ⟨x, held, shown⟩ := count (s.live.held ++ [.swap n])
    rw [if_pos room]
    exact ⟨_, x, held, fun had => absurd had kept, fun _ _ => rfl, fun _ => shown, fun _ full => absurd room (Nat.not_lt.2 full)⟩
  · rw [if_neg room]
    refine ⟨s.live.held, _, rfl, fun had => absurd had kept, fun _ less => absurd less room, fun h => ?_, fun _ _ => ⟨rfl, ?_⟩⟩
    · exact absurd h (not_or.2 ⟨kept, room⟩)
    · exact SYS_LIVE_STAT.CODE.bits_put _ _ (by decide) (by decide)

end swaps

/-- A hold keeps each slot's request once and refuses one past its capacity (R512). -/
theorem Runs.swapRequest_held (s : State) (n : Fin 64) (v : Word) (swap : (LE_SLOT_CTL.SWAP n).of v = 1) (hold : s.holding = true)
    (run : s.cpStopped = false) : Runs (.swapRequest n v) s fun t =>
      t.flag (LE_SLOT_CTL.SWAP n) = s.flag (LE_SLOT_CTL.SWAP n)
      ∧ t.fld (LE_SLOT_CTL.EN n) = (if s.seOwned n then s.fld (LE_SLOT_CTL.EN n) else (LE_SLOT_CTL.EN n).of v)
      ∧ t.fld (LE_SLOT_CTL.MODE n) = (if s.seOwned n then s.fld (LE_SLOT_CTL.MODE n) else (LE_SLOT_CTL.MODE n).of v)
      ∧ (HeldReq.swap n ∈ s.live.held → t.live = s.live)
      ∧ (HeldReq.swap n ∉ s.live.held → s.live.held.length < 256 → t.live = { s.live with held := s.live.held ++ [.swap n] })
      ∧ (HeldReq.swap n ∈ s.live.held ∨ s.live.held.length < 256 → t.fld SYS_LIVE_STAT.HELD = min 0xFF t.live.held.length)
      ∧ (HeldReq.swap n ∉ s.live.held → 256 ≤ s.live.held.length →
          t.live = s.live ∧ t.fld SYS_LIVE_STAT.CODE = Code.refusedCapacity)
      ∧ KeepsRegs s t [SYS_LIVE_STAT, LE_SLOT_CTL n] ∧ KeepsMem s t ∧ KeepsRest s { t with live := s.live } := by
  obtain ⟨r, taken⟩ := s.ctlTaken_updates n v
  obtain ⟨l, x, request, had, new, count, full⟩ := (s.ctlTaken n v).request_swap_updates n
    (fun s => s.setFlag (LE_SLOT_CTL.SWAP n) true) (by rw [s.holding_ctlTaken, hold])
  rw [s.live_ctlTaken] at request had new count full
  have effect := exec_swapRequest swap run
  rw [request] at effect
  have ctl : ∀ {a : Nat}, a ≠ SYS_LIVE_STAT → ((s.ctlTaken n v).setReg SYS_LIVE_STAT x).reg a = (s.ctlTaken n v).reg a :=
    fun ne => State.reg_setReg_ne _ _ _ _ ne
  have stat : ((s.ctlTaken n v).setReg SYS_LIVE_STAT x).reg SYS_LIVE_STAT = x := State.reg_setReg_self _ _ _
  have slot (f : Field) (h : f.addr = LE_SLOT_CTL n) : ((s.ctlTaken n v).setReg SYS_LIVE_STAT x).fld f = (s.ctlTaken n v).fld f :=
    State.fld_setReg_ne _ _ _ _ (by rw [h]; exact slotCtl_ne_liveStat n)
  refine Runs.of_out effect ⟨?swap, ?en, ?mode, fun h => ?kept, fun h room => ?joined, fun h => ?count, fun h more => ⟨?same, ?code⟩,
    KeepsRegs.intcLatch fun a ha _ => ?regs, KeepsMem.intcLatch ?mem, ?rest⟩
  case swap =>
    rw [State.flag_intcLatch _ _ (slotCtl_latch n), State.flag]
    exact (congrArg (· == 1) (slot (LE_SLOT_CTL.SWAP n) rfl)).trans (s.swap_ctlTaken n v)
  case en =>
    rw [State.fld_intcLatch _ _ (slotCtl_latch n)]
    exact (slot (LE_SLOT_CTL.EN n) rfl).trans (s.fld_ctlTaken_en n v)
  case mode =>
    rw [State.fld_intcLatch _ _ (slotCtl_latch n)]
    exact (slot (LE_SLOT_CTL.MODE n) rfl).trans (s.fld_ctlTaken_mode n v)
  case kept => rw [State.intcLatch_live, had h]
  case joined => rw [State.intcLatch_live, new h room]
  case count =>
    rw [State.fld_intcLatch _ _ (by decide), State.intcLatch_live]
    exact (congrArg (fun w : Word => bits w.toNat 7 0) stat).trans (count h)
  case same => rw [State.intcLatch_live, (full h more).1]
  case code =>
    rw [State.fld_intcLatch _ _ (by decide)]
    exact (congrArg (fun w : Word => bits w.toNat 15 8) stat).trans (full h more).2
  case regs =>
    obtain ⟨live, other⟩ : a ≠ SYS_LIVE_STAT ∧ a ≠ LE_SLOT_CTL n := by simpa using ha
    exact (ctl live).trans (s.reg_ctlTaken n v other)
  case mem => rw [taken]; exact ⟨rfl, fun _ => rfl⟩
  case rest =>
    obtain ⟨r', d, latch⟩ :=
      State.intcLatch_updates { (s.ctlTaken n v).setReg SYS_LIVE_STAT x with live := { s.live with held := l } }
    rw [latch, taken]
    rfl

/-! The shadow bank. -/

section banks
variable (s : State) (n : Fin 64) (k : Fin 128) (v : Word)

theorem exec_leParamWrite {s : State} (run : s.cpStopped = false) : exec (.leParamWrite n k v) s = (s.leParamWrite n k v).out :=
  State.cpDoes_running (fun s => s.leParamWrite n k v) run

/-- Without a swap pending a word of the shadow bank is written (R141). -/
theorem Runs.leParamWrite (free : s.flag (LE_SLOT_CTL.SWAP n) = false) (run : s.cpStopped = false) :
    Runs (.leParamWrite n k v) s fun t => t.reg (LE_PARAM n k) = (if k = 0 then v &&& 0x1FFF else v)
      ∧ OnlyRegs s t [LE_PARAM n k] := by
  have write : s.leParamWrite n k v = s.setReg (LE_PARAM n k) (if k.val = 0 then v &&& 0x1FFF else v) :=
    if_neg (by rw [free]; exact Bool.false_ne_true)
  refine Runs.of_out (exec_leParamWrite n k v run) ?_
  rw [write]
  refine ⟨?_, (OnlyRegs.setReg _ _ _).intcLatch⟩
  rw [State.reg_intcLatch _ _ (.inl (by simp only [LE_PARAM]; omega)), State.reg_setReg_self]
  exact if_congr Fin.val_eq_zero_iff rfl rfl

/-- While a swap pends it is not (R141). -/
theorem Runs.leParamWrite_pending (pends : s.flag (LE_SLOT_CTL.SWAP n) = true) (run : s.cpStopped = false) :
    Runs (.leParamWrite n k v) s (OnlyRegs s · []) := by
  have write : s.leParamWrite n k v = s := if_pos pends
  refine Runs.of_out (exec_leParamWrite n k v run) ?_
  rw [write]
  exact (OnlyRegs.refl s []).intcLatch

end banks

/-! The state words. -/

section states
variable (s : State) (n : Fin 64) (v : Word)

theorem exec_leStateWrite {s : State} (k : Fin 17) (run : s.cpStopped = false) :
    exec (.leStateWrite n k v) s = (s.leStateWrite n k v).out := State.cpDoes_running (fun s => s.leStateWrite n k v) run

/-- Slot `n` with mantissa `k` (from 1 on) of its state replaced. -/
def State.mantissaWritten (n k : Nat) : LeSlot :=
  { s.slot n with st := putAt (s.slot n).st (k - 1) { nth (s.slot n).st (k - 1) {} with m := signed 24 v.toNat } }

/-- Slot `n` with the exponent of its state replaced. -/
def State.exponentWritten (n : Nat) : LeSlot :=
  { s.slot n with st := (s.slot n).st.map fun b => { b with e := signed 8 v.toNat } }

theorem State.leStateWrite_mantissa {s : State} {k : Nat} (off : s.flag (LE_SLOT_CTL.EN n) = false) (free : s.seOwned n = false)
    (hk : k ≠ 0) : s.leStateWrite n k v
      = (s.setReg (LE_STATE n k) (BitVec.ofInt 32 (signed 24 v.toNat))).setSlot n (s.mantissaWritten v n k) :=
  (if_neg (by rw [off, free]; exact Bool.false_ne_true)).trans (if_neg hk)

theorem State.leStateWrite_exponent {s : State} (off : s.flag (LE_SLOT_CTL.EN n) = false) (free : s.seOwned n = false) :
    s.leStateWrite n 0 v = (s.setSlot n (s.exponentWritten v n)).setFld (LE_STATE.EXP n) (v.toNat % 256) :=
  (if_neg (by rw [off, free]; exact Bool.false_ne_true)).trans (if_pos rfl)

theorem leState_latch (k : Fin 17) : LE_STATE n k < 0x40131000 ∨ 0x4013100C ≤ LE_STATE n k := by simp only [LE_STATE]; omega

/-- A mantissa written while the slot is disabled and its own (R148). -/
theorem Runs.leStateWrite_mantissa (k : Fin 17) (off : s.flag (LE_SLOT_CTL.EN n) = false) (free : s.seOwned n = false) (hk : k ≠ 0)
    (run : s.cpStopped = false) : Runs (.leStateWrite n k v) s fun t =>
      t.reg (LE_STATE n k) = BitVec.ofInt 32 (signed 24 v.toNat)
      ∧ (k.val ≤ (s.slot n).st.length → n < s.le.slots.length → (nth (t.slot n).st (k - 1) {}).m = signed 24 v.toNat)
      ∧ KeepsRegs s t [LE_STATE n k] ∧ KeepsMem s t ∧ KeepsRest s { t with le := s.le } := by
  have pos : 0 < k.val := Nat.pos_of_ne_zero (Fin.val_ne_zero_iff.2 hk)
  refine Runs.of_out (exec_leStateWrite n v k run) ?_
  rw [State.leStateWrite_mantissa n v off free pos.ne']
  refine ⟨?word, fun there present => ?state, KeepsRegs.intcLatch fun a ha _ => ?regs, KeepsMem.intcLatch ⟨rfl, fun _ => rfl⟩, ?rest⟩
  case word => rw [State.reg_intcLatch _ _ (leState_latch n k), State.setSlot_reg, State.reg_setReg_self]
  case state =>
    rw [State.intcLatch_slot, State.slot_setSlot_self (s.setReg _ _) _ present, State.mantissaWritten, nth, putAt,
      List.getD_eq_getElem?_getD, List.getElem?_set_self (by omega)]
    rfl
  case regs => rw [State.setSlot_reg, State.reg_setReg_ne _ _ _ _ (by simpa using ha)]
  case rest =>
    obtain ⟨r, d, latch⟩ := ((s.setReg (LE_STATE n k) (BitVec.ofInt 32 (signed 24 v.toNat))).setSlot n
      (s.mantissaWritten v n k)).intcLatch_updates
    rw [latch]
    rfl

/-- The exponent written while the slot is disabled and its own (R148). -/
theorem Runs.leStateWrite_exponent (off : s.flag (LE_SLOT_CTL.EN n) = false) (free : s.seOwned n = false) (run : s.cpStopped = false) :
    Runs (.leStateWrite n 0 v) s fun t =>
      t.fld (LE_STATE.EXP n) = v.toNat % 256 ∧ (∀ b ∈ (t.slot n).st, b.e = signed 8 v.toNat)
      ∧ KeepsRegs s t [LE_STATE n 0] ∧ KeepsMem s t ∧ KeepsRest s { t with le := s.le } := by
  refine Runs.of_out (exec_leStateWrite n v 0 run) ?_
  rw [Fin.val_zero, State.leStateWrite_exponent n v off free]
  refine ⟨?exp, ?state, KeepsRegs.intcLatch fun a ha _ => ?regs, KeepsMem.intcLatch ⟨rfl, fun _ => rfl⟩, ?rest⟩
  case exp =>
    rw [State.fld_intcLatch _ _ (leState_latch n 0), State.fld_setFld_self _ _ _ (by simp) (by simp)]
    exact Nat.mod_mod _ _
  case state =>
    rw [State.intcLatch_slot]
    change ∀ b ∈ ((s.setSlot n (s.exponentWritten v n)).slot n).st, b.e = signed 8 v.toNat
    by_cases present : n < s.le.slots.length
    · rw [s.slot_setSlot_self _ present]
      intro b hb
      obtain ⟨b', -, rfl⟩ := List.mem_map.1 hb
      rfl
    · rw [s.slot_setSlot_absent _ (Nat.le_of_not_lt present)]
      exact fun _ h => absurd h List.not_mem_nil
  case regs => exact State.reg_setFld_ne _ (LE_STATE.EXP n) _ a (by simpa using ha)
  case rest =>
    obtain ⟨r, d, latch⟩ := ((s.setSlot n (s.exponentWritten v n)).setFld (LE_STATE.EXP n) (v.toNat % 256)).intcLatch_updates
    rw [latch]
    rfl

/-- No word of the state is written while the slot is enabled or owned by the scan engine (R148). -/
theorem Runs.leStateWrite_ignored (k : Fin 17) (h : s.flag (LE_SLOT_CTL.EN n) = true ∨ s.seOwned n = true)
    (run : s.cpStopped = false) : Runs (.leStateWrite n k v) s (OnlyRegs s · []) := by
  have write : s.leStateWrite n k v = s := if_pos (Bool.or_eq_true_iff.2 h)
  refine Runs.of_out (exec_leStateWrite n v k run) ?_
  rw [write]
  exact (OnlyRegs.refl s []).intcLatch

end states

/-- Settles O22: each command's clause is a lemma of its own; those of CELL_RESCHEDULE turn on admission's soundness (`admitSlots_sound`):
a slot asked for is placed or refused and not both, and its place is in a cell that stays in service. -/
theorem slotWrites : Obligations.SlotWrites := by
  unfold Obligations.SlotWrites
  exact ⟨Runs.swapRequest, Runs.swapRequest_held, Runs.leParamWrite, Runs.leParamWrite_pending,
    fun s n k v => Runs.leStateWrite_mantissa s n v k, Runs.leStateWrite_exponent, fun s n k v => Runs.leStateWrite_ignored s n v k,
    Runs.cellReschedule_failed, Runs.cellReschedule_tested, Runs.cellReschedule_idle⟩

end Sys2Proof.Machine
end

section
/-! SUPPORT. The commands of tuning: injection, capture and trace (R182 to R185). -/

namespace Sys2Proof.Machine

/-! What these commands leave alone: all but registers and the tuning unit's state. -/

section frame
variable {s u : State} {l : List Nat}

/-- A field that holds the value set reads as set. -/
theorem State.fld_setFld_fits (s : State) (f : Field) (v : Nat) (order : f.lo ≤ f.hi) (word : f.hi < 32)
    (fits : v < 2 ^ (f.hi + 1 - f.lo)) : (s.setFld f v).fld f = v := by
  rw [State.fld_setFld_self _ _ _ order word, Nat.mod_eq_of_lt fits]

/-- A register set after others is one more of those that change. -/
theorem OnlyRegs.thenReg (h : OnlyRegs s u l) (a : Nat) (v : Word) (ha : a ∈ l) : OnlyRegs s (u.setReg a v) l := by
  obtain ⟨regs, mem, rest⟩ := h
  exact ⟨regs.setReg v ha, mem, rest⟩

theorem OnlyRegs.thenFld (h : OnlyRegs s u l) (f : Field) (v : Nat) (hf : f.addr ∈ l) : OnlyRegs s (u.setFld f v) l :=
  h.thenReg _ _ hf

theorem OnlyRegs.thenFlag (h : OnlyRegs s u l) (f : Field) (b : Bool) (hf : f.addr ∈ l) : OnlyRegs s (u.setFlag f b) l :=
  h.thenReg _ _ hf

/-- Where registers alone have changed and the tuning unit's state with them, everything else is kept. -/
theorem OnlyRegs.setTune (h : OnlyRegs s u l) (x : TuneSt) :
    let t := { u with tune := x }.intcLatch
    KeepsRegs s t l ∧ KeepsMem s t ∧ KeepsRest s { t with tune := s.tune } := by
  obtain ⟨regs, mem, rest⟩ := h
  obtain ⟨r, d, latch⟩ := { u with tune := x }.intcLatch_updates
  refine ⟨KeepsRegs.intcLatch fun a ha hp => (regs a ha hp :), KeepsMem.intcLatch (mem :), ?_⟩
  rw [latch]
  exact (congrArg (fun y : State => { y with tune := s.tune }) rest :)

/-- The tuning unit's state and the gateways touch no register of the unit. -/
theorem State.reg_tuned (u : State) (x : TuneSt) {a : Nat} (low : a < 0x40131000) : { u with tune := x }.intcLatch.reg a = u.reg a :=
  State.reg_intcLatch _ _ (.inl low)

theorem State.fld_tuned (u : State) (x : TuneSt) (f : Field) (low : f.addr < 0x40131000) :
    { u with tune := x }.intcLatch.fld f = u.fld f := by rw [State.fld, u.reg_tuned x low, State.fld]

theorem State.flag_tuned (u : State) (x : TuneSt) (f : Field) (low : f.addr < 0x40131000) :
    { u with tune := x }.intcLatch.flag f = u.flag f := by rw [State.flag, u.fld_tuned x f low, State.flag]

end frame

/-! GO (R182, R184). -/

section start
variable {s : State} {v : Word}

/-- The code of R182 fits its field. -/
theorem State.injCheck_lt (s : State) : s.injCheck < 256 := by
  unfold State.injCheck
  extract_lets
  split_ifs <;> decide

/-- A capture that starts with the injection, if one is enabled (R184). -/
def State.captureStarted (s : State) : State :=
  if s.flag TUNE_CAP_CFG.EN then (s.setFlag TUNE_STAT.CAP_RUN true).setReg TUNE_CAP_COUNT 0 else s

/-- Of the fields the start of a capture sets CAP_RUN and COUNT alone. -/
theorem State.fld_captureStarted (s : State) (f : Field) (count : f.addr ≠ TUNE_CAP_COUNT) (apart : f.hi < 3 ∨ 3 < f.lo)
    (word : f.hi < 32) : s.captureStarted.fld f = s.fld f := by
  unfold State.captureStarted
  split
  · rw [State.fld_setReg_ne _ _ _ _ count, State.fld_setFlag_disjoint _ _ _ _ apart word]
  · rfl

theorem State.captureStarted_enabled (en : s.flag TUNE_CAP_CFG.EN = true) :
    s.captureStarted.flag TUNE_STAT.CAP_RUN = true ∧ s.captureStarted.reg TUNE_CAP_COUNT = 0 := by
  rw [State.captureStarted, if_pos en, State.flag_setReg_ne _ _ _ _ (by decide), State.flag_setFlag_self _ _ _ rfl (by decide)]
  exact ⟨rfl, State.reg_setReg_self _ _ _⟩

theorem State.tune_captureStarted (s : State) : s.captureStarted.tune = s.tune := by
  unfold State.captureStarted
  split <;> rfl

theorem OnlyRegs.captureStarted {u : State} {l : List Nat} (h : OnlyRegs s u l) (stat : TUNE_STAT ∈ l) (count : TUNE_CAP_COUNT ∈ l) :
    OnlyRegs s u.captureStarted l := by
  unfold State.captureStarted
  split
  exacts [(h.thenFlag _ _ stat).thenReg _ _ count, h]

/-- The registers of the injection as GO leaves them once the checks have passed (R182). -/
def State.injShown (s : State) : State :=
  ((s.setFld TUNE_INJ_STAT.CODE Code.ok).setFld TUNE_INJ_STAT.ABORT 0).setFlag TUNE_STAT.INJ_RUN (s.fld TUNE_INJ_CFG.SIG != 0)

theorem State.injShown_reads (s : State) : s.injShown.fld TUNE_INJ_STAT.CODE = Code.ok ∧ s.injShown.fld TUNE_INJ_STAT.ABORT = 0
    ∧ s.injShown.flag TUNE_STAT.INJ_RUN = (s.fld TUNE_INJ_CFG.SIG != 0)
    ∧ s.injShown.flag TUNE_CAP_CFG.EN = s.flag TUNE_CAP_CFG.EN := by
  simp (disch := decide) only [State.injShown, State.fld_setFlag_ne, State.fld_setFld_disjoint, State.fld_setFld_fits,
    State.flag_setFlag_self, State.flag_setFlag_ne, State.flag_setFld_ne, and_self]

theorem OnlyRegs.injShown (s : State) {l : List Nat} (stat : TUNE_STAT ∈ l) (inj : TUNE_INJ_STAT ∈ l) : OnlyRegs s s.injShown l :=
  (((OnlyRegs.refl s l).thenFld _ _ inj).thenFld _ _ inj).thenFlag _ _ stat

theorem State.injStart_refused (refused : s.injCheck ≠ Code.ok) : s.injStart = s.setFld TUNE_INJ_STAT.CODE s.injCheck := if_pos refused

theorem State.injStart_accepted (passed : s.injCheck = Code.ok) : s.injStart = { s.injShown.captureStarted with
    tune := { s.tune with j := 0, phi := 0, turn := 0, prbs := 0, w := {}, capInst := 0 } } := by
  have sig : ((s.setFld TUNE_INJ_STAT.CODE Code.ok).setFld TUNE_INJ_STAT.ABORT 0).fld TUNE_INJ_CFG.SIG = s.fld TUNE_INJ_CFG.SIG := by
    rw [State.fld_setFld_ne _ _ _ _ (by decide), State.fld_setFld_ne _ _ _ _ (by decide)]
  have tune : s.injShown.captureStarted.tune = s.tune := s.injShown.tune_captureStarted
  rw [← tune, State.injShown, ← sig]
  exact if_neg (not_not.2 passed)

/-- Without STOP in the same write, GO comes to the start of an injection (R182). -/
theorem exec_injectionGo (go : TUNE_INJ_CTL.GO.of v = 1) (stop : TUNE_INJ_CTL.STOP.of v = 0) (run : s.cpStopped = false) :
    exec (.injectionGo v) s = s.injStart.out := by
  have write : s.tuneInjCtl v = s.injStart := by simp [State.tuneInjCtl, go, stop]
  exact (State.cpDoes_running _ run).trans (congrArg State.out ((if_pos go).trans write))

/-- A refused GO shows its code and has no other effect (R182). -/
theorem Runs.injectionGo_refused (s : State) (v : Word) (go : TUNE_INJ_CTL.GO.of v = 1) (stop : TUNE_INJ_CTL.STOP.of v = 0)
    (refused : s.injCheck ≠ Code.ok) (run : s.cpStopped = false) :
    Runs (.injectionGo v) s fun t => t.fld TUNE_INJ_STAT.CODE = s.injCheck ∧ OnlyRegs s t [TUNE_INJ_STAT] := by
  refine Runs.of_out (exec_injectionGo go stop run) ?_
  rw [State.injStart_refused refused]
  refine ⟨?_, (OnlyRegs.setFld s _ _).intcLatch⟩
  rw [State.fld_intcLatch _ _ (by decide), State.fld_setFld_fits _ _ _ (by decide) (by decide) s.injCheck_lt]

/-- A GO that passes the checks starts the injection, and the capture if it is enabled (R182, R184). -/
theorem Runs.injectionGo_accepted (s : State) (v : Word) (go : TUNE_INJ_CTL.GO.of v = 1) (stop : TUNE_INJ_CTL.STOP.of v = 0)
    (passed : s.injCheck = Code.ok) (run : s.cpStopped = false) : Runs (.injectionGo v) s fun t =>
      t.fld TUNE_INJ_STAT.CODE = Code.ok ∧ t.fld TUNE_INJ_STAT.ABORT = 0
      ∧ t.flag TUNE_STAT.INJ_RUN = (s.fld TUNE_INJ_CFG.SIG != 0)
      ∧ (s.flag TUNE_CAP_CFG.EN = true → t.flag TUNE_STAT.CAP_RUN = true ∧ t.reg TUNE_CAP_COUNT = 0)
      ∧ t.tune.j = 0 ∧ KeepsRegs s t [TUNE_INJ_STAT, TUNE_STAT, TUNE_CAP_COUNT] ∧ KeepsMem s t
      ∧ KeepsRest s { t with tune := s.tune } := by
  obtain ⟨code, abort, running, en⟩ := s.injShown_reads
  have changed : OnlyRegs s s.injShown.captureStarted [TUNE_INJ_STAT, TUNE_STAT, TUNE_CAP_COUNT] :=
    (OnlyRegs.injShown s (by decide) (by decide)).captureStarted (by decide) (by decide)
  refine Runs.of_out (exec_injectionGo go stop run) ?_
  rw [State.injStart_accepted passed, State.fld_tuned _ _ _ (by decide), State.fld_tuned _ _ _ (by decide),
    State.flag_tuned _ _ _ (by decide), State.flag_tuned _ _ _ (by decide), State.reg_tuned _ _ (by decide), State.flag,
    State.fld_captureStarted _ _ (by decide) (by decide) (by decide), State.fld_captureStarted _ _ (by decide) (by decide) (by decide),
    State.fld_captureStarted _ _ (by decide) (by decide) (by decide), State.intcLatch_tune]
  exact ⟨code, abort, running, fun enabled => State.captureStarted_enabled (en.trans enabled), rfl, changed.setTune _⟩

end start

/-! STOP (R183). -/

section stop
variable {s : State} {v : Word}

/-- Without an injection an abort by a cause other than a loop event ends a capture that runs (R183, R184). -/
theorem State.injAbort_idle {cause : Nat} (idle : s.flag TUNE_STAT.INJ_RUN = false) (other : cause ≠ 1) :
    s.injAbort cause = s.setFlag TUNE_STAT.CAP_RUN false := by
  simp [State.injAbort, idle, other]

/-- The registers of the injection after the abort of one that ran (R183). -/
def State.injAborted (s : State) (cause : Nat) : State :=
  ((((s.setFlag TUNE_STAT.CAP_RUN false).setFlag TUNE_STAT.INJ_RUN false).setFld TUNE_INJ_STAT.CODE Code.incomplete).setFld
    TUNE_INJ_STAT.ABORT cause).setFlag TUNE_EVT.INJ_END true

theorem State.injAborted_reads (s : State) (cause : Nat) (fits : cause < 8) : (s.injAborted cause).flag TUNE_STAT.INJ_RUN = false
    ∧ (s.injAborted cause).flag TUNE_STAT.CAP_RUN = false ∧ (s.injAborted cause).fld TUNE_INJ_STAT.CODE = Code.incomplete
    ∧ (s.injAborted cause).fld TUNE_INJ_STAT.ABORT = cause ∧ (s.injAborted cause).flag TUNE_EVT.INJ_END = true := by
  have shown (u : State) : (u.setFld TUNE_INJ_STAT.ABORT cause).fld TUNE_INJ_STAT.ABORT = cause :=
    u.fld_setFld_fits _ _ (by decide) (by decide) fits
  simp (disch := decide) only [State.injAborted, State.flag_setFlag_ne, State.flag_setFld_ne, State.flag_setFlag_self,
    State.flag_setFlag_disjoint, State.fld_setFlag_ne, State.fld_setFld_disjoint, State.fld_setFld_fits, shown, and_self]

theorem State.injAbort_running (cause : Nat) (runs : s.flag TUNE_STAT.INJ_RUN = true) :
    s.injAbort cause = { s.injAborted cause with tune := { s.tune with w := {} } } := by
  simp [State.injAbort, State.injAborted, runs]

/-- Without GO in the same write, STOP comes to an abort with its cause (R183). -/
theorem exec_injectionStop (stop : TUNE_INJ_CTL.STOP.of v = 1) (go : TUNE_INJ_CTL.GO.of v = 0) (auth : s.flag TUNE_STAT.AUTH = true)
    (run : s.cpStopped = false) : exec (.injectionStop v) s = (s.injAbort 4).out := by
  have write : s.tuneInjCtl v = s.injAbort 4 := by simp [State.tuneInjCtl, stop, go, auth]
  exact (State.cpDoes_running _ run).trans (congrArg State.out ((if_pos stop).trans write))

/-- STOP ends an injection that runs, and the capture (R183). -/
theorem Runs.injectionStop (s : State) (v : Word) (stop : TUNE_INJ_CTL.STOP.of v = 1) (go : TUNE_INJ_CTL.GO.of v = 0)
    (auth : s.flag TUNE_STAT.AUTH = true) (run : s.cpStopped = false) : Runs (.injectionStop v) s fun t =>
      t.flag TUNE_STAT.INJ_RUN = false ∧ t.flag TUNE_STAT.CAP_RUN = false
      ∧ (s.flag TUNE_STAT.INJ_RUN = true → t.fld TUNE_INJ_STAT.CODE = Code.incomplete ∧ t.fld TUNE_INJ_STAT.ABORT = 4
          ∧ t.flag TUNE_EVT.INJ_END = true)
      ∧ KeepsRegs s t [TUNE_STAT, TUNE_INJ_STAT, TUNE_EVT] ∧ KeepsMem s t ∧ KeepsRest s { t with tune := s.tune } := by
  have capture : OnlyRegs s (s.setFlag TUNE_STAT.CAP_RUN false) [TUNE_STAT, TUNE_INJ_STAT, TUNE_EVT] :=
    (OnlyRegs.refl s _).thenFlag _ _ (by decide)
  refine Runs.of_out (exec_injectionStop stop go auth run) ?_
  cases inj : s.flag TUNE_STAT.INJ_RUN with
  | false =>
    rw [State.injAbort_idle inj (by decide), State.flag_intcLatch _ _ (by decide), State.flag_intcLatch _ _ (by decide),
      State.flag_setFlag_disjoint _ _ _ _ (by decide) (by decide), State.flag_setFlag_self _ _ _ rfl (by decide)]
    exact ⟨inj, rfl, fun runs => absurd runs Bool.false_ne_true, capture.setTune s.tune⟩
  | true =>
    obtain ⟨ended, stopped, code, cause, event⟩ := s.injAborted_reads 4 (by decide)
    have changed : OnlyRegs s (s.injAborted 4) [TUNE_STAT, TUNE_INJ_STAT, TUNE_EVT] :=
      (((capture.thenFlag _ _ (by decide)).thenFld _ _ (by decide)).thenFld _ _ (by decide)).thenFlag _ _ (by decide)
    rw [State.injAbort_running 4 inj, State.flag_tuned _ _ _ (by decide), State.flag_tuned _ _ _ (by decide),
      State.fld_tuned _ _ _ (by decide), State.fld_tuned _ _ _ (by decide), State.flag_tuned _ _ _ (by decide)]
    exact ⟨ended, stopped, fun _ => ⟨code, cause, event⟩, changed.setTune _⟩

end stop

/-! The trace (R185). -/

section trace
variable {s : State} {v : Word}

/-- The registers of the trace once it is armed (R185). -/
def State.traceShown (s : State) : State :=
  ((((s.setFlag TUNE_TRC_CTL.ARMED true).setFlag TUNE_STAT.TRC_ARMED true).setFlag TUNE_TRC_STAT.FROZEN false).setFlag
    TUNE_TRC_STAT.DONE false).setFld TUNE_TRC_STAT.TPOS 0

theorem State.traceShown_reads (s : State) : s.traceShown.flag TUNE_TRC_CTL.ARMED = true
    ∧ s.traceShown.flag TUNE_STAT.TRC_ARMED = true ∧ s.traceShown.flag TUNE_TRC_STAT.DONE = false := by
  simp (disch := decide) only [State.traceShown, State.flag_setFld_ne, State.flag_setFld_disjoint, State.flag_setFlag_ne,
    State.flag_setFlag_self, and_self]

theorem State.traceStart_accepted (off : s.flag TUNE_TRC_CTL.ARMED = false) (ok : s.armOk = true) : s.traceStart =
    { s.traceShown with tune := { s.tune with trcInst := 0, trcCount := 0, trcPost := none, trcPrev := none, events := 0 } } := by
  simp [State.traceStart, State.traceShown, off, ok]

/-- Without STOP in the same write, ARMED comes to the start of the trace (R185). -/
theorem exec_traceArm (arm : TUNE_TRC_CTL.ARMED.of v = 1) (stop : TUNE_TRC_CTL.STOP.of v = 0) (run : s.cpStopped = false) :
    exec (.traceArm v) s = s.traceStart.out := by
  have write : s.tuneTrcCtl v = s.traceStart := by simp [State.tuneTrcCtl, arm, stop]
  exact (State.cpDoes_running _ run).trans (congrArg State.out ((if_pos arm).trans write))

/-- The trace armed, with no frame written and its trigger not met (R185). -/
theorem Runs.traceArm (s : State) (v : Word) (arm : TUNE_TRC_CTL.ARMED.of v = 1) (stop : TUNE_TRC_CTL.STOP.of v = 0)
    (off : s.flag TUNE_TRC_CTL.ARMED = false) (ok : s.armOk = true) (run : s.cpStopped = false) : Runs (.traceArm v) s fun t =>
      t.flag TUNE_TRC_CTL.ARMED = true ∧ t.flag TUNE_STAT.TRC_ARMED = true ∧ t.flag TUNE_TRC_STAT.DONE = false
      ∧ t.tune.trcCount = 0 ∧ t.tune.trcPost = none
      ∧ KeepsRegs s t [TUNE_TRC_CTL, TUNE_STAT, TUNE_TRC_STAT] ∧ KeepsMem s t ∧ KeepsRest s { t with tune := s.tune } := by
  obtain ⟨armed, shown, done⟩ := s.traceShown_reads
  have changed : OnlyRegs s s.traceShown [TUNE_TRC_CTL, TUNE_STAT, TUNE_TRC_STAT] :=
    ((((OnlyRegs.refl s _).thenFlag _ _ (by decide)).thenFlag _ _ (by decide)).thenFlag _ _ (by decide)).thenFlag _ _ (by decide)
      |>.thenFld _ _ (by decide)
  refine Runs.of_out (exec_traceArm arm stop run) ?_
  rw [State.traceStart_accepted off ok, State.flag_tuned _ _ _ (by decide), State.flag_tuned _ _ _ (by decide),
    State.flag_tuned _ _ _ (by decide), State.intcLatch_tune]
  exact ⟨armed, shown, done, rfl, rfl, changed.setTune _⟩

/-- STOP disarms the trace at once (R185). -/
theorem Runs.traceStop (s : State) (v : Word) (stop : TUNE_TRC_CTL.STOP.of v = 1) (run : s.cpStopped = false) :
    Runs (.traceStop v) s fun t =>
      t.flag TUNE_TRC_CTL.ARMED = false ∧ t.flag TUNE_STAT.TRC_ARMED = false ∧ OnlyRegs s t [TUNE_TRC_CTL, TUNE_STAT] := by
  have effect : exec (.traceStop v) s = s.traceEnd.out :=
    (State.cpDoes_running _ run).trans (congrArg State.out ((if_pos stop).trans (if_pos stop)))
  have changed : OnlyRegs s s.traceEnd [TUNE_TRC_CTL, TUNE_STAT] :=
    ((OnlyRegs.refl s _).thenFlag _ _ (by decide)).thenFlag _ _ (by decide)
  refine Runs.of_out effect ⟨?armed, ?shown, changed.intcLatch⟩
  case armed =>
    rw [State.flag_intcLatch _ _ (by decide), State.traceEnd, State.flag_setFlag_ne _ _ _ _ (by decide),
      State.flag_setFlag_self _ _ _ rfl (by decide)]
  case shown => rw [State.flag_intcLatch _ _ (by decide), State.traceEnd, State.flag_setFlag_self _ _ _ rfl (by decide)]

end trace

/-- Settles O24: each command's write comes to one operation of the tuning unit, and the lemma named after the command reads off what
that leaves. -/
theorem tuneCommands : Obligations.TuneCommands := by
  unfold Obligations.TuneCommands
  exact ⟨Runs.injectionGo_refused, Runs.injectionGo_accepted, Runs.injectionStop, Runs.traceArm, Runs.traceStop⟩

end Sys2Proof.Machine
end
